-- ==== Sys2Proof/Word.lean ====
section
/-! DEFINITION. The byte and the machine word, as the manual's sizes name them (00 Table 0.3). -/

namespace Sys2Proof

/-- Eight bits. -/
abbrev Byte := BitVec 8

/-- A 64-bit word: the ECC word of memory and the widest register. -/
abbrev Word := BitVec 64

end Sys2Proof
end

