-- ==== Sys2Proof/Syntax.lean ====
section
/-! DEFINITION. The commands of the block: one constructor per row of spec/opcode_table.json, in the table's order.
A command carries what the outside world alone decides (who asks, the bytes sent, the values measured, which unit). -/

namespace Sys2Proof

/-- Supply rails (03 Table 3.2), in table order. -/
inductive Rail where
  | vcore | vctl | vio18 | vio33 | vfield | vddq | vdd2h | vphyHs | vphyMipi
  deriving DecidableEq, Repr

/-- Who accesses a register: a PCIe function (0 is PF0, 1-15 are the VFs), or the QSPI port with the PF0 view. -/
inductive Requester where
  | pcie (fn : Fin 16)
  | qspi
  deriving DecidableEq, Repr

/-- A Signpost request but for its OPCODE, which the command itself gives (06 Table 6.5): the header fields and up to
248 payload bytes; missing payload bytes are 0. -/
structure SpReq where
  tag : Byte
  reserved : Byte
  len : BitVec 16
  ctx : BitVec 16
  payload : List Byte
  deriving DecidableEq, Repr

/-- Configuration-space registers of 04 Table 4.3 and section 4.1. -/
inductive CfgReg where
  | vendorId | deviceId | classCode | revisionId | subsystemVendorId | subsystemId | interruptPin
  | totalVfs | initialVfs | firstVfOffset | vfStride | numVfs | vfEnable | vfDeviceId
  | bar0 | bar2 | bar4 | vfBar0 | vfBar2 | vfBar4 | msixControl
  | extendedTags | aspmControl | powerState | ecrcControl | aerUncStatus | aerUncMask | aerUncSeverity
  | aerCorStatus | aerCorMask
  deriving DecidableEq, Repr

/-- A configuration request: a read, or a write of a value. -/
inductive CfgReq where
  | read (reg : CfgReg)
  | write (reg : CfgReg) (value : BitVec 64)
  deriving DecidableEq, Repr

/-- Bytes that host software has stored in its own memory, seen by the next read over PCIe; `bad` when a read of them
returns a poisoned or unsuccessful completion. -/
structure HostStore where
  addr : BitVec 64
  data : List Byte
  bad : Bool
  deriving DecidableEq, Repr

/-- What takes the PCIe link down (04 section 4.1.4). -/
inductive LinkDownCause where
  | dlDown | hotReset | pfFlr | d3hot
  deriving DecidableEq, Repr

/-- A received Ethernet frame as far as 04 Table 4.12 and R85 look at it. -/
structure EthFrame where
  dstMac : BitVec 48
  etherType : BitVec 16
  udp4 : Bool
  dstIp : BitVec 32
  dstPort : BitVec 16
  deriving DecidableEq, Repr

/-- A received RTP packet: its addresses, header fields and payload (04 R85, R86). -/
structure RtpPacket where
  dstMac : BitVec 48
  dstIp : BitVec 32
  dstPort : BitVec 16
  srcIp : BitVec 32
  payloadType : BitVec 7
  ssrc : BitVec 32
  seq : BitVec 16
  timestamp : BitVec 32
  lastOfUnit : Bool
  payload : List Byte
  deriving DecidableEq, Repr

/-- A level that an ABZ input takes after an edge: the encoder channel, and for how many ns the input holds it (18 R370). -/
structure EncEdge where
  ch : Fin 16
  heldNs : Nat
  deriving DecidableEq, Repr

/-- A bit upset in a word of a stream's picture store, in one bit or in two (13 R268). -/
structure StoreUpset where
  word : Nat
  double : Bool
  deriving DecidableEq, Repr

/-- Why an AVSBus write-and-commit is not confirmed (02 R50, Table 2.7): no acknowledge, a bad CRC, or a read-back. -/
inductive AvsMiss where
  | noAck | badCrc | readBack (mV : Nat)
  deriving DecidableEq, Repr

/-- What a read of an ECC test word shows (05 Table 5.6): clean data, data corrected at a named position, or an
uncorrectable word. -/
inductive EccSeen where
  | clean (data : BitVec 64)
  | corrected (data : BitVec 64) (position : Nat)
  | uncorrectable
  deriving DecidableEq, Repr

/-- One read of an ECC checker test: the bank or channel, the row of 05 Table 5.6, and what was seen. -/
structure EccRead where
  unit : Nat
  row : Nat
  seen : EccSeen
  deriving DecidableEq, Repr

/-- The three runs of the residue test on one TE (05 section 5.3): the clean run's match and residue error, and whether
each forced run raised one that reached Verge's collector. -/
structure ResidueRun where
  te : Fin 8
  cleanMatches : Bool
  cleanError : Bool
  accError : Bool
  pathError : Bool
  deriving DecidableEq, Repr

/-- What the self-test items show (05 Tables 5.5 to 5.7): the AVS read-back in mV; the LPDDR5 channels that do not train;
the ECC reads, residue runs and comparator flags (output, integrator, loop-state bus); and the two feedback samples
(A, B) of each step of Table 5.7, in time order. What a list leaves out is as the tables require. -/
structure SelfTestObs where
  avsReadBack : Option Nat
  trainFail : List (Fin 4)
  swardReads : List EccRead
  lpddrReads : List EccRead
  residueRuns : List ResidueRun
  lockstepFlags : List Bool
  stoSamples : List (Bool × Bool)
  deriving DecidableEq, Repr

/-- A residue mismatch that a TE meets while it runs: the step group, and whether the retry mismatches too (11 R238). -/
structure ResidueEvent where
  group : Nat
  repeats : Bool
  deriving DecidableEq, Repr

/-- How a CSI-2 packet header arrives (14 R284). -/
inductive HeaderEcc where
  | ok | corrected | uncorrectable
  deriving DecidableEq, Repr

/-- What an encoder channel sees (18 R367, R370): the data line at the latch edge and after each clock of an SSI
transaction, in that order, or nothing more for ABZ, whose count is in State. -/
inductive EncSample where
  | ssi (lowAtLatch : Bool) (bits : List Bool)
  | abz
  deriving DecidableEq, Repr

/-- What Verge's comparator and the CI memory show during one evaluation (15 R320, R321). -/
inductive CeOutcome where
  | agree | diverge | memoryUe
  deriving DecidableEq, Repr

/-- What a scrub or checker test finds. -/
inductive CheckOutcome where
  | good | corrected | bad (unit row : Nat)
  deriving DecidableEq, Repr

/-- Which Perception Island checker test fails (16 R327). -/
inductive PiCheck where
  | good | swardTract (n row : Nat) | lpddrChannel (n row : Nat) | residue (te : Fin 8)
  deriving DecidableEq, Repr

/-- Which memory a scrubber serves. -/
inductive ScrubMem where
  | sward | lpddr
  deriving DecidableEq, Repr

/-- An error that a CAN controller meets (17 R359): its kind of ERR bits 20:18, in the data phase or not; whether it is a
bit error inside an overload flag; and how many more errors the flag meets, that is bit errors inside an active flag and
runs of dominant bits after it (ISO 11898-1: the 14th after an active flag or the 8th after a passive one, then each 8). -/
structure CanErr where
  kind : Fin 7
  dataPhase : Bool
  inOverload : Bool
  more : Nat
  deriving DecidableEq, Repr

/-- How a CAN transmission attempt ends (17 R351, R354): correctly, with the transmitter delay measured in units of
12.5 ns; by lost arbitration; or by an error, which may be a recessive stuff bit read dominant during arbitration, and
during whose passive flag a dominant bit may be read. -/
inductive CanTxEnd where
  | sent (delay : Nat) | lost | error (e : CanErr) (arbStuff dominantInFlag : Bool)
  deriving DecidableEq, Repr

/-- A frame on the CAN bus (17 Table 17.6), and the ns from its SOF edge to its end. -/
structure CanWire where
  age : Nat
  id : BitVec 29
  ide : Bool
  rtr : Bool
  fdf : Bool
  brs : Bool
  esi : Bool
  dlc : BitVec 4
  data : List Byte
  deriving DecidableEq, Repr

/-- What a controller sees while another node sends: a whole frame, or an error, after whose flag the first bit may be
dominant. -/
inductive CanRx where
  | frame (f : CanWire)
  | error (e : CanErr) (dominantAfterFlag : Bool)
  deriving DecidableEq, Repr

/-- Samples 7, 8 and 9 of one bit of a UART character. -/
structure Vote where
  s7 : Bool
  s8 : Bool
  s9 : Bool
  deriving DecidableEq, Repr

/-- One pass of a Tool Spur search (18 R378): presence after the reset, and the (bit, complement) slots read. -/
structure SpurPass where
  presence : Bool
  slots : List (Bool × Bool)
  deriving DecidableEq, Repr

/-- The commands of the block, one per row of spec/opcode_table.json. -/
inductive Instr where
  | registerWrite (p : Requester) (off : BitVec 16) (data : List Byte)
  | porstNLow
  | porstNRelease
  | supplyLoss (rail : Rail)
  | fenceExit (block : BitVec 8)
  | waymarkCommit (e : Fin 19)
  | msLoRead (p : Requester) (size : Nat)
  | ringTokenArrive
  | ringTokenMiss
  | paceGovernorPeriod (tjHalf : Int) (rateMilli : Nat)
  | avsbusReadBack (mV : Nat) (alert : Option (BitVec 16))
  | avsbusResponseMiss (cause : AvsMiss := .noAck)
  | vcoreWindowMiss (mV : Nat := 0) (forNs : Nat := 10000)
  | mcHeartbeat
  | mcHeartbeatMiss
  | oscillatorWatchdogWindow (count : Nat)
  | ptpSyncReceive (mac : Fin 2) (offset : Int) (logInterval : Int)
  | ptpSyncTimeout
  | ptpMasterSync
  | ptpDelayReqReceive (mac : Fin 2) (seq : BitVec 16)
  | ptpPpsRise
  | ptpPpsFall
  | configRequest (fn : Fin 16) (req : CfgReq)
  | msixUnmask (fn : Fin 16) (vector : Option (Fin 1088))
  | linkDown (cause : LinkDownCause)
  | linkUp (width : BitVec 4) (rate : BitVec 4)
  | vfFlr (vf : Fin 16)
  | flrDone (vf : Fin 16)
  | setEndpointId (operation eid : Byte)
  | getEndpointId
  | getMctpVersionSupport (msgType : Byte)
  | getMessageTypeSupport
  | getHealth
  | getEcc
  | getFaults
  | mctpOtherMessage (msgType : Byte)
  | bar4Write (fn : Fin 16) (off : BitVec 64) (data : List Byte)
  | bar4Read (fn : Fin 16) (off : BitVec 64) (len : Nat)
  | qspiWrite (frame : List Byte)
  | qspiRead (frame : List Byte)
  | qspiStatus (opcode : Byte)
  | ethFrameReceive (mac : Fin 2) (f : EthFrame)
  | rtpPacketReceive (mac : Fin 2) (pkt : RtpPacket)
  | fwLoad (p : Requester) (r : SpReq)
  | fwCommit (p : Requester) (r : SpReq)
  | fwVerifyEnd
  | selftestEnd (obs : SelfTestObs)
  | getInfo (p : Requester) (r : SpReq)
  | selftestReport (p : Requester) (r : SpReq)
  | routeCommit (p : Requester) (r : SpReq)
  | validateEnd (applyFault : Option Nat)
  | routeReport (p : Requester) (r : SpReq)
  | setMilestone (p : Requester) (r : SpReq)
  | start (p : Requester) (r : SpReq)
  | clearFault (p : Requester) (r : SpReq)
  | clearFaultRetestEnd (obs : SelfTestObs)
  | resetDevice (p : Requester) (r : SpReq)
  | paceSet (p : Requester) (r : SpReq)
  | piReset (p : Requester) (r : SpReq)
  | blockReset (p : Requester) (r : SpReq)
  | blockPowerDown (p : Requester) (r : SpReq)
  | blockPowerUp (p : Requester) (r : SpReq)
  | blockReload (p : Requester) (r : SpReq)
  | eventRingSet (p : Requester) (r : SpReq)
  | timeStatus (p : Requester) (r : SpReq)
  | faultRead (p : Requester) (r : SpReq)
  | queueState (p : Requester) (r : SpReq)
  | queueRestart (p : Requester) (r : SpReq)
  | contextInfo (p : Requester) (r : SpReq)
  | countersRead (p : Requester) (r : SpReq)
  | eccCounters (p : Requester) (r : SpReq)
  | loopMode (p : Requester) (r : SpReq)
  | loopTableWrite (p : Requester) (r : SpReq)
  | loopStatus (p : Requester) (r : SpReq)
  | twinRearm (p : Requester) (r : SpReq)
  | annClear (p : Requester) (r : SpReq)
  | spurSearch (p : Requester) (r : SpReq)
  | spurRead (p : Requester) (r : SpReq)
  | evHeadWrite (p : Requester) (value : BitVec 32)
  | eventWrite (fn : Fin 16)
  | sqTailWrite (fn : Fin 16) (ctx : Fin 256) (q : Fin 4) (value : BitVec 32)
  | cqHeadWrite (fn : Fin 16) (ctx : Fin 256) (q : Fin 4) (value : BitVec 32)
  | waybillFetch (ctx : Fin 256) (q : Fin 4) (stores : List HostStore)
  | engineDispatch (e : Fin 19)
  | backgroundZeroing
  | patrolScrub (mem : ScrubMem)
  | nop (e : Fin 19)
  | planAdmit (e : Fin 19)
  | matmul (e : Fin 19) (residue : List ResidueEvent)
  | conv2d (e : Fin 19) (residue : List ResidueEvent)
  | add (e : Fin 19)
  | sub (e : Fin 19)
  | mul (e : Fin 19)
  | max (e : Fin 19)
  | min (e : Fin 19)
  | act (e : Fin 19)
  | softmax (e : Fin 19)
  | layernorm (e : Fin 19)
  | rmsnorm (e : Fin 19)
  | reduceSum (e : Fin 19)
  | reduceMax (e : Fin 19)
  | convert (e : Fin 19)
  | maxpool (e : Fin 19)
  | avgpool (e : Fin 19)
  | maxabs (e : Fin 19)
  | copy (e : Fin 19) (stores : List HostStore)
  | fill (e : Fin 19)
  | poolInit (e : Fin 19)
  | seqReset (e : Fin 19)
  | prefixLookup (e : Fin 19)
  | kvAppend (e : Fin 19)
  | attend (e : Fin 19)
  | streamOpen (e : Fin 19)
  | streamClose (e : Fin 19)
  | feed (e : Fin 19)
  | augSet (e : Fin 19)
  | decode (e : Fin 19)
  | pictureDecoded (ctx : Fin 256) (stream : Fin 16) (upsets : List StoreUpset)
  | dictLoad (e : Fin 19)
  | dictSeal (e : Fin 19)
  | tokenise (e : Fin 19)
  | packEmit (e : Fin 19)
  | streamStats (e : Fin 19)
  | csiFrameStart (rx vc : Fin 4) (hdr : HeaderEcc) (frameNumber : BitVec 16)
  | csiLinePacket (rx vc : Fin 4) (dt : Byte) (hdr : HeaderEcc) (crcOk overrun : Bool) (codes : List Nat)
  | csiFrameEnd (rx vc : Fin 4) (hdr : HeaderEcc)
  | csiPacketDiscard (rx vc : Fin 4) (dt : Byte) (hdr : HeaderEcc)
  | frameEndTimeout (cam : Fin 4)
  | frameRecordWrite (cam : Fin 4)
  | triggerPulse (cam : Fin 4)
  | triggerPulseEnd (cam : Fin 4)
  | camLost (cam : Fin 4)
  | loopSampleInstant (l : Fin 32)
  | sampleMarkEnd (pin : Fin 16)
  | encoderPositionReady (ch : Fin 16) (sample : EncSample)
  | encoderFreeSample (ch : Fin 16) (sample : EncSample)
  | encZEdge (z : EncEdge)
  | loopEvaluation (outcome : CeOutcome)
  | diagnosticEvaluation (diverged flagged forced : Bool)
  | loopActuation (l : Fin 32)
  | ciScrub (outcome : CheckOutcome)
  | vergeHalfMismatch
  | ciCheckerTest (outcome : CheckOutcome)
  | piCheckerTest (outcome : PiCheck)
  | stopTimeout
  | stoRelease
  | stoFeedbackDiscrepancy (chanB : Bool)
  | annOpenLoad
  | annRestored
  | twinFrameTransmit
  | twinFrameReceive (lane : Fin 2) (bits : BitVec 256)
  | twinMissWindow
  | canReq (p : Requester) (c : Fin 4) (cmd : BitVec 32)
  | canAbort (p : Requester) (c : Fin 4) (cmd : BitVec 32)
  | canPush (p : Requester) (c : Fin 4) (cmd : BitVec 32)
  | canTxbWrite (p : Requester) (c : Fin 4) (txb : Fin 3) (off : Fin 72) (data : List Byte)
  | canRecover (p : Requester) (c : Fin 4) (value : BitVec 32)
  | canArbitration (c : Fin 4)
  | canTxEnd (c : Fin 4) (outcome : CanTxEnd)
  | canBusOn (c : Fin 4)
  | canFrameReceive (c : Fin 4) (rx : CanRx)
  | canRxHeadWrite (p : Requester) (c : Fin 4) (ring : Fin 2) (value : BitVec 32)
  | canReferenceInstant (c : Fin 4)
  | spiScriptTrigger (m : Fin 2) (script : Fin 2)
  | spiTransferEnd (m : Fin 2) (rx : List Byte)
  | spiCmd (p : Requester) (m : Fin 2) (value : BitVec 32)
  | spiRingHeadWrite (p : Requester) (m : Fin 2) (value : BitVec 32)
  | uartCharacterReceive (u : Fin 2) (bits : List Vote)
  | uartRearm (u : Fin 2)
  | uartTxdata (p : Requester) (u : Fin 2) (value : BitVec 32)
  | uartRxdataRead (p : Requester) (u : Fin 2) (size : Nat)
  | uartTxCharacterEnd (u : Fin 2)
  | spurSearchEnd (passes : List SpurPass) (busLow : Bool)
  | spurAnnounce
  | annToneWrite (p : Requester) (value : BitVec 32)
  | annTrip
  | annRetry
  | pwmPeriodStart (n : Fin 8)
  | pwmDutyWrite (p : Requester) (n : Fin 8) (value : BitVec 32)
  | gpioEdge (pin : Fin 16) (rising : Bool)
  | gpioSetWrite (p : Requester) (value : BitVec 32)
  | gpioClrWrite (p : Requester) (value : BitVec 32)
  | supplyRestore (rail : Rail)
  | spDoorbell (p : Requester) (value : BitVec 32)
  | encAbEdge (edge : EncEdge) (a b : Bool)
  | canJoinBus (c : Fin 4)
  | schedulerFault
  deriving DecidableEq, Repr

end Sys2Proof
end

