-- ==== Sys2Proof/Decode.lean ====
section
/-! DEFINITION. The words that spell commands. -/

namespace Sys2Proof

/-- The command that a word of the opcode table spells. No row of spec/opcode_table.json gives bits: the commands of
this block arrive on its buses and pins, not as words, so no word spells one. -/
def decodeTableWord (_nbits _w : Nat) : Option Instr := none

end Sys2Proof
end

