-- ==== Sys2Proof/Config.lean ====
section
/-! DEFINITION. What the manual leaves open: constants without a body, so that no proof can see a value of them. -/

namespace Sys2Proof

/-- The free values (log 2): the n-th value that the manual leaves open in a run. A place that needs a bounded value
reduces it to its bound. -/
opaque Config.freeValue : Nat → Nat

/-- What GELU (5) and SILU (6) give at minus infinity, as an FP32 code: x times a factor that tends to 0, for which the
manual states no result (11 R233; log 11). -/
opaque Config.limitAtNegInf : Nat → Nat

/-- Whether the larger or smaller of a NaN and a number is the number, for VE opcode `op` (11 R232 follows IEEE 754, which
has both operations; log 19). -/
opaque Config.numberOverNan : Nat → Bool

/-- The SHA-384 digests of the public keys in ROM, by KEY_SLOT 0 to 3 (05 Table 5.1); the manual does not print them. -/
opaque Config.romKey : Nat → List Byte

/-- Whether an ABZ channel counts up when A leads B; the manual names no direction (18 R370; log 23). -/
opaque Config.abzForward : Bool

/-- What the decoding process of ITU-T H.264 or H.265 gives of an access unit (13 R267): whether the unit can be decoded;
the stream's profile, constraint and level, whether it is progressive, its bit depth and chroma format, and whether it
uses SVC, MVC or another extension; the coded size, the conformance cropping window in luma samples and the planes before
cropping; whether the picture is an IDR or IRAP picture and whether it is kept as a reference; how many pictures back in
output order each reference that it uses lies, and how many reference pictures the stream needs. -/
structure CodedPicture where
  decodable : Bool
  profile : Nat
  constrained : Bool
  level : Nat
  progressive : Bool
  bitDepth : Nat
  chroma : Nat
  extension : Bool
  width : Nat
  height : Nat
  cropLeft : Nat
  cropRight : Nat
  cropTop : Nat
  cropBottom : Nat
  planes : List (List Nat)
  refresh : Bool
  isRef : Bool
  uses : List Nat
  refsNeeded : Nat
  deriving DecidableEq, Repr, Inhabited

/-- The decoding processes of ITU-T H.264 (codec 0) and H.265 (codec 1), which the manual names and does not print: what
the last of some access units gives, a function of their bits alone (13 R267, R277; log 39). -/
opaque Config.decodePicture : Nat → List (List Byte) → CodedPicture

end Sys2Proof
end

