-- ==== Sys2Proof/Machine/State.lean ====
section
/-! DEFINITION. The state of Larza as plain data: every register, buffer, queue, counter, mode and pin the manual
gives it, with its reset value, and the queue of waiting commands. Each field's line names its width, its rule and its
reset value; a value marked DESIGN CHOICE has a log entry. -/

namespace Sys2Proof.Machine

/-- Why the block stops with a fault. -/
inductive Fault where
  /-- Raised by a command whose operands `Instr.wellFormed` refuses (a list of a length that no transfer of this kind
  has). Safe: such a command cannot reach Larza, and no rule gives it an effect. -/
  | illFormed (mnemonic : String)
  deriving DecidableEq, Repr

/-- Why a command is refused. -/
inductive Refusal where
  /-- Raised by an arm of `exec` that has no meaning yet. Safe: no claim about such a command can be proved. -/
  | notModelled (mnemonic : String)
  deriving DecidableEq, Repr

/-- A finite map from numbers, in one canonical form: keys strictly rising, and no entry equal to the default that an
unlisted key reads as. Memory is the map of bytes with default 0. -/
abbrev Map (α : Type) := List (Nat × α)

/-- What a 64-bit word with check bits decodes to (08 section 8.5). -/
inductive Ecc where
  | clean | corr | ue | poison
  deriving DecidableEq, Repr

/-- SP_STATUS.STATE (06 Table 6.4). -/
inductive SpState where
  | idle | busy | done
  deriving DecidableEq, Repr

/-- Device states (05 Table 5.2). -/
inductive DevState where
  | off | romWait | fwVerify | selftest | awaitRoute | validate | held | run | fenced | fault
  deriving DecidableEq, Repr

/-- Milestone discipline states (02 Table 2.6). -/
inductive Discipline where
  | free | acquiring | locked | holdover
  deriving DecidableEq, Repr

/-- The side that yields in a Pace conflict (02 R48). -/
inductive PaceSide where
  | governor | hostFloor
  deriving DecidableEq, Repr

/-- The two ports that may ring the Signpost (04 R80). -/
inductive PortKind where
  | pcie | qspi
  deriving DecidableEq, Repr

/-- The stop in force (16 Table 16.4): a controlled stop runs its ramp; an immediate stop holds the references. -/
inductive StopKind where
  | none | controlled | immediate
  deriving DecidableEq, Repr

/-- A source of CAN transmit frames (17 section 17.3). -/
inductive CanSrc where
  | ref | txb (n : Nat) | queue
  deriving DecidableEq, Repr

/-- An SPI transfer in progress (18 section 18.3): the script, or none for a host transfer; the length; chip select. -/
structure SpiJob where
  script : Option Nat
  len : Nat
  cs : Nat
  deriving DecidableEq, Repr

/-- A Route Book record: its offset, TYPE and bytes, header included (05 Table 5.9). -/
structure Rec where
  off : Nat
  typ : Nat
  bytes : List Byte
  deriving DecidableEq, Repr

/-- The refusal report (05 Table 5.13). -/
structure Report where
  status : BitVec 16 := 0
  stage : Nat := 0
  offset : Nat := 0
  recType : Nat := 0
  field : Nat := 0
  otherOffset : Nat := 0
  otherType : Nat := 0
  resClass : Nat := 0
  resIndex : Nat := 0
  detail : Nat := 0
  deriving DecidableEq, Repr

/-- The empty report. -/
def Report.init : Report := {}

/-- A PTP message that Larza sends (04 R83, R87): its MAC and messageType, sequenceId and Milestone carried; the source
MAC address, which is the base of the clockIdentity; and over UDP/IPv4 the source address, with the UDP checksum 0 or a
computed one. -/
structure PtpOut where
  mac : Nat
  msgType : Nat
  seq : Nat
  stamp : Nat
  srcMac : List Byte
  udp : Bool
  srcIp : Nat
  zeroChecksum : Bool
  deriving DecidableEq, Repr

/-- What Larza sends outside: the model's own record of outputs (log 3). -/
inductive Out where
  /-- An MSI-X message of function `fn` (04 Table 4.5). -/
  | msix (fn vector : Nat)
  /-- Data answered to a register, BAR4 or QSPI read; `ep` marks a poisoned completion (08 R172). -/
  | read (data : List Byte) (ep : Bool)
  /-- A configuration-space value (04 Table 4.3). -/
  | config (value : Nat)
  /-- The end of a QSPI frame: STAT (04 Table 4.10). -/
  | qspiStat (stat : Byte)
  /-- An MCTP response (04 Table 4.6): message type, command, body. -/
  | mctp (msgType command : Byte) (body : List Byte)
  /-- A PTP message sent on a MAC (04 R83, R87). -/
  | ptp (m : PtpOut)
  /-- A PTP_PPS edge (04 R88). -/
  | pps (level : Bool)
  /-- An AVSBus write-and-commit of a voltage (02 R50). -/
  | avs (rail mV : Nat)
  /-- A CAN frame that starts on a bus (17 R352). -/
  | canFrame (ctrl : Nat) (id : BitVec 29) (ide rtr fdf brs : Bool) (dlc : BitVec 4) (data : List Byte)
  /-- A UART character that starts on a line (18 R375). -/
  | uart (unit : Nat) (char : Byte)
  /-- Bytes clocked out by an SPI master at the start of a transfer (18 R372, R373). -/
  | spi (unit cs : Nat) (bytes : List Byte)
  /-- A CAM_TRIG edge (14 R292). -/
  | trig (cam : Nat) (level : Bool)
  /-- A change of an STO channel (16 R334). -/
  | sto (chan : Nat) (level : Bool)
  /-- A PWM period that starts with a high time in ticks (18 R381). -/
  | pwm (n high : Nat)
  /-- A sample-mark edge (18 R384). -/
  | mark (pin : Nat) (level : Bool)
  /-- CAM_MCLK runs at 2,160 MHz over this divider, or stops at 0 (14 R292). -/
  | mclk (cam div : Nat)
  /-- The GPIO pins that are driven, and their levels (18 R383). -/
  | gpio (drive levels : BitVec 16)
  /-- A burst of SSI clock cycles on ENCn_P0, which idles high (18 R367). -/
  | encClock (ch cycles : Nat)
  /-- A reset pulse on the Tool Spur (18 R378). -/
  | spurReset
  /-- A byte written on the Tool Spur, least significant bit first (18 R378). -/
  | spurByte (b : Byte)
  /-- A bit written on the Tool Spur (18 R378). -/
  | spurBit (b : Bool)
  /-- A dominant acknowledge bit for a received CAN frame (17 R358). -/
  | canAck (ctrl : Nat)
  /-- An error flag on a CAN bus, active (dominant) or passive (17 R359). -/
  | canFlag (ctrl : Nat) (dominant : Bool)
  /-- A host-memory request of an XE waybill: the requesting function, whether it writes, PCIe address, bytes (08 R153). -/
  | hostReq (fn : Nat) (write : Bool) (addr len : Nat)
  /-- Forty scrambled frames of both Twin lanes, the TWIN frame first (16 R338). -/
  | twin (frames : List (BitVec 256))
  deriving DecidableEq, Repr

/-- One memory of 64-bit words with check bits (08 R163-R165, R396): bytes, word marks, hard faults. -/
structure MemSpace where
  /-- byte contents; an unlisted byte reads 0; width 8 bits per byte address; 08 section 8.1, R151; reset all bytes 0 (08 R161, Table 5.5 step 8). -/
  cells : Map Byte := []
  /-- decode outcome of each 8-byte word, keyed by byte address div 8; width 4 values per word; 08 R163, R165, R396; reset every word clean. -/
  marks : Map Ecc := []
  /-- number of stuck bits in the word; width count per word; 08 R164; reset 0. -/
  hard : Map Nat := []
  deriving DecidableEq, Repr

/-- MemSpace at reset: every field at the value its line above gives. -/
def MemSpace.init : MemSpace := {}

/-- An event as posted (06 Table 6.13). -/
structure EvRecord where
  /-- event code of Table 19.2; width 16; 06 Table 6.13; reset none held. -/
  code : BitVec 16 := 0
  /-- event-specific payload; width 32; 06 Table 6.13; reset none held. -/
  payload : BitVec 32 := 0
  /-- Milestone when posted; width 64; 06 Table 6.13; reset none held. -/
  stamp : Nat := 0
  /-- context when CTX_VALID is 1; width 9; 06 Table 6.13; reset none held. -/
  ctx : Option Nat := none
  /-- caused by a Signpost command whose answer was owed when it was posted; width model's own; 06 R126; reset none held. -/
  owed : Bool := false
  deriving DecidableEq, Repr

/-- EvRecord at reset: every field at the value its line above gives. -/
def EvRecord.init : EvRecord := {}

/-- Configuration registers of one function for the features of 04 Table 4.2 that have no value in Table 4.3; their
layout and reset values are those of PCI Express (log 42). -/
structure CfgSt where
  /-- Extended Tag Field Enable; width 1; 04 Table 4.2; reset PRESUMED 0 (PCIe, log 42). -/
  extTags : Bool := false
  /-- ASPM Control, 0 off or 2 L1; width 2; 04 Table 4.2; reset PRESUMED 0 (PCIe, log 42). -/
  aspm : BitVec 2 := 0
  /-- PowerState: D3hot, else D0; width 1; 04 Table 4.2; reset PRESUMED D0 (PCIe, log 42). -/
  d3hot : Bool := false
  /-- ECRC Generation Enable; width 1; 04 Table 4.2; reset PRESUMED 0 (PCIe, log 42). -/
  ecrcGen : Bool := false
  /-- ECRC Check Enable; width 1; 04 Table 4.2; reset PRESUMED 0 (PCIe, log 42). -/
  ecrcCheck : Bool := false
  /-- AER Uncorrectable Error Status; width 32; 04 Table 4.2; reset PRESUMED 0 (PCIe, log 42). -/
  uncStatus : BitVec 32 := 0
  /-- AER Uncorrectable Error Mask; width 32; 04 Table 4.2; reset PRESUMED 0x00400000 (PCIe, log 42). -/
  uncMask : BitVec 32 := 0x00400000
  /-- AER Uncorrectable Error Severity; width 32; 04 Table 4.2; reset PRESUMED 0x00462030 (PCIe, log 42). -/
  uncSev : BitVec 32 := 0x00462030
  /-- AER Correctable Error Status; width 32; 04 Table 4.2; reset PRESUMED 0 (PCIe, log 42). -/
  corStatus : BitVec 32 := 0
  /-- AER Correctable Error Mask; width 32; 04 Table 4.2; reset PRESUMED 0x00006000 (PCIe, log 42). -/
  corMask : BitVec 32 := 0x00006000
  deriving DecidableEq, Repr

/-- CfgSt at reset: every field at the value its line above gives. -/
def CfgSt.init : CfgSt := {}

/-- The registers of one PCIe function's BAR0 and its event ring (06 Tables 6.2-6.4, 6.12; 04 Table 4.5). -/
structure FnState where
  /-- SP_CMD command area; width 256 B; 06 Table 6.2, 6.5; reset 0 (Table 6.5). -/
  spCmd : Map Byte := []
  /-- SP_RSP response area; width 256 B; 06 Table 6.2, 6.6; reset 0 (Table 6.6). -/
  spRsp : Map Byte := []
  /-- SP_STATUS.TAG; width 8; 06 Table 6.4; reset 0x00. -/
  spTag : Byte := 0
  /-- SP_STATUS.OVERRUN; width 1; 06 Table 6.4; reset 0. -/
  spOverrun : Bool := false
  /-- SP_STATUS.STATE; width 2; 06 Table 6.4; reset IDLE. -/
  spState : SpState := .idle
  /-- SP_STATUS.STATUS; width 16; 06 Table 6.4; reset 0x0000. -/
  spStatus : BitVec 16 := 0
  /-- opcode of the taken command whose answer is still owed (FW_COMMIT, CLEAR_FAULT); width 16; 06 R118; reset none. -/
  spOwed : Option (BitVec 16) := none
  /-- MS_HI latch of this function; width 32; 02 Table 2.5, R40; reset 0. -/
  msHi : BitVec 32 := 0
  /-- an event ring is set; width 1; 06 R128, R133; reset no ring. -/
  evSet : Bool := false
  /-- ring device address; width 48; 06 R117; reset 0 (no ring). -/
  evBase : Nat := 0
  /-- ring size in records; width 17; 06 R117; reset 0 (no ring). -/
  evEntries : Nat := 0
  /-- EV_TAIL; width 16; 06 Table 6.12; reset 0. -/
  evTail : Nat := 0
  /-- EV_HEAD; width 16; 06 Table 6.12; reset 0. -/
  evHead : Nat := 0
  /-- EV_OVERFLOW.LOST, saturating; width 32; 06 Table 6.12; reset 0. -/
  evLost : Nat := 0
  /-- events lost since the last EVENT_LOST record; width 32; 06 R130; reset 0. -/
  evLostSince : Nat := 0
  /-- PHASE of the present pass; width 1; 06 Table 6.13; reset 1. -/
  evPhase : Bool := true
  /-- events posted and not yet written, oldest first; width list; 06 R129, R133; reset empty. -/
  posted : List EvRecord := []
  /-- MSI-X Enable; width 1; 04 section 4.1.2, 06 R127; reset PRESUMED 0 (PCIe, log 42). -/
  msixEnable : Bool := false
  /-- MSI-X Function Mask; width 1; 04 section 4.1.2; reset PRESUMED 0 (PCIe, log 42). -/
  msixFnMask : Bool := false
  /-- MSI-X table bytes but for the Mask bits; width 17,408 B; 04 Table 4.4; reset 0; every vector masked by msixOpen. -/
  msixTable : Map Byte := []
  /-- vectors whose Mask bit is clear; width 1,088 bits; 04 Table 4.4, 06 R127; reset PRESUMED every vector masked (PCIe, log 42). -/
  msixOpen : Map Bool := []
  /-- PBA bits; width 1,088 bits; 04 Table 4.4, 06 R127; reset 0. -/
  msixPending : Map Bool := []
  /-- BAR0 base; width 64; 04 Table 4.3; reset PRESUMED 0 (PCIe, log 42); PF0 only, as the VFs' lies in PF0's SR-IOV capability. -/
  bar0 : BitVec 64 := 0
  /-- BAR2 base; width 64; 04 Table 4.3; reset PRESUMED 0 (PCIe, log 42); PF0 only. -/
  bar2 : BitVec 64 := 0
  /-- BAR4 base; width 64; 04 Table 4.3; reset PRESUMED 0 (PCIe, log 42); PF0 only. -/
  bar4 : BitVec 64 := 0
  /-- AER, power, link and tag control; width struct; 04 Table 4.2; reset as CfgSt. -/
  cfg : CfgSt := CfgSt.init
  /-- events stay in the hold from link-down until the restart of the function's queues; width 1; 04 Table 4.7 steps 4 to 7; reset 0. -/
  evHold : Bool := false
  deriving DecidableEq, Repr

/-- FnState at reset: every field at the value its line above gives. -/
def FnState.init : FnState := {}

/-- One half of a Waymark slot (01 Table 1.5). -/
structure WmHalf where
  /-- SEQ commit count; width 32; 01 Table 1.5; reset 0. -/
  seq : BitVec 32 := 0
  /-- WRITER_CTX; width 8; 01 Table 1.5; reset 0. -/
  writer : Byte := 0
  /-- LENGTH; width 8; 01 Table 1.5; reset 0. -/
  length : Byte := 0
  /-- STAMP; width 64; 01 Table 1.5; reset 0. -/
  stamp : Nat := 0
  /-- payload bytes; width 240 B; 01 section 1.4; reset 0 DESIGN CHOICE (log 5). -/
  payload : Map Byte := []
  deriving DecidableEq, Repr

/-- WmHalf at reset: every field at the value its line above gives. -/
def WmHalf.init : WmHalf := {}

/-- A Waymark handoff slot (01 R13-R18). -/
structure WmSlot where
  /-- first half; width struct; 01 R13; reset zero header. -/
  half0 : WmHalf := WmHalf.init
  /-- second half; width struct; 01 R13; reset zero header. -/
  half1 : WmHalf := WmHalf.init
  /-- the second half is the active one; width 1; 01 R13; reset half 0 DESIGN CHOICE (log 5). -/
  active1 : Bool := false
  /-- stale-commit counter; width 64; 01 R15; reset 0 DESIGN CHOICE (log 5). -/
  stale : Nat := 0
  deriving DecidableEq, Repr

/-- WmSlot at reset: every field at the value its line above gives. -/
def WmSlot.init : WmSlot := {}

/-- Fence state of one fenceable block (01 R22, R23; 06 R120). -/
structure Fence where
  /-- the block is FENCED; width 1; 01 R22; reset not fenced. -/
  fenced : Bool := false
  /-- fence generation; width 8; 01 section 1.6; reset 0 DESIGN CHOICE (log 5). -/
  gen : BitVec 8 := 0
  /-- kept FENCED until POWER_UP; width 1; 06 R120; reset 0. -/
  poweredDown : Bool := false
  deriving DecidableEq, Repr

/-- Fence at reset: every field at the value its line above gives. -/
def Fence.init : Fence := {}

/-- Milestone, its discipline and the pulse output (02 R38-R41, 04 R87, R88). -/
structure TimeSt where
  /-- the crystal counts; width 1; 03 R54, 16 Table 16.3; reset stopped. -/
  running : Bool := false
  /-- Milestone in ns; width 64; 02 R38; reset 0. -/
  ms : Nat := 0
  /-- fraction of a ns, units of 2^-32; width 32; 02 section 2.4; reset 0. -/
  frac : Nat := 0
  /-- increment per clock, units of 2^-32 ns; width 35; 02 section 2.4; reset 5 x 2^32 (nominal). -/
  inc : Nat := 21474836480
  /-- discipline state; width 2; 02 Table 2.6; reset FREE. -/
  disc : Discipline := .free
  /-- consecutive Syncs with |offset| below 1,000 ns; width 4; 02 Table 2.6; reset 0. -/
  good : Nat := 0
  /-- sum of offsets since ACQUIRING was entered; width signed; 02 section 2.4.1; reset 0. -/
  sumOff : Int := 0
  /-- last measured offset; width 64 signed; 06 R117; reset 0. -/
  lastOff : Int := 0
  /-- logMessageInterval of the last Sync; width 8 signed; 02 section 2.4.1; reset 0 (1 s). -/
  logSync : Int := 0
  /-- Milestone of the last Sync; width 64; 02 Table 2.6; reset 0. -/
  lastSync : Nat := 0
  /-- slewing at -200 ppm towards the master; width 1; 02 R41; reset 0. -/
  catchUp : Bool := false
  /-- the servo has taken over in HOLDOVER after a step or a catch-up outside RUN; width 1; 02 R41; reset 0. -/
  takeOver : Bool := false
  /-- PTP_PPS pin; width 1; 04 R88; reset low. -/
  pps : Bool := false
  /-- sequenceId of the next Sync sent as master; width 16; 04 R87; reset 0 DESIGN CHOICE (log 5). -/
  masterSeq : BitVec 16 := 0
  /-- Milestone of the last Sync sent as master; width 64; 04 R87; reset none. -/
  lastMasterSync : Option Nat := none
  deriving DecidableEq, Repr

/-- TimeSt at reset: every field at the value its line above gives. -/
def TimeSt.init : TimeSt := {}

/-- The Pace governor and AVSBus (02 R45-R50, 03 R55). -/
structure PaceSt where
  /-- CEILING in force, mV; width 16; 02 R45, 06 R119; reset 0 DESIGN CHOICE (log 5); PACE record at START. -/
  ceiling : Nat := 0
  /-- FLOOR in force, mV; width 16; 02 R45, 06 R119; reset 0 DESIGN CHOICE (log 5); PACE record at START. -/
  floor : Nat := 0
  /-- TARGET in force, 0.01 G steps/s; width 16; 02 R46, 06 R119; reset 0 DESIGN CHOICE (log 5); PACE record at START. -/
  target : Nat := 0
  /-- VCORE last commanded, mV; width 16; 03 R55; reset 750 (regulator boots at 0.75 V). -/
  vcore : Nat := 750
  /-- a write-and-commit awaits its read-back; width 1; 02 R50; reset 0. -/
  unconfirmed : Bool := false
  /-- command waiting for the read-back; width 16; 02 R50; reset none. -/
  pending : Option Nat := none
  /-- thermal override; width 1; 02 R47; reset 0. -/
  thermal : Bool := false
  /-- a thermal fence has happened and the PI is still fenced for it; width 1; 02 R49; reset 0. -/
  thermalFence : Bool := false
  /-- conflict of the last period; width 2; 02 R48; reset none. -/
  conflict : Option PaceSide := none
  /-- hottest Tj last read, 0.5 degC; width 16 signed; 02 section 2.6; reset 0 DESIGN CHOICE (log 5). -/
  tjHalf : Int := 0
  /-- Milestone of the last VCORE command; width 64; 02 Table 2.7; reset 0 DESIGN CHOICE (log 5). -/
  cmdAt : Nat := 0
  /-- host software has requested a PI reset since the thermal fence; width 1; 02 R49; reset 0. -/
  hostReset : Bool := false
  deriving DecidableEq, Repr

/-- PaceSt at reset: every field at the value its line above gives. -/
def PaceSt.init : PaceSt := {}

/-- MC heartbeat and oscillator monitors (02 Table 2.7, R43; 06 R113). -/
structure McSt where
  /-- Milestone of the last heartbeat; width 64; 02 Table 2.7; reset 0. -/
  lastBeat : Nat := 0
  /-- heartbeat miss declared; width 1; 06 R113; reset 0. -/
  lost : Bool := false
  /-- consecutive oscillator windows out of range; width 2; 02 Table 2.7; reset 0. -/
  badWindows : Nat := 0
  deriving DecidableEq, Repr

/-- McSt at reset: every field at the value its line above gives. -/
def McSt.init : McSt := {}

/-- PCIe link, QSPI port, MCTP, Ethernet (04). -/
structure LinkSt where
  /-- PCIe link state; width 1; 04 R75; reset link up DESIGN CHOICE (log 5). -/
  up : Bool := true
  /-- the host port; width 2; 04 R80; reset none rung. -/
  hostPort : Option PortKind := none
  /-- the PCIe port reads 0x2D01; width 1; 04 R80; reset 0. -/
  pcieRefused : Bool := false
  /-- the QSPI port reads 0x2D01; width 1; 04 R80; reset 0. -/
  qspiRefused : Bool := false
  /-- QSPI_STAT bits 3:0; width 4; 04 Table 4.9; reset 0. -/
  qspiStat : BitVec 4 := 0
  /-- QSPI's own Milestone latch; width 32; 04 R80; reset 0. -/
  qspiMsHi : BitVec 32 := 0
  /-- MCTP endpoint ID; width 8; 04 R74; reset PRESUMED 0 (MCTP null EID, log 28). -/
  eid : Byte := 0
  /-- SR-IOV VF Enable; width 1; 04 R71; reset PRESUMED 0 (PCIe, log 42). -/
  vfEnable : Bool := false
  /-- SR-IOV NumVFs; width 16; 04 Table 4.3; reset PRESUMED 0 (PCIe, log 42). -/
  numVfs : BitVec 16 := 0
  /-- VF BAR0 base; width 64; 04 Table 4.3; reset PRESUMED 0 (PCIe, log 42). -/
  vfBar0 : BitVec 64 := 0
  /-- VF BAR2 base; width 64; 04 Table 4.3; reset PRESUMED 0 (PCIe, log 42). -/
  vfBar2 : BitVec 64 := 0
  /-- VF BAR4 base; width 64; 04 Table 4.3; reset PRESUMED 0 (PCIe, log 42). -/
  vfBar4 : BitVec 64 := 0
  /-- VFs with an FLR in progress: aborted waybills plus 1; width 17 bits per VF; 04 R78; reset none. -/
  flrBusy : Map Nat := []
  /-- frames dropped per MAC; width counters; 04 R84; reset 0. -/
  macDropped : Map Nat := []
  deriving DecidableEq, Repr

/-- LinkSt at reset: every field at the value its line above gives. -/
def LinkSt.init : LinkSt := {}

/-- Firmware image, self-test and Route Book stores (05). -/
structure FwSt where
  /-- MC staging store; width 1,573,472 B; 05 R91; reset empty. -/
  stage : Map Byte := []
  /-- 4-byte pieces written by FW_LOAD; width 1 per 4 B; 05 R93; reset none written. -/
  written : Map Bool := []
  /-- length named by FW_COMMIT; width 32; 05 R93; reset 0. -/
  commitLen : Nat := 0
  /-- FW_VERSION of the running image; width 32; 05 Table 5.4; reset 0. -/
  version : BitVec 32 := 0
  /-- RB_FORMAT of the running image; width 16; 05 Table 5.4; reset 0. -/
  rbFormat : BitVec 16 := 0
  /-- KEY_SLOT of the running image; width 8; 05 Table 5.4; reset 0. -/
  keySlot : Byte := 0
  /-- result of each self-test step; width 8 B; 05 R96, 06 R117; reset NOT_RUN. -/
  testResult : List Nat := [0, 0, 0, 0, 0, 0, 0, 0]
  /-- status of the failed self-test step; width 16; 06 R117; reset 0. -/
  testStatus : BitVec 16 := 0
  /-- self-test passed; width 1; 05 R106; reset 0. -/
  testPassed : Bool := false
  /-- refusal report; width 32 B; 05 Table 5.13; reset 0. -/
  report : Report := Report.init
  /-- Route Book store in the MC; width at most 4 MiB; 05 R101; reset empty. -/
  bookRaw : List Byte := []
  /-- committed length; width 32; 05 Table 5.12; reset 0. -/
  bookLen : Nat := 0
  /-- BOOK_ID of the committed book; width 64; 05 R105; reset 0. -/
  bookId : BitVec 64 := 0
  /-- a book was committed since self-test passed; width 1; 05 R106; reset 0. -/
  bookCommitted : Bool := false
  /-- the book last committed was accepted; width 1; 05 R106; reset 0. -/
  bookAccepted : Bool := false
  /-- records of the accepted book; width records; 05 section 5.4; reset empty. -/
  book : List Rec := []
  /-- status of the fault that caused FAULT; width 16; 06 R117, 16 R337; reset 0. -/
  faultCause : BitVec 16 := 0
  /-- Larza has been in RUN since Sward was last zeroed; width 1; 08 R162; reset 0. -/
  runSinceZero : Bool := false
  /-- the Perception Island was fenced at the FAULT and stays fenced until START; width 1; 05 R108; reset 0. -/
  piHeld : Bool := false
  /-- the patrol scrubbers have started: self-test has written memory with valid check bits; width 1; 08 R166, 05 Table 5.5 step 8; reset 0. -/
  scrubbing : Bool := false
  deriving DecidableEq, Repr

/-- FwSt at reset: every field at the value its line above gives. -/
def FwSt.init : FwSt := {}

/-- One queue (07 section 7.2, 7.3). -/
structure QueueSt where
  /-- SQ_TAIL last taken; width 16; 07 Table 7.6; reset 0. -/
  sqTail : BitVec 16 := 0
  /-- count of entries fetched (HEAD); width 16; 06 R117, 07 R137; reset 0. -/
  fetched : BitVec 16 := 0
  /-- CQ_TAIL; width 16; 07 Table 7.6; reset 0. -/
  cqTail : BitVec 16 := 0
  /-- CQ_HEAD; width 16; 07 Table 7.6; reset 0. -/
  cqHead : BitVec 16 := 0
  /-- DB_RESULT status; width 16; 07 Table 7.6; reset 0. -/
  dbStatus : BitVec 16 := 0
  /-- DB_RESULT refused value; width 16; 07 Table 7.6; reset 0. -/
  dbValue : BitVec 16 := 0
  /-- queue HALTED; width 1; 07 R142; reset ACTIVE. -/
  halted : Bool := false
  /-- records in the completion hold store, oldest first; width 32 B records; 04 R76; reset empty. -/
  held : List (List Byte) := []
  deriving DecidableEq, Repr

/-- QueueSt at reset: every field at the value its line above gives. -/
def QueueSt.init : QueueSt := {}

/-- A tensor descriptor as copied at fetch (09 Table 9.9, R181). -/
structure Desc where
  /-- BASE; width 48; 09 Table 9.9; reset 0. -/
  base : Nat := 0
  /-- FORMAT; width 4; 09 Table 9.9; reset 0. -/
  format : Nat := 0
  /-- RANK; width 4; 09 Table 9.9; reset 0. -/
  rank : Nat := 0
  /-- QMODE; width 4; 09 Table 9.9; reset 0. -/
  qmode : Nat := 0
  /-- SCALE_HANDLE; width 12; 09 Table 9.9; reset 0. -/
  scale : Nat := 0
  /-- DIM0 to DIM3; width 4 x 16; 09 Table 9.9; reset 0. -/
  dims : List Nat := []
  /-- STRIDE1 to STRIDE3; width 3 x 32; 09 Table 9.9; reset 0. -/
  strides : List Nat := []
  /-- reserved bits as read; width 24; 09 Table 9.9; reset 0. -/
  reserved : Nat := 0
  deriving DecidableEq, Repr

/-- Desc at reset: every field at the value its line above gives. -/
def Desc.init : Desc := {}

/-- A waybill in flight on the Scoreboard (09). -/
structure Waybill where
  /-- fetch ordinal; width model's own; 09 R185; reset none in flight. -/
  id : Nat := 0
  /-- issuing context; width 8; 09; reset none in flight. -/
  ctx : Nat := 0
  /-- queue; width 2; 09; reset none in flight. -/
  queue : Nat := 0
  /-- ring slot; width 6; 09 Table 9.11; reset none in flight. -/
  slot : Nat := 0
  /-- the entry as copied at fetch; width 64 B; 09 R137, R177; reset none in flight. -/
  bytes : List Byte := []
  /-- descriptors read at fetch, by handle; width 32 B each; 09 R181; reset none in flight. -/
  descs : Map Desc := []
  /-- SEEN stamp; width 64; 09 Table 9.11; reset none in flight. -/
  seen : Nat := 0
  /-- STARTED stamp; width 64; 09 Table 9.11; reset none in flight. -/
  started : Nat := 0
  /-- station running it; width 5; 09 Table 9.11; reset none in flight. -/
  engine : Option Nat := none
  /-- absolute start tick (DIRECT); width 32; 09 R190; reset none in flight. -/
  startTick : BitVec 32 := 0
  /-- absolute end tick (DIRECT); width 32; 09 R190; reset none in flight. -/
  endTick : BitVec 32 := 0
  /-- keys of the handles, sequences, streams and dictionaries read; width list; 09 R185; reset none in flight. -/
  reads : List Nat := []
  /-- keys of those written; width list; 09 R185; reset none in flight. -/
  writes : List Nat := []
  /-- ordinals of the waybills waited on; width list; 09 R185; reset none in flight. -/
  waits : List Nat := []
  /-- read keys whose writer is among those waited on, with that writer's ordinal; width list; 09 R187; reset none in flight. -/
  waitFor : List (Nat × Nat) := []
  /-- the wait has ended and no writer outcome stopped the waybill; width 1; 09 R185, R187; reset none in flight. -/
  ready : Bool := false
  /-- worst outcome of the read handles so far: 0 GOOD, 1 FAILED, 2 FENCED; width 2; 09 R187; reset none in flight. -/
  verdict : Nat := 0
  /-- a corrected read so far; width 1; 09 Table 9.11; reset none in flight. -/
  corrected : Bool := false
  /-- what the IE found at the waybill's start: 0x4702 when capacity or a source is lacking, 1 when it has created the dictionary, else 0; width 16; 13 R262; reset none in flight. -/
  intake : Nat := 0
  deriving DecidableEq, Repr

/-- Waybill at reset: every field at the value its line above gives. -/
def Waybill.init : Waybill := {}

/-- Scheduler, Scoreboard, arbiters and lane-tick ring (02 R34-R37, 07 R143-R146, 09 R185-R193). -/
structure SchedSt where
  /-- fetch ordinal of the next waybill; width model's own; 09 R185; reset 0. -/
  nextId : Nat := 0
  /-- waybills in flight, in fetch order; width at most 256; 09 R188; reset empty. -/
  flight : List Waybill := []
  /-- writer outcome per context and handle key; width 2 bits per handle; 09 R187; reset GOOD. -/
  outcomes : Map Nat := []
  /-- last-fetched writer of each handle; width id + 1; 09 R187; reset none. -/
  lastWriter : Map Nat := []
  /-- arbiter credits, keyed class x 256 + context; width 7 bits per context and class; 07 R144; reset 0; reloaded at entry to RUN. -/
  credits : Map Nat := []
  /-- context served last, plus 1; width 9 bits per class; 07 section 7.4; reset context 0 comes first DESIGN CHOICE (log 5). -/
  pointers : Map Nat := []
  /-- tick number the token carries; width 32; 02 section 2.3; reset 0 DESIGN CHOICE (log 5). -/
  tick : BitVec 32 := 0
  /-- station that has the token; width 5; 02 section 2.3; reset TE0 DESIGN CHOICE (log 5). -/
  tokenAt : Nat := 0
  /-- tick each station last received; width 32 bits x 19; 02 section 2.3; reset 0 DESIGN CHOICE (log 5). -/
  stationTick : Map Nat := []
  /-- Milestone at which a circuit last completed; width 64; 02 Table 2.7; reset 0 DESIGN CHOICE (log 5). -/
  lastCircuit : Nat := 0
  deriving DecidableEq, Repr

/-- SchedSt at reset: every field at the value its line above gives. -/
def SchedSt.init : SchedSt := {}

/-- One block of a latent pool with its tree node (12 section 12.1, 12.3). Its token IDs and latents lie in LPDDR5. -/
structure PoolBlock where
  /-- the block is not on the free list; width 1; 12 R246; reset free. -/
  used : Bool := false
  /-- tree block (else private); width 1; 12 R253; reset 0. -/
  tree : Bool := false
  /-- hash of the node; width 64; 12 section 12.3; reset 0. -/
  hash : BitVec 64 := 0
  /-- parent node; width 20; 12 section 12.3; reset root. -/
  parent : Option Nat := none
  /-- reference count; width 16; 12 R252; reset 0. -/
  refs : Nat := 0
  /-- last-use stamp; width 64; 12 section 12.3; reset 0. -/
  lastUse : Nat := 0
  deriving DecidableEq, Repr

/-- PoolBlock at reset: every field at the value its line above gives. -/
def PoolBlock.init : PoolBlock := {}

/-- One sequence (12 section 12.1). -/
structure PoolSeq where
  /-- blocks in order; width at most 1,023; 12 section 12.1; reset empty. -/
  blocks : List Nat := []
  /-- token count; width 16; 12 R248; reset 0. -/
  tokens : Nat := 0
  deriving DecidableEq, Repr

/-- PoolSeq at reset: every field at the value its line above gives. -/
def PoolSeq.init : PoolSeq := {}

/-- A registered latent pool (12 R240-R246). -/
structure Pool where
  /-- sharing group, or 256 + context for a private one; width 10; 12 R245; reset none registered. -/
  key : Nat := 0
  /-- keeper context; width 8; 12 section 12.1; reset none registered. -/
  keeper : Nat := 0
  /-- POOL_INIT has completed; width 1; 12 R246; reset none registered. -/
  ready : Bool := false
  /-- BASE; width 48; 12 Table 12.3; reset none registered. -/
  base : Nat := 0
  /-- BLOCKS; width 21; 12 Table 12.3; reset none registered. -/
  nBlocks : Nat := 0
  /-- DL; width 11; 12 Table 12.3; reset none registered. -/
  dl : Nat := 0
  /-- MAXB; width 10; 12 Table 12.3; reset none registered. -/
  maxb : Nat := 0
  /-- LAYERS; width 8; 12 Table 12.3; reset none registered. -/
  layers : Nat := 0
  /-- FORMAT; width 4; 12 Table 12.3; reset none registered. -/
  format : Nat := 0
  /-- SEQS; width 8; 12 Table 12.3; reset none registered. -/
  seqs : Nat := 0
  /-- POOL_BYTES; width 48; 12 R240; reset none registered. -/
  bytes : Nat := 0
  /-- blocks by index; width per block; 12 section 12.1; reset every block free. -/
  blk : Map PoolBlock := []
  /-- sequences, keyed context x 256 + s; width per sequence; 12 section 12.1; reset every sequence empty. -/
  seq : Map PoolSeq := []
  deriving DecidableEq, Repr

/-- Pool at reset: every field at the value its line above gives. -/
def Pool.init : Pool := {}

/-- A decoded picture or camera frame in the picture store (13 R266 to R269). Its samples lie in the store. -/
structure Picture where
  /-- width; width 16; 13 Table 13.7; reset none. -/
  width : Nat := 0
  /-- height; width 16; 13 Table 13.7; reset none. -/
  height : Nat := 0
  /-- samples of each plane; width per plane; 13 R267, 14 R288; reset none. -/
  sizes : List Nat := []
  /-- samples of two bytes (RAW16); width 1; 14 R288; reset none. -/
  wide : Bool := false
  /-- its frame store among those of its stream; width model's own; 13 R266; reset none. -/
  buf : Nat := 0
  /-- PICTURE ordinal; width 32; 13 Table 13.7; reset none. -/
  ordinal : Nat := 0
  /-- source stamp; width 64; 13 Table 13.7; reset none. -/
  stamp : Nat := 0
  /-- an IDR or IRAP picture, or a camera frame: it depends on none before it; width 1; 13 R268; reset none. -/
  refresh : Bool := false
  deriving DecidableEq, Repr

/-- Picture at reset: every field at the value its line above gives. -/
def Picture.init : Picture := {}

/-- What a running DECODE found at its start (13 R269). -/
structure Taking where
  /-- the picture it takes; width struct; 13 R269; reset none running. -/
  pic : Option Picture := none
  /-- reason of the latest corrupt picture skipped before it; width 8; 13 R270; reset none running. -/
  skip : Nat := 0
  /-- pictures dropped or skipped before it; width 16; 13 Table 13.7; reset none running. -/
  dropped : Nat := 0
  deriving DecidableEq, Repr

/-- Taking at reset: every field at the value its line above gives. -/
def Taking.init : Taking := {}

/-- An open IE stream (13 Table 13.4). -/
structure Stream where
  /-- KIND; width 2; 13 Table 13.2; reset none open. -/
  kind : Nat := 0
  /-- SOURCE; width 8; 13 Table 13.4; reset none open. -/
  source : Nat := 0
  /-- CODEC; width 8; 13 Table 13.4; reset none open. -/
  codec : Nat := 0
  /-- REFS; width 8; 13 Table 13.4; reset none open. -/
  refs : Nat := 0
  /-- OUT_Q; width 8; 13 Table 13.4; reset none open. -/
  outQ : Nat := 0
  /-- DELIVERY LATEST; width 1; 13 Table 13.4; reset none open. -/
  latest : Bool := false
  /-- POLICY FILL; width 1; 13 Table 13.4; reset none open. -/
  fill : Bool := false
  /-- MAX_W; width 16; 13 Table 13.4; reset none open. -/
  maxW : Nat := 0
  /-- MAX_H; width 16; 13 Table 13.4; reset none open. -/
  maxH : Nat := 0
  /-- FILL_Y; width 8; 13 Table 13.4; reset none open. -/
  fillY : Nat := 0
  /-- FILL_C; width 8; 13 Table 13.4; reset none open. -/
  fillC : Nat := 0
  /-- ROW_LEN; width 16; 13 Table 13.4; reset none open. -/
  rowLen : Nat := 0
  /-- picture store reserved, bytes; width 26; 13 R266; reset none open. -/
  reserve : Nat := 0
  /-- complete units: bytes, source stamp, incomplete flag; width bytes; 13 R272; reset empty. -/
  units : List (List Byte × Nat × Bool) := []
  /-- open unit of FEED or RTP; width bytes; 13 R272; reset empty. -/
  openUnit : List Byte := []
  /-- delivery queue, oldest first; width at most OUT_Q; 13 R269; reset empty. -/
  pics : List Picture := []
  /-- last picture delivered good; width picture; 13 R270; reset none. -/
  lastGood : Option Picture := none
  /-- reason of the latest corrupt picture skipped since the last delivery; 0 for none; width 8; 13 R270; reset 0. -/
  skipReason : Nat := 0
  /-- pictures dropped or skipped since the last delivery; width 16; 13 Table 13.7; reset 0. -/
  dropped : Nat := 0
  /-- pictures in decode output order so far; width 32; 13 Table 13.7; reset 0. -/
  ordinal : Nat := 0
  /-- a corrupt picture awaits recovery; width 1; 13 R268; reset 0. -/
  broken : Bool := false
  /-- what a running DECODE found at its start; width struct; 13 R269; reset none. -/
  taking : Option Taking := none
  /-- access units that the decoder has taken, oldest first; width bytes; 13 R277; reset empty. -/
  history : List (List Byte) := []
  /-- reference pictures held, newest first; width at most REFS; 13 Table 13.4, R268; reset empty. -/
  refPics : List Picture := []
  /-- augmentation operations; width 4 x 8 B; 13 section 13.4; reset empty. -/
  recipe : List (List Byte) := []
  /-- SEED; width 64; 13 section 13.4; reset 0 (no recipe). -/
  seed : BitVec 64 := 0
  /-- packed row: token, segment; width at most ROW_LEN; 13 section 13.5; reset empty. -/
  row : List (Nat × Nat) := []
  /-- PAD_ID of the dictionary last used; width 24; 13 R279; reset 0 (empty row). -/
  rowPad : Nat := 0
  /-- segments in the row; width 16; 13 section 13.5; reset 0. -/
  segs : Nat := 0
  /-- stream counters but for 14, which the picture store keeps; width 15 x 64; 13 R281; reset 0. -/
  counters : Map Nat := []
  /-- RTP reorder window: sequence, timestamp, receive stamp, end of unit, payload; width at most 32; 04 R86; reset empty. -/
  rtpBuf : List (Nat × Nat × Nat × Bool × List Byte) := []
  /-- next RTP sequence number; width 16; 04 R86; reset none. -/
  rtpNext : Option Nat := none
  /-- stamp of the open unit's first packet or FEED; width 64; 04 R86, 01 section 1.3; reset none. -/
  rtpStamp : Option Nat := none
  /-- a packet of the open unit is missing; width 1; 04 R86; reset 0. -/
  rtpLost : Bool := false
  /-- RTP timestamp of the open unit; width 32; 04 R86; reset 0 (no open unit). -/
  rtpTime : Nat := 0
  deriving DecidableEq, Repr

/-- Stream at reset: every field at the value its line above gives. -/
def Stream.init : Stream := {}

/-- A dictionary (13 section 13.3). -/
structure Dict where
  /-- strings and IDs in load order; width at most 262,144; 13 R273; reset empty. -/
  entries : List (List Byte × Nat) := []
  /-- sealed; width 1; 13 R274; reset 0. -/
  isSealed : Bool := false
  /-- BYTE_BASE; width 24; 13 R274; reset 0 (unsealed). -/
  byteBase : Nat := 0
  /-- PAD_ID; width 24; 13 R279; reset 0 (unsealed). -/
  padId : Nat := 0
  deriving DecidableEq, Repr

/-- Dict at reset: every field at the value its line above gives. -/
def Dict.init : Dict := {}

/-- A camera bundle (14 section 14.4). -/
structure Bundle where
  /-- EXPOSURE, ns; width 32; 14 section 14.4; reset 0; SENSOR record at START. -/
  exposure : Nat := 0
  /-- DGAIN, Q4.12; width 16; 14 section 14.4; reset 0; SENSOR record at START. -/
  dgain : Nat := 0
  /-- WB_R, Q4.12; width 16; 14 section 14.4; reset 0; SENSOR record at START. -/
  wbR : Nat := 0
  /-- WB_B, Q4.12; width 16; 14 section 14.4; reset 0; SENSOR record at START. -/
  wbB : Nat := 0
  deriving DecidableEq, Repr

/-- Bundle at reset: every field at the value its line above gives. -/
def Bundle.init : Bundle := {}

/-- The frame a camera is receiving (14 section 14.5). -/
structure CamFrame where
  /-- source stamp; width 64; 14 R285; reset no frame open. -/
  stamp : Nat := 0
  /-- frame number of the frame-start packet; width 16; 14 Table 14.6; reset no frame open. -/
  sensorFn : BitVec 16 := 0
  /-- extended frame number; width 32; 14 R285; reset no frame open. -/
  efn : BitVec 32 := 0
  /-- active bundle of the frame; width struct; 14 R294; reset no frame open. -/
  bundle : Bundle := Bundle.init
  /-- exposure carried by the frame; width 32; 14 R293; reset no frame open. -/
  exposure : Nat := 0
  /-- lines so far; none for a wholly padded line; width at most HEIGHT; 14 R295; reset no frame open. -/
  lines : List (Option (List Nat)) := []
  /-- FLAGS; width 8; 14 Table 14.6; reset no frame open. -/
  flags : Byte := 0
  /-- CUT_LINES; width 16; 14 Table 14.6; reset no frame open. -/
  cut : Nat := 0
  /-- BAD_LINES; width 16; 14 Table 14.6; reset no frame open. -/
  bad : Nat := 0
  /-- END_STAMP once the frame has ended; width 64; 14 Table 14.6; reset no frame open. -/
  ended : Option Nat := none
  deriving DecidableEq, Repr

/-- CamFrame at reset: every field at the value its line above gives. -/
def CamFrame.init : CamFrame := {}

/-- One camera (14). -/
structure CamSt where
  /-- extended frame number; width 32; 14 section 14.1; reset 0. -/
  efn : BitVec 32 := 0
  /-- trigger pulses risen since RUN; width 32; 14 R292; reset 0. -/
  pulses : Nat := 0
  /-- pulses risen at the last accepted frame start; width 32; 14 R285; reset 0. -/
  pulsesAtFrame : Nat := 0
  /-- CAM_TRIG at its active level; width 1; 14 R292, 03 Table 3.7; reset low. -/
  trig : Bool := false
  /-- level of the CAM_TRIG pin; width 1; 14 R292, 03 Table 3.7; reset low. -/
  trigPin : Bool := false
  /-- divider at which CAM_MCLK runs, 0 when it is low; width 16; 14 R292, 03 Table 3.7; reset 0 (low). -/
  mclk : Nat := 0
  /-- Milestone at which the pulse falls; width 64; 14 R292; reset 0. -/
  trigFall : Nat := 0
  /-- Milestone of the next pulse; width 64; 14 R292; reset none. -/
  nextPulse : Option Nat := none
  /-- exposure given by recent pulses, by pulse number; width 32 bits; 14 R293; reset 0. -/
  pulseExp : Map Nat := []
  /-- active bundle; width struct; 14 R294; reset SENSOR record at START. -/
  active : Bundle := Bundle.init
  /-- shadow bundle and the EFN of its swap; width struct; 14 R293; reset none. -/
  shadow : Option (Bundle × Nat) := none
  /-- exposure of the next pulse; width 32; 14 R292; reset SENSOR record at START. -/
  exposureNow : Nat := 0
  /-- bundle decided, and the Milestone from which its pulse or frame start may come; width struct; 14 R293; reset none. -/
  decided : Option (Bundle × Nat) := none
  /-- frame being received; width struct; 14 section 14.5; reset none. -/
  frame : Option CamFrame := none
  /-- frames ended and not yet recorded, oldest first; width structs; 14 R290; reset none. -/
  done : List CamFrame := []
  /-- packets are discarded up to the next accepted frame start; width 1; 14 R285, R298; reset 0. -/
  resync : Bool := false
  /-- Milestone from which LOSS_TIMEOUT runs; width 64; 14 R297; reset 0. -/
  lastStart : Nat := 0
  /-- LOSS_TIMEOUT is running; width 1; 14 R297; reset 0. -/
  lossArmed : Bool := false
  /-- CAM_LOST posted; width 1; 14 R297; reset 0. -/
  lostPosted : Bool := false
  /-- delivery count per branch; width counts; 14 R290; reset 0. -/
  delivery : Map Nat := []
  /-- frames not delivered per branch since the last delivery; width 16 bits; 14 Table 14.6; reset 0. -/
  dropCount : Map Nat := []
  /-- counters since START; width 8 x 64; 14 Table 14.9; reset 0. -/
  counters : Map Nat := []
  deriving DecidableEq, Repr

/-- CamSt at reset: every field at the value its line above gives. -/
def CamSt.init : CamSt := {}

/-- Gain, friction and cogging tables of a loop (15 R300). -/
structure LoopTables where
  /-- gain entries; width 64 x 64; 15 R300, R308; reset 0. -/
  gain : Map Nat := []
  /-- friction entries; width 512 x 32; 15 R300, R309; reset 0. -/
  fric : Map Int := []
  /-- cogging entries; width 1,024 x 32; 15 R300, R309; reset 0. -/
  cog : Map Int := []
  deriving DecidableEq, Repr

/-- LoopTables at reset: every field at the value its line above gives. -/
def LoopTables.init : LoopTables := {}

/-- State of one Waymark read entry of a loop (15 R311, R312). -/
structure ReadSt where
  /-- last fresh value; width 48 signed; 15 R311; reset none. -/
  fresh : Option Int := none
  /-- value last supplied; width 48 signed; 15 R311; reset none. -/
  value : Option Int := none
  /-- fallback in force; width 1; 15 R312; reset 0. -/
  stale : Bool := false
  /-- STOP request made since the fallback came into force; width 1; 15 R311; reset 0. -/
  requested : Bool := false
  deriving DecidableEq, Repr

/-- ReadSt at reset: every field at the value its line above gives. -/
def ReadSt.init : ReadSt := {}

/-- One loop slot (15). -/
structure LoopSt where
  /-- active tables; width struct; 15 R300; reset all zero. -/
  tables : LoopTables := LoopTables.init
  /-- shadow tables; width struct; 15 R121, 06 R121; reset all zero. -/
  shadow : LoopTables := LoopTables.init
  /-- table commit pending: table, earliest instant; width struct; 06 R121; reset none. -/
  commitTbl : Option (Nat × Nat) := none
  /-- MANUAL mode; width 1; 15 section 15.5; reset AUTO; LOOP record at START. -/
  manual : Bool := false
  /-- manual output; width 24 signed; 15 section 15.5; reset 0; START_OUT at START. -/
  manualOut : Int := 0
  /-- LOOP_MODE waiting: manual, output, earliest instant; width struct; 15 R315; reset none. -/
  modeReq : Option (Bool × Int × Nat) := none
  /-- last evaluated sample was in MANUAL; width 1; 15 R314; reset 0. -/
  evalManual : Bool := false
  /-- integrator; width 48 signed; 15 Table 15.7; reset 0. -/
  integ : Int := 0
  /-- pos_prev; width 48 signed; 15 R307; reset none (first sample). -/
  posPrev : Option Int := none
  /-- y_prev; width 48 signed; 15 R307; reset first sample. -/
  yPrev : Int := 0
  /-- velocity of the last evaluated sample; width 48 signed; 15 R307; reset 0. -/
  vel : Int := 0
  /-- reference of the last evaluated sample; width 48 signed; 15 R329, R319; reset 0 DESIGN CHOICE (log 5). -/
  refHeld : Int := 0
  /-- Waymark read entries; width 4 entries; 15 R311; reset no fresh value. -/
  reads : Map ReadSt := []
  /-- WRAP flag; width 1; 15 R316; reset 0. -/
  wrap : Bool := false
  /-- WRAP_COUNT; width 32; 15 R316; reset 0. -/
  wrapCount : Nat := 0
  /-- LATE_COUNT; width 32; 15 R317; reset 0. -/
  lateCount : Nat := 0
  /-- last sample LATE; width 1; 15 R317; reset 0. -/
  lastLate : Bool := false
  /-- consecutive LATE samples; width counter; 16 R332; reset 0. -/
  lateRun : Nat := 0
  /-- latest committed output; width 24 signed; 15 R305, 17 R362; reset 0 (before first commit, R362). -/
  out : Int := 0
  /-- has committed since START or TWIN_REARM; width 1; 16 R334; reset 0. -/
  committed : Bool := false
  /-- next sample instant; width 64; 15 R303; reset none. -/
  nextSample : Option Nat := none
  /-- sample instant S not yet evaluated; width 64; 15 R304; reset none. -/
  sample : Option Nat := none
  /-- position for S is ready; width 1; 15 Table 15.6; reset 0. -/
  inReady : Bool := false
  /-- position latched for S; width 48 signed; 15 R307; reset 0. -/
  inPos : Int := 0
  /-- position for S valid; width 1; 15 R318; reset valid. -/
  inValid : Bool := true
  /-- actuation instants ahead, with 'compared commit exists'; width list; 15 R317; reset none. -/
  actPend : List (Nat × Bool) := []
  /-- sample instant last evaluated; width 64; 06 R117; reset 0. -/
  lastSample : Nat := 0
  /-- earliest sample instant at which TWIN_REARM reinitialises the loop; width 64; 16 R345; reset none. -/
  reinitAt : Option Nat := none
  /-- ramp velocity of a controlled stop; width 48 signed; 15 R319; reset none. -/
  rampVel : Option Int := none
  /-- ramp done reported; width 1; 15 R319; reset 0. -/
  rampDone : Bool := false
  /-- position at the latest evaluated sample; width 48 signed; 16 Table 16.8; reset 0. -/
  pos : Int := 0
  deriving DecidableEq, Repr

/-- LoopSt at reset: every field at the value its line above gives. -/
def LoopSt.init : LoopSt := {}

/-- A fault record (16 Table 16.6). -/
structure FaultRec where
  /-- STAMP; width 64; 16 Table 16.6; reset 0. -/
  stamp : Nat := 0
  /-- CODE; width 16; 16 Table 16.6; reset 0. -/
  code : BitVec 16 := 0
  /-- UNIT; width 8; 16 Table 16.6; reset 0. -/
  unit : Byte := 0
  /-- REACTION; width 4; 16 Table 16.6; reset 0. -/
  reaction : Nat := 0
  /-- DEV_STATE; width 4; 16 Table 16.6; reset 0. -/
  devState : Nat := 0
  /-- DETAIL; width 32; 16 Table 16.6; reset 0. -/
  detail : BitVec 32 := 0
  deriving DecidableEq, Repr

/-- FaultRec at reset: every field at the value its line above gives. -/
def FaultRec.init : FaultRec := {}

/-- One Twin receiver lane (16 R339, R340). -/
structure TwinLane where
  /-- previous 256 received bits; width 256; 16 R340; reset 0 DESIGN CHOICE (log 5). -/
  prev : BitVec 256 := 0
  /-- consecutive SYNC hits per bit offset; width 4 bits x 256; 16 R340; reset 0. -/
  hits : Map Nat := []
  /-- locked offset; width 8; 16 R340; reset in search. -/
  locked : Option Nat := none
  /-- consecutive SYNC misses; width 3; 16 R340; reset 0. -/
  misses : Nat := 0
  /-- consecutive CRC failures; width 5; 16 R340; reset 0. -/
  crcFails : Nat := 0
  /-- descrambler history, last bit lowest; width 58; 16 R339; reset 0 DESIGN CHOICE (log 5). -/
  descr : BitVec 58 := 0
  deriving DecidableEq, Repr

/-- TwinLane at reset: every field at the value its line above gives. -/
def TwinLane.init : TwinLane := {}

/-- The Twin Link (16 section 16.8). -/
structure TwinSt where
  /-- transmitters on; width 1; 16 R338; reset off. -/
  on : Bool := false
  /-- scrambler history; width 58; 16 R339; reset 0 DESIGN CHOICE (log 5); all ones at entry to RUN. -/
  scr : BitVec 58 := 0
  /-- SEQ of the next TWIN frame; width 16; 16 Table 16.8; reset 0 DESIGN CHOICE (log 5). -/
  txSeq : BitVec 16 := 0
  /-- SEQ last accepted; width 16; 16 R341; reset none. -/
  rxSeq : Option (BitVec 16) := none
  /-- lane 0; width struct; 16 R340; reset in search. -/
  lane0 : TwinLane := TwinLane.init
  /-- lane 1; width struct; 16 R340; reset in search. -/
  lane1 : TwinLane := TwinLane.init
  /-- Milestone at which the present miss window started; width 64; 16 R342; reset 0. -/
  winStart : Nat := 0
  /-- consecutive misses; width 3; 16 R342; reset 0. -/
  misses : Nat := 0
  /-- link up; width 1; 16 R342; reset down. -/
  up : Bool := false
  /-- TWIN_CONFIG posted since the last loss of link; width 1; 16 R341; reset 0. -/
  cfgPosted : Bool := false
  /-- READY of the partner's latest valid frame; width 1; 16 R334; reset 0. -/
  partnerReady : Bool := false
  /-- STOP field of the latest valid frame since START; width 3; 16 R343; reset 0. -/
  lastStop : Nat := 0
  /-- consecutive valid frames out of tolerance; width 3; 16 R344; reset 0. -/
  mismatch : Nat := 0
  deriving DecidableEq, Repr

/-- TwinSt at reset: every field at the value its line above gives. -/
def TwinSt.init : TwinSt := {}

/-- Verge: stops, STO, records, annunciator supervision (16). -/
structure VergeSt where
  /-- STO_A command; width 1; 03 Table 3.7, 16 R334; reset low (asserted). -/
  stoA : Bool := false
  /-- STO_B command; width 1; 03 Table 3.7, 16 R334; reset low (asserted). -/
  stoB : Bool := false
  /-- stop in force; width 2; 16 R329, R330; reset none. -/
  stop : StopKind := .none
  /-- partner stop in force; width 1; 16 R343; reset 0. -/
  partnerStop : Bool := false
  /-- Milestone of the controlled-stop order; width 64; 16 R330; reset 0. -/
  stopSince : Nat := 0
  /-- STO asserted by a stop; width 1; 16 Table 16.8, 18 section 18.6; reset 0. -/
  stoByStop : Bool := false
  /-- fault CODE behind the stop; width 16; 19 Table 19.2; reset 0. -/
  stoCause : BitVec 16 := 0
  /-- REDUCED in force; width 1; 16 R333; reset 0. -/
  reduced : Bool := false
  /-- warning channel lost; width 1; 16 R336; reset 0. -/
  warnLost : Bool := false
  /-- fault records, newest first; width 8 x 16 B; 16 R337; reset empty. -/
  records : List FaultRec := []
  /-- Twin Link; width struct; 16 section 16.8; reset off. -/
  twin : TwinSt := TwinSt.init
  deriving DecidableEq, Repr

/-- VergeSt at reset: every field at the value its line above gives. -/
def VergeSt.init : VergeSt := {}

/-- A CAN frame as in Table 17.8. -/
structure CanFrame where
  /-- ID; width 29; 17 Table 17.8; reset 0 DESIGN CHOICE (log 5). -/
  id : BitVec 29 := 0
  /-- IDE; width 1; 17 Table 17.8; reset 0 DESIGN CHOICE (log 5). -/
  ide : Bool := false
  /-- RTR; width 1; 17 Table 17.8; reset 0 DESIGN CHOICE (log 5). -/
  rtr : Bool := false
  /-- DLC; width 4; 17 Table 17.8; reset 0 DESIGN CHOICE (log 5). -/
  dlc : BitVec 4 := 0
  /-- FDF; width 1; 17 Table 17.8; reset 0 DESIGN CHOICE (log 5). -/
  fdf : Bool := false
  /-- BRS; width 1; 17 Table 17.8; reset 0 DESIGN CHOICE (log 5). -/
  brs : Bool := false
  /-- data bytes; width 64 B; 17 Table 17.8; reset 0 DESIGN CHOICE (log 5). -/
  data : List Byte := []
  deriving DecidableEq, Repr

/-- CanFrame at reset: every field at the value its line above gives. -/
def CanFrame.init : CanFrame := {}

/-- One CAN controller (17). -/
structure CanSt where
  /-- TXB0-TXB2 and TXQ_STAGE bytes, keyed by region offset; width 3 x 72 B + 72 B; 17 Table 17.8; reset 0 DESIGN CHOICE (log 5). -/
  area : Map Byte := []
  /-- PENDING; width 3; 17 Table 17.8; reset 0. -/
  pend : List Bool := [false, false, false]
  /-- DONE; width 3; 17 Table 17.8; reset 0. -/
  done : List Bool := [false, false, false]
  /-- FAILED; width 3; 17 Table 17.8; reset 0. -/
  failed : List Bool := [false, false, false]
  /-- CAUSE; width 3 x 3; 17 Table 17.8; reset 0. -/
  cause : List Nat := [0, 0, 0]
  /-- an abort waits for the end of the attempt; width 3; 17 R355; reset 0. -/
  abortReq : List Bool := [false, false, false]
  /-- transmit queue, head first; width at most 32; 17 R353; reset empty. -/
  txq : List CanFrame := []
  /-- TX_RESULT; width 16; 17 Table 17.8; reset 0. -/
  txResult : BitVec 16 := 0
  /-- source whose frame is on the bus; width 3; 17 R352; reset none. -/
  onBus : Option CanSrc := none
  /-- frame on the bus; width struct; 17 R352; reset none. -/
  busFrame : CanFrame := CanFrame.init
  /-- Milestone at the SOF of the frame on the bus; width 64; 17 R361, Table 17.6; reset 0. -/
  sof : Nat := 0
  /-- transmit error count; width 9; 17 R359; reset 0. -/
  tec : Nat := 0
  /-- receive error count; width 8; 17 R359; reset 0. -/
  recCnt : Nat := 0
  /-- error state; width 2; 17 Table 17.8; reset 0 active. -/
  state : Nat := 0
  /-- last error; width 3; 17 Table 17.8; reset 0. -/
  lastErr : Nat := 0
  /-- last error in the data phase; width 1; 17 Table 17.8; reset 0. -/
  errData : Bool := false
  /-- has joined the bus; width 1; 17 R358; reset 0. -/
  joined : Bool := false
  /-- RXn_HEAD; width 2 x 12; 17 Table 17.8; reset 0. -/
  rxHead : List Nat := [0, 0]
  /-- RXn_TAIL; width 2 x 12; 17 Table 17.8; reset 0. -/
  rxTail : List Nat := [0, 0]
  /-- PHASE of the present pass; width 2; 17 Table 17.6; reset 1. -/
  rxPhase : List Bool := [true, true]
  /-- no record written since the last CAN_RX_OVERFLOW or START, so that a drop posts none; width 2; 17 R357; reset 1. -/
  rxDropping : List Bool := [true, true]
  /-- COUNTERS; width 8 x 64; 17 R364; reset 0. -/
  counters : Map Nat := []
  /-- reference slot pending; width 1; 17 R361; reset 0. -/
  refPending : Bool := false
  /-- reference instants since RUN; width counter; 17 R361; reset 0. -/
  refCount : Nat := 0
  /-- reference messages replaced; width counter; 17 R361; reset 0. -/
  refReplaced : Nat := 0
  /-- next reference instant; width 64; 17 R361; reset none. -/
  refNext : Option Nat := none
  /-- no message sent since the last CAN_REF_OVERRUN or START, so that a replacement posts none; width 1; 17 R361; reset 1. -/
  refOver : Bool := true
  /-- SEQ of the next setpoint frame; width 8; 17 R362; reset 0. -/
  spSeq : BitVec 8 := 0
  /-- frame waiting for TXB0; width struct; 17 R363; reset none. -/
  spHold : Option CanFrame := none
  /-- no setpoint frame sent since the last CAN_SETPOINT_OVERRUN or START, so that a replacement posts none; width 1; 17 R363; reset 1. -/
  spOver : Bool := true
  deriving DecidableEq, Repr

/-- CanSt at reset: every field at the value its line above gives. -/
def CanSt.init : CanSt := {}

/-- One encoder channel (18 section 18.2). -/
structure EncSt where
  /-- ENCn_POS; width 48 signed; 18 Table 18.7; reset 0 DESIGN CHOICE (log 5). -/
  pos : Int := 0
  /-- ENCn_ERR; width 32; 18 R368; reset 0. -/
  errCount : Nat := 0
  /-- last sample invalid; width 1; 18 Table 18.7; reset 0. -/
  invalid : Bool := false
  /-- cause of the last invalid sample; width 3; 18 Table 18.7; reset 0. -/
  cause : Nat := 0
  /-- Z seen; width 1; 18 Table 18.7; reset 0. -/
  zSeen : Bool := false
  /-- C_prev; width 32; 18 R369; reset none (before first valid sample). -/
  codePrev : Option Nat := none
  /-- ABZ count; width 48 signed; 18 R370; reset 0. -/
  count : Int := 0
  /-- illegal transition since the last sample; width 1; 18 R370; reset 0. -/
  illegal : Bool := false
  /-- filtered A level; width 1; 18 R370; reset low DESIGN CHOICE (log 5). -/
  levA : Bool := false
  /-- filtered B level; width 1; 18 R370; reset low DESIGN CHOICE (log 5). -/
  levB : Bool := false
  /-- count at the last Z edge; width 48 signed; 18 R371; reset 0. -/
  zCap : Int := 0
  /-- Milestone of the last Z edge; width 64; 18 R371; reset 0. -/
  zStamp : Nat := 0
  /-- HOME done since START; width 1; 18 R371; reset 0. -/
  homed : Bool := false
  /-- count latched at S; width 48 signed; 18 R370; reset 0. -/
  latched : Int := 0
  /-- an illegal transition lies in the interval that ended at S; width 1; 18 R370; reset 0. -/
  latchedBad : Bool := false
  /-- Milestone at which the position for S is ready; width 64; 18 R367; reset 0. -/
  readyAt : Nat := 0
  /-- a sample is in progress; width 1; 18 R367; reset 0. -/
  busy : Bool := false
  deriving DecidableEq, Repr

/-- EncSt at reset: every field at the value its line above gives. -/
def EncSt.init : EncSt := {}

/-- One SPI master (18 section 18.3). -/
structure SpiSt where
  /-- TXBUF; width 64 B; 18 Table 18.7; reset 0 DESIGN CHOICE (log 5). -/
  txBuf : Map Byte := []
  /-- RXBUF; width 64 B; 18 Table 18.7; reset 0 DESIGN CHOICE (log 5). -/
  rxBuf : Map Byte := []
  /-- SCRIPT_TX areas, keyed script x 64 + byte; width 2 x 64 B; 18 Table 18.7; reset 0 DESIGN CHOICE (log 5). -/
  script : Map Byte := []
  /-- transfer in progress; width struct; 18 R372; reset idle. -/
  busy : Option SpiJob := none
  /-- Milestone when CS_N fell; width 64; 18 R372; reset 0. -/
  jobStamp : Nat := 0
  /-- scripts waiting, in trigger order; width at most 2; 18 R372; reset empty. -/
  waiting : List Nat := []
  /-- a trigger was skipped since the script's last record; width 2; 18 R372; reset 0. -/
  skipped : Map Bool := []
  /-- triggers skipped; width counter; 18 R372; reset 0. -/
  skipCount : Nat := 0
  /-- SPI_STAT last result; width 16; 18 Table 18.7; reset 0. -/
  result : BitVec 16 := 0
  /-- RING_HEAD; width 12; 18 R372; reset 0. -/
  ringHead : Nat := 0
  /-- RING_TAIL; width 12; 18 R372; reset 0. -/
  ringTail : Nat := 0
  /-- records dropped on a full ring; width counter; 18 R372; reset 0. -/
  ringDrops : Nat := 0
  /-- next periodic trigger per script, plus 1; width 64 bits; 18 R372; reset none. -/
  nextTrig : Map Nat := []
  deriving DecidableEq, Repr

/-- SpiSt at reset: every field at the value its line above gives. -/
def SpiSt.init : SpiSt := {}

/-- One UART (18 section 18.4). -/
structure UartSt where
  /-- TX FIFO; width at most 64; 18 R375; reset empty. -/
  tx : List Byte := []
  /-- character being sent; width 8; 18 R375; reset idle. -/
  txBusy : Option Byte := none
  /-- RX FIFO as RXDATA words; width at most 256; 18 R375; reset empty. -/
  rx : List (BitVec 16) := []
  /-- next stored character carries OVR; width 1; 18 R375; reset 0. -/
  ovr : Bool := false
  /-- start detection armed; width 1; 18 R374; reset armed. -/
  armed : Bool := true
  /-- RESULT; width 16; 18 Table 18.7; reset 0. -/
  result : BitVec 16 := 0
  deriving DecidableEq, Repr

/-- UartSt at reset: every field at the value its line above gives. -/
def UartSt.init : UartSt := {}

/-- The Tool Spur (18 section 18.5). -/
structure SpurSt where
  /-- search running; width 1; 18 R378; reset 0. -/
  running : Bool := false
  /-- CHANGED; width 1; 18 R377; reset 0. -/
  changed : Bool := false
  /-- IDs kept by the last search; width at most 16; 18 R379; reset empty. -/
  ids : List (BitVec 64) := []
  /-- SPUR_CHANGED posted in this idle period; width 1; 18 R377; reset 0. -/
  announced : Bool := false
  deriving DecidableEq, Repr

/-- SpurSt at reset: every field at the value its line above gives. -/
def SpurSt.init : SpurSt := {}

/-- The annunciator (18 section 18.6). -/
structure AnnSt where
  /-- ANN_TONE F; width 14; 18 Table 18.7; reset 0 DESIGN CHOICE (log 5). -/
  freq : BitVec 14 := 0
  /-- ANN_TONE LEVEL; width 8; 18 Table 18.7; reset 0 DESIGN CHOICE (log 5). -/
  level : Byte := 0
  /-- ANN_TONE ON; width 1; 18 Table 18.7; reset 0 DESIGN CHOICE (log 5). -/
  on : Bool := false
  /-- ANN_STAT STATE: 0 not tripped (SOUNDING while a tone is commanded, else OFF), 2 RETRY_WAIT, 3 LATCHED; width 2; 18 Table 18.7; reset 0 OFF. -/
  state : Nat := 0
  /-- trips; width 3; 18 Table 18.7; reset 0. -/
  trips : Nat := 0
  /-- ANN_STAT STATUS; width 16; 18 R380; reset 0. -/
  status : BitVec 16 := 0
  /-- Milestone of the retry; width 64; 18 R380; reset 0. -/
  retryAt : Nat := 0
  deriving DecidableEq, Repr

/-- AnnSt at reset: every field at the value its line above gives. -/
def AnnSt.init : AnnSt := {}

/-- One PWM output (18 section 18.7). -/
structure PwmSt where
  /-- DUTY; width 25; 18 Table 18.7; reset 0 DESIGN CHOICE (log 5). -/
  duty : BitVec 25 := 0
  /-- RESULT; width 16; 18 Table 18.7; reset 0. -/
  result : BitVec 16 := 0
  /-- high time of the running period, ticks; width 25; 18 R381; reset 0 (pin low). -/
  high : Nat := 0
  /-- loop output in effect; width 24 signed; 18 R381; reset 0. -/
  cmd : Int := 0
  /-- Milestone of the next period start; width 64; 18 section 18.7; reset none. -/
  nextPeriod : Option Nat := none
  deriving DecidableEq, Repr

/-- PwmSt at reset: every field at the value its line above gives. -/
def PwmSt.init : PwmSt := {}

/-- The GPIO block (18 section 18.8). -/
structure GpioSt where
  /-- input levels last seen; width 16; 18 R383; reset 0 DESIGN CHOICE (log 5). -/
  level : BitVec 16 := 0
  /-- GPIO_OUT; width 16; 18 R383; reset 0 DESIGN CHOICE (log 5); INIT at RUN. -/
  out : BitVec 16 := 0
  /-- EDGE_FLAGS; width 16; 18 Table 18.7; reset 0 DESIGN CHOICE (log 5). -/
  flags : BitVec 16 := 0
  /-- EDGE_STAMPk; width 16 x 64; 18 Table 18.7; reset 0 DESIGN CHOICE (log 5). -/
  stamps : Map Nat := []
  /-- sample-mark pins high: Milestone at which each falls; width 16 x 64; 18 R384; reset low. -/
  marks : Map Nat := []
  /-- pins that Larza drives; width 16; 18 R383, 03 Table 3.7; reset 0 (inputs). -/
  drive : BitVec 16 := 0
  deriving DecidableEq, Repr

/-- GpioSt at reset: every field at the value its line above gives. -/
def GpioSt.init : GpioSt := {}

/-- The small ports (18). -/
structure PortsSt where
  /-- encoder channels; width 16; 18 section 18.2; reset idle. -/
  enc : Map EncSt := []
  /-- SPI masters; width 2; 18 section 18.3; reset idle. -/
  spi : Map SpiSt := []
  /-- UARTs; width 2; 18 section 18.4; reset idle. -/
  uart : Map UartSt := []
  /-- Tool Spur; width struct; 18 section 18.5; reset idle. -/
  spur : SpurSt := SpurSt.init
  /-- annunciator; width struct; 18 section 18.6; reset OFF. -/
  ann : AnnSt := AnnSt.init
  /-- PWM outputs; width 8; 18 section 18.7; reset low. -/
  pwm : Map PwmSt := []
  /-- GPIO; width struct; 18 section 18.8; reset inputs. -/
  gpio : GpioSt := GpioSt.init
  deriving DecidableEq, Repr

/-- PortsSt at reset: every field at the value its line above gives. -/
def PortsSt.init : PortsSt := {}

/-- Sward, LPDDR5 and host memory with their engines (08). -/
structure MemSt where
  /-- Sward; width 128 MiB; 08 section 8.2; reset zeros. -/
  sward : MemSpace := MemSpace.init
  /-- LPDDR5, by device offset; width at most 28 GiB usable; 08 section 8.4; reset zeros. -/
  lpddr : MemSpace := MemSpace.init
  /-- host memory behind PCIe, by PCIe address; width 2^47 B; 08 Table 8.2; reset 0 DESIGN CHOICE (log 5). -/
  host : Map Byte := []
  /-- host-memory words that answer poisoned or unsuccessful, or were written with EP; width per 8 B; 08 R172; reset none. -/
  hostBad : Map Bool := []
  /-- epoch tags, one byte per Sward line, by line number; width 8 bits per line, 64 + 8 per tag word; 09 R194, R196; reset 0, every word clean. -/
  tag : MemSpace := MemSpace.init
  /-- picture store, each frame store of each stream at an address of the model's own; width 48 MiB; 13 Table 13.1, R268; reset zeros. -/
  pic : MemSpace := MemSpace.init
  /-- stream counter 14, Store words corrected, by stream key; width 64 each; 13 R268, R281; reset 0. -/
  picCorr : Map Nat := []
  /-- pending granules, ascending; width 1 per granule; 08 R160; reset none. -/
  pendGran : List Nat := []
  /-- MEM_ZERO_DONE owed for a marking; width 1; 08 R160; reset 0. -/
  zeroOwed : Bool := false
  /-- fitted LPDDR5, GiB (a board fact); width 8; 08 Table 8.5; reset 16 DESIGN CHOICE (log 5). -/
  fittedGiB : Nat := 16
  /-- Sward corrected count; width 64; 08 R163, 06 R117; reset 0. -/
  swCorr : Nat := 0
  /-- Sward uncorrectable count; width 64; 08 R165; reset 0. -/
  swUe : Nat := 0
  /-- LPDDR5 corrected count; width 64; 08 R163; reset 0. -/
  lpCorr : Nat := 0
  /-- LPDDR5 uncorrectable count; width 64; 08 R165; reset 0. -/
  lpUe : Nat := 0
  /-- next Sward line to scrub; width 21; 08 R166; reset 0. -/
  scrubSw : Nat := 0
  /-- next LPDDR5 line to scrub; width 29; 08 R166; reset 0. -/
  scrubLp : Nat := 0
  /-- completed Sward scrub passes; width 64; 08 R166; reset 0. -/
  passes : Nat := 0
  deriving DecidableEq, Repr

/-- MemSt at reset: every field at the value its line above gives. -/
def MemSt.init : MemSt := {}

/-- The Intake Engine (13). -/
structure IntakeSt where
  /-- streams, keyed context x 16 + number; width 16 open; 13 R262; reset none open. -/
  streams : Map (Option Stream) := []
  /-- dictionaries, keyed context x 4 + number; width 4 device slots; 13 R262; reset none. -/
  dicts : Map (Option Dict) := []
  deriving DecidableEq, Repr

/-- IntakeSt at reset: every field at the value its line above gives. -/
def IntakeSt.init : IntakeSt := {}


/-- The whole of Larza, and the queue of waiting commands. -/
structure State where
  /-- device state, DEV_STATE; width 4; 05 Table 5.2; reset OFF. -/
  devState : DevState := .off
  /-- PORST_N level; width 1; 03 R54; reset low. -/
  porst : Bool := false
  /-- rails declared lost and not restored; width 9 flags; 03 R57; reset none lost DESIGN CHOICE (log 5). -/
  lostRails : List Rail := []
  /-- RUN has been reached since reset; width 1; 04 R71; reset 0. -/
  reachedRun : Bool := false
  /-- outputs have taken their Route Book functions; width 1; 03 R64, R12; reset outputs in reset state. -/
  outputsUp : Bool := false
  /-- BAR0 registers of PF0 and the VFs; width 16 functions; 06 Table 6.2; reset as FnState. -/
  fns : Map FnState := []
  /-- Waymark slots; width 64 slots; 01 section 1.4; reset zero headers. -/
  waymarks : Map WmSlot := []
  /-- fences, keyed by BLOCK of Table 6.11 and R387; width per block; 01 section 1.6; reset unfenced, generation 0. -/
  fences : Map Fence := []
  /-- Milestone; width struct; 02 section 2.4; reset as TimeSt. -/
  time : TimeSt := TimeSt.init
  /-- Pace governor; width struct; 02 section 2.6; reset as PaceSt. -/
  pace : PaceSt := PaceSt.init
  /-- MC and oscillator monitors; width struct; 02 Table 2.7; reset as McSt. -/
  mc : McSt := McSt.init
  /-- host links; width struct; 04; reset as LinkSt. -/
  link : LinkSt := LinkSt.init
  /-- bring-up stores; width struct; 05; reset as FwSt. -/
  fw : FwSt := FwSt.init
  /-- queues, keyed context x 4 + queue; width 1,024; 07 section 7.2; reset as QueueSt. -/
  queues : Map QueueSt := []
  /-- per-context counters, keyed context x 32 + index; width 256 x 30 x 64; 07 Table 7.8; reset 0. -/
  counters : Map Nat := []
  /-- Scheduler, Scoreboard, ring; width struct; 07 section 7.4, 09 section 9.5; reset as SchedSt. -/
  sched : SchedSt := SchedSt.init
  /-- memories; width struct; 08; reset as MemSt. -/
  mem : MemSt := MemSt.init
  /-- a Perception Island reset is in progress; width 1; 06 R120; reset 0. -/
  piReset : Bool := false
  /-- pool registry; width registry; 12 R245; reset empty. -/
  pools : List Pool := []
  /-- Intake Engine; width struct; 13; reset as IntakeSt. -/
  intake : IntakeSt := IntakeSt.init
  /-- cameras; width 4; 14; reset as CamSt. -/
  cams : Map CamSt := []
  /-- packets discarded per receiver that no camera counts; width 4 counters; 14 R283; reset 0. -/
  rxDiscards : Map Nat := []
  /-- loop slots; width 32; 15; reset as LoopSt. -/
  loops : Map LoopSt := []
  /-- Verge; width struct; 16; reset as VergeSt. -/
  verge : VergeSt := VergeSt.init
  /-- CAN controllers; width 4; 17; reset as CanSt. -/
  cans : Map CanSt := []
  /-- small ports; width struct; 18; reset as PortsSt. -/
  ports : PortsSt := PortsSt.init
  /-- how many free values have been drawn; width model's own; model; reset 0 DESIGN CHOICE (log 2). -/
  free : Nat := 0
  /-- what Larza has sent outside, oldest first; width model's own; model; reset empty DESIGN CHOICE (log 3). -/
  out : List Out := []
  /-- commands waiting, first in first out; width queue; model; reset empty. -/
  pending : List Instr := []
  deriving DecidableEq, Repr

/-- The machine right after reset (05 Table 5.2, state OFF): every field at the value its line above gives. -/
def State.reset : State := {}

end Sys2Proof.Machine
end

