-- ==== Sys2Proof/Machine/Bits.lean ====
section
/-! DEFINITION. Bits, bytes and finite maps: little-endian fields (00 Table 0.3), sign extension, and the canonical
maps that memory and register files are kept in. -/

namespace Sys2Proof.Machine

/-- Bits hi:lo of a number. -/
def bits (n hi lo : Nat) : Nat := (n >>> lo) % 2 ^ (hi + 1 - lo)

/-- A number taken as a signed value of `w` bits. -/
def signed (w n : Nat) : Int :=
  let m := n % 2 ^ w
  if m < 2 ^ (w - 1) then (m : Int) else (m : Int) - (2 ^ w : Nat)

/-- The low `w` bits of an integer, as a natural number. -/
def unsigned (w : Nat) (i : Int) : Nat := (i % ((2 ^ w : Nat) : Int)).toNat

/-- An integer wrapped into `w` signed bits. -/
def wrapTo (w : Nat) (i : Int) : Int := signed w (unsigned w i)

/-- An integer held between two bounds. -/
def clampTo (lo hi i : Int) : Int := max lo (min hi i)

/-- 1 for true, 0 for false. -/
def b2n (b : Bool) : Nat := if b then 1 else 0

/-- A count that stops at its largest value. -/
def satAdd (cap a b : Nat) : Nat := min cap (a + b)

/-- A 64-bit counter's sum (07 R147). -/
def add64 (a b : Nat) : Nat := (a + b) % 2 ^ 64

/-- The `k` little-endian bytes of a number. -/
def le : Nat → Nat → List Byte
  | 0, _ => []
  | k + 1, n => BitVec.ofNat 8 n :: le k (n / 256)

/-- The number that little-endian bytes spell. -/
def unle : List Byte → Nat
  | [] => 0
  | b :: r => b.toNat + 256 * unle r

/-- Byte `i` of a list, 0 past its end. -/
def byteAt (l : List Byte) (i : Nat) : Nat := (l.getD i 0).toNat

/-- A quotient by a positive number, rounded once to the nearest integer, ties to even (10 R203). -/
def rneInt (n : Int) (d : Nat) : Int :=
  let q := n / (d : Int)
  let r := n % (d : Int)
  if 2 * r < d then q else if d < 2 * r then q + 1 else q + q % 2

/-- The little-endian field of `k` bytes at offset `i`; bytes past the end are 0. -/
def fieldAt (l : List Byte) (i k : Nat) : Nat := unle ((l.drop i).take k)

/-- Every byte from offset `i`, `k` of them, is 0. -/
def zeroAt (l : List Byte) (i k : Nat) : Bool := ((l.drop i).take k).all (· == 0)

/-- A list brought to length `k`: cut, or filled with `d`. -/
def fit (k : Nat) (d : α) (l : List α) : List α := (l ++ List.replicate k d).take k

/-- Element `i` replaced. -/
def setAt (l : List α) (i : Nat) (v : α) : List α := l.set i v

/-- The numbers from `lo`, `n` of them. -/
def rangeFrom (lo n : Nat) : List Nat := (List.range n).map (lo + ·)

/-- Byte addresses joined into runs: address and length. -/
def joinRuns : List Nat → List (Nat × Nat)
  | [] => []
  | a :: r =>
    match joinRuns r with
    | (b, n) :: q => if b = a + 1 then (a, n + 1) :: q else (a, 1) :: (b, n) :: q
    | [] => [(a, 1)]

/-- The value of `m` at key `k`, or `d` where no entry is listed. -/
def Map.get (d : α) : Map α → Nat → α
  | [], _ => d
  | (k', v) :: r, k => if k' = k then v else if k < k' then d else Map.get d r k

/-- `m` with `v` at key `k`, in canonical form: an entry equal to the default is not listed. -/
def Map.set [DecidableEq α] (d : α) : Map α → Nat → α → Map α
  | [], k, v => if v = d then [] else [(k, v)]
  | (k', v') :: r, k, v =>
    if k < k' then (if v = d then (k', v') :: r else (k, v) :: (k', v') :: r)
    else if k = k' then (if v = d then r else (k, v) :: r)
    else (k', v') :: Map.set d r k v

/-- `m` without its entries for keys from `lo`, `n` of them. -/
def Map.clear (m : Map α) (lo n : Nat) : Map α := m.filter fun p => decide (p.1 < lo) || decide (lo + n ≤ p.1)

/-- The keys of a map rise strictly from above `lo`. -/
def Map.rising : Nat → Map α → Bool
  | _, [] => true
  | lo, (k, _) :: r => decide (lo ≤ k) && Map.rising (k + 1) r

/-- The canonical form: keys strictly rising, no entry equal to the default. -/
def Map.wf [DecidableEq α] (d : α) (m : Map α) : Bool := Map.rising 0 m && m.all fun p => decide (p.2 ≠ d)

/-- The canonical form of a memory: an unlisted byte reads 0 (08 R161, Table 5.5 step 8; log 6 for host memory). -/
def Memory.wf (m : Map Byte) : Bool := Map.wf 0 m

/-- Bytes `a` to `a + n - 1` of a byte map. -/
def Map.bytes (m : Map Byte) (a n : Nat) : List Byte := (rangeFrom a n).map (Map.get 0 m)

/-- Bytes written from address `a` on. -/
def Map.store : Map Byte → Nat → List Byte → Map Byte
  | m, _, [] => m
  | m, a, b :: r => Map.store (Map.set 0 m a b) (a + 1) r

/-- A field of a Route Book record, by its offset and size. -/
def Rec.u (r : Rec) (off size : Nat) : Nat := fieldAt r.bytes off size

/-- A signed field of a Route Book record. -/
def Rec.i (r : Rec) (off size : Nat) : Int := signed (8 * size) (r.u off size)

end Sys2Proof.Machine
end

