-- ==== Sys2Proof/WellFormed.lean ====
section
/-! DEFINITION. Which commands are well formed: the checks on operands whose types allow more than the hardware can
send. A command that fails its check never reaches Larza. -/

namespace Sys2Proof

/-- A Signpost payload fits SP_CMD (06 Table 6.1). -/
def SpReq.wellFormed (r : SpReq) : Bool := decide (r.payload.length ≤ 248)

/-- Every number of a list fits in `w` bits. -/
def allBelow (w : Nat) (l : List Nat) : Bool := l.all fun n => decide (n < 2 ^ w)

/-- A CAN frame carries at most 64 data bytes (17 Table 17.6). -/
def CanRx.wellFormed : CanRx → Bool
  | .frame f => decide (f.data.length ≤ 64)
  | .error _ _ => true

/-- One Tool Spur search pass reads at most 64 bits of an ID (18 R378). -/
def SpurPass.wellFormed (p : SpurPass) : Bool := decide (p.slots.length ≤ 64)

/-- The operands of a command lie in what the hardware can send. -/
def Instr.wellFormed : Instr → Bool
  | .fwLoad _ r | .fwCommit _ r | .getInfo _ r | .selftestReport _ r | .routeCommit _ r | .routeReport _ r
  | .setMilestone _ r | .start _ r | .clearFault _ r | .resetDevice _ r | .paceSet _ r | .piReset _ r
  | .blockReset _ r | .blockPowerDown _ r | .blockPowerUp _ r | .blockReload _ r | .eventRingSet _ r
  | .timeStatus _ r | .faultRead _ r | .queueState _ r | .queueRestart _ r | .contextInfo _ r
  | .countersRead _ r | .eccCounters _ r | .loopMode _ r | .loopTableWrite _ r | .loopStatus _ r
  | .twinRearm _ r | .annClear _ r | .spurSearch _ r | .spurRead _ r => r.wellFormed
  | .csiLinePacket _ _ _ _ _ _ codes => allBelow 16 codes
  | .canFrameReceive _ rx => rx.wellFormed
  | .spiTransferEnd _ rx => decide (rx.length ≤ 64)
  | .uartCharacterReceive _ votes => decide (9 ≤ votes.length) && decide (votes.length ≤ 12)
  | .spurSearchEnd passes _ => passes.all SpurPass.wellFormed
  | _ => true

end Sys2Proof
end

