-- ==== Sys2Proof/Machine/Ops.lean ====
section
/-! DEFINITION. The operations that every family shares: the outcome of a command, free values, function registers,
the accepted Route Book, posting events and signalling interrupts, counters, and device-state changes. -/

namespace Sys2Proof.Machine

/-- A command's next state: everything but the queue as in `t`, the queue as the step left it in `s`. -/
def done (s t : State) : Host.Outcome State Fault Refusal := .next { t with pending := s.pending }

/-- A command whose operands are well formed has its effect; any other stops (see `Fault.illFormed`). -/
def checked (c : Instr) (mnemonic : String) (s t : State) : Host.Outcome State Fault Refusal :=
  if c.wellFormed then done s t else .fault (.illFormed mnemonic)

/-- DEV_STATE code of a device state (05 Table 5.2). -/
def DevState.code : DevState → Nat
  | .off => 0 | .romWait => 1 | .fwVerify => 2 | .selftest => 3 | .awaitRoute => 4
  | .validate => 5 | .held => 6 | .run => 7 | .fenced => 8 | .fault => 9

/-- In RUN or FENCED. -/
def State.active (s : State) : Bool := s.devState == .run || s.devState == .fenced

/-- Milestone now (02 section 2.4). -/
def State.now (s : State) : Nat := s.time.ms

/-- Draw a free value (log 2). -/
def State.draw (s : State) : Nat × State := (Config.freeValue s.free, { s with free := s.free + 1 })

/-- Record an output (log 3). -/
def State.emit (o : Out) (s : State) : State := { s with out := s.out ++ [o] }

/-- The registers of function `f`. -/
def State.fn (s : State) (f : Nat) : FnState := s.fns.get FnState.init f

/-- Change the registers of function `f`. -/
def State.modFn (f : Nat) (g : FnState → FnState) (s : State) : State :=
  { s with fns := s.fns.set FnState.init f (g (s.fn f)) }

/-! ### The accepted Route Book -/

/-- Records of a TYPE in a book, in book order. -/
def ofType (book : List Rec) (typ : Nat) : List Rec := book.filter (·.typ == typ)

/-- Records of a TYPE in the accepted book. -/
def State.recs (s : State) (typ : Nat) : List Rec := ofType s.fw.book typ

/-- The one record of a TYPE whose byte at offset 8 is `n`. -/
def State.recN (s : State) (typ n : Nat) : Option Rec := (s.recs typ).find? (·.u 8 1 == n)

/-- A field of the first record of a TYPE, 0 where the book has none. -/
def State.recField (s : State) (typ off size : Nat) : Nat :=
  match s.recs typ with
  | r :: _ => r.u off size
  | [] => 0

/-- A CONTEXT record's fields (07 Table 7.4). -/
structure CtxInfo where
  ctx : Nat
  fn : Nat
  weight : Nat
  group : Nat
  isChecked : Bool
  swBase : Nat
  swSize : Nat
  lpBase : Nat
  lpSize : Nat
  deriving DecidableEq, Repr

/-- The fields of a CONTEXT record. -/
def ctxOfRec (r : Rec) : CtxInfo :=
  { ctx := r.u 8 1, fn := r.u 9 1, weight := r.u 0xA 2, group := r.u 0xC 2, isChecked := (r.u 0xE 2).testBit 0,
    swBase := r.u 0x10 4, swSize := r.u 0x14 4, lpBase := r.u 0x18 8, lpSize := r.u 0x20 8 }

/-- Every context of the accepted book (07 R134). -/
def State.ctxs (s : State) : List CtxInfo := (s.recs 0x10).map ctxOfRec

/-- Context `c`, when the accepted book defines it. -/
def State.ctx (s : State) (c : Nat) : Option CtxInfo := s.ctxs.find? (·.ctx == c)

/-- The function that owns context `c`. -/
def State.ctxFn (s : State) (c : Nat) : Option Nat := (s.ctx c).map (·.fn)

/-- A QUEUE record's fields (07 Table 7.5). -/
structure QueueInfo where
  ctx : Nat
  queue : Nat
  qclass : Nat
  depth : Nat
  sqBase : Nat
  cqBase : Nat
  deriving DecidableEq, Repr

/-- The fields of a QUEUE record. -/
def queueOfRec (r : Rec) : QueueInfo :=
  { ctx := r.u 8 1, queue := r.u 9 1, qclass := r.u 0xA 1, depth := r.u 0xB 1, sqBase := r.u 0x10 8, cqBase := r.u 0x18 8 }

/-- Every queue of the accepted book. -/
def State.queueInfos (s : State) : List QueueInfo := (s.recs 0x11).map queueOfRec

/-- Queue `q` of context `c`, when the accepted book defines it. -/
def State.queueInfo (s : State) (c q : Nat) : Option QueueInfo :=
  s.queueInfos.find? fun i => i.ctx == c && i.queue == q

/-- The state of queue `q` of context `c`. -/
def State.queue (s : State) (c q : Nat) : QueueSt := s.queues.get QueueSt.init (c * 4 + q)

/-- Change queue `q` of context `c`. -/
def State.modQueue (c q : Nat) (g : QueueSt → QueueSt) (s : State) : State :=
  { s with queues := s.queues.set QueueSt.init (c * 4 + q) (g (s.queue c q)) }

/-- The lowest host-memory address (08 Table 8.2). -/
def hostBase : Nat := 0x800000000000

/-- The device address of LPDDR5 offset 0 (08 Table 8.2). -/
def lpBase : Nat := 0x1000000000

/-- Usable LPDDR5 bytes: 7/8 of those fitted (08 Table 8.5). -/
def State.usable (s : State) : Nat := s.mem.fittedGiB * 2 ^ 30 / 8 * 7

/-- Bytes of Sward. -/
def swardSize : Nat := 134217728

/-- The context whose share holds LPDDR5 offset `a`, or Sward physical address `a`. -/
def State.shareOwner (s : State) (lp : Bool) (a : Nat) : Option Nat :=
  (s.ctxs.find? fun c =>
    if lp then c.lpBase ≤ a && a < c.lpBase + c.lpSize else c.swBase ≤ a && a < c.swBase + c.swSize).map (·.ctx)

/-! ### Units kept in maps -/

/-- Loop slot `l`. -/
def State.loop (s : State) (l : Nat) : LoopSt := s.loops.get LoopSt.init l

/-- Change loop slot `l`. -/
def State.modLoop (l : Nat) (g : LoopSt → LoopSt) (s : State) : State :=
  { s with loops := s.loops.set LoopSt.init l (g (s.loop l)) }

/-- Camera `k`. -/
def State.cam (s : State) (k : Nat) : CamSt := s.cams.get CamSt.init k

/-- Change camera `k`. -/
def State.modCam (k : Nat) (g : CamSt → CamSt) (s : State) : State :=
  { s with cams := s.cams.set CamSt.init k (g (s.cam k)) }

/-- CAN controller `k`. -/
def State.can (s : State) (k : Nat) : CanSt := s.cans.get CanSt.init k

/-- Change CAN controller `k`. -/
def State.modCan (k : Nat) (g : CanSt → CanSt) (s : State) : State :=
  { s with cans := s.cans.set CanSt.init k (g (s.can k)) }

/-- Encoder channel `k`. -/
def State.enc (s : State) (k : Nat) : EncSt := s.ports.enc.get EncSt.init k

/-- Change encoder channel `k`. -/
def State.modEnc (k : Nat) (g : EncSt → EncSt) (s : State) : State :=
  { s with ports := { s.ports with enc := s.ports.enc.set EncSt.init k (g (s.enc k)) } }

/-- SPI master `k`. -/
def State.spi (s : State) (k : Nat) : SpiSt := s.ports.spi.get SpiSt.init k

/-- Change SPI master `k`. -/
def State.modSpi (k : Nat) (g : SpiSt → SpiSt) (s : State) : State :=
  { s with ports := { s.ports with spi := s.ports.spi.set SpiSt.init k (g (s.spi k)) } }

/-- UART `k`. -/
def State.uart (s : State) (k : Nat) : UartSt := s.ports.uart.get UartSt.init k

/-- Change UART `k`. -/
def State.modUart (k : Nat) (g : UartSt → UartSt) (s : State) : State :=
  { s with ports := { s.ports with uart := s.ports.uart.set UartSt.init k (g (s.uart k)) } }

/-- PWM output `k`. -/
def State.pwm (s : State) (k : Nat) : PwmSt := s.ports.pwm.get PwmSt.init k

/-- Change PWM output `k`. -/
def State.modPwm (k : Nat) (g : PwmSt → PwmSt) (s : State) : State :=
  { s with ports := { s.ports with pwm := s.ports.pwm.set PwmSt.init k (g (s.pwm k)) } }

/-! ### Counters -/

/-- Counter `i` of context `c` (07 Table 7.8). -/
def State.counter (s : State) (c i : Nat) : Nat := s.counters.get 0 (c * 32 + i)

/-- Add to a context's counter, modulo 2^64 (07 R147). -/
def State.count (c i n : Nat) (s : State) : State :=
  if n = 0 then s else { s with counters := s.counters.set 0 (c * 32 + i) (add64 (s.counter c i) n) }

/-- Raise a context's counter to `v` when `v` is larger (07 Table 7.8, counter 10). -/
def State.countMax (c i v : Nat) (s : State) : State :=
  { s with counters := s.counters.set 0 (c * 32 + i) (max (s.counter c i) v) }

/-! ### Interrupts and events -/

/-- Signal an MSI-X vector of a function, or leave it pending while it cannot be sent (04 section 4.1.2, 06 R127). -/
def State.signal (f v : Nat) (s : State) : State :=
  let x := s.fn f
  if x.msixEnable && !x.msixFnMask && x.msixOpen.get false v && s.link.up then s.emit (.msix f v)
  else s.modFn f fun y => { y with msixPending := y.msixPending.set false v true }

/-- Set bits of QSPI_STAT (04 Table 4.9). -/
def State.qspiSet (b : BitVec 4) (s : State) : State := { s with link := { s.link with qspiStat := s.link.qspiStat ||| b } }

/-- QSPI_IRQ_N is driven low (04 R82). -/
def State.qspiIrq (s : State) : Bool := s.link.qspiStat &&& 7#4 != 0#4

/-- Function `f` exists: PF0, or an enabled VF (04 section 4.1.2). -/
def State.fnExists (s : State) (f : Nat) : Bool :=
  f == 0 || (s.link.vfEnable && decide (f ≤ s.link.numVfs.toNat))

/-- The events of `f` wait in the MC event hold: no ring, or a ring in host memory from link-down until the restart of
the function's queues (06 R133, 04 R76, Table 4.7 steps 4 to 7). -/
def State.held (s : State) (f : Nat) : Bool :=
  let x := s.fn f
  !x.evSet || (decide (hostBase ≤ x.evBase) && (!s.link.up || x.evHold))

/-- Events in the MC event hold (04 R76). An event that several functions receive takes one place for each (DESIGN
CHOICE, log 43). -/
def State.holdCount (s : State) : Nat :=
  ((List.range 16).map fun f => if s.held f then (s.fn f).posted.length else 0).sum

/-- Post an event to one function, or count it lost when it would go beyond the hold (06 R130, R133). -/
def State.postTo (e : EvRecord) (f : Nat) (s : State) : State :=
  if s.held f && decide (512 ≤ s.holdCount) then
    s.modFn f fun x => { x with evLost := satAdd 0xFFFFFFFF x.evLost 1, evLostSince := satAdd 0xFFFFFFFF x.evLostSince 1 }
  else s.modFn f fun x => { x with posted := x.posted ++ [e] }

/-- The functions that receive an event: PF0 every one; a VF those of its contexts, DEV_STATE, FENCE_ENTER and
FENCE_EXIT (06 R132). -/
def State.receivers (s : State) (code : Nat) (ctx : Option Nat) : List Nat :=
  let common := code == 0x0001 || code == 0x0004 || code == 0x0005
  let owner := ctx.bind s.ctxFn
  0 :: (rangeFrom 1 15).filter fun f => (s.fnExists f || (s.fn f).evSet) && (common || owner == some f)

/-- The fault events of 19 Table 19.2 (06 R132, 19 R388). -/
def faultEvents : List Nat := [0x0009, 0x0302, 0x0303, 0x0402, 0x0A01, 0x0C03]

/-- Post an event of 19 Table 19.2 with Milestone as its stamp; a fault event signals PF0 (06 R129, R132). -/
def State.post (code payload : Nat) (ctx : Option Nat) (s : State) : State :=
  let e : EvRecord := { code := BitVec.ofNat 16 code, payload := BitVec.ofNat 32 payload, stamp := s.now, ctx := ctx }
  let s1 := (s.receivers code ctx).foldl (fun t f => t.postTo e f) s
  if faultEvents.contains code then (s1.signal 0 1026).qspiSet 4#4 else s1

/-! ### Device state -/

/-- Enter a device state and post DEV_STATE with its cause (05 Table 5.2, 19 Table 19.2); no event for OFF, which
discards every event, and none where the state stays. -/
def State.enter (d : DevState) (cause : Nat) (s : State) : State :=
  if s.devState = d then s
  else
    let s1 := { s with devState := d }
    if d = .off then s1 else s1.post 0x0001 (d.code + s.devState.code * 16 + cause * 65536) none

/-- The Perception Island is fenced: BLOCK 0x60 (19 R387). -/
def State.fenceOf (s : State) (b : Nat) : Fence := s.fences.get {} b

/-- Block `b` is FENCED (01 R22). -/
def State.isFenced (s : State) (b : Nat) : Bool := (s.fenceOf b).fenced

/-- Station `e` does no work: its engine or the whole Perception Island is FENCED (01 R23, R26). -/
def State.stationFenced (s : State) (e : Nat) : Bool := s.isFenced e || s.isFenced 0x60

end Sys2Proof.Machine
end

