-- ==== Sys2Proof/Machine/Memory.lean ====
section
/-! DEFINITION. Memory words and their check bits: reads, correction, poison, full and partial writes, zeroing,
epoch tags, and the device address map (08). -/

namespace Sys2Proof.Machine

/-- The memories with check bits: Sward, LPDDR5, the epoch tags, whose bytes are numbered by Sward line (09 R196), and the
picture store of the IE (13 R268). -/
inductive Mem where
  | sw | lp | tag | pic
  deriving DecidableEq, Repr

/-- The words of a memory. -/
def State.space (s : State) : Mem → MemSpace
  | .sw => s.mem.sward
  | .lp => s.mem.lpddr
  | .tag => s.mem.tag
  | .pic => s.mem.pic

/-- Replace the words of a memory. -/
def State.setSpace (m : Mem) (p : MemSpace) (s : State) : State :=
  match m with
  | .sw => { s with mem := { s.mem with sward := p } }
  | .lp => { s with mem := { s.mem with lpddr := p } }
  | .tag => { s with mem := { s.mem with tag := p } }
  | .pic => { s with mem := { s.mem with pic := p } }

/-- Set what a word decodes to. -/
def State.setMark (m : Mem) (w : Nat) (e : Ecc) (s : State) : State :=
  let p := s.space m
  s.setSpace m { p with marks := p.marks.set Ecc.clean w e }

/-- A 64-bit word's bytes replaced. -/
def State.setWord (m : Mem) (w v : Nat) (s : State) : State :=
  let p := s.space m
  s.setSpace m { p with cells := p.cells.store (w * 8) (le 8 v) }

/-- The outcome that a free value picks for a word in which the code guarantees nothing (08 R396). -/
def eccOf (v : Nat) : Ecc :=
  match v % 4 with
  | 0 => .clean | 1 => .corr | 2 => .ue | _ => .poison

/-- What a word decodes to once it has been written, clean or with the poison syndrome, over its stuck bits: one stuck
bit is corrected at every read or leaves poison poisoned (08 R164); two leave it uncorrectable or poisoned; beyond that
the outcome, and the data where it decodes, are free values (08 R396). -/
def State.reMark (m : Mem) (w : Nat) (poison : Bool) (s : State) : State :=
  let h := (s.space m).hard.get 0 w
  if h = 0 then s.setMark m w (if poison then .poison else .clean)
  else if h = 1 then s.setMark m w (if poison then .poison else .corr)
  else
    let (v, s1) := s.draw
    if h = 2 && !poison then s1.setMark m w (if v % 2 = 0 then .ue else .poison)
    else
      let e := eccOf v
      let s2 := s1.setMark m w e
      if e = .clean || e = .corr then
        let (x, s3) := s2.draw
        s3.setWord m w x
      else s2

/-- LINE of 19 section 19.2: memory in bits 31:30 (0 Sward, 1 LPDDR5, 2 picture store), line number below. -/
def lineOf (m : Mem) (a : Nat) : Nat := (match m with | .lp => 2 ^ 30 | .pic => 2 ^ 31 | _ => 0) + a / 64 % 2 ^ 30

/-- Put a fault record in front of Verge's eight (16 R337). -/
def State.record (code unit reaction detail : Nat) (s : State) : State :=
  let r : FaultRec := { stamp := s.now, code := BitVec.ofNat 16 code, unit := BitVec.ofNat 8 unit,
                        reaction := reaction, devState := s.devState.code, detail := BitVec.ofNat 32 detail }
  { s with verge := { s.verge with records := (r :: s.verge.records).take 8 } }

/-- LPDDR5 channel of a device offset (08 Table 8.6). -/
def lpChannel (u : Nat) : Nat := u / 64 / 7 % 4

/-- The address that a word's byte address stands for: a tag word reports the lowest of its eight lines (09 R196). -/
def Mem.reported (m : Mem) (a : Nat) : Nat := if m = .tag then a * 64 else a

/-- Bytes of store addresses that the model gives each stream (log 21). -/
def storeSpan : Nat := 2 ^ 36

/-- Report an uncorrectable word of the picture store: MEM_UE with the stream's context; the manual gives the store no
line numbers, so LINE's is a free value (13 R268, 19 section 19.2; log 21). -/
def State.storeUe (a : Nat) (s : State) : State :=
  let (v, s1) := s.draw
  s1.post 0x0302 (lineOf .pic (64 * v)) (some (a / storeSpan / 16))

/-- Count and report an uncorrectable word: the device count, MEM_UE with the owner of the share, and Verge's REPORT
record whose UNIT is the tract or channel (08 R165, 16 Table 16.3). -/
def State.memUe (m : Mem) (word : Nat) (s : State) : State :=
  if m = .pic then s.storeUe word else
  let a := m.reported word
  let s1 := if m = .lp then { s with mem := { s.mem with lpUe := add64 s.mem.lpUe 1 } }
            else { s with mem := { s.mem with swUe := add64 s.mem.swUe 1 } }
  let s2 := s1.record 0x8305 (if m = .lp then lpChannel a else a / 2 ^ 24) 0 a
  s2.post 0x0302 (lineOf m a) (s2.shareOwner (m == .lp) a)

/-- Count a corrected word: the device count of its memory, and counter 22 of the context whose own access it is (08
R163); in the picture store, counter 14 of its stream (13 R268). -/
def State.memCorr (m : Mem) (who : Option Nat) (word : Nat) (s : State) : State :=
  if m = .pic then
    let k := word / storeSpan
    { s with mem := { s.mem with picCorr := s.mem.picCorr.set 0 k (add64 (s.mem.picCorr.get 0 k) 1) } }
  else
  let s1 := if m = .lp then { s with mem := { s.mem with lpCorr := add64 s.mem.lpCorr 1 } }
            else { s with mem := { s.mem with swCorr := add64 s.mem.swCorr 1 } }
  match who with
  | some c => s1.count c 22 1
  | none => s1

/-- Read one word: correct and count, or poison and report (08 R163, R165); answers what the word decoded to. -/
def State.readWord (m : Mem) (who : Option Nat) (w : Nat) (s : State) : Ecc × State :=
  let e := (s.space m).marks.get Ecc.clean w
  (e, match e with
      | .clean => s
      | .corr => (s.reMark m w false).memCorr m who (w * 8)
      | .ue => (s.reMark m w true).memUe m (w * 8)
      | .poison => s)

/-- What a run of reads met: how many corrected words, the byte address of the first uncorrectable word, of the first
word already poisoned, and how many bad words. -/
structure Seen where
  corr : Nat := 0
  ueAt : Option Nat := none
  poisonAt : Option Nat := none
  bad : Nat := 0
  deriving DecidableEq, Repr

/-- The reads met no uncorrectable and no poisoned word. -/
def Seen.ok (x : Seen) : Bool := x.ueAt.isNone && x.poisonAt.isNone

/-- One more word met. -/
def Seen.add (x : Seen) (a : Nat) : Ecc → Seen
  | .clean => x
  | .corr => { x with corr := x.corr + 1 }
  | .ue => { x with ueAt := x.ueAt.or (some a), bad := x.bad + 1 }
  | .poison => { x with poisonAt := x.poisonAt.or (some a), bad := x.bad + 1 }

/-- Read the listed words in order. -/
def State.readWords (m : Mem) (who : Option Nat) : List Nat → State → Seen → Seen × State
  | [], s, x => (x, s)
  | w :: r, s, x =>
    let (e, s1) := s.readWord m who w
    State.readWords m who r s1 (x.add (w * 8) e)

/-- LPDDR5 granule size (08 section 8.4.1). -/
def granule : Nat := 2097152

/-- Words of a memory in a byte range rewritten whole with clean check bits. -/
def State.cleanRange (m : Mem) (a n : Nat) (s : State) : State :=
  let p := s.space m
  let lo := (a + 7) / 8
  let k := (a + n) / 8 - lo
  let s1 := s.setSpace m { p with marks := p.marks.clear lo k }
  (p.hard.filter fun h => decide (lo ≤ h.1) && decide (h.1 < lo + k)).foldl (fun t h => t.reMark m h.1 false) s1

/-- Zero a byte range, a whole number of words, with valid check bits (08 R160, R162). -/
def State.zeroRange (m : Mem) (a n : Nat) (s : State) : State :=
  let p := s.space m
  (s.setSpace m { p with cells := p.cells.clear a n }).cleanRange m a n

/-- MEM_ZERO_DONE once no granule is pending, when one is owed (08 R160). -/
def State.zeroDone (s : State) : State :=
  if s.mem.pendGran.isEmpty && s.mem.zeroOwed then
    { s with mem := { s.mem with zeroOwed := false } }.post 0x0301 0 none
  else s

/-- A number put into a rising list. -/
def insNat (n : Nat) : List Nat → List Nat
  | [] => [n]
  | k :: r => if n < k then n :: k :: r else if n = k then k :: r else k :: insNat n r

/-- Mark granules pending: one MEM_ZERO_DONE is owed, at once when none is pending (08 R160). -/
def State.markPending (gs : List Nat) (s : State) : State :=
  { s with mem := { s.mem with pendGran := gs.foldl (fun l g => insNat g l) s.mem.pendGran, zeroOwed := true } }.zeroDone

/-- Zero a pending granule (08 R160, R161). -/
def State.zeroGranule (g : Nat) (s : State) : State :=
  let s1 := s.zeroRange .lp (g * granule) granule
  { s1 with mem := { s1.mem with pendGran := s1.mem.pendGran.filter (· != g) } }.zeroDone

/-- Before an access to LPDDR5 bytes: each pending granule it touches is zeroed (08 R161). -/
def State.touch (m : Mem) (a n : Nat) (s : State) : State :=
  if m ≠ .lp || n = 0 then s
  else (s.mem.pendGran.filter fun g => decide (a / granule ≤ g) && decide (g ≤ (a + n - 1) / granule)).foldl
    (fun t g => t.zeroGranule g) s

/-- Words of a byte range that are not clean, in ascending order. -/
def State.markedIn (s : State) (m : Mem) (a n : Nat) : List Nat :=
  if n = 0 then []
  else ((s.space m).marks.filter fun p => decide (a / 8 ≤ p.1) && decide (p.1 ≤ (a + n - 1) / 8)).map (·.1)

/-- Read bytes: zero pending granules, then every word of the range (a clean word changes nothing). -/
def State.readMem (m : Mem) (who : Option Nat) (a n : Nat) (s : State) : List Byte × Seen × State :=
  let s1 := s.touch m a n
  let (x, s2) := s1.readWords m who (s1.markedIn m a n) {}
  ((s2.space m).cells.bytes a n, x, s2)

/-- A partial write's effect on the check bits of its word (08 Table 8.7); answers whether it met an uncorrectable or
poisoned word. -/
def State.partialWord (m : Mem) (who : Option Nat) (poison : Bool) (w : Nat) (s : State) : Bool × State :=
  match (s.space m).marks.get Ecc.clean w with
  | .clean => (false, if poison then s.reMark m w true else s)
  | .corr => (false, (s.reMark m w poison).memCorr m who (w * 8))
  | .ue => (true, (s.reMark m w true).memUe m (w * 8))
  | .poison => (true, s)

/-- The words that a byte range covers in part: its first and its last. -/
def partialWords (a n : Nat) : List Nat :=
  if n = 0 then []
  else
    let first := a / 8
    let last := (a + n - 1) / 8
    let head := if a % 8 ≠ 0 || (first = last && n < 8) then [first] else []
    let tail := if (a + n) % 8 ≠ 0 && (last ≠ first || head.isEmpty) then [last] else []
    head ++ tail

/-- Write bytes as one access; `poison` writes every word with the poison syndrome. Answers the byte address of the
first uncorrectable or poisoned word that was written in part (08 R167, R169). -/
def State.writeMem (m : Mem) (who : Option Nat) (poison : Bool) (a : Nat) (bs : List Byte) (s : State) :
    Option Nat × State :=
  let n := bs.length
  let s1 := s.touch m a n
  let (bad, s2) := (partialWords a n).foldl (fun (acc : Option Nat × State) w =>
    let (b, t) := acc.2.partialWord m who poison w
    (acc.1.or (if b then some (w * 8) else none), t)) (none, s1)
  let p := s2.space m
  let s3 := s2.setSpace m { p with cells := p.cells.store a bs }
  let s4 := s3.cleanRange m a n
  let lo := (a + 7) / 8
  (bad, if poison then (rangeFrom lo ((a + n) / 8 - lo)).foldl (fun t w => t.reMark m w true) s4 else s4)

/-- Sward lines of a byte range take an epoch tag: a partial write of each line's tag word, which holds eight tags
(09 R194, R196). -/
def State.setTags (who : Option Nat) (epoch a n : Nat) (s : State) : State :=
  if n = 0 then s
  else
    let lo := a / 64
    (rangeFrom lo ((a + n - 1) / 64 + 1 - lo)).foldl (fun t l => (t.writeMem .tag who false l [BitVec.ofNat 8 epoch]).2) s

/-- Write zeros with valid check bits to every Sward line, and tag 0 (01 R10, 08 R162, 09 R194). -/
def State.zeroSward (s : State) : State :=
  (s.zeroRange .sw 0 swardSize).zeroRange .tag 0 (swardSize / 64)

/-! ### Device addresses (08 Table 8.2) -/

/-- Where a device address used by a waybill lies. -/
inductive Place where
  | sward (a : Nat)
  | lpddr (u : Nat)
  | host (a : Nat)
  | nowhere
  deriving DecidableEq, Repr

/-- The target of a device address. -/
def State.place (s : State) (a : Nat) : Place :=
  if a < swardSize then .sward a
  else if lpBase ≤ a && a < lpBase + s.usable then .lpddr (a - lpBase)
  else if hostBase ≤ a && a < 2 * hostBase then .host (a - hostBase)
  else .nowhere

/-- Bytes stored in host memory; `ep` when the TLPs carry EP (08 R172). -/
def State.writeHost (ep : Bool) (a : Nat) (bs : List Byte) (s : State) : State :=
  let m := s.mem
  let words := if bs.isEmpty then [] else rangeFrom (a / 8) ((a + bs.length - 1) / 8 + 1 - a / 8)
  { s with mem := { m with host := m.host.store a bs,
                           hostBad := words.foldl (fun b w => b.set false w ep) m.hostBad } }

/-- Host software's stores into its own memory, as the next read over PCIe finds them (log 6). -/
def State.hostStores (l : List HostStore) (s : State) : State :=
  l.foldl (fun t h => t.writeHost h.bad (h.addr.toNat % hostBase) h.data) s

/-- Bytes of host memory, and whether a completion was poisoned or unsuccessful. -/
def State.readHost (s : State) (a n : Nat) : List Byte × Option Nat :=
  let bad := if n = 0 then []
    else s.mem.hostBad.filter fun p => decide (a / 8 ≤ p.1) && decide (p.1 ≤ (a + n - 1) / 8)
  (s.mem.host.bytes a n, bad.head?.map (·.1 * 8))

/-- The LPDDR5 channel that serves device offset `u` is FENCED: it answers each request with a FENCE response (01 R23). -/
def State.lpShut (s : State) (u : Nat) : Bool := s.isFenced (0x54 + lpChannel u)

/-- Bytes at offset `u` on, cut where a line ends: each piece goes to one channel in one access. -/
def lineCuts : Nat → Nat → List Byte → List (Nat × List Byte)
  | 0, _, _ => []
  | n + 1, u, bs =>
    if bs.isEmpty then [] else (u, bs.take (64 - u % 64)) :: lineCuts n (u + (64 - u % 64)) (bs.drop (64 - u % 64))

/-- Some of `n` bytes from offset `u` lie on a FENCED channel. -/
def State.lpFenced (s : State) (u n : Nat) : Bool := (lineCuts (n / 64 + 2) u (List.replicate n 0)).any fun p => s.lpShut p.1

/-- A record written by the Scheduler, the MC or a port to LPDDR5 or host memory (01 Table 1.7). A FENCED channel takes no
write, and the writer goes on (01 R23; DESIGN CHOICE, log 44). -/
def State.writeDev (who : Option Nat) (a : Nat) (bs : List Byte) (s : State) : State :=
  match s.place a with
  | .lpddr u => (lineCuts (bs.length / 64 + 2) u bs).foldl (fun (t : State) p =>
      if t.lpShut p.1 then t else (t.writeMem .lp who false p.1 p.2).2) s
  | .host h => s.writeHost false h bs
  | _ => s

end Sys2Proof.Machine
end

