-- ==== Sys2Proof/Machine/Complete.lean ====
section
/-! DEFINITION. Waybill fields, completion records and writer outcomes (07 sections 7.2, 7.5; 09 sections 9.5, 9.8),
fences (01 section 1.6), and Verge's reactions to a fault (16 sections 16.3, 16.4). -/

namespace Sys2Proof.Machine

/-! ### Fields of a waybill (09 Tables 9.2, 9.3) -/

def Waybill.opcode (w : Waybill) : Nat := fieldAt w.bytes 6 2
def Waybill.wclass (w : Waybill) : Nat := bits (fieldAt w.bytes 0 8) 47 44
def Waybill.direct (w : Waybill) : Bool := (fieldAt w.bytes 0 8).testBit 43
def Waybill.epoch (w : Waybill) : Nat := byteAt w.bytes 4
def Waybill.seal (w : Waybill) : Bool := (fieldAt w.bytes 0 8).testBit 17
def Waybill.anchor (w : Waybill) : Bool := (fieldAt w.bytes 0 8).testBit 16

/-- The number that operand slot `i` (0 to 2) holds, 12 bytes (09 Table 9.2). -/
def Waybill.slotBits (w : Waybill) (i : Nat) : Nat := fieldAt w.bytes (16 + 12 * i) 12

/-- PARAM, bytes 52 to 63. -/
def Waybill.param (w : Waybill) : List Byte := w.bytes.drop 52

/-- The handle that a HANDLE-mode slot names. -/
def Waybill.handle (w : Waybill) (i : Nat) : Nat := w.slotBits i % 4096

/-- The descriptor copied at fetch for a handle (09 R181). -/
def Waybill.desc (w : Waybill) (h : Nat) : Desc := w.descs.get Desc.init h

/-- The waybill has started on an engine. -/
def Waybill.running (w : Waybill) : Bool := w.engine.isSome

/-- PLAN_ADMIT's RESULT address (09 R180). -/
def Waybill.result (w : Waybill) : Nat := fieldAt w.bytes 40 8

/-- A running waybill that may have an outstanding host-memory request: an XE waybill one of whose descriptors, or whose
RESULT, lies in host memory (04 Table 4.7 step 3). -/
def Waybill.usesHost (w : Waybill) : Bool :=
  w.wclass == 3 && (w.descs.any (fun p => decide (hostBase ≤ p.2.base)) || (w.opcode == 2 && decide (hostBase ≤ w.result)))

/-- A running waybill that may have an outstanding LPDDR5 request: an AE operator, which works on
a pool, or an AE or XE waybill that names LPDDR5. -/
def Waybill.usesLp (w : Waybill) : Bool :=
  let inLp := fun a => decide (lpBase ≤ a) && decide (a < hostBase)
  (w.wclass == 2 && decide (0x300 ≤ w.opcode)) || ((w.wclass == 2 || w.wclass == 3) && (w.descs.any (fun p => inLp p.2.base) || (w.opcode == 2 && inLp w.result)))

/-- A TE product pair of 10 Table 10.4 (R205). -/
def tePair (a b : Nat) : Bool :=
  (a == 0 && b == 0) || (a == 0 && b == 1) || (a == 1 && b == 0)
    || ((a == 1 || a == 2) && (b == 1 || b == 2)) || ((a == 5 || a == 6) && (b == 5 || b == 6))
    || (a == b && decide (7 ≤ a) && decide (a ≤ 9))

/-- FORMAT of operand `i`, where the slot or a descriptor that was read gives it. -/
def Waybill.slotFormat (w : Waybill) (i : Nat) : Option Nat :=
  if w.direct then some (bits (w.slotBits i) 91 88)
  else (w.descs.find? (·.1 == w.handle i)).map (·.2.format)

/-- The product pair of a TE waybill is covered by the residue check: every pair of Table 10.4 but FP32 × FP32, whether
the waybill runs or not (11 R237, R239). -/
def Waybill.residueCovered (w : Waybill) : Bool :=
  w.wclass == 0 && (w.opcode == 0x101 || w.opcode == 0x102) &&
    match w.slotFormat 0, w.slotFormat 1 with
    | some a, some b => tePair a b && a != 9
    | _, _ => false

/-! ### Completion records -/

/-- The flags of a completion record (09 Table 9.11). -/
structure DoneFlags where
  residue : Bool := false
  corrected : Bool := false
  poisoned : Bool := false
  deriving DecidableEq, Repr

/-- A completion record's 32 bytes (09 Table 9.11). -/
def recordBytes (status detail slot engine : Nat) (f : DoneFlags) (seen started finished : Nat) : List Byte :=
  le 8 (status % 65536 * 65536 + slot % 64 * 1024 + engine % 32 * 32 + b2n f.residue * 16 + b2n f.corrected * 8
    + b2n f.poisoned * 4 + detail % 2 ^ 32 * 2 ^ 32) ++ le 8 seen ++ le 8 started ++ le 8 finished

/-- Write a completion record to its ring and signal its vector (07 R138); count it and its bytes (07 R147). -/
def State.writeRecord (i : QueueInfo) (bs : List Byte) (s : State) : State :=
  let q := s.queue i.ctx i.queue
  let addr := i.cqBase + q.cqTail.toNat % i.depth * 32
  let s1 := s.writeDev (some i.ctx) addr bs
  let s2 := (s1.count i.ctx 1 1).count i.ctx (if hostBase ≤ addr then 21 else 20) 32
  let s3 := s2.modQueue i.ctx i.queue fun x => { x with cqTail := x.cqTail + 1 }
  if q.cqHead = q.cqTail then s3.signal ((s.ctxFn i.ctx).getD 0) (i.ctx * 4 + i.queue) else s3

/-- Deliver a record: into the hold store when its ring lies in host memory and the queue is HALTED, else into the
ring (04 Table 4.7 step 4). Where more than the 256 records of R76 come together, all of them are held (DESIGN CHOICE,
log 43). -/
def State.deliver (c q : Nat) (bs : List Byte) (s : State) : State :=
  match s.queueInfo c q with
  | none => s
  | some i =>
    if hostBase ≤ i.cqBase && ((s.queue c q).halted || !s.link.up) then
      s.modQueue c q fun x => { x with held := x.held ++ [bs] }
    else s.writeRecord i bs

/-- The status counters and stamp sums of a completion (07 Table 7.8). -/
def State.countDone (c status seen started finished : Nat) (s : State) : State :=
  let k := status / 4096
  let s1 := if status = 0 then s.count c 2 1 else if k = 2 then s.count c 3 1
            else if k = 4 then s.count c 4 1 else if k = 8 then s.count c 5 1 else s
  let s2 := if status = 0x4405 then s1.count c 25 1 else s1
  ((s2.count c 9 (started - seen)).countMax c 10 (started - seen)).count c 11 (finished - started)

/-- Streams and dictionaries count as handles with these keys, above the handles 0 to 4,095 and the sequences (13 R261). -/
def unitKey (k : Nat) : Bool := decide (8192 ≤ k)

/-- The writer outcome that a completion sets for a key: 0 GOOD, 1 FAILED, 2 FENCED; none where it leaves the outcome, as
CLASS 0x1 does but for streams and dictionaries (09 R186, R187; 13 R263). -/
def outcomeOf (status : Nat) (descFault : Bool) (k : Nat) : Option Nat :=
  if status = 0x4402 then some 2
  else if descFault then some 1
  else match status / 4096 with
    | 2 | 4 => some 1
    | 1 => if unitKey k then some 0 else none
    | _ => some 0

/-- Key of a context's handle in the outcome maps. -/
def outKey (c k : Nat) : Nat := c * 16384 + k

/-- A waybill that waits on `w` for a key that `w` writes takes the outcome of `w` too, also where a later writer of the
key has been fetched since (01 R25, 09 R187; log 45). -/
def Waybill.takeOutcome (w : Waybill) (o : Nat → Option Nat) (v : Waybill) : Waybill :=
  { v with verdict := v.waitFor.foldl (fun a p => if p.2 = w.id ∧ v.ctx = w.ctx then max a ((o p.1).getD 0) else a) v.verdict }

/-- Set the writer outcomes of what a waybill writes, where it is the last-fetched writer, and pass its outcome to those
that wait on it (09 R186, R187; 01 R25). -/
def State.setOutcomes (w : Waybill) (o : Nat → Option Nat) (s : State) : State :=
  let s1 := w.writes.foldl (fun (t : State) k =>
    match o k with
    | some v =>
      let key := outKey w.ctx k
      if t.sched.lastWriter.get 0 key = w.id + 1 then
        { t with sched := { t.sched with outcomes := t.sched.outcomes.set 0 key v } }
      else t
    | none => t) s
  { s1 with sched := { s1.sched with flight := s1.sched.flight.map (w.takeOutcome o) } }

/-! ### The pool registry (12 R243, R245, R246) -/

/-- Registry key of a context's pool: its sharing group, or 256 + the context when it is private. -/
def poolKey (c : CtxInfo) : Nat := if c.group = 0 then 256 + c.ctx else c.group

/-- The pool registered for context `c`. -/
def State.poolOf (s : State) (c : Nat) : Option Pool := (s.ctx c).bind fun i => s.pools.find? (·.key == poolKey i)

/-- Bytes of an element of the pool's FORMAT: E of 12 R240. -/
def poolElem (format : Nat) : Nat := if format = 7 ∨ format = 8 then 2 else 1

/-- BB of 12 R240: a block's header, token IDs and latents. -/
def blockBytes (layers dl format : Nat) : Nat := 320 + 64 * layers * dl * poolElem format

/-! A pool's region holds, from BASE, its header, one node of 64 bytes for each block, the blocks, and the sequence records
(12 section 12.1, R240, R246; the order is a DESIGN CHOICE, log 20). -/

/-- LPDDR5 offset of a pool. -/
def Pool.at (p : Pool) : Nat := p.base - lpBase

/-- LPDDR5 offset of the node of block `i`. -/
def Pool.nodeAt (p : Pool) (i : Nat) : Nat := p.at + 4096 + 64 * i

/-- LPDDR5 offset of block `i`, at its header. -/
def Pool.blockAt (p : Pool) (i : Nat) : Nat := p.at + 4096 + 64 * p.nBlocks + blockBytes p.layers p.dl p.format * i

/-- LPDDR5 offset of the ID of token `t` of block `i`. -/
def Pool.idAt (p : Pool) (i t : Nat) : Nat := p.blockAt i + 64 + 4 * t

/-- Bytes of one latent. -/
def Pool.latentBytes (p : Pool) : Nat := p.dl * poolElem p.format

/-- LPDDR5 offset of the latent of token `t` of block `i` at a layer. -/
def Pool.latentAt (p : Pool) (i t layer : Nat) : Nat := p.blockAt i + 320 + (t * p.layers + layer) * p.latentBytes

/-- Bytes of a sequence record (12 R240). -/
def Pool.seqBytes (p : Pool) : Nat := 64 + 4 * p.maxb

/-- Member contexts of a pool, ascending (12 section 12.1). -/
def State.members (s : State) (p : Pool) : List Nat :=
  (List.range 256).filter fun c => (s.ctx c).map poolKey == some p.key

/-- LPDDR5 offset of the record of sequence `n` of the `m`-th member. -/
def Pool.seqAt (p : Pool) (m n : Nat) : Nat := p.blockAt p.nBlocks + (m * p.seqs + n) * p.seqBytes

/-- The granules that a pool region touches. -/
def Pool.granules (p : Pool) : List Nat :=
  let lo := (p.base - lpBase) / granule
  rangeFrom lo ((p.base - lpBase + p.bytes - 1) / granule + 1 - lo)

/-- Unregister the pools that a condition picks; their granules are pending again (12 R243). -/
def State.unregister (f : Pool → Bool) (s : State) : State :=
  (s.pools.filter f).foldl (fun t p => t.markPending p.granules) { s with pools := s.pools.filter fun p => !f p }

/-- An AE operator that works on a pool. -/
def Waybill.namesPool (w : Waybill) : Bool := w.wclass == 2 && decide (0x302 ≤ w.opcode) && decide (w.opcode ≤ 0x305)

/-- A POOL_INIT in flight that completes with a status other than 0x0000 unregisters its pool, and every waybill that
was waiting on it completes with 0x4401 without running (12 R246). -/
def State.poolFailed (w : Waybill) (status : Nat) (s : State) : State :=
  match s.ctx w.ctx with
  | none => s
  | some i =>
    if w.wclass = 2 ∧ w.opcode = 0x301 ∧ status ≠ 0 ∧ s.sched.flight.any (·.id == w.id) then
      let s1 := s.unregister (·.key == poolKey i)
      { s1 with sched := { s1.sched with flight := s1.sched.flight.map fun (v : Waybill) =>
          if v.namesPool && !v.running && (s.ctx v.ctx).map poolKey == some (poolKey i) then
            { v with waits := [], waitFor := [], ready := false, verdict := 1 } else v } }
    else s

/-- Complete one waybill: record, counters, outcomes; it leaves the Scoreboard, and no other waybill waits on it
(09 R185, R197). `engine` is 31 when it never started. -/
def State.finish (w : Waybill) (status detail : Nat) (f : DoneFlags) (descFault : Bool) (s : State) : State :=
  let started := if w.running then w.started else s.now
  let bs := recordBytes status detail w.slot (w.engine.getD 31) { f with corrected := f.corrected || w.corrected, residue := f.residue || w.residueCovered }
              w.seen started s.now
  let s1 := (s.poolFailed w status).setOutcomes w (outcomeOf status descFault)
  let s2 := { s1 with sched := { s1.sched with
    flight := (s1.sched.flight.filter fun (v : Waybill) => v.id != w.id).map fun (v : Waybill) => { v with waits := v.waits.filter (· != w.id) } } }
  (s2.countDone w.ctx status w.seen started s.now).deliver w.ctx w.queue bs

/-- The worst writer outcome among some keys of a context: FENCED before FAILED before GOOD (09 R187). -/
def State.worstOutcome (s : State) (c : Nat) (keys : List Nat) : Nat :=
  keys.foldl (fun a k => max a (s.sched.outcomes.get 0 (outKey c k))) 0

/-- Waits that have ended are settled in fetch order: a waybill whose read handle is FENCED or FAILED completes without
running, and that may end further waits (09 R187, 01 R25). -/
def State.settle : Nat → State → State
  | 0, s => s
  | n + 1, s =>
    match s.sched.flight.find? fun w => !w.ready && w.waits.isEmpty with
    | none => s
    | some w =>
      let v := max w.verdict (s.worstOutcome w.ctx (w.waitFor.map (·.1)))
      if v = 2 then State.settle n (s.finish w 0x4402 0 {} false)
      else if v = 1 then State.settle n (s.finish w 0x4401 0 {} false)
      else State.settle n { s with sched := { s.sched with
        flight := s.sched.flight.map fun x => if x.id = w.id then { x with ready := true } else x } }

/-- Settle every wait that has ended. -/
def State.settleAll (s : State) : State := s.settle (2 * s.sched.flight.length + 1)

/-- Complete a waybill in flight and settle the waits that this ends. -/
def State.complete (w : Waybill) (status detail : Nat) (f : DoneFlags) (s : State) : State :=
  (s.finish w status detail f false).settleAll

/-! ### Fences -/

/-- Change the fence of block `b`. -/
def State.modFence (b : Nat) (g : Fence → Fence) (s : State) : State :=
  { s with fences := s.fences.set {} b (g (s.fenceOf b)) }

/-- The SENSOR record of camera `k` (14 Table 14.3). -/
def State.sensor (s : State) (k : Nat) : Option Rec := s.recN 0x52 k

/-- WIDTH and HEIGHT of a SENSOR record. -/
def camWidth (r : Rec) : Nat := r.u 0xC 2
def camHeight (r : Rec) : Nat := r.u 0xE 2

/-- Add to counter `i` of a camera (14 Table 14.9). -/
def CamSt.bump (i n : Nat) (x : CamSt) : CamSt :=
  if n = 0 then x else { x with counters := x.counters.set 0 i (add64 (x.counters.get 0 i) n) }

/-- Repaired lines of a frame of this size: padded in whole or part, or missing (14 section 14.5). -/
def CamFrame.repaired (w h : Nat) (f : CamFrame) : Nat :=
  f.lines.countP (fun l => match l with | none => true | some p => decide (p.length < w)) + (h - f.lines.length)

/-- The open frame of camera `k` ends, with the flags that its end adds (14 R295, Table 14.8). -/
def State.endFrame (k flags : Nat) (s : State) : State :=
  let x := s.cam k
  match x.frame, s.sensor k with
  | some f, some r =>
    let short := if f.lines.length < camHeight r then 4 else 0
    let g := { f with flags := f.flags ||| BitVec.ofNat 8 (flags ||| short), ended := some s.now }
    s.modCam k fun y => { (y.bump 3 (g.repaired (camWidth r) (camHeight r))).bump 4 f.cut with
      frame := none, done := y.done ++ [g] }
  | _, _ => s

/-- Frames of a camera that no branch will deliver count in the DROPPED of each (14 Table 14.6). -/
def CamSt.undelivered (n : Nat) (x : CamSt) : CamSt :=
  { x with dropCount := (List.range 4).foldl (fun m b => m.set 0 b (satAdd 0xFFFF (m.get 0 b) n)) x.dropCount }

/-- What a fence does to cameras: an ISP abandons its frames; a receiver's fence ends the open frames of its cameras as
short frames (14 R295, R298). -/
def State.camFence (b : Nat) (s : State) : State :=
  if 0x13 ≤ b ∧ b < 0x17 then s.modCam (b - 0x13) fun x =>
    { x.undelivered (x.done.length + b2n x.frame.isSome) with frame := none, done := [], resync := true }
  else if 0x22 ≤ b ∧ b < 0x26 then
    (List.range 4).foldl (fun t k =>
      match t.sensor k with
      | some r => if r.u 9 1 / 4 = b - 0x22 then t.endFrame k 16 else t
      | none => t) s
  else s

/-- Raise a fence line: the generation goes up (01 section 1.6, Table 1.8 step 2). -/
def State.raiseFence (b : Nat) (s : State) : State :=
  (s.modFence b fun f => { f with fenced := true, gen := f.gen + 1 }).camFence b

/-- Post FENCE_ENTER or FENCE_EXIT for a block with its generation (19 Table 19.2). -/
def State.postFence (code b : Nat) (s : State) : State := s.post code (b + (s.fenceOf b).gen.toNat * 256) none

/-- Waybills that a condition picks among those running complete with 0x4402, in fetch order (01 R24). -/
def State.abortRunning (p : Waybill → Bool) (s : State) : State :=
  ((s.sched.flight.filter fun w => w.running && p w).foldl (fun t w => t.finish w 0x4402 0 {} false) s).settleAll

/-- A block enters FENCED: fence line, generation, the waybills running on it or holding a request to it, and
FENCE_ENTER (01 R22 to R24, Table 1.8). No effect on a block already FENCED. -/
def State.enterFence (b : Nat) (s : State) : State :=
  if s.isFenced b then s
  else
    let s1 := (s.raiseFence b).abortRunning fun w =>
      w.engine == some b || (b == 0x50 && w.usesHost) || (decide (0x54 ≤ b) && decide (b < 0x58) && w.usesLp)
    s1.postFence 0x0004 b

/-- The blocks of the Perception Island: stations, camera ISPs, Sward tracts (01 Table 1.2). -/
def piBlocks : List Nat := rangeFrom 0 19 ++ rangeFrom 0x13 4 ++ rangeFrom 0x58 8

/-- The whole Perception Island is fenced: the island and each of its blocks raise their fences, RUN becomes FENCED, running waybills are cut, and the
events follow (01 R29, R44, 19 R389). -/
def State.fencePi (s : State) : State :=
  if s.isFenced 0x60 then s
  else
    let fresh := piBlocks.filter fun b => !s.isFenced b
    let s1 := (0x60 :: fresh).foldl (fun t b => t.raiseFence b) s
    let s2 := if s1.devState = .run then s1.enter .fenced 0 else s1
    let s3 := s2.abortRunning fun w => decide (w.engine.getD 31 < 19)
    (0x60 :: fresh).foldl (fun t b => t.postFence 0x0004 b) s3

/-! ### Reactions -/

/-- Reactions of 16 Table 16.4. -/
inductive Reaction where
  | report | reduced | fenceTe | fencePi | controlled | immediate
  deriving DecidableEq, Repr

/-- REACTION of 16 Table 16.6. -/
def Reaction.code : Reaction → Nat
  | .report => 0 | .reduced => 1 | .fenceTe => 2 | .fencePi => 3 | .controlled => 4 | .immediate => 5

/-- Drive PWM0 to PWM7 low (16 R329, 18 R382). -/
def State.pwmLow (s : State) : State :=
  (List.range 8).foldl (fun (t : State) n =>
    if (t.pwm n).high = 0 then t else (t.modPwm n fun x => { x with high := 0 }).emit (.pwm n 0)) s

/-- CAM_TRIG and CAM_MCLK of camera `k` go low (03 Table 3.7). -/
def State.camPinsLow (s : State) (k : Nat) : State :=
  let x := s.cam k
  let s1 := s.modCam k fun y => { y with trig := false, trigPin := false, mclk := 0 }
  let s2 := if x.trigPin then s1.emit (.trig k false) else s1
  if x.mclk = 0 then s2 else s2.emit (.mclk k 0)

/-- Every GPIO pin is an input again: the sample marks fall and the drivers go off (03 Table 3.7). -/
def State.gpioInputs (s : State) : State :=
  let g := s.ports.gpio
  let s1 := (g.marks.map (·.1)).foldl (fun (t : State) p => t.emit (.mark p false)) s
  let s2 := if g.drive = 0 then s1 else s1.emit (.gpio 0 0)
  { s2 with ports := { s2.ports with gpio := { g with marks := [], drive := 0 } } }

/-- Every field and actuator output goes to its reset state, and each change of a pin is recorded: STO, PWM, triggers,
camera clocks and sample marks low, GPIO and Twin drivers off (01 R12; 03 R58, R64, Table 3.7). -/
def State.outputsDown (s : State) : State :=
  let v := s.verge
  let s1 := if v.stoA then s.emit (.sto 0 false) else s
  let s2 := if v.stoB then s1.emit (.sto 1 false) else s1
  let s3 := (((List.range 4).foldl State.camPinsLow s2).gpioInputs).pwmLow
  { s3 with outputsUp := false, verge := { v with stoA := false, stoB := false, twin := { v.twin with on := false } } }

/-- Assert STO: both channels low, STO_ASSERTED when one was high (16 R329, R334). -/
def State.assertSto (cause : Nat) (s : State) : State :=
  let v := s.verge
  let s1 := { s with verge := { v with stoA := false, stoB := false, stoByStop := true, stoCause := BitVec.ofNat 16 cause } }
  let s2 := if v.stoA then s1.emit (.sto 0 false) else s1
  let s3 := if v.stoB then s2.emit (.sto 1 false) else s2
  (if v.stoA || v.stoB then s3.post 0x0A05 cause none else s3).pwmLow

/-- The LOOP record of loop `l` (15 Table 15.2). -/
def State.loopRec (s : State) (l : Nat) : Option Rec := s.recN 0x30 l

/-- A controlled stop whose loops have all reported ramp done ends in STO (16 R330). -/
def State.endRamps (s : State) : State :=
  if s.verge.stop = .controlled ∧ (List.range 32).all fun l => (s.loopRec l).isNone || (s.loop l).rampDone then
    if s.verge.stoA || s.verge.stoB || !s.verge.stoByStop then s.assertSto s.verge.stoCause.toNat else s
  else s

/-- Order the controlled stop of every loop, unless a stop is already in force; a loop in MANUAL reports ramp done at
once (15 R319; 16 R330, R331). -/
def State.orderStop (cause : Nat) (s : State) : State :=
  if s.verge.stop = .none then
    ((List.range 32).foldl (fun (t : State) l => t.modLoop l fun x => { x with rampVel := none, rampDone := x.manual })
      { s with verge := { s.verge with stop := .controlled, stopSince := s.now, stoCause := BitVec.ofNat 16 cause } }).endRamps
  else s

/-- The queues in context and queue order complete what has not started with 0x4201 (07 R146). -/
def State.abortQueue (i : QueueInfo) (s : State) : State :=
  let s1 := (s.sched.flight.filter fun w => w.ctx == i.ctx && w.queue == i.queue && !w.running).foldl
    (fun t w => t.finish w 0x4201 0 {} false) s
  let q := s1.queue i.ctx i.queue
  let n := (q.sqTail - q.fetched).toNat
  let s2 := (List.range n).foldl (fun t k =>
    let slot := (q.fetched.toNat + k) % i.depth
    (t.countDone i.ctx 0x4201 t.now t.now t.now).deliver i.ctx i.queue
      (recordBytes 0x4201 0 slot 31 {} t.now t.now t.now)) s1
  s2.modQueue i.ctx i.queue fun x => { x with fetched := x.sqTail }

/-- Entry to FAULT aborts the work that has not started (07 R146). -/
def State.abortWork (s : State) : State := s.queueInfos.foldl (fun t i => t.abortQueue i) s

/-- The codes of hardware faults and stop demands (16 Table 16.3), which take RUN and FENCED to FAULT (05 Table 5.2). -/
def demandsFault (code : Nat) : Bool :=
  (decide (0x8A01 ≤ code) && decide (code ≤ 0x8A07)) || (decide (0x8A0C ≤ code) && decide (code ≤ 0x8A0F))

/-- A detected fault is recorded and reported with SAFETY_FAULT; a hardware fault or a stop demand in RUN or FENCED
enters FAULT, through which an island that is fenced then stays fenced until START (16 R328, 19 R389; 05 R108). -/
def State.noteFault (code unit : Nat) (r : Reaction) (detail : Nat) (s : State) : State :=
  let s1 := (s.record code unit r.code detail).post 0x0A01 (code + unit % 256 * 65536 + r.code * 2 ^ 24) none
  if demandsFault code && s.active then
    ({ s1 with fw := { s1.fw with faultCause := BitVec.ofNat 16 code, piHeld := s1.isFenced 0x60 } }.enter .fault code).abortWork
  else s1

/-- The reaction to a fault (16 Table 16.4); a stop acts only where outputs may be live. -/
def State.react (code unit : Nat) (r : Reaction) (live : Bool) (s : State) : State :=
  match r with
  | .immediate => if live then { s with verge := { s.verge with stop := .immediate } }.assertSto code else s
  | .controlled => if live then s.orderStop code else s
  | .fencePi => s.fencePi
  | .fenceTe => s.enterFence unit
  | .report | .reduced => s

/-- A detected fault of 16 Table 16.3 with its reaction (16 R328, 19 R389). -/
def State.raise (code unit : Nat) (r : Reaction) (detail : Nat) (s : State) : State :=
  (s.noteFault code unit r detail).react code unit r (s.active || s.devState == .fault)

end Sys2Proof.Machine
end

