-- ==== Sys2Proof/Machine/Numbers.lean ====
section
/-! DEFINITION. Number formats: exact values, the one rounding rule, conversions, saturation, and the elementary
functions of the vector operators (10 sections 10.1, 10.2; 11 R233). -/

namespace Sys2Proof.Machine

/-- A real value as the arithmetic of 10 sees it: NaN, an infinity, or an exact dyadic number (-1)^neg × m × 2^e, in
which zero keeps its sign (10 R201). -/
inductive Rv where
  | nan
  | inf (neg : Bool)
  | fin (neg : Bool) (m : Nat) (e : Int)
  deriving DecidableEq, Repr

/-- Positive zero. -/
def rv0 : Rv := .fin false 0 0

/-- An integer as a real value. -/
def rvInt (i : Int) : Rv := .fin (decide (i < 0)) i.natAbs 0

/-- Bits needed to write a number. -/
def bitLen (n : Nat) : Nat := if n = 0 then 0 else Nat.log2 n + 1

/-- The signed integer that m × 2^e is in units of 2^u, for u ≤ e. -/
def scaled (neg : Bool) (m : Nat) (e u : Int) : Int :=
  let k := m * 2 ^ (e - u).toNat
  if neg then -(k : Int) else k

/-- Exact sum of a list: NaN and infinities by IEEE 754; an exact zero is −0 only when every addend is −0. -/
def rvSum (l : List Rv) : Rv :=
  if l.any (· == .nan) then .nan
  else if l.any (· == .inf true) then (if l.any (· == .inf false) then .nan else .inf true)
  else if l.any (· == .inf false) then .inf false
  else
    let u := l.foldl (fun (a : Int) x => match x with | .fin _ _ e => min a e | _ => a) 0
    let t := l.foldl (fun (a : Int) x => match x with | .fin n m e => a + scaled n m e u | _ => a) 0
    if t = 0 then
      .fin (!l.isEmpty && l.all fun x => match x with | .fin n m _ => n && m == 0 | _ => false) 0 0
    else .fin (decide (t < 0)) t.natAbs u

/-- Exact sum of two values. -/
def rvAdd (x y : Rv) : Rv := rvSum [x, y]

/-- Sign changed. -/
def rvNeg : Rv → Rv
  | .nan => .nan
  | .inf n => .inf !n
  | .fin n m e => .fin (!n) m e

/-- Magnitude. -/
def rvAbs : Rv → Rv
  | .nan => .nan
  | .inf _ => .inf false
  | .fin _ m e => .fin false m e

/-- Exact product. -/
def rvMul : Rv → Rv → Rv
  | .nan, _ => .nan
  | _, .nan => .nan
  | .inf a, .inf b => .inf (a != b)
  | .inf a, .fin b m _ => if m = 0 then .nan else .inf (a != b)
  | .fin a m _, .inf b => if m = 0 then .nan else .inf (a != b)
  | .fin a m e, .fin b n f => .fin (a != b) (m * n) (e + f)

/-- A quotient to more bits than any format holds, with a sticky bit below them, so that one rounding of it is one
rounding of the exact quotient. -/
def rvDiv : Rv → Rv → Rv
  | .nan, _ => .nan
  | _, .nan => .nan
  | .inf _, .inf _ => .nan
  | .inf a, .fin b _ _ => .inf (a != b)
  | .fin a _ _, .inf b => .fin (a != b) 0 0
  | .fin a m e, .fin b n f =>
    if n = 0 then (if m = 0 then .nan else .inf (a != b))
    else
      let k := 400 + bitLen n
      let q := m * 2 ^ k / n
      .fin (a != b) (2 * q + (if m * 2 ^ k % n = 0 then 0 else 1)) (e - f - k - 1)

/-- x < y for values that are not NaN. -/
def rvLt : Rv → Rv → Bool
  | .nan, _ => false
  | _, .nan => false
  | .inf a, .inf b => a && !b
  | .inf a, .fin _ _ _ => a
  | .fin _ _ _, .inf b => !b
  | .fin a m e, .fin b n f =>
    let u := min e f
    decide (scaled a m e u < scaled b n f u)

/-- The larger of two values that are not NaN. -/
def rvMax (x y : Rv) : Rv := if rvLt x y then y else x

/-- Is NaN. -/
def Rv.isNan : Rv → Bool
  | .nan => true
  | _ => false

/-- Is a finite number. -/
def Rv.isFin : Rv → Bool
  | .fin _ _ _ => true
  | _ => false

/-- Is a zero of either sign. -/
def Rv.isZero : Rv → Bool
  | .fin _ m _ => m == 0
  | _ => false

/-- A floating format: bits of precision, exponent of the least subnormal, largest finite value as m × 2^e, width, and
whether a finite value out of range goes to the largest finite value (10 Tables 10.2, 10.3). -/
structure FloatFmt where
  prec : Nat
  emin : Int
  maxM : Nat
  maxE : Int
  width : Nat
  clamps : Bool
  infs : Bool
  canonNan : Nat
  deriving DecidableEq, Repr

def fp32 : FloatFmt := ⟨24, -149, 2 ^ 24 - 1, 104, 32, false, true, 0x7FC00000⟩
def bf16 : FloatFmt := ⟨8, -133, 2 ^ 8 - 1, 120, 16, false, true, 0x7FC0⟩
def fp16 : FloatFmt := ⟨11, -24, 2 ^ 11 - 1, 5, 16, false, true, 0x7E00⟩
def e5m2 : FloatFmt := ⟨3, -16, 7, 13, 8, true, true, 0x7E⟩
def e4m3 : FloatFmt := ⟨4, -9, 14, 5, 8, true, false, 0x7F⟩

/-- A number cut at 2^e', rounded to nearest with ties to even (10 R203). -/
def rneShift (m s : Nat) : Nat :=
  let q := m >>> s
  let r := m % 2 ^ s
  if s = 0 then m
  else if 2 * r < 2 ^ s then q
  else if 2 ^ s < 2 * r then q + 1
  else q + q % 2

/-- One rounding of an exact value to a precision and a least exponent. -/
def roundMag (prec : Nat) (emin : Int) (m : Nat) (e : Int) : Nat × Int :=
  let e' := max (e + bitLen m - prec) emin
  if e' ≤ e then (m, e) else (rneShift m (e' - e).toNat, e')

/-- m × 2^e exceeds n × 2^f. -/
def exceeds (m : Nat) (e : Int) (n : Nat) (f : Int) : Bool :=
  let u := min e f
  decide (n * 2 ^ (f - u).toNat < m * 2 ^ (e - u).toNat)

/-- Convert a value to a floating format; the flag tells that a finite or infinite value was clamped to the largest
finite value (10 Table 10.3, section 10.2). -/
def toFloat (f : FloatFmt) : Rv → Rv × Bool
  | .nan => (.nan, false)
  | .inf n => if f.infs then (.inf n, false) else (.fin n f.maxM f.maxE, true)
  | .fin n m e =>
    let (m', e') := roundMag f.prec f.emin m e
    if exceeds m' e' f.maxM f.maxE then
      (if f.clamps then (.fin n f.maxM f.maxE, true) else (.inf n, false))
    else (.fin n m' e', false)

/-- Rounding to FP32. -/
def rne32 (x : Rv) : Rv := (toFloat fp32 x).1

/-- The code of a value that the format represents (10 Table 10.2). -/
def encodeFloat (f : FloatFmt) : Rv → Nat
  | .nan => f.canonNan
  | .inf n => b2n n * 2 ^ (f.width - 1) + (2 ^ (f.width - 1) - 2 ^ (f.prec - 1))
  | .fin n m e =>
    let s := b2n n * 2 ^ (f.width - 1)
    if m = 0 then s
    else
      let u := max (e + bitLen m - f.prec) f.emin
      let k := if u ≤ e then m * 2 ^ (e - u).toNat else m >>> (u - e).toNat
      if k < 2 ^ (f.prec - 1) then s + k
      else s + (u - f.emin + 1).toNat * 2 ^ (f.prec - 1) + (k - 2 ^ (f.prec - 1))

/-- The value of a code of a floating format. -/
def decodeFloat (f : FloatFmt) (c : Nat) : Rv :=
  let n := c.testBit (f.width - 1)
  let b := c % 2 ^ (f.width - 1) / 2 ^ (f.prec - 1)
  let m := c % 2 ^ (f.prec - 1)
  let top := 2 ^ (f.width - f.prec) - 1
  if f.infs && b == top then (if m = 0 then .inf n else .nan)
  else if !f.infs && b == top && m == 2 ^ (f.prec - 1) - 1 then .nan
  else if b = 0 then .fin n m f.emin
  else .fin n (2 ^ (f.prec - 1) + m) (f.emin + b - 1)

/-- The floating format of a FORMAT code, if it names one (10 Table 10.2). -/
def floatFmt : Nat → Option FloatFmt
  | 5 => some e4m3 | 6 => some e5m2 | 7 => some fp16 | 8 => some bf16 | 9 => some fp32
  | _ => none

/-- Bits of an element of a FORMAT code (10 Table 10.2). -/
def formatBits : Nat → Nat
  | 0 => 4 | 1 => 8 | 2 => 8 | 3 => 16 | 4 => 32 | 5 => 8 | 6 => 8 | 7 => 16 | 8 => 16 | 9 => 32
  | _ => 8

/-- The bytes of an element; INT4 counts one byte (09 R183). -/
def formatSize (f : Nat) : Nat := max 1 (formatBits f / 8)

/-- FORMAT is an integer format. -/
def isIntFmt (f : Nat) : Bool := f ≤ 4

/-- Least and largest integers of an integer format. -/
def intRange : Nat → Int × Int
  | 0 => (-8, 7) | 1 => (-128, 127) | 2 => (0, 255) | 3 => (-32768, 32767)
  | _ => (-2147483648, 2147483647)

/-- The integer that a code of an integer format stands for. -/
def codeInt (f c : Nat) : Int := if f = 2 then (c % 256 : Nat) else signed (formatBits f) c

/-- The value of a code of any format. -/
def decodeCode (f c : Nat) : Rv :=
  match floatFmt f with
  | some ff => decodeFloat ff (c % 2 ^ ff.width)
  | none => rvInt (codeInt f c)

/-- The value rounded to an integer (10 R203). -/
def roundInt (neg : Bool) (m : Nat) (e : Int) : Int :=
  let k := if 0 ≤ e then m * 2 ^ e.toNat else rneShift m e.natAbs
  if neg then -(k : Int) else k

/-- Clamp an integer to an integer format; the flag tells a clamp. -/
def satInt (f : Nat) (i : Int) : Int × Bool :=
  let (lo, hi) := intRange f
  (clampTo lo hi i, decide (i < lo) || decide (hi < i))

/-- conv of 10 section 10.6: a value to a code of a format by Table 10.3, and whether the element is saturated. -/
def convTo (f : Nat) (x : Rv) : Nat × Bool :=
  match floatFmt f with
  | some ff =>
    let (y, sat) := toFloat ff x
    (encodeFloat ff y, sat)
  | none =>
    match x with
    | .nan => (0, false)
    | .inf n => (unsigned (formatBits f) (if n then (intRange f).1 else (intRange f).2), true)
    | .fin n m e =>
      let (i, sat) := satInt f (roundInt n m e)
      (unsigned (formatBits f) i, sat)

/-- The FP32 code of a value. -/
def fp32Code (x : Rv) : Nat := encodeFloat fp32 (rne32 x)

/-- The value of an FP32 code. -/
def fp32Of (c : Nat) : Rv := decodeFloat fp32 (c % 2 ^ 32)

/-- The value of a UE5M3 block scale (10 Table 10.6). -/
def ue5m3 (c : Nat) : Rv :=
  let e := c / 8 % 32
  let m := c % 8
  if e = 31 ∧ m = 7 then .nan
  else if e = 0 then .fin false m (-17)
  else .fin false (8 + m) ((e : Int) - 18)

/-! ### Elementary functions (11 R233)

Each is formed as an integer times a power of two, far closer to the exact value than half a unit of FP32, with a sticky
bit, and is rounded once by the caller. -/

/-- floor(ln 2 × 2^400). -/
def ln2Fix : Nat := 0xb17217f7d1cf79abc9e3b39803f2f6af40f343267298b62d8a0d175b8baafa2be7b876206debac98559552fb4afa1b10ed2e

/-- floor(2^700 / sqrt(2 pi)). -/
def rsqrt2pi : Nat := 0x662114cf50d942343f2cf1402eae38bfd3829f30512706d8c0471b4802639d2e9df8ac55447d3db723f5d3abb374e88deb14277970be1513278e993445f08cff98282e1fd947ce4b4ecdbd6e65c23395cacb544de69eea3

/-- Sum of the Taylor series of exp, from term k with value t, at r, in fixed point with 400 fraction bits. -/
def expSeries : Nat → Nat → Int → Int → Int
  | 0, _, _, _ => 0
  | n + 1, k, t, r => t + expSeries n (k + 1) (t * r / 2 ^ 400 / (k + 1)) r

/-- exp of a value; past ±200 the result overflows or underflows FP32 whatever its exact value. -/
def rvExp : Rv → Rv
  | .nan => .nan
  | .inf n => if n then rv0 else .inf false
  | .fin n m e =>
    if m = 0 then .fin false 1 0
    else if exceeds m e 200 0 then (if n then .fin false 1 (-400) else .inf false)
    else
      let x : Int := scaled n m (max e (-400)) (-400)
      let k : Int := (x + ln2Fix / 2) / ln2Fix
      let r := x - k * ln2Fix
      .fin false (2 * (expSeries 90 0 (2 ^ 400) r).toNat + 1) (k - 401)

/-- The square root's integer part, bit by bit from bit k - 1. -/
def isqrt : Nat → Nat → Nat → Nat
  | 0, _, r => r
  | k + 1, n, r => isqrt k n (if (r + 2 ^ k) * (r + 2 ^ k) ≤ n then r + 2 ^ k else r)

/-- 1 / sqrt of a value, by IEEE 754 at zero, infinity and below zero. -/
def rvRsqrt : Rv → Rv
  | .nan => .nan
  | .inf n => if n then .nan else rv0
  | .fin n m e =>
    if m = 0 then .inf n
    else if n then .nan
    else
      let m' := if e % 2 = 0 then m else 2 * m
      let h := (e - e % 2) / 2
      let b := bitLen m'
      let q := 2 ^ (2 * (b + 100)) / m'
      let r := isqrt (b + 101) q 0
      let exact := r * r * m' == 2 ^ (2 * (b + 100))
      .fin false (2 * r + (if exact then 0 else 1)) (-h - (b + 100 : Nat) - 1)

/-- 1 / (1 + exp(-x)). -/
def rvSigmoid (x : Rv) : Rv := rvDiv (.fin false 1 0) (rvAdd (.fin false 1 0) (rvExp (rvNeg x)))

/-- tanh; past ±50 it rounds to ±1. -/
def rvTanh : Rv → Rv
  | .nan => .nan
  | .inf n => .fin n 1 0
  | .fin n m e =>
    if m = 0 then .fin n m e
    else if exceeds m e 50 0 then .fin n 1 0
    else
      let t := rvExp (.fin n m (e + 1))
      rvDiv (rvAdd t (.fin true 1 0)) (rvAdd t (.fin false 1 0))

/-- Sum of the series of erf at x / sqrt 2 without its factor: terms (-1)^n x^(2n+1) / (2^n n! (2n+1)), 700 fraction
bits; t is the term without 1 / (2n+1), x2 the square of x. -/
def phiSeries : Nat → Nat → Int → Int → Int
  | 0, _, _, _ => 0
  | k + 1, n, t, x2 =>
    if t = 0 then 0 else t / (2 * n + 1) + phiSeries k (n + 1) (-(t * x2 / 2 ^ 700 / (2 * (n + 1)))) x2

/-- x times the normal distribution function of x (the erf form of GELU); past 16 it is x or rounds to −0. -/
def rvGelu : Rv → Rv
  | .nan => .nan
  | .inf n => if n then fp32Of (Config.limitAtNegInf 5) else .inf false
  | .fin n m e =>
    if m = 0 then .fin n m e
    else if exceeds m e 16 0 then (if n then .fin true 1 (-400) else .fin n m e)
    else
      let x : Int := scaled n m (max e (-700)) (-700)
      let s := phiSeries 1200 0 x (x * x / 2 ^ 700)
      let phi : Int := 2 ^ 699 + s * rsqrt2pi / 2 ^ 700
      rvMul (.fin n m e) (.fin false (2 * phi.toNat + 1) (-701))

/-- x / (1 + exp(-x)). -/
def rvSilu (x : Rv) : Rv :=
  match x with
  | .inf true => fp32Of (Config.limitAtNegInf 6)
  | _ => rvDiv x (rvAdd (.fin false 1 0) (rvExp (rvNeg x)))

end Sys2Proof.Machine
end

