-- ==== Sys2Proof/Machine/Operands.lean ====
section
/-! DEFINITION. Operand forms: DIRECT-mode slots and tensor descriptors as one view (09 sections 9.1, 9.3), the bytes
each form touches, element codes, scale records, dequantisation, and requantisation with its statistics (10 sections
10.4 to 10.7). -/

namespace Sys2Proof.Machine

/-- Which memory an operand lies in. -/
inductive OpMem where
  | sward | lpddr | host | none
  deriving DecidableEq, Repr

/-- The read forms (09 Table 9.7), and a descriptor's tensor. -/
inductive Form where
  | absent | linear | strided | transpose | tensor
  deriving DecidableEq, Repr

/-- A scale tensor reached from a descriptor: physical base and strides (10 R209). -/
structure ScaleRef where
  mem : OpMem
  base : Nat
  strides : List Nat
  deriving DecidableEq, Repr

/-- An operand: where it lies, its form, and how its elements are laid out. `base` is the physical byte address in its
memory; `dims` has four entries, missing ones 1; for a DIRECT operand `size`, `esize` and `pitch` are the slot's. -/
structure Opnd where
  slot : Nat
  mem : OpMem
  form : Form
  base : Nat
  fmt : Nat
  qmode : Nat
  dims : List Nat
  strides : List Nat
  scale : Option ScaleRef
  size : Nat
  esize : Nat
  pitch : Nat
  chk : Bool
  deriving DecidableEq, Repr

/-- Dimension `i`. -/
def Opnd.dim (o : Opnd) (i : Nat) : Nat := o.dims.getD i 1

/-- Rows: one per value of the indices of DIM1 to DIM3 (10 section 10.4). -/
def Opnd.rows (o : Opnd) : Nat := o.dim 1 * o.dim 2 * o.dim 3

/-- Bytes of a row (10 R200: an INT4 row ends on a byte). -/
def Opnd.rowBytes (o : Opnd) : Nat := (o.dim 0 * formatBits o.fmt + 7) / 8

/-- The memory and physical address that a device address of a context reaches (08 Table 8.2, R151). -/
def State.locate (s : State) (c : CtxInfo) (a : Nat) : OpMem × Nat :=
  match s.place a with
  | .sward x => (.sward, c.swBase + x)
  | .lpddr u => (.lpddr, u)
  | .host h => (.host, h)
  | .nowhere => (.none, 0)

/-- Dimensions of a descriptor, missing ones 1. -/
def Desc.dims4 (d : Desc) : List Nat := (List.range 4).map fun i => if i < d.rank then d.dims.getD i 1 else 1

/-- The operand that a descriptor describes, with the scale tensor it reaches (09 Table 9.9). -/
def State.descOpnd (s : State) (c : CtxInfo) (w : Waybill) (slot : Nat) (d : Desc) : Opnd :=
  let (m, a) := s.locate c d.base
  let sc := w.desc d.scale
  let (sm, sa) := s.locate c sc.base
  { slot := slot, mem := m, form := .tensor, base := a, fmt := d.format, qmode := d.qmode, dims := d.dims4,
    strides := d.strides, scale := if d.qmode = 0 then none else some ⟨sm, sa, sc.strides⟩,
    size := 0, esize := 1, pitch := 0, chk := false }

/-- The operand of a DIRECT-mode slot (09 Table 9.7). -/
def directOpnd (c : CtxInfo) (slot n : Nat) : Opnd :=
  { slot := slot, mem := .sward,
    form := match bits n 95 94 with | 1 => .linear | 2 => .strided | 3 => .transpose | _ => .absent,
    base := c.swBase + bits n 26 0, fmt := bits n 91 88, qmode := 0, dims := [], strides := [], scale := none,
    size := bits n 63 32, esize := 2 ^ bits n 93 92, pitch := bits n 83 64 + 1, chk := n.testBit 87 }

/-- Operand slot `i` of a waybill. -/
def State.opnd (s : State) (c : CtxInfo) (w : Waybill) (i : Nat) : Opnd :=
  if w.direct then directOpnd c i (w.slotBits i) else s.descOpnd c w i (w.desc (w.handle i))

/-- A DIRECT operand read as rows of `n` elements, `rows` of them. -/
def Opnd.asRows (o : Opnd) (n rows : Nat) : Opnd :=
  if o.form = .tensor then o else { o with dims := [n, rows, 1, 1] }

/-- Physical address of delivered byte `i` of a DIRECT operand (09 section 9.1, 08 Table 8.4). -/
def Opnd.directAddr (o : Opnd) (i : Nat) : Nat :=
  match o.form with
  | .strided => o.base + i / o.esize * o.pitch + i % o.esize
  | .transpose =>
    let n := 64 / o.esize
    let r := i % (64 * n)
    o.base + i / (64 * n) * 64 + r % 64 / o.esize * o.pitch + r / 64 * o.esize + i % o.esize
  | _ => o.base + i

/-- The indices of DIM1 to DIM3 of a row, DIM1 fastest. -/
def Opnd.rowIndex (o : Opnd) (row : Nat) : Nat × Nat × Nat :=
  (row % o.dim 1, row / o.dim 1 % o.dim 2, row / (o.dim 1 * o.dim 2))

/-- Offset of a row under some strides. -/
def strideOff (st : List Nat) (i : Nat × Nat × Nat) : Nat :=
  i.1 * st.getD 0 0 + i.2.1 * st.getD 1 0 + i.2.2 * st.getD 2 0

/-- Physical address of byte `b` of row `row`. -/
def Opnd.addr (o : Opnd) (row b : Nat) : Nat :=
  if o.form = .tensor then o.base + strideOff o.strides (o.rowIndex row) + b
  else o.directAddr (row * o.rowBytes + b)

/-- The memory with check bits that an operand lies in. -/
def OpMem.mem : OpMem → Mem
  | .lpddr => .lp
  | _ => .sw

/-- A byte of a memory as stored. -/
def State.rawByte (s : State) (m : OpMem) (a : Nat) : Nat :=
  match m with
  | .sward => (s.mem.sward.cells.get 0 a).toNat
  | .lpddr => (s.mem.lpddr.cells.get 0 a).toNat
  | .host => (s.mem.host.get 0 a).toNat
  | .none => 0

/-- `k` bytes of a memory as stored, little-endian. -/
def State.rawLe (s : State) (m : OpMem) (a : Nat) : Nat → Nat
  | 0 => 0
  | k + 1 => s.rawByte m a + 256 * s.rawLe m (a + 1) k

/-- Code of element `i` of row `row` (10 R200). -/
def State.codeAt (s : State) (o : Opnd) (row i : Nat) : Nat :=
  if o.fmt = 0 then s.rawByte o.mem (o.addr row (i / 2)) / 16 ^ (i % 2) % 16
  else
    let k := formatSize o.fmt
    (List.range k).foldl (fun n j => n + s.rawByte o.mem (o.addr row (i * k + j)) * 256 ^ j) 0

/-! ### Scale records (10 Table 10.5) -/

/-- Bytes of a scale record. -/
def recordLen (qmode dim0 : Nat) : Nat :=
  match qmode with
  | 1 => 4 | 2 => dim0 / 32 | 3 => 4 + dim0 / 32 | 4 => 8 | 5 => 12 | _ => 0

/-- Physical address of the scale record of a row. -/
def Opnd.scaleAddr (o : Opnd) (row : Nat) : Nat :=
  match o.scale with
  | some r => r.base + strideOff r.strides (o.rowIndex row)
  | none => 0

/-- The memory that the scale tensor lies in. -/
def Opnd.scaleMem (o : Opnd) : OpMem := (o.scale.map (·.mem)).getD .none

/-- S_ROW of a row, 1.0 where the mode has none. -/
def State.sRow (s : State) (o : Opnd) (row : Nat) : Rv :=
  if o.qmode = 0 ∨ o.qmode = 2 then .fin false 1 0 else fp32Of (s.rawLe o.scaleMem (o.scaleAddr row) 4)

/-- ZP of a row, held in the data format's range (10 R210); 0 where the mode has none. -/
def State.zpOf (s : State) (o : Opnd) (row : Nat) : Int :=
  if o.qmode = 4 ∨ o.qmode = 5 then
    (satInt o.fmt (signed 32 (s.rawLe o.scaleMem (o.scaleAddr row + 4) 4))).1
  else 0

/-- SUM of a row, as stored (10 R210). -/
def State.sumOf (s : State) (o : Opnd) (row : Nat) : Int := signed 32 (s.rawLe o.scaleMem (o.scaleAddr row + 8) 4)

/-- Block scale `b` of a row; 1.0 where the mode has none. -/
def State.blockScale (s : State) (o : Opnd) (row b : Nat) : Rv :=
  match o.qmode with
  | 2 => ue5m3 (s.rawByte o.scaleMem (o.scaleAddr row + b))
  | 3 => ue5m3 (s.rawByte o.scaleMem (o.scaleAddr row + 4 + b))
  | _ => .fin false 1 0

/-- The real value of an element as a VE forms it (11 R231). -/
def State.realAt (s : State) (o : Opnd) (row i : Nat) : Rv :=
  let q := s.codeAt o row i
  match o.qmode with
  | 0 => rne32 (decodeCode o.fmt q)
  | 1 => rne32 (rvMul (decodeCode o.fmt q) (s.sRow o row))
  | 2 => rne32 (rvMul (decodeCode o.fmt q) (s.blockScale o row (i / 32)))
  | 3 => rne32 (rvMul (rvMul (decodeCode o.fmt q) (s.blockScale o row (i / 32))) (s.sRow o row))
  | _ => rne32 (rvMul (rvInt (codeInt o.fmt q - s.zpOf o row)) (s.sRow o row))

/-! ### Requantisation (10 section 10.6) and statistics (10 section 10.7) -/

/-- One written element: its code, whether it is saturated, and the value the statistics take. -/
structure Quant where
  code : Nat
  sat : Bool
  stat : Rv
  deriving DecidableEq, Repr

/-- An element of an output with QMODE NONE, ROW, ZP_SUB or ZP_SUM (10 R217). -/
def quantElem (fmt qmode : Nat) (srow : Rv) (zp : Int) (r : Rv) : Quant :=
  match qmode with
  | 0 => let (c, b) := convTo fmt r; ⟨c, b, r⟩
  | 1 => let (c, b) := convTo fmt (rne32 (rvDiv r srow)); ⟨c, b, r⟩
  | _ =>
    let (c, b) := convTo fmt (rne32 (rvDiv r srow))
    let (i, b2) := satInt fmt (codeInt fmt c + zp)
    ⟨unsigned (formatBits fmt) i, b || b2, r⟩

/-- Qmax of a block format (10 R218). -/
def qMax : Nat → Rv
  | 0 => rvInt 7 | 1 => rvInt 127 | 5 => rvInt 448 | _ => rvInt 57344

/-- The block scale that 10 R218 chooses for the values of a block. -/
def blockScaleFor (fmt : Nat) (v : List Rv) : Nat :=
  let m := (v.filter (!·.isNan)).foldl (fun a x => rvMax a (rvAbs x)) rv0
  if m.isZero then 0
  else if m = .inf false ∨ rvLt (rvMul (qMax fmt) (rvInt 114688)) m then 0xFE
  else ((rangeFrom 1 254).find? fun c => !rvLt (rvMul (qMax fmt) (ue5m3 c)) m).getD 0xFE

/-- A code at a limit of its format: the least or largest integer, or the largest finite magnitude. -/
def atLimit (fmt c : Nat) : Bool :=
  if isIntFmt fmt then codeInt fmt c == (intRange fmt).1 || codeInt fmt c == (intRange fmt).2
  else !rvLt (rvAbs (decodeCode fmt c)) (qMax fmt)

/-- A finite element whose quotient by the block scale exceeds Qmax and that takes a format limit is saturated, also
where its quotient rounds to the limit (10 R218; log 50). -/
def overQmax (fmt sc : Nat) (x : Rv) (c : Nat) : Bool :=
  x.isFin && rvLt (rvMul (qMax fmt) (ue5m3 sc)) (rvAbs x) && atLimit fmt c

/-- A block of up to 32 output elements under BLOCK or BLOCK_ROW: its scale and its elements (10 R217, R218). -/
def quantBlock (fmt qmode : Nat) (srow : Rv) (r : List Rv) : Nat × List Quant :=
  let v := if qmode = 3 then r.map fun x => rne32 (rvDiv x srow) else r
  let sc := blockScaleFor fmt v
  (sc, v.map fun x =>
    if sc = 0 then ⟨if x.isNan then (convTo fmt x).1 else 0, false, x⟩
    else
      let (c, b) := convTo fmt (rne32 (rvDiv x (ue5m3 sc)))
      ⟨c, b || overQmax fmt sc x c, x⟩)

/-- The blocks of 32 that a run of output elements makes; `n` bounds their number. -/
def chunks32 (n : Nat) (l : List α) : List (List α) :=
  match n with
  | 0 => []
  | k + 1 => if l.isEmpty then [] else l.take 32 :: chunks32 k (l.drop 32)

/-- A run of output elements of a row, from a block boundary: block scales and elements (10 R217, R218). -/
def quantRun (fmt qmode : Nat) (srow : Rv) (zp : Int) (r : List Rv) : List Nat × List Quant :=
  if qmode = 2 ∨ qmode = 3 then
    let bs := (chunks32 (r.length / 32 + 1) r).map (quantBlock fmt qmode srow)
    (bs.map (·.1), (bs.map (·.2)).flatten)
  else ([], r.map (quantElem fmt qmode srow zp))

/-- Bytes of a run of element codes that starts at an even element; INT4 packs two to a byte, pad 0 (10 R200). -/
def packCodes (fmt : Nat) : List Nat → List Byte
  | [] => []
  | [c] => if fmt = 0 then [BitVec.ofNat 8 (c % 16)] else le (formatSize fmt) c
  | c :: d :: r =>
    if fmt = 0 then BitVec.ofNat 8 (c % 16 + d % 16 * 16) :: packCodes fmt r
    else le (formatSize fmt) c ++ le (formatSize fmt) d ++ packCodes fmt r

/-- Max-abs statistics as they are gathered (10 R219). -/
structure Stats where
  sat : Nat := 0
  nan : Nat := 0
  rowMax : List Rv := []
  deriving DecidableEq, Repr

/-- The largest magnitude among values that are not NaN, +0 when there is none. -/
def maxAbs (l : List Rv) : Rv := (l.filter (!·.isNan)).foldl (fun a x => rvMax a (rvAbs x)) rv0

/-- The statistics of one output row added. -/
def Stats.addRow (t : Stats) (l : List Quant) : Stats :=
  { sat := satAdd 0xFFFFFFFF t.sat (l.countP (·.sat)), nan := satAdd 0xFFFFFFFF t.nan (l.countP (·.stat.isNan)),
    rowMax := t.rowMax ++ [maxAbs (l.map (·.stat))] }

/-- A maximum merged with the stored one: the larger; a stored NaN is replaced (10 R220). -/
def mergeMax (stored : Nat) (new : Rv) : Nat :=
  match fp32Of stored with
  | .nan => fp32Code new
  | x => fp32Code (rvMax x new)

/-- The bytes of a statistics record; `old` is the stored record when STATS_MERGE is set (10 Table 10.8, R220). -/
def Stats.bytes (t : Stats) (old : Option (List Byte)) : List Byte :=
  let all := maxAbs t.rowMax
  match old with
  | none => le 4 (fp32Code all) ++ le 4 t.nan ++ le 4 t.sat ++ le 4 t.rowMax.length
      ++ (t.rowMax.map fun x => le 4 (fp32Code x)).flatten
  | some b =>
    le 4 (mergeMax (fieldAt b 0 4) all) ++ le 4 (satAdd 0xFFFFFFFF (fieldAt b 4 4) t.nan)
      ++ le 4 (satAdd 0xFFFFFFFF (fieldAt b 8 4) t.sat) ++ le 4 (fieldAt b 12 4)
      ++ (t.rowMax.mapIdx fun j x => le 4 (mergeMax (fieldAt b (16 + 4 * j) 4) x)).flatten

/-! ### Extents (08 R152) -/

/-- The byte ranges of an operand's rows, without listing them: the form, the row length, counts and strides. -/
structure Extent where
  mem : OpMem
  base : Nat
  len : Nat
  counts : List Nat
  strides : List Nat
  deriving DecidableEq, Repr

/-- The extent of an operand's data. -/
def Opnd.extent (o : Opnd) : Extent :=
  match o.form with
  | .tensor => ⟨o.mem, o.base, o.rowBytes, [o.dim 1, o.dim 2, o.dim 3], o.strides⟩
  | .strided => ⟨o.mem, o.base, o.esize, [o.size / o.esize, 1, 1], [o.pitch, 0, 0]⟩
  | .transpose =>
    let n := 64 / o.esize
    ⟨o.mem, o.base, 64, [n, o.size / (64 * n), 1], [o.pitch, 64, 0]⟩
  | _ => ⟨o.mem, o.base, o.size, [1, 1, 1], [0, 0, 0]⟩

/-- The extent of an operand's scale records. -/
def Opnd.scaleExtent (o : Opnd) : Option Extent :=
  o.scale.map fun r => ⟨r.mem, r.base, recordLen o.qmode (o.dim 0), [o.dim 1, o.dim 2, o.dim 3], r.strides⟩

/-- Byte past the last of an extent. -/
def Extent.stop (x : Extent) : Nat :=
  x.base + x.len + (x.counts.getD 0 1 - 1) * x.strides.getD 0 0 + (x.counts.getD 1 1 - 1) * x.strides.getD 1 0
    + (x.counts.getD 2 1 - 1) * x.strides.getD 2 0

/-- Least index of one dimension from which the rest of the extent can pass `limit`. -/
def leastIndex (rest limit stride count : Nat) : Nat :=
  if limit < rest ∨ stride = 0 then 0 else min (count - 1) ((limit - rest) / stride + 1)

/-- The first byte at or past `limit` that an extent touches, in index order with DIM1 fastest; none when it stays
below (DEDUCED order, log 12). -/
def Extent.firstPast (x : Extent) (limit : Nat) : Option Nat :=
  if x.stop ≤ limit then none
  else
    let (c0, c1, c2) := (x.counts.getD 0 1, x.counts.getD 1 1, x.counts.getD 2 1)
    let (t0, t1, t2) := (x.strides.getD 0 0, x.strides.getD 1 0, x.strides.getD 2 0)
    let i2 := leastIndex (x.base + (c1 - 1) * t1 + (c0 - 1) * t0 + x.len) limit t2 c2
    let b2 := x.base + i2 * t2
    let i1 := leastIndex (b2 + (c0 - 1) * t0 + x.len) limit t1 c1
    let b1 := b2 + i1 * t1
    let i0 := leastIndex (b1 + x.len) limit t0 c0
    some (max (b1 + i0 * t0) limit)

/-- The first offending byte of an extent in a context: below the share, past its end, or nowhere (08 R152). An AE
operand may also lie in the pool of the context's group, which is part of its share (12 R241). -/
def State.offending (s : State) (c : CtxInfo) (ae : Bool) (x : Extent) : Option Nat :=
  let inPool := ae && x.mem == .lpddr && (s.poolOf c.ctx).any fun p =>
    decide (p.base - lpBase ≤ x.base) && (x.firstPast (p.base - lpBase + p.bytes)).isNone
  if inPool then none
  else match x.mem with
  | .sward => if x.base < c.swBase then some x.base else x.firstPast (c.swBase + c.swSize)
  | .lpddr => if x.base < c.lpBase then some x.base else x.firstPast (min (c.lpBase + c.lpSize) s.usable)
  | .host => x.firstPast hostBase
  | .none => some x.base

end Sys2Proof.Machine
end

