-- ==== Sys2Proof/Machine/Opcodes.lean ====
section
/-! DEFINITION. The opcode space (09 Table 9.8, R178) with the slots each operator reads and writes (11 Table 11.2,
12 Table 12.2, 13 Table 13.3), the operands of a waybill as rows, their byte spans, and the handles that the Scoreboard
orders by (09 section 9.5). -/

namespace Sys2Proof.Machine

/-- What an operator does with an operand slot. -/
inductive Role where
  | none | read | write
  deriving DecidableEq, Repr

/-- One opcode in one class: its slots, its modes, whether bytes 16 to 63 are an inline layout, whether it carries a
STATS word. -/
structure OpInfo where
  roles : List Role
  handleOk : Bool
  directOk : Bool
  inline : Bool
  stats : Bool
  deriving DecidableEq, Repr

/-- An operator with operand slots. -/
def slotOp (roles : List Role) (handleOk directOk stats : Bool) : Option OpInfo :=
  some ⟨roles, handleOk, directOk, false, stats⟩

/-- An operator with an inline layout; HANDLE mode only. -/
def inlineOp : Option OpInfo := some ⟨[.none, .none, .none], true, false, true, false⟩

/-- The operators of a class (09 Table 9.8; 11 Table 11.2; 12 Table 12.2; 13 Table 13.3, R261). -/
def opInfo (cls op : Nat) : Option OpInfo :=
  if op = 0 then slotOp [.none, .none, .none] true (cls ≠ 4) false
  else if op = 1 then (if cls < 3 then slotOp [.read, .none, .none] true true false else none)
  else match cls, op with
    | 0, 0x101 => slotOp [.read, .read, .write] true true true
    | 0, 0x102 => slotOp [.read, .read, .write] true false true
    | 1, 0x201 | 1, 0x202 | 1, 0x203 | 1, 0x204 | 1, 0x205 | 1, 0x221 | 1, 0x222 =>
      slotOp [.read, .write, .read] true true true
    | 1, 0x210 | 1, 0x220 | 1, 0x230 | 1, 0x231 | 1, 0x240 => slotOp [.read, .write, .none] true true true
    | 1, 0x250 | 1, 0x251 => slotOp [.read, .write, .none] true false true
    | 1, 0x260 => slotOp [.read, .none, .none] true true true
    | 2, 0x301 => inlineOp
    | 2, 0x302 => slotOp [.none, .none, .none] true false false
    | 2, 0x303 => slotOp [.read, .write, .none] true false false
    | 2, 0x304 => slotOp [.read, .read, .none] true false false
    | 2, 0x305 => slotOp [.read, .write, .read] true false true
    | 3, 2 => inlineOp
    | 3, 0x401 => slotOp [.read, .write, .none] true true false
    | 3, 0x402 => slotOp [.none, .write, .none] true true false
    | 4, 0x501 | 4, 0x502 | 4, 0x503 | 4, 0x504 | 4, 0x506 | 4, 0x507 => inlineOp
    | 4, 0x505 | 4, 0x508 | 4, 0x509 => slotOp [.none, .write, .write] true false false
    | 4, 0x50A => slotOp [.none, .write, .none] true false false
    | _, _ => none

/-- The entry of the opcode table that a waybill's header selects. -/
def Waybill.info (w : Waybill) : Option OpInfo := opInfo w.wclass w.opcode

/-- Bytes 16 to 63 are an inline layout. -/
def Waybill.inline (w : Waybill) : Bool := (w.info.map (·.inline)).getD false

/-- The role of slot `i`: ATTEND's mask slot and TOKENISE's token slot may go unused (12 Table 12.4, 13 Table 13.8). -/
def Waybill.role (w : Waybill) (i : Nat) : Role :=
  let r := (w.info.map fun o => o.roles.getD i .none).getD .none
  if w.opcode = 0x305 ∧ i = 2 ∧ ¬ (w.slotBits 2).testBit 15 then .none
  else if w.opcode = 0x508 ∧ i = 1 ∧ (byteAt w.bytes 54).testBit 1 then .none
  else r

/-- First byte of a slot. -/
def slotAt (i : Nat) : Nat := 16 + 12 * i

/-- The DEP entries with USED set: the offset of each and its handle (09 Table 9.4). -/
def Waybill.deps (w : Waybill) : List (Nat × Nat) :=
  if w.direct then []
  else (List.range 4).filterMap fun k =>
    let d := fieldAt w.bytes (8 + 2 * k) 2
    if d.testBit 15 then some (8 + 2 * k, d % 4096) else none

/-- The STATS word (11 Table 11.3), 0 for an operator without one. -/
def Waybill.statsWord (w : Waybill) : Nat :=
  if (w.info.map (·.stats)).getD false then fieldAt w.bytes 60 4 else 0

/-- A statistics record is written. -/
def Waybill.stats (w : Waybill) : Bool := w.statsWord.testBit 31

/-- The statistics record is merged with the stored one. -/
def Waybill.merge (w : Waybill) : Bool := w.stats && w.statsWord.testBit 30

/-- ATTEND's weight handles with the offsets that name them (12 Table 12.5). -/
def Waybill.weights (w : Waybill) : List (Nat × Nat) :=
  if w.opcode = 0x305 ∧ w.wclass = 2 then [(54, fieldAt w.bytes 54 2 % 4096), (56, fieldAt w.bytes 56 2 % 4096)] else []

/-- The slots that name a handle, with the offset of each (09 R183). -/
def Waybill.slotHandles (w : Waybill) : List (Nat × Nat) :=
  if w.direct then []
  else (List.range 3).filterMap fun i =>
    if w.role i ≠ .none && (w.slotBits i).testBit 15 then some (slotAt i, w.handle i) else none

/-- The descriptors that a waybill names, in ascending offset of the field that names them (09 R183). -/
def Waybill.named (w : Waybill) : List (Nat × Nat) :=
  w.deps ++ w.slotHandles ++ (if !w.direct && w.stats then [(60, w.statsWord % 4096)] else [])

/-- The scale descriptors that a waybill reaches, with the offset that DETAIL gives for each (09 R397). -/
def Waybill.scaled (w : Waybill) : List (Nat × Nat) :=
  (w.slotHandles ++ w.weights ++ w.deps).filterMap fun p =>
    let d := w.desc p.2
    if d.qmode ≠ 0 then some (p.1, d.scale) else none

/-! ### Row length and operands -/

/-- Row lengths in elements of the three operands, and the number of rows, of a DIRECT-mode waybill (11 R225, section
11.5). -/
def Waybill.directShape (w : Waybill) (f0 size0 : Nat) : List (Nat × Nat) :=
  if w.opcode = 0x101 then
    let m := fieldAt w.bytes 52 2
    let n := fieldAt w.bytes 54 2
    let k := fieldAt w.bytes 56 2
    [(k, m), (k, n), (n, m)]
  else
    let n := fieldAt w.bytes 58 2
    let rows := size0 / max 1 ((n * formatBits f0 + 7) / 8)
    if w.opcode = 0x230 ∨ w.opcode = 0x231 then [(n, rows), (1, rows), (0, 0)]
    else if w.opcode = 0x221 then [(n, rows), (n, rows), (2 * n, 1)]
    else if w.opcode = 0x222 then [(n, rows), (n, rows), (n, 1)]
    else [(n, rows), (n, rows), (n, rows)]

/-- A DIRECT operand taken as bytes: one row of UINT8. -/
def Opnd.asBytes (o : Opnd) : Opnd := if o.form = .tensor then o else { o with fmt := 2, dims := [o.size, 1, 1, 1] }

/-- Operand `i` of a waybill, as rows of elements; COPY, FILL and WAYMARK_COMMIT take a DIRECT operand as bytes. -/
def State.operand (s : State) (c : CtxInfo) (w : Waybill) (i : Nat) : Opnd :=
  let o := s.opnd c w i
  if !w.direct then o
  else if w.wclass = 3 ∨ w.opcode < 2 then o.asBytes
  else
    let o0 := s.opnd c w 0
    let (n, rows) := (w.directShape o0.fmt o0.size).getD i (0, 0)
    o.asRows n rows

/-- Rows of a waybill's output tensor, which its statistics record lists; MAXABS lists the rows of its input. -/
def State.statRows (s : State) (c : CtxInfo) (w : Waybill) : Nat :=
  let i := if w.opcode = 0x260 then 0 else if w.wclass = 0 then 2 else 1
  (s.operand c w i).rows

/-- Where the statistics record lies: its extent. -/
def State.statExtent (s : State) (c : CtxInfo) (w : Waybill) : Extent :=
  let n := 16 + 4 * s.statRows c w
  if w.direct then ⟨.sward, c.swBase + bits w.statsWord 26 0, n, [1, 1, 1], [0, 0, 0]⟩
  else
    let (m, a) := s.locate c (w.desc (w.statsWord % 4096)).base
    ⟨m, a, n, [1, 1, 1], [0, 0, 0]⟩

/-- The written scale tensors: QMODE BLOCK, BLOCK_ROW or ZP_SUM (10 R214). -/
def writesScale (qmode : Nat) : Bool := qmode == 2 || qmode == 3 || qmode == 5

/-! ### Spans -/

/-- A byte span of a waybill: the slot code of DETAIL (09 Table 9.13), the offset of the slot or field that names it,
its bytes, and whether the waybill writes it. -/
structure Span where
  code : Nat
  off : Nat
  ext : Extent
  written : Bool
  deriving DecidableEq, Repr

/-- The waybill reads or writes the scale tensor of an operand: TE, VE and AE operators do; a Transfer Engine writes only
the SUM fields of a ZP_SUM tensor that it writes (10 R214, 11 R236). -/
def Waybill.usesScale (w : Waybill) (written : Bool) (qmode : Nat) : Bool :=
  decide (2 ≤ w.opcode) && (w.wclass != 3 || (written && qmode == 5))

/-- The data and scale spans of one operand. -/
def opndSpans (w : Waybill) (code off : Nat) (written : Bool) (o : Opnd) : List Span :=
  ⟨code, off, o.extent, written⟩ :: (match o.scaleExtent with
    | some x => if w.usesScale written o.qmode then [⟨3, off, x, written && writesScale o.qmode⟩] else []
    | none => [])

/-- Member contexts of a context's sharing group (12 section 12.1). -/
def State.memberCount (s : State) (c : CtxInfo) : Nat :=
  if c.group = 0 then 1 else s.ctxs.countP (·.group == c.group)

/-- POOL_BYTES of a POOL_INIT waybill (12 R240). -/
def State.poolBytes (s : State) (c : CtxInfo) (w : Waybill) : Nat :=
  let b := w.bytes
  4096 + s.memberCount c * byteAt b 34 * (64 + 4 * fieldAt b 30 2)
    + fieldAt b 24 4 * (64 + blockBytes (byteAt b 32) (fieldAt b 28 2) (byteAt b 33))

/-- Every span of a waybill, in slot order, each tensor followed by its scale tensor, the statistics record last
(09 Table 9.13). ATTEND's weights take slot code 3 (log 14). -/
def State.spans (s : State) (c : CtxInfo) (w : Waybill) : List Span :=
  if w.wclass = 3 ∧ w.opcode = 2 then
    let (m, a) := s.locate c w.result
    [⟨2, 40, ⟨m, a, 16, [1, 1, 1], [0, 0, 0]⟩, true⟩]
  else if w.wclass = 2 ∧ w.opcode = 0x301 then
    let (m, a) := s.locate c (fieldAt w.bytes 16 8)
    [⟨0, 16, ⟨m, a, s.poolBytes c w, [1, 1, 1], [0, 0, 0]⟩, true⟩]
  else
    let slots := ((List.range 3).map fun i =>
      if w.role i = .none then [] else opndSpans w i (slotAt i) (w.role i == .write) (s.operand c w i)).flatten
    let weights := (w.weights.map fun p => opndSpans w 3 p.1 false (s.descOpnd c w 3 (w.desc p.2))).flatten
    slots ++ weights ++ (if w.stats then [⟨3, 60, s.statExtent c w, true⟩] else [])

/-- The first byte of an interval that an extent touches, in index order with DIM1 fastest (log 12). -/
def Extent.firstIn (x : Extent) (lo hi : Nat) : Option Nat :=
  let (c0, c1, c2) := (x.counts.getD 0 1, x.counts.getD 1 1, x.counts.getD 2 1)
  let (t0, t1, t2) := (x.strides.getD 0 0, x.strides.getD 1 0, x.strides.getD 2 0)
  if x.stop ≤ lo ∨ hi ≤ x.base ∨ x.len = 0 then none
  else (List.range c2).findSome? fun i2 => (List.range c1).findSome? fun i1 =>
    let a := x.base + i2 * t2 + i1 * t1
    let r := a + leastIndex (a + x.len) lo t0 c0 * t0
    if r < hi ∧ lo < r + x.len then some (max r lo) else none

/-- Two extents have a byte in common (11 R223). -/
def Extent.overlaps (x y : Extent) : Bool :=
  x.mem == y.mem && x.mem != .none && decide (x.base < y.stop) && decide (y.base < x.stop) &&
    (List.range (x.counts.getD 2 1)).any fun i2 => (List.range (x.counts.getD 1 1)).any fun i1 =>
      (List.range (x.counts.getD 0 1)).any fun i0 =>
        let a := x.base + i2 * x.strides.getD 2 0 + i1 * x.strides.getD 1 0 + i0 * x.strides.getD 0 0
        (y.firstIn a (a + x.len)).isSome

/-- A VE output that coincides exactly with OP0 (11 R223): ADD to MIN, ACT and CONVERT. -/
def Waybill.inPlace (w : Waybill) (o0 o1 : Opnd) : Bool :=
  w.wclass == 1 && (decide (0x201 ≤ w.opcode ∧ w.opcode ≤ 0x205) || w.opcode == 0x210 || w.opcode == 0x240)
    && o0.form == o1.form && o0.mem == o1.mem && o0.base == o1.base && o0.fmt == o1.fmt && o0.qmode == o1.qmode
    && o0.dims == o1.dims && o0.strides == o1.strides && o0.size == o1.size
    && (o0.form == .tensor || o0.form == .linear)

/-- Two extents are the same bytes in the same order. -/
def Extent.same (x y : Extent) : Bool := x == y

/-- The lowest slot of the first pair of spans that R223 forbids to overlap, if any. -/
def overlapAt (exempt : Bool) : List Span → Option Nat
  | [] => none
  | x :: r =>
    match r.find? fun y => (x.written || y.written) && x.ext.overlaps y.ext
        && !(exempt && x.off == slotAt 0 && y.off == slotAt 1 && x.ext.same y.ext) with
    | some y => some (min x.off y.off)
    | none => overlapAt exempt r

/-! ### Scoreboard keys -/

/-- Key of a sequence, a stream and a dictionary among a context's handles (12 R247, 13 R261). -/
def seqKey (n : Nat) : Nat := 4096 + n
def streamKey (n : Nat) : Nat := 8192 + n
def dictKey (n : Nat) : Nat := 8448 + n

/-- The sequence, streams and dictionaries that a waybill reads and writes (12 R247; 13 R261, Table 13.3). An operator that
works on what a stream or dictionary holds reads it as well as writing it, so that it does not run behind a writer that
failed (13 section 13.9 corner 6; DEDUCED, log 51); STREAM_OPEN, STREAM_CLOSE and a DICT_LOAD with RESET do not. -/
def Waybill.unitKeys (w : Waybill) : List Nat × List Nat :=
  let b52 := byteAt w.bytes 52
  let b16 := byteAt w.bytes 16
  match w.wclass, w.opcode with
  | 2, 0x302 | 2, 0x303 | 2, 0x304 => ([], [seqKey b52])
  | 2, 0x305 => ([seqKey b52], [])
  | 4, 0x501 | 4, 0x502 => ([], [streamKey b16])
  | 4, 0x503 | 4, 0x504 => ([streamKey b16], [streamKey b16])
  | 4, 0x505 | 4, 0x509 | 4, 0x50A => ([streamKey b52], [streamKey b52])
  | 4, 0x506 => (if (byteAt w.bytes 18).testBit 0 then [] else [dictKey b16], [dictKey b16])
  | 4, 0x507 => ([dictKey b16], [dictKey b16])
  | 4, 0x508 => ([dictKey (byteAt w.bytes 53), streamKey b52], [streamKey b52])
  | _, _ => ([], [])

/-- The keys that a HANDLE-mode waybill reads and writes (09 section 9.5; 10 R214; 11 R224; 12 R247; 13 R261). ATTEND's
weights count as read (log 14). -/
def Waybill.keys (w : Waybill) : List Nat × List Nat :=
  if w.direct then ([], [])
  else
    let scaleOf := fun h => let d := w.desc h; if d.qmode ≠ 0 then [d.scale] else []
    let slot := fun (i : Nat) =>
      let h := w.handle i
      match w.role i with
      | .none => ([], [])
      | .read => (h :: scaleOf h, [])
      | .write => if writesScale (w.desc h).qmode then ([], h :: scaleOf h) else (scaleOf h, [h])
    let slots := (List.range 3).map slot
    let deps := (w.deps.map fun p => p.2 :: scaleOf p.2).flatten
    let wts := (w.weights.map fun p => p.2 :: scaleOf p.2).flatten
    let st := w.statsWord % 4096
    let (ur, uw) := w.unitKeys
    ((deps ++ (slots.map (·.1)).flatten ++ wts ++ (if w.merge then [st] else []) ++ ur).eraseDups,
     ((slots.map (·.2)).flatten ++ (if w.stats then [st] else []) ++ uw).eraseDups)

end Sys2Proof.Machine
end

