-- ==== Sys2Proof/Machine/Checks.lean ====
section
/-! DEFINITION. The checks that a fetched waybill passes (09 section 9.4, Table 9.10, R398), with the operand rules of
10 (R199, R205, R208, R209, R212, R216), 11 (R221 to R229, R236), 12 (R244 to R257) and 13 (R265, R274). -/

namespace Sys2Proof.Machine

/-- A rule that may be broken: whether it is, the status and the DETAIL. -/
abbrev Rule := Bool × Nat × Nat

/-- The first broken rule. -/
def firstBad (l : List Rule) : Option (Nat × Nat) := (l.find? (·.1)).map (·.2)

/-- Bytes `lo` to `lo + n - 1` of a waybill are 0, each with its own offset as DETAIL (09 R177). -/
def zeros (w : Waybill) (code lo n : Nat) : List Rule := (rangeFrom lo n).map fun j => (byteAt w.bytes j != 0, code, j)

/-- The code of a check 5 breach: 0x2604 for the AE operators (12 R244), else 0x2404. -/
def Waybill.code5 (w : Waybill) : Nat := if w.wclass = 2 ∧ 0x300 ≤ w.opcode then 0x2604 else 0x2404

/-! ### Checks 1 to 3 -/

/-- The reserved bits of 09 Tables 9.3 to 9.7 in a waybill's MODE, as a number of 512 bits; an inline layout has no slots. -/
def Waybill.reservedMask (w : Waybill) : Nat :=
  let slot := if w.inline then 0 else if w.direct then 7 * 2 ^ 84 + 31 * 2 ^ 27 else 2 ^ 96 - 1 - 0x8FFF
  let link := if w.direct then 0xFFFFFFFF00000000 else 0x7000700070007000
  0x700FFFCFFFF + link * 2 ^ 64 + slot * 2 ^ 128 + slot * 2 ^ 224 + slot * 2 ^ 320

/-- Check 1: reserved fields are 0. -/
def Waybill.check1 (w : Waybill) : Option (Nat × Nat) :=
  let m := le 64 w.reservedMask
  ((List.range 64).find? fun i => byteAt w.bytes i &&& byteAt m i != 0).map fun i => (0x2402, i)

/-- Check 2: CLASS is 0 to 4, and the opcode exists and agrees with CLASS and MODE. -/
def Waybill.check2 (w : Waybill) : Option (Nat × Nat) :=
  firstBad [(decide (4 < w.wclass), 0x2401, 0), ((w.info.map fun o => if w.direct then o.directOk else o.handleOk) != some true, 0x2401, 0)]

/-- Check 3: the schedule rules that one entry can break alone, beside the breach that its place in the queue makes. -/
def Waybill.check3 (w : Waybill) (breach : Bool) : Option (Nat × Nat) :=
  let link := fieldAt w.bytes 8 8
  firstBad [(breach || (!w.direct && (w.anchor || w.seal)) || (w.direct && decide (bits link 31 16 < bits link 15 0)),
    0x2405, 0)]

/-! ### Descriptors (09 section 9.3) -/

/-- The fields of a descriptor's 32 bytes (09 Table 9.9). -/
def descOf (b : List Byte) : Desc :=
  let n := unle b
  { base := bits n 255 208, format := bits n 207 204, rank := bits n 203 200, qmode := bits n 199 196,
    scale := bits n 187 176, dims := [bits n 127 112, bits n 143 128, bits n 159 144, bits n 175 160],
    strides := [bits n 47 16, bits n 79 48, bits n 111 80], reserved := bits n 195 188 * 65536 + bits n 15 0 }

/-- A descriptor is valid (09 R183). -/
def Desc.valid (d : Desc) : Bool :=
  decide (1 ≤ d.rank) && decide (d.rank ≤ 4) && d.reserved == 0 && (d.qmode != 0 || d.scale == 0)
    && (List.range 4).all (fun i => (d.dims.getD i 0 == 0) == decide (d.rank ≤ i))
    && (List.range 3).all (fun i =>
      let t := d.strides.getD i 0
      if d.rank ≤ i + 1 then t == 0 else decide (10 ≤ d.format) || t % formatSize d.format == 0)

/-- Read a descriptor of a context: its fields, 0 or the status of a bad word, and the state (09 R181, R397). A channel
that is FENCED answers the request with a FENCE response, so the waybill is aborted with 0x4402 (01 R23, R24; DEDUCED,
log 44). -/
def State.readDesc (c : CtxInfo) (h : Nat) (s : State) : Desc × Nat × State :=
  if s.lpFenced (c.lpBase + h * 32) 32 then (Desc.init, 0x4402, s)
  else
  let (b, x, s1) := s.readMem .lp (some c.ctx) (c.lpBase + h * 32) 32
  (descOf b, if x.ueAt.isSome then 0x8305 else if x.poisonAt.isSome then 0x8306 else 0, s1.count c.ctx 19 32)

/-- A waybill with one more descriptor copy. -/
def Waybill.withDesc (w : Waybill) (h : Nat) (d : Desc) : Waybill := { w with descs := w.descs.set Desc.init h d }

/-- Read and judge the named descriptors in order, up to the first that fails (check 4). -/
def State.loadNamed (c : CtxInfo) : List (Nat × Nat) → Waybill → State → Waybill × State × Option (Nat × Nat)
  | [], w, s => (w, s, none)
  | (off, h) :: r, w, s =>
    if w.descs.any (·.1 == h) then State.loadNamed c r w s
    else
      let (d, st, s1) := s.readDesc c h
      if st ≠ 0 then (w, s1, some (st, if st = 0x4402 then 0 else off))
      else if !d.valid then (w, s1, some (0x2403, off))
      else State.loadNamed c r (w.withDesc h d) s1

/-- Check 4: the context has a descriptor table, and every named descriptor is valid (09 R183). -/
def State.check4 (c : CtxInfo) (w : Waybill) (s : State) : Waybill × State × Option (Nat × Nat) :=
  if c.lpSize < 131072 then (w, s, some (0x2403, (w.named.head?.map (·.1)).getD 0))
  else s.loadNamed c w.named w

/-- Read further descriptors; a bad one is kept with its status for check 5. -/
def State.loadMore (c : CtxInfo) : List Nat → Waybill → Map Nat → State → Waybill × Map Nat × State
  | [], w, bad, s => (w, bad, s)
  | h :: r, w, bad, s =>
    if w.descs.any (·.1 == h) || bad.any (·.1 == h) then State.loadMore c r w bad s
    else
      let (d, st, s1) := s.readDesc c h
      State.loadMore c r (w.withDesc h d) (bad.set 0 h st) s1

/-- Read ATTEND's weight descriptors and the scale descriptors that the waybill reaches (09 R397). -/
def State.loadRest (c : CtxInfo) (w : Waybill) (s : State) : Waybill × Map Nat × State :=
  if w.direct then (w, [], s)
  else
    let (w1, bad, s1) := s.loadMore c (w.weights.map (·.2)) w []
    s1.loadMore c (w1.scaled.map (·.2)) w1 bad

/-! ### Check 5, part 1: slots -/

/-- A memory that the waybill's class reaches for this operator (01 Table 1.7, 11 R222, 12 R250, R257). -/
def Waybill.reaches (w : Waybill) (m : OpMem) : Bool :=
  match w.wclass with
  | 2 => m == .sward || (m == .lpddr && w.opcode != 0x303 && w.opcode != 0x305)
  | 3 => m != .none
  | _ => m == .sward

/-- The rules of one slot in order (09 R398 item 1). -/
def State.slotRules (s : State) (c : CtxInfo) (w : Waybill) (i : Nat) : List Rule :=
  let b := slotAt i
  let n := w.slotBits i
  let code := w.code5
  let wr := w.role i == .write
  if w.inline then []
  else if w.role i = .none then [(n != 0, code, b)]
  else if w.direct then
    let form := bits n 95 94
    let size := bits n 63 32
    [(form == 0, code, b + 11), (decide (10 ≤ bits n 91 88), 0x2501, b + 11),
     (size == 0 || decide (134217728 < size), code, b + 4),
     (form == 1 && bits n 83 64 != 0, code, b + 8), (form == 1 && bits n 93 92 != 0, code, b + 11),
     (wr && n.testBit 87, code, b + 10), (wr && form != 1, code, b + 11)]
  else
    let d := w.desc (w.handle i)
    [(!n.testBit 15, code, b), (decide (10 ≤ d.format), 0x2501, b), (!w.reaches (s.locate c d.base).1, code, b)]

/-! ### Check 5, part 2: PARAM bytes and inline layouts -/

/-- The rules of the STATS word (11 R224, Table 11.3), at offset 60. -/
def State.statsRules (s : State) (c : CtxInfo) (w : Waybill) : List Rule :=
  let n := w.statsWord
  let d := w.desc (n % 4096)
  let code := w.code5
  if !w.stats then [(n != 0 || w.opcode == 0x260, code, 60)]
  else if w.direct then [(bits n 29 27 != 0 || bits n 26 0 % 16 != 0, code, 60)]
  else [(bits n 29 27 != 0 || bits n 26 12 != 0, code, 60), (decide (10 ≤ d.format), 0x2501, 60),
        (d.format != 2 || d.qmode != 0 || d.rank != 1 || d.dims.getD 0 0 != 16 + 4 * s.statRows c w
          || (s.locate c d.base).1 != .sward, code, 60)]

/-- The field of 11 Table 11.4 as numbers. -/
structure Window where
  kh : Nat
  kw : Nat
  sh : Nat
  sw : Nat
  dh : Nat
  dw : Nat
  pt : Nat
  pb : Nat
  pl : Nat
  pr : Nat
  groups : Nat
  deriving DecidableEq, Repr

/-- The window of a convolution or a pool. -/
def Waybill.window (w : Waybill) : Window :=
  let b := byteAt w.bytes
  { kh := b 52, kw := b 53, sh := b 54 % 8 + 1, sw := b 54 / 16 % 8 + 1, dh := b 55 % 8 + 1, dw := b 55 / 16 % 8 + 1,
    pt := b 56 % 16, pb := b 56 / 16, pl := b 57 % 16, pr := b 57 / 16, groups := fieldAt w.bytes 58 2 }

/-- One output extent, when its numerator is not negative (11 R227). -/
def outExtent (h pad dil k stride : Nat) : Option Nat :=
  if dil * (k - 1) + 1 ≤ h + pad then some ((h + pad - dil * (k - 1) - 1) / stride + 1) else none

/-- The rules of 11 Table 11.4. -/
def windowRules (w : Waybill) : List Rule :=
  let b := byteAt w.bytes
  [(b 52 == 0 || decide (15 < b 52), 0x2404, 52), (b 53 == 0 || decide (15 < b 53), 0x2404, 53),
   (b 54 &&& 0x88 != 0, 0x2404, 54), (b 55 &&& 0x88 != 0, 0x2404, 55)]
  ++ (if w.opcode = 0x102 then [(fieldAt w.bytes 58 2 == 0, 0x2404, 58)] else zeros w 0x2404 58 2)

/-- The rules of 11 Table 11.5. -/
def vectorRules (w : Waybill) : List Rule :=
  let f := byteAt w.bytes 56
  let act := w.opcode == 0x210
  let usesScalar := w.opcode == 0x221 || w.opcode == 0x222 || (act && (f == 1 || f == 2))
  [(!usesScalar && fieldAt w.bytes 52 4 != 0, 0x2404, 52), (decide ((if act then 7 else 0) < f), 0x2404, 56)]
    ++ zeros w 0x2404 57 1
    ++ [((fieldAt w.bytes 58 2 == 0) == w.direct, 0x2404, 58)]

/-- The rules of an AUG_SET operation entry (13 Table 13.9). -/
def augRules (w : Waybill) (o : Nat) : List Rule :=
  let b := byteAt w.bytes
  let kind := b (o + 2)
  [(kind == 0 || decide (5 < kind), 0x2404, o + 2)] ++ zeros w 0x2404 (o + 3) 1 ++
  (match kind with
   | 1 => [(fieldAt w.bytes (o + 4) 2 % 2 != 0, 0x2404, o + 4), (fieldAt w.bytes (o + 6) 2 % 2 != 0, 0x2404, o + 6)]
   | 2 => zeros w 0x2404 (o + 6) 2
   | 3 => (decide (32768 < fieldAt w.bytes (o + 4) 2), 0x2404, o + 4) :: zeros w 0x2404 (o + 6) 2
   | 4 => (decide (127 < b (o + 4)), 0x2404, o + 4) :: zeros w 0x2404 (o + 5) 3
   | _ => [])

/-- The records of a DICT_LOAD from an offset on: string, ID; or the offset of the field that breaks section 13.3. -/
def dictRecords (w : Waybill) : Nat → Nat → List (List Byte × Nat) × Option Nat × Nat
  | 0, o => ([], none, o)
  | n + 1, o =>
    let len := byteAt w.bytes (o + 3)
    if 64 < o + 4 then ([], some 17, o)
    else if len = 0 ∨ 32 < len ∨ 64 < o + 4 + len then ([], some (o + 3), o)
    else
      let (r, e, z) := dictRecords w n (o + 4 + len)
      (((w.bytes.drop (o + 4)).take len, fieldAt w.bytes o 3) :: r, e, z)

/-- The camera branch that SOURCE of a camera stream names, as its book record (14). -/
def State.branchRec (s : State) (source : Nat) : Option Rec :=
  (s.recs 0x51).find? fun r => r.u 8 1 == source / 4 && r.u 9 1 == source % 4

/-- The rules of STREAM_OPEN's layout (13 Table 13.4). -/
def State.openRules (s : State) (w : Waybill) : List Rule :=
  let b := byteAt w.bytes
  let f2 := fun o => fieldAt w.bytes o 2
  let kind := b 17
  let video := decide (kind < 2)
  let cam := kind == 2
  let size := fun (o top : Nat) (branch : Nat) =>
    if video then f2 o == 0 || decide (top < f2 o) || f2 o % 16 != 0
    else if cam then (match s.branchRec (b 18) with | some r => f2 o != r.u branch 2 | none => false)
    else f2 o != 0
  [(decide (15 < b 16), 0x2404, 16), (decide (3 < kind), 0x2404, 17),
   (if kind == 0 || cam then decide (15 < b 18) else b 18 != 0, 0x2404, 18),
   (decide ((if video then 1 else 0) < b 19), 0x2404, 19),
   (if video then b 20 == 0 || decide (16 < b 20) else b 20 != 0, 0x2404, 20),
   (if video || cam then b 21 == 0 || decide (4 < b 21) else b 21 != 0, 0x2404, 21),
   (decide (1 < b 22), 0x2404, 22), (decide (1 < b 23), 0x2404, 23),
   (size 24 4096 0x14, 0x2404, 24), (size 26 2304 0x16, 0x2404, 26),
   (if kind == 3 then decide (8192 < f2 30) else f2 30 != 0, 0x2404, 30)] ++ zeros w 0x2404 32 32

/-- The rules of the PARAM bytes, or of an inline layout, in ascending offset (09 R398 item 2). An AE operator whose
context has no pool is refused after the bytes that can be judged without one (log 16). -/
def State.paramRules (s : State) (c : CtxInfo) (w : Waybill) : List Rule :=
  let b := byteAt w.bytes
  let z := zeros w
  let noPool : List Rule := [(true, 0x2602, 0)]
  let seqOk := fun (p : Pool) => (decide (p.seqs ≤ b 52), 0x2604, 52)
  match w.opcode with
  | 0 => z 0x2404 52 12
  | 1 => [(decide (63 < b 60), 0x2404, 60), (decide (240 < b 61), 0x2404, 61)] ++ z 0x2404 62 2
  | 2 => [(w.result % 16 != 0 || (s.locate c w.result).1 == .none, 0x2404, 40)] ++ z 0x2404 48 16
  | 0x101 =>
    (if w.direct then
      [(fieldAt w.bytes 52 2 == 0, 0x2404, 52), (fieldAt w.bytes 54 2 == 0, 0x2404, 54),
       (fieldAt w.bytes 56 2 == 0, 0x2404, 56)] ++ z 0x2404 58 2
     else z 0x2404 52 8) ++ s.statsRules c w
  | 0x102 | 0x250 | 0x251 => windowRules w ++ s.statsRules c w
  | 0x301 =>
    [(fieldAt w.bytes 16 8 % granule != 0, 0x2603, 16),
     (fieldAt w.bytes 24 4 == 0 || decide (1048576 < fieldAt w.bytes 24 4), 0x2603, 24),
     (fieldAt w.bytes 28 2 == 0 || decide (1024 < fieldAt w.bytes 28 2) || fieldAt w.bytes 28 2 % 64 != 0, 0x2603, 28),
     (fieldAt w.bytes 30 2 == 0 || decide (1023 < fieldAt w.bytes 30 2), 0x2603, 30),
     (b 32 == 0 || decide (128 < b 32), 0x2603, 32), (decide (b 33 < 5) || decide (8 < b 33), 0x2603, 33),
     (b 34 == 0, 0x2603, 34)] ++ z 0x2604 35 29 ++ [((s.poolOf c.ctx).isSome, 0x2601, 0)]
  | 0x302 | 0x303 => (match s.poolOf c.ctx with
    | some p => [seqOk p] ++ z 0x2604 53 11
    | none => z 0x2604 53 11 ++ noPool)
  | 0x304 => (match s.poolOf c.ctx with
    | some p => [seqOk p, (decide (1 < b 53), 0x2604, 53)] ++ z 0x2604 54 10
    | none => [(decide (1 < b 53), 0x2604, 53)] ++ z 0x2604 54 10 ++ noPool)
  | 0x305 =>
    let tail := [(fieldAt w.bytes 54 2 / 4096 != 0, 0x2604, 54), (fieldAt w.bytes 56 2 / 4096 != 0, 0x2604, 56)]
      ++ s.statsRules c w
    (match s.poolOf c.ctx with
     | some p => [seqOk p, (decide (p.layers ≤ b 53), 0x2604, 53)] ++ tail
     | none => tail ++ noPool)
  | 0x401 => z 0x2404 52 12
  | 0x402 => z 0x2404 60 4
  | 0x501 => s.openRules w
  | 0x502 => [(decide (15 < b 16), 0x2404, 16)] ++ z 0x2404 17 47
  | 0x503 => [(decide (15 < b 16), 0x2404, 16), (b 17 == 0 || decide (44 < b 17), 0x2404, 17),
      (decide (1 < b 18), 0x2404, 18)] ++ z 0x2404 19 1 ++ z 0x2404 (20 + b 17) (44 - b 17)
  | 0x504 => [(decide (15 < b 16), 0x2404, 16), (decide (4 < b 17), 0x2404, 17)] ++ z 0x2404 18 6
      ++ ((List.range (min 4 (b 17))).map fun k => augRules w (32 + 8 * k)).flatten
      ++ z 0x2404 (32 + 8 * b 17) (32 - 8 * b 17)
  | 0x505 => [(decide (15 < b 52), 0x2404, 52), (decide (1 < b 53), 0x2404, 53), (decide (1 < b 54), 0x2404, 54)]
      ++ z 0x2404 55 1
  | 0x506 =>
    let (_, e, o) := dictRecords w (b 17) 20
    [(decide (3 < b 16), 0x2404, 16), (e == some 17, 0x2404, 17), (decide (1 < b 18), 0x2404, 18)] ++ z 0x2404 19 1
      ++ (match e with | some f => [(true, 0x2404, f)] | none => z 0x2404 o (64 - o))
  | 0x507 => [(decide (3 < b 16), 0x2404, 16)] ++ z 0x2404 17 3
      ++ [(decide (16777215 < fieldAt w.bytes 20 3 + 255), 0x2404, 20)] ++ z 0x2404 23 1 ++ z 0x2404 27 37
  | 0x508 => [(decide (15 < b 52), 0x2404, 52), (decide (3 < b 53), 0x2404, 53), (decide (3 < b 54), 0x2404, 54)]
      ++ z 0x2404 55 1
  | 0x509 => [(decide (15 < b 52), 0x2404, 52)] ++ z 0x2404 53 11
  | 0x50A => [(decide (15 < b 52), 0x2404, 52), (decide (1 < b 53), 0x2404, 53)] ++ z 0x2404 54 10
  | _ => vectorRules w ++ s.statsRules c w

/-! ### Check 5, part 3: the operators' own rules -/

/-- QMODE agrees with the format (10 R208). -/
def Desc.qmodeOk (d : Desc) : Bool :=
  match d.qmode with
  | 0 => true
  | 1 => d.format != 4
  | 2 | 3 => (d.format == 0 || d.format == 1 || d.format == 5 || d.format == 6) && d.dims.getD 0 0 % 32 == 0
  | 4 | 5 => decide (d.format ≤ 2)
  | _ => false

/-- A scale tensor's shape (10 R209). -/
def Desc.scaleOk (d sc : Desc) : Bool :=
  sc.valid && sc.format == 2 && sc.qmode == 0 && sc.scale == 0 && sc.rank == d.rank
    && sc.dims == recordLen d.qmode (d.dims.getD 0 0) :: d.dims.drop 1

/-- A pair of 10 Table 10.7 (R212). -/
def modePair (a b : Nat) : Bool :=
  let block := fun q => q == 2 || q == 3
  let plain := fun q => decide (q ≤ 1)
  (plain a || block a) && (plain b || block b) || (a == 4 && (plain b || b == 4)) || (b == 4 && plain a)
    || (a == 5 && b == 5)

/-- The rules of the scale descriptor that the descriptor `d`, named at an offset, reaches: it was read without a bad
word and has the shape of R209 (R397; 09 R183). -/
def scaleRules (w : Waybill) (bad : Map Nat) (off : Nat) (d : Desc) : List Rule :=
  let st := bad.get 0 d.scale
  [(d.qmode != 0 && st != 0, st, if st = 0x4402 then 0 else off), (d.qmode != 0 && !d.scaleOk (w.desc d.scale), 0x2503, off)]

/-- The QMODE and scale rules of the descriptors that a waybill's slots and weights name, in slot order (09 R398 item 3;
10 R208, R209; 11 R222). -/
def State.quantRules (s : State) (c : CtxInfo) (w : Waybill) (bad : Map Nat) : List Rule :=
  let ds := (w.slotHandles ++ w.weights).map fun p => (p.1, w.desc p.2)
  let wr := fun off => (List.range 3).any fun i => slotAt i == off && w.role i == .write
  (ds.map fun p => (!p.2.qmodeOk, 0x2502, p.1))
    ++ (ds.map fun p => scaleRules w bad p.1 p.2 ++
      [(p.2.qmode != 0 && w.usesScale (wr p.1) p.2.qmode && !w.reaches (s.locate c (w.desc p.2.scale).base).1, w.code5, p.1)]).flatten

/-- The shape rules of MATMUL (11 R225). -/
def matmulShapes (w : Waybill) (d0 d1 d2 : Desc) (o0 o1 o2 : Opnd) : List Rule :=
  if w.direct then
    let m := fieldAt w.bytes 52 2
    let n := fieldAt w.bytes 54 2
    let k := fieldAt w.bytes 56 2
    [(o0.size != m * k * formatBits o0.fmt / 8, 0x2404, 20), (o1.size != n * k * formatBits o1.fmt / 8, 0x2404, 32),
     (o2.size != m * n * formatBits o2.fmt / 8, 0x2404, 44),
     (o2.fmt == 0 && n % 2 != 0, 0x2404, 54), ((o0.fmt == 0 || o1.fmt == 0) && k % 2 != 0, 0x2404, 56)]
  else
    let batch := fun (d : Desc) => d.dims4.drop 2
    [(decide (d0.rank < 2), 0x2404, 16), (d0.dims.getD 0 0 != d1.dims.getD 0 0, 0x2404, 16),
     (d1.rank != 2 && (d1.rank != d0.rank || batch d1 != batch d0), 0x2404, 16),
     (d2.rank != d0.rank || d2.dims4.getD 1 1 != d0.dims4.getD 1 1 || batch d2 != batch d0, 0x2404, 16),
     (d2.dims.getD 0 0 != d1.dims4.getD 1 1, 0x2404, 28)]

/-- The output extents of a convolution or pool over an input descriptor: height, width. -/
def windowOut (p : Window) (d0 : Desc) : Option (Nat × Nat) :=
  match outExtent (d0.dims4.getD 1 1) (p.pt + p.pb) p.dh p.kh p.sh, outExtent (d0.dims4.getD 0 1) (p.pl + p.pr) p.dw p.kw p.sw with
  | some h, some w => some (h, w)
  | _, _ => none

/-- The shape rules of CONV2D (11 R227). -/
def convShapes (w : Waybill) (d0 d1 d2 : Desc) : List Rule :=
  let p := w.window
  let ch := d0.dims4.getD 2 1
  let cout := d1.dims4.getD 1 1
  [(d0.rank != 3 && d0.rank != 4, 0x2404, 16), ((windowOut p d0).isNone, 0x2404, 16), (ch % p.groups != 0, 0x2404, 16),
   (d1.dims.getD 0 0 != ch / p.groups * p.kh * p.kw, 0x2404, 16),
   ((windowOut p d0).map (fun q => [q.2, q.1]) != some (d2.dims4.take 2) || d2.dims4.getD 3 1 != d0.dims4.getD 3 1, 0x2404, 16),
   (d1.rank != 2, 0x2404, 28), (cout % p.groups != 0, 0x2404, 28), (d2.dims4.getD 2 1 != cout, 0x2404, 28)]

/-- The shape rules of the pools (11 R234). -/
def poolShapes (w : Waybill) (d0 d1 : Desc) : List Rule :=
  [(d0.rank != 3 && d0.rank != 4, 0x2404, 16),
   ((windowOut w.window d0).map (fun q => [q.2, q.1] ++ d0.dims4.drop 2) != some d1.dims4, 0x2404, 16)]

/-- The shape rules of the vector operators but the pools (11 section 11.5). OP2 of the norms holds n or 2n FP32
elements in row order, and a DIRECT second operand as many elements as the first (log 17). -/
def vectorShapes (w : Waybill) (d0 d1 d2 : Desc) (o0 o1 o2 : Opnd) : List Rule :=
  let op := w.opcode
  let two := decide (op < 0x210)
  let norm := op == 0x221 || op == 0x222
  let coef := fun n => if op = 0x221 then 2 * n else n
  if w.direct then
    [(o0.size % max 1 o0.rowBytes != 0, 0x2404, 20),
     (op != 0x260 && o1.size != o1.rowBytes * o1.rows, 0x2404, 32),
     (norm && o2.fmt != 9, 0x2404, 51), ((two || norm) && o2.size != o2.rowBytes * o2.rows, 0x2404, 44)]
  else
    let out := if op = 0x230 ∨ op = 0x231 then 1 :: d0.dims4.drop 1 else d0.dims4
    [(op != 0x260 && d1.dims4 != out, 0x2404, 16),
     (two && (decide (d0.rank < d2.rank)
        || !(List.range 4).all (fun i => d2.dims4.getD i 1 == 1 || d2.dims4.getD i 1 == d0.dims4.getD i 1)), 0x2404, 16),
     (norm && d2.dims4.foldl (· * ·) 1 != coef (d0.dims.getD 0 0), 0x2404, 16), (norm && d2.format != 9, 0x2404, 40)]

/-- The shape rules of KV_APPEND and ATTEND over the pool of the context (12 R249, R257, Table 12.4). -/
def attnShapes (s : State) (c : CtxInfo) (w : Waybill) (p : Pool) (d0 d1 d2 : Desc) (bad : Map Nat) : List Rule :=
  let dim := fun (d : Desc) i => d.dims4.getD i 1
  if w.opcode = 0x304 then
    [(d0.format != p.format || d0.qmode != 0 || d0.rank != 3 || dim d0 0 != p.dl || dim d0 1 != p.layers, 0x2604, 16),
     (dim d0 2 != dim d1 0, 0x2604, 16), (d1.format != 4 || d1.rank != 1, 0x2604, 28)]
  else
    let hd := dim d0 0
    let h := dim d0 1
    let nq := dim d0 2
    let nk := fieldAt w.bytes 58 2 + 1
    let wt := fun (q : Nat × Nat) =>
      let d := w.desc q.2
      let st := bad.get 0 q.2
      [(st != 0, st, if st = 0x4402 then 0 else q.1), (!d.valid, 0x2604, q.1), (decide (10 ≤ d.format), 0x2501, q.1),
       (d.rank != 3 || dim d 0 != p.dl || dim d 1 != hd || dim d 2 != h || decide (1 < d.qmode)
         || (s.locate c d.base).1 != .sward || !tePair d.format p.format, 0x2604, q.1)]
    [((d0.format != 9 && d0.format != 7 && d0.format != 8) || d0.qmode != 0 || d0.rank != 3 || decide (hd < 16)
        || decide (256 < hd) || hd % 16 != 0 || decide (64 < h) || decide (4096 < nq), 0x2604, 16),
     (d1.dims4 != d0.dims4, 0x2604, 16),
     (w.role 2 == .read && (d2.format != 2 || d2.qmode != 0 || d2.rank != 2), 0x2604, 40),
     (w.role 2 == .read && (dim d2 0 != 8 * ((nk + 63) / 64) || dim d2 1 != nq + (nq + 63) / 64), 0x2604, 16)]
    ++ (w.weights.map wt).flatten

/-- The shape rules of the Intake operators' outputs (13 Tables 13.6, 13.8, R279, R281). DECODE's OP1 is of RANK 2, or of
RANK 3 with DIM2 3 for three full planes; which of them OUT_MODE 0 needs hangs on the stream, which is judged at the start
(13 R262, log 21). -/
def intakeShapes (w : Waybill) (d1 d2 : Desc) : List Rule :=
  let dim := fun (d : Desc) i => d.dims4.getD i 1
  let flat := fun (d : Desc) (f n : Nat) => d.format != f || d.qmode != 0 || d.rank != 1 || (n != 0 && dim d 0 != n)
  match w.opcode with
  | 0x505 => [(d1.format != 2 || d1.qmode != 0 || !(d1.rank == 3 && dim d1 2 == 3) && !(byteAt w.bytes 53 == 0 && d1.rank == 2),
      0x2404, 28), (flat d2 2 32, 0x2404, 40)]
  | 0x508 => [(w.role 1 == .write && flat d1 4 0, 0x2404, 28), (flat d2 2 16, 0x2404, 40)]
  | 0x509 => [(flat d1 4 0, 0x2404, 28), (flat d2 3 0, 0x2404, 40)]
  | 0x50A => [(flat d1 2 128, 0x2404, 28)]
  | _ => []

/-- The shape rules of an operator (09 R398 item 3, first point). -/
def State.shapeRules (s : State) (c : CtxInfo) (w : Waybill) (bad : Map Nat) : List Rule :=
  let d := fun i => w.desc (w.handle i)
  let o := fun i => s.operand c w i
  match w.wclass, w.opcode with
  | _, 0 => []
  | _, 1 =>
    let n := byteAt w.bytes 61
    if w.direct then [(decide ((o 0).size < n), 0x2404, 20)]
    else [(decide ((o 0).rowBytes * (o 0).rows < n), 0x2404, 16)]
  | 0, 0x101 => matmulShapes w (d 0) (d 1) (d 2) (o 0) (o 1) (o 2)
  | 0, 0x102 => convShapes w (d 0) (d 1) (d 2)
  | 1, 0x250 | 1, 0x251 => poolShapes w (d 0) (d 1)
  | 1, _ => vectorShapes w (d 0) (d 1) (d 2) (o 0) (o 1) (o 2)
  | 2, 0x303 => [((d 0).format != 4 || (d 0).rank != 1, 0x2604, 16),
      ((d 1).format != 2 || (d 1).qmode != 0 || (d 1).rank != 1 || (d 1).dims.getD 0 0 != 16, 0x2604, 28)]
  | 2, 0x304 | 2, 0x305 => (match s.poolOf c.ctx with
    | some p => attnShapes s c w p (d 0) (d 1) (d 2) bad
    | none => [])
  | 3, 0x401 =>
    if w.direct then [((o 0).size != (o 1).size, 0x2404, 16)]
    else [((d 0).format != (d 1).format || (d 0).qmode != (d 1).qmode || (d 0).rank != (d 1).rank
      || (d 0).dims != (d 1).dims, 0x2404, 16)]
  | 4, _ => intakeShapes w (d 1) (d 2)
  | _, _ => []

/-- The rules of a TE waybill over its input formats and modes (R205, R212, R229, R216), as the rules before and after
those of QMODE and scales. -/
def State.teRules (s : State) (c : CtxInfo) (w : Waybill) : List Rule × List Rule :=
  if w.wclass ≠ 0 ∨ w.opcode < 2 then ([], [])
  else
    let o := fun i => s.operand c w i
    let qa := (o 0).qmode
    let qb := (o 1).qmode
    let block := qa == 2 || qa == 3 || qb == 2 || qb == 3
    ([(!tePair (o 0).fmt (o 1).fmt, 0x2501, 16)],
     [(!modePair qa qb || (w.opcode == 0x102 && (qa == 2 || qa == 3 || qa == 5)), 0x2504, 16),
      ((o 2).fmt == 4 && (o 2).qmode != 0, 0x2502, 40), ((o 2).fmt == 4 && block, 0x2502, 16)])

/-- The overlap rule (11 R223). -/
def State.overlapRules (s : State) (c : CtxInfo) (w : Waybill) : List Rule :=
  if w.opcode = 0x301 ∨ w.opcode = 2 then []
  else match overlapAt (w.inPlace (s.operand c w 0) (s.operand c w 1)) (s.spans c w) with
    | some off => [(true, w.code5, off)]
    | none => []

/-- Check 5 in the order of R398; last, what is judged of descriptors that only a DEP names. -/
def State.check5 (s : State) (c : CtxInfo) (w : Waybill) (bad : Map Nat) : Option (Nat × Nat) :=
  let (te1, te2) := s.teRules c w
  let slots := ((List.range 3).map (s.slotRules c w)).flatten
  (firstBad slots).or ((firstBad (s.paramRules c w)).or ((firstBad (s.shapeRules c w bad ++ te1
    ++ (if w.direct then [] else s.quantRules c w bad) ++ te2 ++ s.overlapRules c w)).or
    (firstBad ((w.deps.map fun p => (decide (10 ≤ (w.desc p.2).format), 0x2501, p.1))
      ++ (w.deps.map fun p => scaleRules w bad p.1 (w.desc p.2)).flatten))))

/-! ### Checks 6 to 8 -/

/-- Check 6: the read forms of 08 Table 8.4 (R156). -/
def State.check6 (s : State) (c : CtxInfo) (w : Waybill) : Option (Nat × Nat) :=
  if !w.direct then none
  else firstBad ((List.range 3).map fun i =>
    let o := s.opnd c w i
    let a := bits (w.slotBits i) 26 0
    (w.role i == .read &&
      (match o.form with
       | .strided => o.base % o.esize != 0 || a % o.esize != 0 || o.pitch % o.esize != 0 || decide (1048576 < o.pitch)
           || o.size % o.esize != 0 || (o.fmt == 0 && o.esize != 1)
       | .transpose => a % 64 != 0 || o.pitch % 64 != 0 || decide (1048576 < o.pitch) || o.esize == 8
           || o.size % (64 * (64 / o.esize)) != 0 || o.fmt == 0
       | _ => false), 0x2305, i * 2 ^ 30))

/-- DETAIL in address form (09 Table 9.13). A code from 4 on gives DETAIL itself: of a line that no slot names, such as a
pool's, DETAIL is a free value (log 20). -/
def addrDetail (code addr base : Nat) : Nat :=
  if code < 4 then code * 2 ^ 30 + (addr - base) / 64 % 2 ^ 30 else (code - 4) % 2 ^ 32

/-- The first byte of an extent that touches a registered pool's region (12 R242). -/
def State.poolTouch (s : State) (x : Extent) : Option Nat :=
  if x.mem = .lpddr then s.pools.findSome? fun p => x.firstIn (p.base - lpBase) (p.base - lpBase + p.bytes) else none

/-- Check 7: every span lies in the context's share, and no XE span in a pool region (08 R152, R175; 12 R242). -/
def State.check7 (s : State) (c : CtxInfo) (w : Waybill) : Option (Nat × Nat) :=
  if w.wclass = 3 ∧ w.opcode = 2 ∧ fieldAt w.bytes 24 8 < lpBase + c.lpBase then some (0x2301, 0)
  else if w.wclass = 2 ∧ w.opcode = 0x301 ∧ (s.locate c (fieldAt w.bytes 16 8)).1 ≠ .lpddr then some (0x2301, 0)
  else (s.spans c w).findSome? fun p =>
    match s.offending c (w.wclass == 2) p.ext with
    | some a => some (0x2301, addrDetail p.code a p.ext.base)
    | none =>
      if w.wclass = 3 then (s.poolTouch p.ext).map fun a => (0x2605, addrDetail p.code a p.ext.base) else none

/-- The declared writer of a Waymark slot (01 section 1.4). -/
def State.slotWriter (s : State) (n : Nat) : Option Nat := ((s.recN 0x20 n).map (·.u 9 1))

/-- Check 8: the Waymark writer (09 R179, 01 R16). -/
def State.check8 (s : State) (w : Waybill) : Option (Nat × Nat) :=
  firstBad [(w.opcode == 1 && s.slotWriter (byteAt w.bytes 60) != some w.ctx, 0x2406, 0)]

end Sys2Proof.Machine
end

