-- ==== Sys2Proof/Machine/Fetch.lean ====
section
/-! DEFINITION. Fetching queue entries: single entries, schedules, the Scoreboard, and refusals at fetch (07 section 7.4;
09 sections 9.4 to 9.6). -/

namespace Sys2Proof.Machine

/-- Device address of entry `n` of a queue's entry ring (07 section 7.2). -/
def QueueInfo.entryAddr (i : QueueInfo) (n : Nat) : Nat := i.sqBase + n % i.depth * 64

/-- A waybill whose bytes are given; the rest as before fetch. -/
def rawWaybill (b : List Byte) : Waybill := { Waybill.init with bytes := b }

/-- The bytes of a ring entry as they stand, and whether a word of them cannot be trusted: a look without effect. -/
def State.peekEntry (s : State) (i : QueueInfo) (n : Nat) : Waybill × Bool :=
  match s.place (i.entryAddr n) with
  | .lpddr u =>
    let pend := s.mem.pendGran.contains (u / granule)
    if pend then (rawWaybill (List.replicate 64 0), false)
    else (rawWaybill (s.mem.lpddr.cells.bytes u 64),
      (s.markedIn .lp u 64).any fun w =>
        let e := s.mem.lpddr.marks.get Ecc.clean w
        e == .ue || e == .poison)
  | .host h => let (b, bad) := s.readHost h 64; (rawWaybill b, bad.isSome)
  | _ => (rawWaybill (List.replicate 64 0), false)

/-- Read a ring entry: its bytes, 0 or the status of a bad word, whether a word was corrected (09 R397, 07 R147). -/
def State.readEntry (i : QueueInfo) (n : Nat) (s : State) : List Byte × Nat × Bool × State :=
  match s.place (i.entryAddr n) with
  | .lpddr u =>
    let (b, x, s1) := s.readMem .lp (some i.ctx) u 64
    (b, if x.ueAt.isSome then 0x8305 else if x.poisonAt.isSome then 0x8306 else 0, decide (0 < x.corr), s1.count i.ctx 19 64)
  | .host h => let (b, bad) := s.readHost h 64; (b, if bad.isSome then 0x8306 else 0, false, s.count i.ctx 21 64)
  | _ => (List.replicate 64 0, 0, false, s)

/-- ANCHOR and SEAL of an entry as a schedule's bounds: they bound one in DIRECT mode only (09 Table 9.3, log 13), and an
entry that cannot be trusted carries neither (R397). -/
def bounds (p : Waybill × Bool) : Bool × Bool :=
  if p.2 || !p.1.direct then (false, false) else (p.1.anchor, p.1.seal)

/-- How far the schedule opened by entry `n` runs among the `k` entries that follow it: its further entries and whether
the last of them is a refused ANCHOR; none while it is open (09 R189). -/
def State.scheduleEnd (s : State) (i : QueueInfo) : Nat → Nat → Nat → Option (Nat × Bool)
  | 0, _, _ => none
  | k + 1, n, len =>
    let (opens, closes) := bounds (s.peekEntry i n)
    if opens then some (len + 1, true)
    else if closes then some (len + 1, false)
    else s.scheduleEnd i k (n + 1) (len + 1)

/-- The unit that a queue fetches next: how many entries, and for each whether its place breaks a schedule rule; `sched`
tells that they are one schedule (09 R189). -/
structure FetchUnit where
  breaches : List Bool
  sched : Bool
  deriving DecidableEq, Repr

/-- The unit at the head of a queue with `avail` entries submitted and not fetched. -/
def State.nextUnit (s : State) (i : QueueInfo) (head avail : Nat) : Option FetchUnit :=
  if avail = 0 then none
  else
    let p := s.peekEntry i head
    let (opens, closes) := bounds p
    if !opens then some ⟨[!p.2 && p.1.direct], false⟩
    else if closes then some ⟨[false], true⟩
    else match s.scheduleEnd i (min (avail - 1) (i.depth - 1)) (head + 1) 1 with
      | some (n, refused) =>
        some ⟨(List.range n).map fun k =>
          (k != 0 && !(s.peekEntry i (head + k)).2 && !(s.peekEntry i (head + k)).1.direct) || (refused && k + 1 == n), true⟩
      | none => if i.depth ≤ avail then some ⟨List.replicate i.depth true, true⟩ else none

/-- The Scoreboard has room for entries of these classes under both of its limits (09 R188, 07 R143; log 13). -/
def State.room (s : State) (classes : List Nat) : Bool :=
  decide (s.sched.flight.length + classes.length ≤ 256) &&
    classes.all fun k => decide (s.sched.flight.countP (·.wclass == k) + classes.count k ≤ 64)

/-- Judge a fetched entry by checks 1 to 8: the waybill with its descriptor copies, the first failure, and the state
after the reads (09 Table 9.10). -/
def State.judge (c : CtxInfo) (breach : Bool) (w : Waybill) (s : State) : Waybill × Option (Nat × Nat) × State :=
  match (w.check1.or (w.check2.or (w.check3 breach))) with
  | some f => (w, some f, s)
  | none =>
    match s.check4 c w with
    | (w1, s1, some f) => (w1, some f, s1)
    | (w1, s1, none) =>
      let (w2, bad, s2) := s1.loadRest c w1
      (w2, (s2.check5 c w2 bad).or ((s2.check6 c w2).or ((s2.check7 c w2).or (s2.check8 w2))), s2)

/-- Make a waybill the last-fetched writer of the keys it writes (09 R187). -/
def State.takeWrites (w : Waybill) (s : State) : State :=
  w.writes.foldl (fun t k =>
    { t with sched := { t.sched with lastWriter := t.sched.lastWriter.set 0 (outKey w.ctx k) (w.id + 1) } }) s

/-- A refused waybill completes at once (09 R184, R397). -/
def State.refuse (w : Waybill) (f : Nat × Nat) (s : State) : State :=
  let desc := f.1 == 0x8305 || f.1 == 0x8306
  let s1 := if desc then s.count w.ctx 23 1 else s
  (s1.takeWrites w).finish w f.1 f.2 {} desc

/-- The pool that an accepted POOL_INIT registers (12 R245). -/
def State.registerPool (c : CtxInfo) (w : Waybill) (s : State) : State :=
  let b := w.bytes
  let p : Pool :=
    { key := poolKey c, keeper := c.ctx, ready := false, base := fieldAt b 16 8, nBlocks := fieldAt b 24 4,
      dl := fieldAt b 28 2, maxb := fieldAt b 30 2, layers := byteAt b 32, format := byteAt b 33, seqs := byteAt b 34,
      bytes := s.poolBytes c w, blk := [], seq := [] }
  { s with pools := s.pools ++ [p] }

/-- An accepted waybill takes its place on the Scoreboard with the waits of R185 and the outcomes of R187. -/
def State.accept (c : CtxInfo) (w : Waybill) (s : State) : State :=
  let mine := s.sched.flight.filter fun (v : Waybill) => v.ctx == w.ctx && !v.direct
  let writerOf := fun k => (mine.filter fun (v : Waybill) => v.writes.contains k).getLast?
  let waitFor := w.reads.filterMap fun k => (writerOf k).map fun (v : Waybill) => (k, v.id)
  let now := w.reads.filter fun k => (writerOf k).isNone
  let waits := if w.direct then [] else
    ((w.reads.filterMap fun k => (writerOf k).map (·.id)) ++
      ((mine.filter fun (v : Waybill) => w.writes.any fun k => v.writes.contains k || v.reads.contains k).map (·.id))).eraseDups
  let w1 := { w with waits := waits, waitFor := waitFor, ready := w.direct, verdict := s.worstOutcome w.ctx now }
  let s1 := s.takeWrites w1
  let s2 := { s1 with sched := { s1.sched with flight := s1.sched.flight ++ [w1] } }
  if w.wclass = 2 ∧ w.opcode = 0x301 then s2.registerPool c w else s2

/-- Fetch one entry: read it, count it, judge it (07 R137, R147; 09 R184, R397). -/
def State.fetchOne (c : CtxInfo) (i : QueueInfo) (breach : Bool) (s : State) : Waybill × Option (Nat × Nat) × State :=
  let q := s.queue i.ctx i.queue
  let (b, st, corr, s1) := s.readEntry i q.fetched.toNat
  let s2 := { (s1.modQueue i.ctx i.queue fun x => { x with fetched := x.fetched + 1 }).count i.ctx 0 1 with
              sched := { s1.sched with nextId := s1.sched.nextId + 1 } }
  let w : Waybill :=
    { rawWaybill b with id := s1.sched.nextId, ctx := i.ctx, queue := i.queue, slot := q.fetched.toNat % i.depth,
                        seen := s.now, corrected := corr }
  if st ≠ 0 then ({ w with bytes := List.replicate 64 0 }, some (st, 0), s2)
  else
    let before := s2.counter i.ctx 22
    let (w1, f, s3) := s2.judge c breach w
    let (r, wr) := w1.keys
    ({ w1 with reads := r, writes := wr, corrected := corr || s3.counter i.ctx 22 != before }, f, s3)

/-- Fetch the entries of a unit in order. -/
def State.fetchAll (c : CtxInfo) (i : QueueInfo) : List Bool → State → List (Waybill × Option (Nat × Nat)) × State
  | [], s => ([], s)
  | b :: r, s =>
    let (w, f, s1) := s.fetchOne c i b
    let (l, s2) := State.fetchAll c i r s1
    ((w, f) :: l, s2)

/-- The last tick that TE0 has issued: the token's while it is past TE0, else the one before (log 7). -/
def State.lastIssued (s : State) : BitVec 32 := if s.sched.tokenAt = 0 then s.sched.tick - 1 else s.sched.tick

/-- Fetch a unit: entries that pass are taken onto the Scoreboard, refused ones complete at once, and when one entry of
a schedule is refused every other completes with 0x4403 (09 R189, R190). -/
def State.fetchUnit (c : CtxInfo) (i : QueueInfo) (u : FetchUnit) (s : State) : State :=
  let (l, s1) := s.fetchAll c i u.breaches
  let broken := u.sched && l.any (·.2.isSome)
  let anchor := s1.lastIssued + 2
  (l.foldl (fun t p =>
    match p.2 with
    | some f => t.refuse p.1 f
    | none =>
      if broken then t.refuse p.1 (0x4403, 0)
      else
        let link := fieldAt p.1.bytes 8 8
        t.accept c { p.1 with startTick := anchor + BitVec.ofNat 32 (bits link 15 0),
                              endTick := anchor + BitVec.ofNat 32 (bits link 31 16) }) s1).settleAll

/-- The Scheduler can read a queue's entry ring: LPDDR5 while no controller is FENCED, host memory while the link is up
and the endpoint is not FENCED (07 R143, 01 R23). -/
def State.ringReadable (s : State) (i : QueueInfo) : Bool :=
  if hostBase ≤ i.sqBase then s.link.up && !s.isFenced 0x50
  else (rangeFrom 0x54 4).all fun b => !s.isFenced b

/-- WAYBILL_FETCH: the Scheduler fetches the next entry, or the next schedule, of a queue. `stores` are host software's
stores into host memory that the fetch finds (log 6). -/
def execWaybillFetch (ctx : Fin 256) (q : Fin 4) (stores : List HostStore) (s : State) :
    Host.Outcome State Fault Refusal :=
  let s1 := s.hostStores stores
  done s (
    match s1.ctx ctx, s1.queueInfo ctx q with
    | some c, some i =>
      let x := s1.queue ctx q
      if !s1.active || x.halted || !s1.ringReadable i then s1
      else match s1.nextUnit i x.fetched.toNat (x.sqTail - x.fetched).toNat with
        | none => s1
        | some u =>
          let cls := (List.range u.breaches.length).map fun k => (s1.peekEntry i (x.fetched.toNat + k)).1.wclass
          if s1.room cls then s1.fetchUnit c i u else s1
    | _, _ => s1)

end Sys2Proof.Machine
end

