-- ==== Sys2Proof/Machine/Isp.lean ====
section
/-! DEFINITION. The image pipeline: lines padded to WIDTH × HEIGHT, the eight stages of 14 Table 14.4 in FP32 arithmetic
(R287), the branches' crop and area averaging (R288), the statistics (section 14.6) and the camera governor (section
14.4). Where the chapter prints no order of operations, log 22 says which is taken. -/

namespace Sys2Proof.Machine

/-! ### FP32 arithmetic (14 R287) -/

/-- One rounded operation each. -/
def fAdd (x y : Rv) : Rv := rne32 (rvAdd x y)
def fSub (x y : Rv) : Rv := rne32 (rvSum [x, rvNeg y])
def fMul (x y : Rv) : Rv := rne32 (rvMul x y)
def fDiv (x y : Rv) : Rv := rne32 (rvDiv x y)

/-- A natural number in FP32. -/
def fNat (n : Nat) : Rv := rne32 (rvInt n)

/-- A printed decimal constant n / d rounded to FP32 once. -/
def fConst (n d : Nat) : Rv := fDiv (rvInt n) (rvInt d)

/-- A stage output in the integer range 0 to `hi` (10 Table 10.3). -/
def toUint (hi : Nat) : Rv → Nat
  | .nan => 0
  | .inf n => if n then 0 else hi
  | .fin n m e => (clampTo 0 hi (roundInt n m e)).toNat

/-! ### Planes -/

/-- A plane as rows of samples. -/
abbrev Plane := List (List Nat)

/-- Sample (y, x) of a plane. -/
def at2 (p : Plane) (y x : Nat) : Nat := (p.getD y []).getD x 0

/-- A plane of `h` rows of `w` samples. -/
def plane (h w : Nat) (f : Nat → Nat → Nat) : Plane := (List.range h).map fun y => (List.range w).map (f y)

/-- An index mirrored at the edges of 0 to n − 1. -/
def mirror (n : Nat) (i : Int) : Nat :=
  if i < 0 then i.natAbs else if (n : Int) ≤ i then (2 * ((n : Int) - 1) - i).toNat else i.toNat

/-- A sample at a displacement, mirrored at the edges. -/
def near (p : Plane) (h w y x : Nat) (d : Int × Int) : Nat := at2 p (mirror h (y + d.1)) (mirror w (x + d.2))

/-! ### Input -/

/-- Bits of a raw data type (14 R282). -/
def rawBits (dt : Nat) : Nat := match dt with | 0x2A => 8 | 0x2B => 10 | 0x2C => 12 | 0x2D => 14 | _ => 16

/-- DT of a SENSOR record; 0x1E is YUV422. -/
def camDt (r : Rec) : Nat := r.u 0xA 1

/-- YUV422 input. -/
def isYuv (r : Rec) : Bool := camDt r == 0x1E

/-- The pixels of a line packet: raw codes, or Y + 256 × U + 65,536 × V with each chroma sample repeated over its two
pixels (14 section 14.2). -/
def linePixels (r : Rec) (codes : List Nat) : List Nat :=
  if isYuv r then
    ((List.range (codes.length / 4)).map fun k =>
      let c := fun i => codes.getD (4 * k + i) 0 % 256
      [c 1 + 256 * c 0 + 65536 * c 2, c 3 + 256 * c 0 + 65536 * c 2]).flatten
  else codes.map (· % 2 ^ rawBits (camDt r))

/-- The pad value of a pixel (14 section 14.5). -/
def padPixel (r : Rec) : Nat :=
  if isYuv r then byteAt r.bytes 0x24 + 65792 * byteAt r.bytes 0x25 else r.u 0x20 2

/-- A frame's lines as WIDTH × HEIGHT pixels with padding; raw codes left-justified (14 R287, R295). -/
def framePlane (r : Rec) (f : CamFrame) : Plane :=
  let up := fun c => if isYuv r then c else c * 2 ^ (16 - rawBits (camDt r))
  (List.range (camHeight r)).map fun y => match f.lines.getD y none with
    | some l => fit (camWidth r) (padPixel r) (l.map up)
    | none => List.replicate (camWidth r) (padPixel r)

/-! ### Stages for raw input (14 Table 14.4) -/

/-- The colour of a site: 0 red, 1 green, 2 blue. -/
def siteColour (bayer y x : Nat) : Nat :=
  (([[0, 1, 1, 2], [1, 0, 2, 1], [1, 2, 0, 1], [2, 1, 1, 0]] : List (List Nat)).getD bayer []).getD (y % 2 * 2 + x % 2) 0

/-- Stages 1 and 2: black level, then defects against the 8 same-colour neighbours at distance 2. -/
def stageDpc (r : Rec) (p : Plane) : Plane :=
  let h := camHeight r
  let w := camWidth r
  let b := p.map fun l => l.map fun x => x - r.u 0x20 2
  let thr := r.u 0x22 2
  let ds : List (Int × Int) := [(-2, -2), (-2, 0), (-2, 2), (0, -2), (0, 2), (2, -2), (2, 0), (2, 2)]
  if thr = 0xFFFF then b
  else plane h w fun y x =>
    let v := at2 b y x
    let ns := ds.map (near b h w y x)
    let hi := ns.foldl max 0
    let lo := ns.foldl min 65535
    if hi + thr < v then hi else if v + thr < lo then lo else v

/-- Knot (i, j) of an LSC plane, Q2.14. -/
def lscKnot (r : Rec) (pl i j : Nat) : Rv := .fin false (r.u (0x100 + 2 * (pl * 289 + i * 17 + j)) 2) (-14)

/-- Stage 3: lens shading by bilinear interpolation, along x and then along y (log 22). -/
def stageLsc (r : Rec) (p : Plane) : Plane :=
  let h := camHeight r
  let w := camWidth r
  plane h w fun y x =>
    let pl := y % 2 * 2 + x % 2
    let j := min 15 (x * 16 / (w - 1))
    let i := min 15 (y * 16 / (h - 1))
    let fx := fDiv (rvInt (x * 16 - j * (w - 1))) (rvInt (w - 1))
    let fy := fDiv (rvInt (y * 16 - i * (h - 1))) (rvInt (h - 1))
    let lerp := fun (f a b : Rv) => fAdd a (fMul f (fSub b a))
    let g := lerp fy (lerp fx (lscKnot r pl i j) (lscKnot r pl i (j + 1)))
      (lerp fx (lscKnot r pl (i + 1) j) (lscKnot r pl (i + 1) (j + 1)))
    toUint 65535 (fMul (rvInt (at2 p y x)) g)

/-- A Q4.12 gain times a value. -/
def fGain (x : Rv) (g : Nat) : Rv := fDiv (fMul x (rvInt g)) (rvInt 4096)

/-- Stage 4: digital gain, then the white balance of red and blue sites. -/
def stageGain (r : Rec) (b : Bundle) (p : Plane) : Plane :=
  plane (camHeight r) (camWidth r) fun y x =>
    let v := fGain (rvInt (at2 p y x)) b.dgain
    toUint 65535 (match siteColour (r.u 0xB 1) y x with | 0 => fGain v b.wbR | 2 => fGain v b.wbB | _ => v)

/-- Stage 5, one colour: its own sites, else the mean of the in-line or orthogonal same-colour sites, else of the
diagonal ones. -/
def stageDemosaic (r : Rec) (colour : Nat) (p : Plane) : Plane :=
  let h := camHeight r
  let w := camWidth r
  let bayer := r.u 0xB 1
  let same := fun (y x : Nat) (d : Int × Int) => siteColour bayer (mirror h (y + d.1)) (mirror w (x + d.2)) == colour
  let mean := fun (l : List Nat) => toUint 65535 (fDiv (rvInt l.sum) (rvInt l.length))
  plane h w fun y x =>
    if siteColour bayer y x = colour then at2 p y x
    else
      let orth := ([(-1, 0), (0, -1), (0, 1), (1, 0)] : List (Int × Int)).filter (same y x)
      let diag := ([(-1, -1), (-1, 1), (1, -1), (1, 1)] : List (Int × Int)).filter (same y x)
      mean ((if orth.isEmpty then diag else orth).map (near p h w y x))

/-- The three full planes of a frame. -/
structure Rgb where
  r : Plane
  g : Plane
  b : Plane
  deriving DecidableEq, Repr

/-- Three planes combined sample by sample. -/
def Rgb.map3 (h w : Nat) (p : Rgb) (f : Nat → Nat → Nat → Nat) : Plane :=
  plane h w fun y x => f (at2 p.r y x) (at2 p.g y x) (at2 p.b y x)

/-- Stage 5. -/
def stageRgb (r : Rec) (p : Plane) : Rgb := ⟨stageDemosaic r 0 p, stageDemosaic r 1 p, stageDemosaic r 2 p⟩

/-- Stage 6: row `k` of the colour matrix. -/
def stageCcm (r : Rec) (p : Rgb) : Rgb :=
  let row := fun (k : Nat) =>
    let c := fun i => fp32Of (r.u (0x48 + 4 * (3 * k + i)) 4)
    let o := fp32Of (r.u (0x48 + 36 + 4 * k) 4)
    p.map3 (camHeight r) (camWidth r) fun a g b =>
      toUint 65535 (fAdd (fAdd (fAdd (fMul (c 0) (rvInt a)) (fMul (c 1) (rvInt g))) (fMul (c 2) (rvInt b))) o)
  ⟨row 0, row 1, row 2⟩

/-- Stage 7: the gamma curve of 65 knots. -/
def gammaOf (r : Rec) (v : Nat) : Nat :=
  let knot := fun i => rvInt (r.u (0x78 + 2 * i) 2)
  let i := v / 1024
  toUint 65535 (fAdd (knot i) (fMul (fDiv (rvInt (v % 1024)) (rvInt 1024)) (fSub (knot (i + 1)) (knot i))))

/-- Stage 7 of three planes. -/
def stageGamma (r : Rec) (p : Rgb) : Rgb :=
  let f := fun (q : Plane) => q.map fun l => l.map (gammaOf r)
  ⟨f p.r, f p.g, f p.b⟩

/-- Stage 8 of one pixel: Y, U, V. -/
def cscOf (csc a g b : Nat) : Nat × Nat × Nat :=
  let (kr, kg, kb, db, dr) := if csc < 2 then
      (fConst 299 1000, fConst 587 1000, fConst 114 1000, fConst 1772 1000, fConst 1402 1000)
    else (fConst 2126 10000, fConst 7152 10000, fConst 722 10000, fConst 18556 10000, fConst 15748 10000)
  let unit := fun n => fDiv (rvInt n) (rvInt 65535)
  let y := fAdd (fAdd (fMul kr (unit a)) (fMul kg (unit g))) (fMul kb (unit b))
  let cb := fDiv (fSub (unit b) y) db
  let cr := fDiv (fSub (unit a) y) dr
  let out := fun (o k : Nat) (x : Rv) => toUint 255 (if o = 0 then fMul (rvInt k) x else fAdd (rvInt o) (fMul (rvInt k) x))
  if csc % 2 = 0 then (out 0 255 y, out 128 255 cb, out 128 255 cr) else (out 16 219 y, out 128 224 cb, out 128 224 cr)

/-- What the pipeline gives of one frame: its left-justified input, stage 5, stage 7, and stage 8's Y, U and V in 4:4:4.
YUV422 input skips the stages. -/
structure IspOut where
  input : Plane
  s5 : Rgb
  s7 : Rgb
  y : Plane
  u : Plane
  v : Plane
  deriving DecidableEq, Repr

/-- The pipeline on a frame (14 section 14.2). -/
def ispRun (r : Rec) (f : CamFrame) : IspOut :=
  let inp := framePlane r f
  if isYuv r then
    let part := fun d => inp.map fun l => l.map fun c => c / d % 256
    ⟨inp.map fun l => l.map fun c => c % 256 * 256, ⟨[], [], []⟩, ⟨[], [], []⟩, part 1, part 256, part 65536⟩
  else
    let s5 := stageRgb r (stageGain r f.bundle (stageLsc r (stageDpc r inp)))
    let s7 := stageGamma r (stageCcm r s5)
    let px := fun a g b => cscOf (r.u 0x42 1) a g b
    let h := camHeight r
    let w := camWidth r
    ⟨inp, s5, s7, s7.map3 h w fun a g b => (px a g b).1, s7.map3 h w fun a g b => (px a g b).2.1,
      s7.map3 h w fun a g b => (px a g b).2.2⟩

/-! ### Branches (14 section 14.3) -/

/-- Crop of a plane. -/
def cropOf (b : Rec) (p : Plane) : Plane :=
  ((p.drop (b.u 0xE 2)).take (b.u 0x12 2)).map fun l => (l.drop (b.u 0xC 2)).take (b.u 0x10 2)

/-- A quotient rounded to the nearest, ties to even. -/
def rneDiv (n d : Nat) : Nat :=
  let q := n / d
  let r := n % d
  if 2 * r < d then q else if d < 2 * r then q + 1 else q + q % 2

/-- Area averaging from ws × hs to wo × ho (14 R288): overlaps counted in units of 1 / (wo × ho) of a source pixel. -/
def scalePlane (ws hs wo ho : Nat) (p : Plane) : Plane :=
  let lap := fun (n s o d : Nat) => min ((s + 1) * o) ((d + 1) * n) - max (s * o) (d * n)
  let span := fun (n o d : Nat) => rangeFrom (d * n / o) (((d + 1) * n + o - 1) / o - d * n / o)
  plane ho wo fun y x =>
    rneDiv (((span hs ho y).map fun sy => ((span ws wo x).map fun sx =>
      at2 p sy sx * lap ws sx wo x * lap hs sy ho y).sum).sum) (ws * hs)

/-- OUT of a branch record (14 Table 14.5): 0 Y8, 1 YUV420, 2 RGB888, 3 RAW16. -/
def branchOut (r : Rec) : Nat := r.u 0xA 1

/-- A plane that a branch delivers, with its width and height. -/
structure BranchPlane where
  w : Nat
  h : Nat
  rows : Plane
  deriving DecidableEq, Repr

/-- Widths and heights of a branch's planes. -/
def branchSizes (b : Rec) : List (Nat × Nat) :=
  let w := b.u 0x14 2
  let h := b.u 0x16 2
  match branchOut b with
  | 1 => [(w, h), (w / 2, h / 2), (w / 2, h / 2)]
  | 2 => [(w, h), (w, h), (w, h)]
  | _ => [(w, h)]

/-- The planes that a branch delivers of a frame (14 R288). -/
def branchPlanes (b : Rec) (o : IspOut) : List BranchPlane :=
  let to8 := fun (p : Plane) => p.map fun l => l.map fun v => rneDiv v 257
  let src := match branchOut b with
    | 0 => [o.y]
    | 1 => [o.y, o.u, o.v]
    | 2 => [to8 o.s7.r, to8 o.s7.g, to8 o.s7.b]
    | _ => [o.input]
  (src.zip (branchSizes b)).map fun p =>
    ⟨p.2.1, p.2.2, if branchOut b = 3 then cropOf b p.1 else scalePlane (b.u 0x10 2) (b.u 0x12 2) p.2.1 p.2.2 (cropOf b p.1)⟩

/-- Bytes of a sample. -/
def sampleBytes (b : Rec) : Nat := if branchOut b = 3 then 2 else 1

/-- Pitch of a plane row: its byte width rounded up to 64. -/
def rowPitch (b : Rec) (w : Nat) : Nat := (w * sampleBytes b + 63) / 64 * 64

/-- Bytes of a frame slot: the record, then the planes (14 section 14.3). -/
def slotBytes (b : Rec) : Nat := 64 + ((branchSizes b).map fun q => rowPitch b q.1 * q.2).sum

/-! ### Statistics (14 Table 14.9, R299) -/

/-- Sum of a function over a cell of a grid. -/
def cellSum (h w i j : Nat) (f : Nat → Nat → Nat) : Nat :=
  ((rangeFrom (i * h) h).map fun y => ((rangeFrom (j * w) w).map (f y)).sum).sum

/-- The AE cells, row-major. -/
def aeCells (r : Rec) (o : IspOut) : List Nat :=
  ((List.range 16).map fun i => (List.range 16).map fun j =>
    cellSum (camHeight r / 16) (camWidth r / 16) i j (at2 o.y)).flatten

/-- The sharpness cells, row-major, the frame border excluded. -/
def sharpCells (r : Rec) (o : IspOut) : List Nat :=
  let h := camHeight r
  let w := camWidth r
  ((List.range 8).map fun i => (List.range 8).map fun j => cellSum (h / 8) (w / 8) i j fun y x =>
    if y = 0 ∨ x = 0 ∨ h ≤ y + 1 ∨ w ≤ x + 1 then 0
    else
      let v := fun a b => (at2 o.y a b : Int)
      (4 * v y x - v (y - 1) x - v (y + 1) x - v y (x - 1) - v y (x + 1)).natAbs).flatten

/-- Bin `v` of the histogram of Y. -/
def histBin (o : IspOut) (v : Nat) : Nat := (o.y.map fun l => l.countP (· == v)).sum

/-- AWB_COUNT, AWB_R, AWB_G, AWB_B over the qualified pixels of stage 5; 0 for YUV422 input. -/
def awbSums (r : Rec) (o : IspOut) : Nat × Nat × Nat × Nat :=
  if isYuv r then (0, 0, 0, 0)
  else
    let ok := fun v => decide (r.u 0x44 2 ≤ v) && decide (v ≤ r.u 0x46 2)
    let px := ((List.range (camHeight r)).map fun y => (List.range (camWidth r)).map fun x =>
      (at2 o.s5.r y x, at2 o.s5.g y x, at2 o.s5.b y x)).flatten.filter fun p => ok p.1 && ok p.2.1 && ok p.2.2
    (px.length, (px.map (·.1)).sum, (px.map (·.2.1)).sum, (px.map (·.2.2)).sum)

/-- The statistics record's bytes (14 Table 14.9). -/
def statsRecord (r : Rec) (f : CamFrame) (o : IspOut) (status : Nat) (counters : Map Nat) : List Byte :=
  let (n, ar, ag, ab) := awbSums r o
  le 4 f.efn.toNat ++ le 2 status ++ le 2 0 ++ le 8 f.stamp ++ le 2 (camWidth r / 16) ++ le 2 (camHeight r / 16)
    ++ le 2 (camWidth r / 8) ++ le 2 (camHeight r / 8) ++ le 4 n ++ le 4 0 ++ le 8 ar ++ le 8 ag ++ le 8 ab ++ le 8 0
    ++ ((List.range 8).map fun i => le 8 (counters.get 0 i)).flatten ++ ((aeCells r o).map (le 4)).flatten
    ++ ((List.range 256).map fun v => le 4 (histBin o v)).flatten ++ ((sharpCells r o).map (le 4)).flatten

/-! ### The camera governor (14 section 14.4) -/

/-- FP32 minimum and maximum. -/
def fMin (x y : Rv) : Rv := if rvLt y x then y else x
def fMax (x y : Rv) : Rv := if rvLt x y then y else x

/-- A real value as Q4.12. -/
def toQ12 (x : Rv) : Nat := toUint 65535 (rvMul x (rvInt 4096))

/-- The real value of a Q4.12 field. -/
def ofQ12 (n : Nat) : Rv := .fin false n (-12)

/-- The exposure part of the law: new exposure and gain, when the mean leaves the tolerance. -/
def governAe (r : Rec) (b : Bundle) (cells : List Nat) : Option (Nat × Nat) :=
  let one := rvInt 1
  let m := fMax (fDiv (fNat cells.sum) (fNat (256 * (camWidth r / 16 * (camHeight r / 16))))) one
  let target := rvInt (byteAt r.bytes 0x40)
  let dg := ofQ12 b.dgain
  let dgMax := ofQ12 (r.u 0x3A 2)
  if !rvLt (rvInt (byteAt r.bytes 0x41)) (rvAbs (fSub m target)) then none
  else if r.u 0x10 1 = 1 then
    let e := fNat b.exposure
    let ed := fMul e dg
    let want := fDiv (fMul ed target) m
    let want2 := fMin (fMax want (fDiv ed (rvInt 2))) (fMul ed (rvInt 2))
    let e' := fMin (fMax want2 (fNat (r.u 0x2C 4))) (fNat (r.u 0x30 4))
    some (toUint 0xFFFFFFFF e', toQ12 (fMin (fMax (fDiv want2 e') one) dgMax))
  else
    let g := fMax (fMax (fDiv (fMul dg target) m) (fDiv dg (rvInt 2))) one
    some (0, toQ12 (fMin (fMin g (fMul dg (rvInt 2))) dgMax))

/-- The white balance part of one colour: a quarter of the way to the clamped ratio. -/
def governWb (wb g c : Nat) : Nat :=
  let w := ofQ12 wb
  let ratio := fMin (fMax (fDiv (fNat g) (fNat c)) (.fin false 1 (-2))) (rvInt 8)
  toQ12 (fAdd w (fDiv (fSub ratio w) (rvInt 4)))

/-- The bundle that the governor decides after a frame's statistics; none where the law moves nothing (log 22). -/
def govern (r : Rec) (b : Bundle) (o : IspOut) : Option Bundle :=
  let flags := r.u 0x1E 2
  let ae := if flags.testBit 0 then governAe r b (aeCells r o) else none
  let (_, ar, ag, ab) := awbSums r o
  let wb := flags.testBit 1 && decide (0 < ar) && decide (0 < ab)
  if ae.isNone && !wb then none
  else
    let b1 := match ae with | some (e, d) => { b with exposure := e, dgain := d } | none => b
    some (if wb then { b1 with wbR := governWb b.wbR ag ar, wbB := governWb b.wbB ag ab } else b1)

end Sys2Proof.Machine
end

