-- ==== Sys2Proof/Machine/Streams.lean ====
section
/-! DEFINITION. The Intake Engine's streams and dictionaries, the picture store, and what the IE takes at the start of a
waybill (13 sections 13.1, 13.2). The model's choices are in log 21. -/

namespace Sys2Proof.Machine

/-- Stream `n` of context `c`, when it is open. -/
def State.stream (s : State) (c n : Nat) : Option Stream := s.intake.streams.get none (c * 16 + n)

/-- Put or close stream `n` of context `c`. -/
def State.setStream (c n : Nat) (x : Option Stream) (s : State) : State :=
  { s with intake := { s.intake with streams := s.intake.streams.set none (c * 16 + n) x } }

/-- Dictionary `n` of context `c`, when it exists. -/
def State.dict (s : State) (c n : Nat) : Option Dict := s.intake.dicts.get none (c * 4 + n)

/-- Put or discard dictionary `n` of context `c`. -/
def State.setDict (c n : Nat) (x : Option Dict) (s : State) : State :=
  { s with intake := { s.intake with dicts := s.intake.dicts.set none (c * 4 + n) x } }

/-- Close the streams and dictionaries of the contexts that a condition picks (13 R264). Their writer outcomes are GOOD
again, so that a later waybill finds them closed (13 section 13.9 corner 7; DEDUCED, log 51). -/
def State.closeIntake (f : Nat → Bool) (s : State) : State :=
  { s with
    intake := { streams := s.intake.streams.filter fun p => !f (p.1 / 16),
                dicts := s.intake.dicts.filter fun p => !f (p.1 / 4) },
    sched := { s.sched with outcomes := s.sched.outcomes.filter fun p => !(f (p.1 / 16384) && unitKey (p.1 % 16384)) } }

/-- Add to counter `i` of a stream (13 Table 13.10). -/
def Stream.bump (i n : Nat) (x : Stream) : Stream :=
  if n = 0 then x else { x with counters := x.counters.set 0 i (add64 (x.counters.get 0 i) n) }

/-- Bytes of one branch frame: its planes (14 R288). -/
def branchBytes (r : Rec) : Nat :=
  let n := r.u 0x14 2 * r.u 0x16 2
  match branchOut r with | 0 => n | 1 => n * 3 / 2 | 2 => 3 * n | _ => 2 * n

/-! ### The picture store (13 R266, R268) -/

/-- Bytes from one frame store of a stream to the next. -/
def Stream.bufBytes (x : Stream) : Nat := (x.reserve / (x.refs + x.outQ + 1) + 7) / 8 * 8

/-- Store address of a picture of the stream with this key. -/
def Stream.picAt (x : Stream) (key : Nat) (p : Picture) : Nat := key * storeSpan + p.buf * x.bufBytes

/-- The pictures of a stream that hold a frame store. -/
def Stream.kept (x : Stream) : List Picture :=
  x.pics ++ x.refPics ++ x.lastGood.toList ++ ((x.taking.bind (·.pic)).toList)

/-- The frame store that the next picture takes: the lowest free one (log 21). -/
def Stream.freeBuf (x : Stream) : Nat :=
  let used := x.kept.map (·.buf)
  ((List.range (used.length + 1)).find? fun b => !used.contains b).getD 0

/-- Samples as stored bytes. -/
def sampleList (wide : Bool) (l : List Nat) : List Byte := if wide then (l.map (le 2)).flatten else l.map (BitVec.ofNat 8)

/-- Stored bytes as samples. -/
def samplesOf (wide : Bool) (n : Nat) (bs : List Byte) : List Nat :=
  if wide then (List.range n).map fun i => fieldAt bs (2 * i) 2 else bs.map (·.toNat)

/-- A list cut into parts of the given sizes. -/
def splitSizes : List Nat → List Nat → List (List Nat)
  | [], _ => []
  | n :: r, l => l.take n :: splitSizes r (l.drop n)

/-- Write a picture's samples into a free frame store; answers the picture as it is held. -/
def State.storePicture (key : Nat) (x : Stream) (p : Picture) (planes : List (List Nat)) (s : State) : Picture × State :=
  let q := { p with buf := x.freeBuf, sizes := planes.map List.length }
  (q, (s.writeMem .pic none false (x.picAt key q) (sampleList p.wide planes.flatten)).2)

/-- Read a picture's samples, with their words corrected and counted; none when a word is uncorrectable or poisoned. -/
def State.loadPicture (key : Nat) (x : Stream) (p : Picture) (s : State) : Option (List (List Nat)) × State :=
  let n := p.sizes.sum
  let (bs, seen, s1) := s.readMem .pic none (x.picAt key p) (if p.wide then 2 * n else n)
  (if seen.ok then some (splitSizes p.sizes (samplesOf p.wide n bs)) else none, s1)

/-- A bit upset in a word of a stream's frame stores: one bit is corrected at the next read, two, or a second, leave the
word uncorrectable (13 R268 by 08 R163, R165). -/
def State.upset (key : Nat) (s : State) (u : StoreUpset) : State :=
  let w := key * (storeSpan / 8) + u.word % (storeSpan / 8)
  match s.mem.pic.marks.get Ecc.clean w with
  | .clean => s.setMark .pic w (if u.double then .ue else .corr)
  | .corr => s.setMark .pic w .ue
  | .ue | .poison => s

/-- A corrupt picture is skipped (13 R268, R270). -/
def Stream.skip (reason : Nat) (x : Stream) : Stream :=
  { x.bump 4 1 with skipReason := reason, dropped := satAdd 0xFFFF x.dropped 1 }

/-- The picture with ordinal `ord` has turned out corrupt with reason 7: the pictures after it up to the next that depends
on none before it are corrupt with reason 3 (13 R268, section 13.9 corner 12). -/
def Stream.spoil (ord : Nat) (x : Stream) : Stream :=
  let later := x.pics.filter fun p => decide (ord < p.ordinal)
  let lost := later.takeWhile fun p => !p.refresh
  let y := { x with
    pics := x.pics.filter (fun p => decide (p.ordinal < ord)) ++ later.drop lost.length,
    broken := x.broken || lost.length == later.length,
    lastGood := x.lastGood.filter fun p => p.ordinal != ord,
    refPics := x.refPics.filter fun p => p.ordinal != ord }
  lost.foldl (fun (z : Stream) _ => z.skip 3) (if x.pics.any fun p => p.ordinal == ord then y.skip 7 else y)

/-! ### The delivery queue (13 R269) -/

/-- A picture that is not corrupt joins the delivery queue; a full queue drops its oldest. -/
def Stream.offer (p : Picture) (x : Stream) : Stream :=
  if x.outQ ≤ x.pics.length then
    { x.bump 7 1 with pics := x.pics.drop 1 ++ [p], dropped := satAdd 0xFFFF x.dropped 1 }
  else { x with pics := x.pics ++ [p] }

/-- LATEST: the older undelivered pictures are dropped when a picture is about to be taken. -/
def Stream.latestOnly (x : Stream) : Stream :=
  if x.latest && x.skipReason == 0 then
    let n := x.pics.length - 1
    { x.bump 7 n with pics := x.pics.drop n, dropped := satAdd 0xFFFF x.dropped n }
  else x

/-- What a DECODE took and did not deliver stands again at the head of the queue (13 R271). -/
def Stream.giveBack (x : Stream) : Stream :=
  match x.taking with
  | none => x
  | some k => { x with taking := none, pics := k.pic.toList ++ x.pics, dropped := satAdd 0xFFFF k.dropped x.dropped,
                       skipReason := if x.skipReason = 0 then k.skip else x.skipReason }

/-- A DECODE starts: it takes the head of the queue, or with corrupt pictures skipped since the last delivery nothing but
their record; what comes later waits for the next (13 R269, R270). -/
def Stream.begin (x : Stream) : Stream :=
  let y := x.giveBack.latestOnly
  let takes := y.skipReason == 0
  { y with taking := some { pic := if takes then y.pics.head? else none, skip := y.skipReason, dropped := y.dropped },
           pics := if takes then y.pics.drop 1 else y.pics, skipReason := 0, dropped := 0 }

/-! ### The start of a waybill (13 R262) -/

/-- The source of a stream to open is there and free: an RTP record, or a camera branch that names the IE and this
context (13 R262, 14 R291). -/
def State.sourceFree (s : State) (c kind source : Nat) : Bool :=
  let taken := s.intake.streams.any fun p => p.2.any fun x => x.kind == kind && x.source == source
  match kind with
  | 0 => decide (source < (s.recs 0x61).length) && !taken
  | 2 => (match s.branchRec source with | some r => r.u 0xB 1 == 1 && r.u 0x18 1 == c | none => false) && !taken
  | _ => true

/-- Picture store that a STREAM_OPEN reserves (13 R266). -/
def State.reserveFor (s : State) (w : Waybill) : Nat :=
  let b := byteAt w.bytes
  match b 17 with
  | 3 => 0
  | 2 => (b 21 + 1) * ((s.branchRec (b 18)).map branchBytes).getD 0
  | _ => (b 20 + b 21 + 1) * fieldAt w.bytes 24 2 * fieldAt w.bytes 26 2 * 3 / 2

/-- The stream that a STREAM_OPEN opens (13 Table 13.4). -/
def State.openedStream (s : State) (w : Waybill) : Stream :=
  let b := byteAt w.bytes
  { Stream.init with
    kind := b 17, source := b 18, codec := b 19, refs := b 20, outQ := b 21, latest := b 22 == 1, fill := b 23 == 1,
    maxW := fieldAt w.bytes 24 2, maxH := fieldAt w.bytes 26 2, fillY := b 28, fillC := b 29,
    rowLen := fieldAt w.bytes 30 2, reserve := s.reserveFor w }

/-- What a STREAM_OPEN needs is lacking: its number, a place among the streams, its source or picture store. -/
def State.openLacks (s : State) (w : Waybill) : Bool :=
  let used := (s.intake.streams.map fun p => (p.2.map (·.reserve)).getD 0).sum
  (s.stream w.ctx (byteAt w.bytes 16)).isSome || decide (16 ≤ s.intake.streams.length)
    || !s.sourceFree w.ctx (byteAt w.bytes 17) (byteAt w.bytes 18) || decide (50331648 < used + s.reserveFor w)

/-- A stream opens, its counters at 0 (13 R262, R281). -/
def State.openStream (w : Waybill) (s : State) : State :=
  let n := byteAt w.bytes 16
  let t := s.setStream w.ctx n (some (s.openedStream w))
  { t with mem := { t.mem with picCorr := t.mem.picCorr.set 0 (w.ctx * 16 + n) 0 } }

/-- What the IE takes when a waybill starts: the stream that a STREAM_OPEN opens, the dictionary slot that a DICT_LOAD
needs, the picture that a DECODE delivers. Answers what the waybill then carries (13 R262, R269). -/
def State.ieTake (w : Waybill) (s : State) : Nat × State :=
  if w.wclass ≠ 4 then (0, s)
  else if w.opcode = 0x501 then (if s.openLacks w then (0x4702, s) else (0, s.openStream w))
  else if w.opcode = 0x506 then
    let n := byteAt w.bytes 16
    if (s.dict w.ctx n).isSome then (0, s)
    else if 4 ≤ s.intake.dicts.length then (0x4702, s)
    else (1, s.setDict w.ctx n (some Dict.init))
  else if w.opcode = 0x505 then
    let n := byteAt w.bytes 52
    match s.stream w.ctx n with
    | some x => (0, s.setStream w.ctx n (some x.begin))
    | none => (0, s)
  else (0, s)

end Sys2Proof.Machine
end

