-- ==== Sys2Proof/Machine/Timebase.lean ====
section
/-! DEFINITION. Lane ticks, the Milestone timebase and its PTP discipline, the deadline monitors and the Pace governor
(02), and the PTP messages and pulse of 04 section 4.3.1. -/

namespace Sys2Proof.Machine

/-! ### Milestone -/

/-- The nominal increment: 5 ns in units of 2^-32 ns (02 section 2.4). -/
def nominalInc : Nat := 5 * 2 ^ 32

/-- One clock of the 200 MHz counter: the increment is added to the count (02 section 2.4). -/
def State.tickClock (s : State) : State :=
  if s.time.running then
    let f := s.time.frac + s.time.inc
    { s with time := { s.time with ms := s.time.ms + f / 2 ^ 32, frac := f % 2 ^ 32 } }
  else s

/-- Milestone steps forward by `d`; what runs by elapsed time (heartbeat, ring circuit, Sync intervals, Twin windows, the
annunciator's retry, a stop's bound, the VCORE command) is measured from the same moment as before. -/
def State.jumpMs (d : Nat) (s : State) : State :=
  let v := s.verge
  { s with
    time := { s.time with ms := s.time.ms + d, lastSync := s.time.lastSync + d, lastMasterSync := s.time.lastMasterSync.map (· + d) }
    mc := { s.mc with lastBeat := s.mc.lastBeat + d }
    pace := { s.pace with cmdAt := s.pace.cmdAt + d }
    sched := { s.sched with lastCircuit := s.sched.lastCircuit + d }
    verge := { v with stopSince := v.stopSince + d, twin := { v.twin with winStart := v.twin.winStart + d } }
    ports := { s.ports with ann := { s.ports.ann with retryAt := s.ports.ann.retryAt + d } } }

/-- The latch of MS_HI of a requester (02 R40, 04 R80). -/
def State.latchMs (p : Requester) (s : State) : State :=
  let hi := BitVec.ofNat 32 (s.now / 2 ^ 32)
  match p with
  | .pcie f => s.modFn f fun x => { x with msHi := hi }
  | .qspi => { s with link := { s.link with qspiMsHi := hi } }

/-- MS_LO_READ: 4 or 8 bytes at BAR0 offset 0x100; the read latches the high half; any other size reads 0 and latches
nothing (02 R40, 00 R390). -/
def execMsLoRead (p : Requester) (size : Nat) (s : State) : Host.Outcome State Fault Refusal :=
  done s (if size = 4 ∨ size = 8 then (s.latchMs p).emit (.read (le size s.now) false)
          else s.emit (.read (List.replicate size 0) false))

/-! ### The Waymark ring -/

/-- First and last stations of an engine class (02 section 2.3). -/
def stationsOf : Nat → List Nat
  | 0 => rangeFrom 0 8
  | 1 => rangeFrom 8 4
  | 2 => rangeFrom 12 2
  | 3 => rangeFrom 14 4
  | 4 => [18]
  | _ => []

/-- The station at which a DIRECT-mode waybill is counted: its engine once started, before that the first unfenced
station of its class (09 R191). -/
def State.countingStation (s : State) (w : Waybill) : Option Nat :=
  w.engine.or ((stationsOf w.wclass).find? fun e => !s.stationFenced e)

/-- The waybills for which station `e` holds the token (02 R34, R36). -/
def State.holders (s : State) (e : Nat) : List Waybill :=
  if s.stationFenced e then []
  else s.sched.flight.filter fun w => w.direct && w.endTick == s.sched.tick && s.countingStation w == some e

/-- RING_TOKEN_ARRIVE: the token passes from its station to the next, unless the station holds it (02 R34 to R36). The
number goes up as the token comes to TE0, so that TE0 is the first station of each tick (DEDUCED, log 7). -/
def execRingTokenArrive (s : State) : Host.Outcome State Fault Refusal :=
  done s (
    if !(s.holders s.sched.tokenAt).isEmpty then s
    else
      let n := (s.sched.tokenAt + 1) % 19
      let t := if n = 0 then s.sched.tick + 1 else s.sched.tick
      { s with sched := { s.sched with tokenAt := n, tick := t, stationTick := s.sched.stationTick.set 0 n t.toNat,
                                       lastCircuit := if n = 0 then s.now else s.sched.lastCircuit } })

/-! ### The Pace governor -/

/-- Command VCORE over AVSBus, or leave it to follow the write that is unconfirmed (02 R50). Before a Route Book gives
RAIL, the command at the end of FW_VERIFY selects rail 0 (DESIGN CHOICE, log 47). -/
def State.vcoreCommand (mV : Nat) (s : State) : State :=
  if s.pace.unconfirmed then { s with pace := { s.pace with pending := some mV } }
  else { s with pace := { s.pace with vcore := mV, unconfirmed := true, cmdAt := s.now } }.emit
    (.avs (s.recField 3 8 1) mV)

/-- A Perception Island loss that 02 R44 names: recorded, fenced, and VCORE commanded to 0.60 V. -/
def State.piLoss (s : State) : State := (s.raise 0x8A0A 0xFF .fencePi 0).vcoreCommand 600

/-- Firmware runs: every state from SELFTEST on, until the MC is lost. -/
def State.mcRuns (s : State) : Bool := decide (3 ≤ s.devState.code) && !s.mc.lost

/-- RING_TOKEN_MISS: no circuit within 2 ms while a station is unfenced (02 Table 2.7, R44). -/
def execRingTokenMiss (s : State) : Host.Outcome State Fault Refusal :=
  done s (
    if decide (3 ≤ s.devState.code) && (List.range 19).any (fun e => !s.stationFenced e)
        && decide (s.sched.lastCircuit + 2000000 ≤ s.now) then s.piLoss else s)

/-- A voltage lies within `tol` mV of the commanded one. -/
def PaceSt.within (p : PaceSt) (tol mV : Nat) : Bool := decide (mV ≤ p.vcore + tol) && decide (p.vcore ≤ mV + tol)

/-- The AVSBus response monitor judges a cause a miss: a bad CRC at once; no acknowledge, or a read-back outside ±15 mV,
when 200 µs have passed since the write (02 Table 2.7; log 47). -/
def State.avsMissed (s : State) : AvsMiss → Bool
  | .badCrc => true
  | .noAck => decide (s.pace.cmdAt + 200000 ≤ s.now)
  | .readBack mV => decide (s.pace.cmdAt + 200000 ≤ s.now) && !s.pace.within 15 mV

/-- AVSBUS_RESPONSE_MISS: a write-and-commit is not confirmed in time (02 Table 2.7, R44, R50). -/
def execAvsbusResponseMiss (s : State) (cause : AvsMiss := .noAck) : Host.Outcome State Fault Refusal :=
  done s (
    if s.pace.unconfirmed && s.avsMissed cause then
      { s with pace := { s.pace with unconfirmed := false, pending := none } }.piLoss
    else s)

/-- VCORE_WINDOW_MISS: the on-die VCORE, and for how many ns it has stood there. Outside the commanded value ±25 mV for
10 µs, once 200 µs have passed after the last command, is a miss (02 Table 2.7, R44). -/
def execVcoreWindowMiss (s : State) (mV : Nat := 0) (forNs : Nat := 10000) : Host.Outcome State Fault Refusal :=
  done s (
    if 3 ≤ s.devState.code ∧ !s.pace.within 25 mV ∧ 10000 ≤ forNs ∧ s.pace.cmdAt + 200000 ≤ s.now then s.piLoss else s)

/-- AVSBUS_READ_BACK: the voltage read back, and the status word when its alert bit is set (02 Table 2.8, R50). -/
def execAvsbusReadBack (mV : Nat) (alert : Option (BitVec 16)) (s : State) : Host.Outcome State Fault Refusal :=
  let s1 := match alert with
    | some a => s.post 0x000A a.toNat none
    | none => s
  done s (
    if s.pace.unconfirmed && s.pace.within 15 mV then
      let s2 := { s1 with pace := { s1.pace with unconfirmed := false, pending := none } }
      match s.pace.pending with
      | some v => s2.vcoreCommand v
      | none => s2
    else s1)

/-- One period of the governor's law (02 section 2.6): the thermal override, the next command and the conflict. -/
def paceLaw (p : PaceSt) (tjHalf : Int) (rateMilli : Nat) : Bool × Nat × Option PaceSide :=
  let v := p.vcore
  let want := if p.target = 0 ∨ rateMilli + 10 < p.target * 10 then v + 5
              else if p.target * 10 + 30 < rateMilli then v - 5 else v
  let thermal := if p.thermal then decide (200 < tjHalf) else decide (210 < tjHalf)
  if thermal then
    let new := max (v - 10) 650
    (true, new, if new < p.floor then some .hostFloor else none)
  else
    (false, max (min want p.ceiling) p.floor, if p.ceiling < want ∧ p.target ≠ 0 then some .governor else none)

/-- PACE_GOVERNOR_PERIOD: Tj in 0.5 °C and the step rate in 0.001 G steps/s are read. At 110 °C the island is fenced
(02 R49); else, while the island is unfenced in RUN, the law commands VCORE and a conflict is posted on entry (R47,
R48, R50). While the island is FENCED VCORE stays at retention, and a conflict that stood before stands on, so that the
same conflict after the fence posts no new event (log 8). -/
def execPaceGovernorPeriod (tjHalf : Int) (rateMilli : Nat) (s : State) : Host.Outcome State Fault Refusal :=
  done s (
    if !s.mcRuns then s
    else
      let s1 := { s with pace := { s.pace with tjHalf := tjHalf } }
      if 220 ≤ tjHalf ∧ ¬ s.pace.thermalFence then
        ({ (s1.raise 0x8A0A 0xFF .fencePi 0) with pace := { s1.pace with thermalFence := true, hostReset := false } }.vcoreCommand 600).post
          0x0009 (unsigned 16 tjHalf) none
      else if s.devState = .run then
        let (th, new, c) := paceLaw s1.pace tjHalf rateMilli
        let s2 := { s1 with pace := { s1.pace with thermal := th, conflict := c } }
        let s3 := if new ≠ s.pace.vcore then s2.vcoreCommand new else s2
        match c with
        | some side => if s.pace.conflict = some side then s3
            else s3.post 0x0008 ((if side = .hostFloor then 1 else 0) + new * 65536) none
        | none => s3
      else s1)

/-! ### MC heartbeat and oscillator -/

/-- MC_HEARTBEAT: the MC writes its heartbeat (02 Table 2.7; the boot ROM from ROM_WAIT on, 06 R113). -/
def execMcHeartbeat (s : State) : Host.Outcome State Fault Refusal :=
  done s (if s.devState = .off ∨ s.mc.lost then s else { s with mc := { s.mc with lastBeat := s.now } })

/-- Signpost hardware ends a BUSY command with 0x8001 and signals it like any answer (06 R113, Table 6.7 step 6). -/
def State.mcLostAnswer (f : Nat) (s : State) : State :=
  if (s.fn f).spState = .busy then
    let s1 := (s.modFn f fun x => { x with spStatus := 0x8001#16, spState := .done, spOwed := none }).signal f 1024
    if f = 0 ∧ s.link.hostPort = some .qspi then s1.qspiSet 1#4 else s1
  else s

/-- MC_HEARTBEAT_MISS: 3 ms without a heartbeat; every BUSY command answers 0x8001 and the MC is lost (06 R113). -/
def execMcHeartbeatMiss (s : State) : Host.Outcome State Fault Refusal :=
  done s (
    if s.devState = .off ∨ s.mc.lost ∨ s.now < s.mc.lastBeat + 3000000 then s
    else
      let s1 := { s with mc := { s.mc with lost := true } }
      ((List.range 16).foldl (fun t f => t.mcLostAnswer f) s1).raise 0x8A0F 0xFF .controlled 0)

/-- OSCILLATOR_WATCHDOG_WINDOW: crystal cycles in one 50 µs window; two windows outside 1,238 to 1,262 in a row are a
fault (02 Table 2.7, R43). -/
def execOscillatorWatchdogWindow (count : Nat) (s : State) : Host.Outcome State Fault Refusal :=
  done s (
    if s.devState = .off then s
    else if 1238 ≤ count ∧ count ≤ 1262 then { s with mc := { s.mc with badWindows := 0 } }
    else if s.mc.badWindows = 1 then { s with mc := { s.mc with badWindows := 2 } }.raise 0x8A03 0xFF .immediate 0
    else { s with mc := { s.mc with badWindows := min 2 (s.mc.badWindows + 1) } })

/-! ### PTP -/

/-- The TIME record of the accepted book (02 Table 2.11). -/
def State.timeRec (s : State) : Option Rec := (s.recs 4).head?

/-- A non-negative FP32 value in units of 2^-149. -/
def fp32Units (n : Nat) : Nat :=
  let e := bits n 30 23
  let m := bits n 22 0
  if e = 0 then m else (2 ^ 23 + m) * 2 ^ (e - 1)

/-- One part in 10^9 in the units of `fp32Units`. -/
def ppbUnit : Int := 2 ^ 149

/-- The increment for an adjustment in units of 2^-149 ppb, held to ±200,000 ppb: nominal × (1 − adj / 10^9), rounded to
a whole number of 2^-32 ns as 10 R203 rounds (log 9). -/
def State.setInc (adj : Int) (s : State) : State :=
  let a := clampTo (-200000 * ppbUnit) (200000 * ppbUnit) adj
  let den : Nat := 2 ^ 149 * 1000000000
  { s with time := { s.time with inc := (rneInt ((nominalInc : Int) * (den - a)) den).toNat } }

/-- TIME_STATE's code of a discipline state (06 Table 6.10, TIME_STATUS). -/
def Discipline.code : Discipline → Nat
  | .free => 0 | .acquiring => 1 | .locked => 2 | .holdover => 3

/-- Enter a discipline state and post TIME_STATE when it changes (02 R41). -/
def State.discipline (d : Discipline) (s : State) : State :=
  if s.time.disc = d then s
  else { s with time := { s.time with disc := d } }.post 0x0006 d.code none

/-- FREE at the nominal increment, with nothing left of an earlier source (02 Table 2.6). -/
def State.freeRun (s : State) : State :=
  { s with time := { s.time with inc := nominalInc, catchUp := false, takeOver := false, good := 0, sumOff := 0 } }.discipline .free

/-- The offset in µs as PTP_OFFSET_LARGE carries it: signed, rounded as 10 R203 rounds (log 9), saturating (19 Table
19.2). -/
def offsetMicros (o : Int) : Nat := unsigned 32 (clampTo (-2147483648) 2147483647 (rneInt o 1000))

/-- The servo's output for the present sum of offsets (02 section 2.4.1). -/
def State.servo (r : Rec) (o : Int) (s : State) : State :=
  s.setInc ((fp32Units (r.u 0x10 4) : Int) * o + (fp32Units (r.u 0x14 4) : Int) * s.time.sumOff)

/-- One Sync within 1 ms of the master: the discipline states of 02 Table 2.6 and the servo. HOLDOVER holds its increment,
but after a step or a catch-up outside RUN the servo takes over there too (R41). -/
def State.syncNear (r : Rec) (o : Int) (s : State) : State :=
  let near := decide (-1000 < o) && decide (o < 1000)
  let t := s.time
  let g := if near then t.good + 1 else 0
  let s1 := { s with time := { t with sumOff := t.sumOff + o, good := g, catchUp := false } }
  match t.disc with
  | .free =>
    ({ s1 with time := { s1.time with sumOff := o, good := b2n near } }.discipline .acquiring).servo r o
  | .acquiring =>
    if 8 ≤ g then ({ s1 with time := { s1.time with good := 0 } }.discipline .locked).servo r o else s1.servo r o
  | .locked =>
    if o < -10000 ∨ 10000 < o then { s1 with time := { s1.time with good := 0, takeOver := false } }.discipline .holdover
    else s1.servo r o
  | .holdover =>
    if 8 ≤ g then ({ s1 with time := { s1.time with good := 0, takeOver := false } }.discipline .locked).servo r o
    else if t.takeOver then s1.servo r o else s1

/-- PTP_SYNC_RECEIVE: a Sync on the time-source MAC with the measured offset (Milestone minus master) and its
logMessageInterval (02 R41). A step or a catch-up takes the Sync; the servo works from the next one. PTP_OFFSET_LARGE is
posted at every large Sync in RUN, and once for each catch-up outside RUN (log 10). -/
def execPtpSyncReceive (mac : Fin 2) (offset logInterval : Int) (s : State) : Host.Outcome State Fault Refusal :=
  done s (
    match s.timeRec with
    | none => s
    | some r =>
      if r.u 8 1 ≠ mac ∨ s.isFenced (0x20 + mac) ∨ ¬ s.mcRuns then s
      else
        let s1 := { s with time := { s.time with lastOff := offset, logSync := logInterval, lastSync := s.now } }
        if -1000000 ≤ offset ∧ offset ≤ 1000000 then s1.syncNear r offset
        else if s.devState = .run then
          ({ s1 with time := { s1.time with good := 0, catchUp := false, takeOver := false } }.discipline .holdover).post
            0x0007 (offsetMicros offset) none
        else
          let s2 := match s.time.disc with
            | .free => { s1 with time := { s1.time with sumOff := 0, good := 0 } }.discipline .acquiring
            | .acquiring => { s1 with time := { s1.time with good := 0 } }
            | .locked | .holdover => { s1 with time := { s1.time with good := 0, takeOver := true } }.discipline .holdover
          if offset < 0 then { s2 with time := { s2.time with catchUp := false } }.jumpMs offset.natAbs
          else
            let s3 := { s2 with time := { s2.time with catchUp := true } }.setInc (200000 * ppbUnit)
            if s.time.catchUp then s3 else s3.post 0x0007 (offsetMicros offset) none)

/-- The interval that a logMessageInterval names, in ns (02 section 2.4.1). -/
def syncInterval (log : Int) : Nat :=
  if 0 ≤ log then 1000000000 * 2 ^ log.toNat else 1000000000 / 2 ^ log.natAbs

/-- PTP_SYNC_TIMEOUT: four Sync intervals without a Sync (02 Table 2.6). -/
def execPtpSyncTimeout (s : State) : Host.Outcome State Fault Refusal :=
  done s (
    if s.now < s.time.lastSync + 4 * syncInterval s.time.logSync then s
    else match s.time.disc with
      | .acquiring => { s with time := { s.time with inc := nominalInc, catchUp := false } }.discipline .free
      | .locked => { s with time := { s.time with good := 0, takeOver := false } }.discipline .holdover
      | _ => s)

/-- The MAC that serves master-only PTP, when the book names one and it is not fenced (02 Table 2.11). -/
def State.masterMac (s : State) : Option (Nat × Rec) :=
  s.timeRec.bind fun r => if r.u 9 1 < 2 ∧ ¬ s.isFenced (0x20 + r.u 9 1) then some (r.u 9 1, r) else none

/-- A PTP message of MAC `m` as it leaves: its source addresses from the ETH record, over UDP/IPv4 where TRANSPORT says so
(04 R83; 02 Table 2.11). A one-step Sync over UDP carries checksum 0 (04 R87). -/
def State.ptpMessage (s : State) (m ty seq stamp : Nat) (oneStep : Bool) (r : Rec) : Out :=
  let e := s.recN 0x60 m
  let udp := r.u 0xA 1 == 1
  .ptp { mac := m, msgType := ty, seq := seq, stamp := stamp, srcMac := (e.map fun x => (x.bytes.drop 0x10).take 6).getD [],
         udp := udp, srcIp := if udp then (e.map fun x => x.u 0xC 4).getD 0 else 0, zeroChecksum := udp && oneStep }

/-- PTP_MASTER_SYNC: a Sync every LOG_SYNC interval, with a Follow_Up when two-step (04 section 4.3.1, R87). -/
def execPtpMasterSync (s : State) : Host.Outcome State Fault Refusal :=
  done s (
    match s.masterMac with
    | none => s
    | some (m, r) =>
      let due := match s.time.lastMasterSync with
        | none => true
        | some t => decide (t + syncInterval (r.i 0xD 1) ≤ s.now)
      if !due || !s.mcRuns then s
      else
        let q := s.time.masterSeq.toNat
        let s1 := { s with time := { s.time with masterSeq := s.time.masterSeq + 1, lastMasterSync := some s.now } }
        if (r.u 0xB 1).testBit 0 then s1.emit (s.ptpMessage m 0 q s.now true r)
        else (s1.emit (s.ptpMessage m 0 q 0 false r)).emit (s.ptpMessage m 8 q s.now false r))

/-- PTP_DELAY_REQ_RECEIVE: the master answers with the receive stamp (04 section 4.3.1). -/
def execPtpDelayReqReceive (mac : Fin 2) (seq : BitVec 16) (s : State) : Host.Outcome State Fault Refusal :=
  done s (
    match s.masterMac with
    | some (m, r) => if m = mac ∧ s.mcRuns then s.emit (s.ptpMessage m 9 seq.toNat s.now false r) else s
    | none => s)

/-- PTP_PPS_RISE: high from each whole second of Milestone (04 R88). -/
def execPtpPpsRise (s : State) : Host.Outcome State Fault Refusal :=
  done s (
    if s.time.running ∧ ¬ s.time.pps ∧ s.now % 1000000000 < 1000000 then
      { s with time := { s.time with pps := true } }.emit (.pps true)
    else s)

/-- PTP_PPS_FALL: low 1 ms later (04 R88). -/
def execPtpPpsFall (s : State) : Host.Outcome State Fault Refusal :=
  done s (
    if s.time.pps ∧ 1000000 ≤ s.now % 1000000000 then
      { s with time := { s.time with pps := false } }.emit (.pps false)
    else s)

end Sys2Proof.Machine
end

