-- ==== Sys2Proof/Machine/Scheduler.lean ====
section
/-! DEFINITION. The arbiters (07 section 7.4), the start of waybills on engines (09 section 9.6), background zeroing and
the patrol scrubbers (08 sections 8.4.1, 8.5), and the loss of the Scheduler (01 Table 1.3). -/

namespace Sys2Proof.Machine

/-- The engine class of a station (09 Table 9.11). -/
def classOf (e : Nat) : Nat := if e < 8 then 0 else if e < 12 then 1 else if e < 14 then 2 else if e < 18 then 3 else 4

/-- Tick `t` has been received when `last` was the last tick received: it is not later than `last` (02 R37). -/
def tickReached (last t : BitVec 32) : Bool := (last - t).toNat < 2 ^ 31

/-- The waybill is ready: its wait has ended, its absolute start tick has reached its counting station, and its pool has
been written (07 section 7.4, 09 R185, R191, 12 R246). -/
def State.startable (s : State) (w : Waybill) : Bool :=
  w.ready && !w.running &&
    (!w.direct || (match s.countingStation w with
      | some e => tickReached (BitVec.ofNat 32 (s.sched.stationTick.get 0 e)) w.startTick
      | none => false)) &&
    (!w.namesPool || ((s.poolOf w.ctx).map (·.ready)).getD true)

/-- The waybill for which the station that has the token holds it, when it has not started (09 R192); the first fetched
of several. -/
def State.urgent (s : State) (cls : Nat) : Option Waybill :=
  (s.holders s.sched.tokenAt).find? fun w => !w.running && w.wclass == cls

/-- The oldest not-started waybill of a queue for a class, when it is ready (07 R144). -/
def State.readyHead (s : State) (cls : Nat) (i : QueueInfo) : Option Waybill :=
  (s.sched.flight.find? fun w => w.ctx == i.ctx && w.queue == i.queue && w.wclass == cls && !w.running).bind fun w =>
    if s.startable w then some w else none

/-- The waybill that a context starts next for a class: the highest-class queue that holds a ready one, then the lower
queue number (07 section 7.4). -/
def State.readyOf (s : State) (cls c : Nat) : Option Waybill :=
  (List.range 4).findSome? fun k => (List.range 4).findSome? fun q =>
    match s.queueInfo c q with
    | some i => if i.qclass = k then s.readyHead cls i else none
    | none => none

/-- The arbiter's choice: the first context from the pointer on, with wrap, that has ready work and credit, with every
credit reloaded when none has (07 section 7.4). -/
def State.arbitrate (cls : Nat) (s : State) : Option (Waybill × State) :=
  let p := s.sched.pointers.get 0 cls
  let order := (rangeFrom p (256 - p) ++ List.range p).filter fun c => (s.readyOf cls c).isSome
  let credit := fun (t : State) c => t.sched.credits.get 0 (cls * 256 + c)
  let take := fun (t : State) c =>
    (t.readyOf cls c).map fun w =>
      (w, { t with sched := { t.sched with
        credits := t.sched.credits.set 0 (cls * 256 + c) (credit t c - 1), pointers := t.sched.pointers.set 0 cls (c + 1) } })
  match order.find? fun c => decide (0 < credit s c) with
  | some c => take s c
  | none =>
    match order with
    | [] => none
    | c :: _ =>
      take { s with sched := { s.sched with
        credits := s.ctxs.foldl (fun m i => m.set 0 (cls * 256 + i.ctx) i.weight) s.sched.credits } } c

/-- Credits are reloaded at entry to RUN (07 R144). -/
def State.reloadCredits (s : State) : State :=
  { s with sched := { s.sched with
    credits := (List.range 5).foldl (fun m k => s.ctxs.foldl (fun m i => m.set 0 (k * 256 + i.ctx) i.weight) m) s.sched.credits } }

/-- A waybill starts on an engine, which takes what it needs at that moment. -/
def State.startOn (e : Nat) (w : Waybill) (s : State) : State :=
  let (found, s1) := s.ieTake w
  { s1 with sched := { s1.sched with flight := s1.sched.flight.map fun (v : Waybill) =>
      if v.id = w.id then { v with engine := some e, started := s.now, intake := found } else v } }

/-- The lowest-numbered engine of a class that is free and unfenced: the one that the arbiter serves first (07 section
7.4). -/
def State.firstFree (s : State) (cls : Nat) : Option Nat :=
  (List.range 19).find? fun e => classOf e == cls && !s.stationFenced e && !s.sched.flight.any fun w => w.engine == some e

/-- ENGINE_DISPATCH: the lowest-numbered free and unfenced engine of its class starts the waybill that holds the token, or
else what its arbiter picks; in FAULT nothing more starts (07 R144, R146; 09 R192; 01 R26). -/
def execEngineDispatch (e : Fin 19) (s : State) : Host.Outcome State Fault Refusal :=
  done s (
    if !s.active || s.firstFree (classOf e) != some e.val then s
    else match s.urgent (classOf e) with
      | some w => s.startOn e w
      | none =>
        match s.arbitrate (classOf e) with
        | some (w, s1) => s1.startOn e w
        | none => s)

/-! ### Zeroing and scrubbing -/

/-- BACKGROUND_ZEROING: the lowest pending granule is zeroed, while no LPDDR5 controller is FENCED (08 R160). -/
def execBackgroundZeroing (s : State) : Host.Outcome State Fault Refusal :=
  done s (
    match s.mem.pendGran with
    | [] => s
    | g :: _ => if (rangeFrom 0x54 4).any fun b => s.isFenced b then s else s.zeroGranule g)

/-- One Sward line and, at the first of eight lines, their tag word (08 R166, 09 R196). -/
def State.scrubSward (s : State) : State :=
  let l := s.mem.scrubSw
  if s.isFenced 0x60 || s.isFenced (0x58 + l / 2 ^ 18) then s
  else
    let s1 := (s.readWords .sw none (s.markedIn .sw (l * 64) 64) {}).2
    let s2 := if l % 8 = 0 then (s1.readWord .tag none (l / 8)).2 else s1
    if l + 1 = swardSize / 64 then { s2 with mem := { s2.mem with scrubSw := 0, passes := add64 s2.mem.passes 1 } }
    else { s2 with mem := { s2.mem with scrubSw := l + 1 } }

/-- One usable LPDDR5 line (08 R166). -/
def State.scrubLpddr (s : State) : State :=
  let l := s.mem.scrubLp
  if s.isFenced (0x54 + lpChannel (l * 64)) then s
  else
    let s1 := (s.readWords .lp none (s.markedIn .lp (l * 64) 64) {}).2
    { s1 with mem := { s1.mem with scrubLp := if s.usable / 64 ≤ l + 1 then 0 else l + 1 } }

/-- PATROL_SCRUB: a scrubber visits its next line; it runs from the end of self-test on, whatever the device state (08
R166). -/
def execPatrolScrub (mem : ScrubMem) (s : State) : Host.Outcome State Fault Refusal :=
  done s (
    if !s.fw.scrubbing then s
    else match mem with
      | .sward => s.scrubSward
      | .lpddr => s.scrubLpddr)

/-- SCHEDULER_FAULT: Verge fences and resets the Perception Island (01 Table 1.3, R22). It is no class of 16 Table 16.3,
so it leaves no fault record. -/
def execSchedulerFault (s : State) : Host.Outcome State Fault Refusal :=
  done s (if 3 ≤ s.devState.code then { s.fencePi with piReset := true } else s)

end Sys2Proof.Machine
end

