-- ==== Sys2Proof/Machine/Runner.lean ====
section
/-! DEFINITION. How an engine runs a waybill: the steps it takes, the reads and writes of each, correction and poison
(08 R163 to R172), checked reads and epoch tags (09 section 9.7), statistics, the step and byte counters (07 Table 7.8)
and the completion status (09 R198). What each step reads and writes is the model's choice where the manual gives only
the number and order of steps (log 18). -/

namespace Sys2Proof.Machine

/-- One read request of a step: its runs of bytes (address, length), and for DETAIL its slot code and operand base; `chk`
when its epoch tags are compared. A word that several runs touch is read once (08 R157). -/
structure Rd where
  mem : OpMem
  runs : List (Nat × Nat)
  code : Nat
  base : Nat
  chk : Bool
  deriving DecidableEq, Repr

/-- One write of a step. -/
structure Wr where
  mem : OpMem
  addr : Nat
  bytes : List Byte
  code : Nat
  base : Nat
  deriving DecidableEq, Repr

/-- One step. -/
structure EngStep where
  reads : List Rd
  writes : List Wr
  deriving DecidableEq, Repr

/-- What a run has met so far: the DETAIL of the first line of each kind, and whether writes carry poison now. -/
structure Run where
  ue : Option Nat := none
  poison : Option Nat := none
  part : Option Nat := none
  stale : Option Nat := none
  bad : Bool := false
  hostBad : Bool := false
  poisoned : Bool := false
  deriving DecidableEq, Repr

/-- What a run needs to know of its waybill: context and its function, epoch, and whether checked reads are compared (09
R195). -/
structure RunCtx where
  ctx : Nat
  fn : Nat
  epoch : Nat
  isChecked : Bool
  deriving DecidableEq, Repr

/-- What a waybill's run needs to know. -/
def runCtx (c : CtxInfo) (w : Waybill) : RunCtx := ⟨c.ctx, c.fn, w.epoch, c.isChecked && w.direct⟩

/-- A line is stale for an epoch (09 R195). -/
def staleTag (epoch tag : Nat) : Bool :=
  let d := (epoch + 256 - tag % 256) % 256
  decide (1 ≤ d) && decide (d ≤ 127)

/-- Bytes of a request. -/
def Rd.len (r : Rd) : Nat := (r.runs.map (·.2)).sum

/-- Lines that a request touches. -/
def Rd.lines (r : Rd) : List Nat :=
  ((r.runs.map fun p => if p.2 = 0 then [] else rangeFrom (p.1 / 64) ((p.1 + p.2 - 1) / 64 + 1 - p.1 / 64)).flatten).eraseDups

/-- Compare the epoch tags of the lines of a read (09 R195, R196). -/
def State.checkTags (k : RunCtx) (r : Rd) (p : Run × State) : Run × State :=
  r.lines.foldl (fun (p : Run × State) l =>
    let (e, s1) := p.2.readWord .tag (some k.ctx) (l / 8)
    if e = .ue ∨ e = .poison ∨ staleTag k.epoch (s1.mem.tag.cells.get 0 l).toNat then
      ({ p.1 with stale := p.1.stale.or (some (addrDetail r.code (l * 64) r.base)) }, s1)
    else (p.1, s1)) p

/-- A host-memory request carries the requester ID of the context's function (08 R153). -/
def State.hostReq (k : RunCtx) (write : Bool) (addr len : Nat) (s : State) : State :=
  s.emit (.hostReq k.fn write addr len)

/-- One read of a step (08 R163, R165, R169, R172; 07 counters 17, 19, 21 and 23). -/
def State.runRead (k : RunCtx) (p : Run × State) (r : Rd) : Run × State :=
  let (x, s) := p
  if r.len = 0 then p
  else match r.mem with
  | .none => p
  | .host =>
    let bad := r.runs.findSome? fun q => (s.readHost q.1 q.2).2
    let s1 := (r.runs.foldl (fun (t : State) q => t.hostReq k false q.1 q.2) s).count k.ctx 21 r.len
    match bad with
    | some a => ({ x with poison := x.poison.or (some (addrDetail r.code a r.base)), hostBad := true }, s1.count k.ctx 23 1)
    | none => (x, s1)
  | m =>
    let mm := m.mem
    let s1 := r.runs.foldl (fun (t : State) q => t.touch mm q.1 q.2) s
    let words := ((r.runs.map fun q => s1.markedIn mm q.1 q.2).flatten).eraseDups
    let (seen, s2) := s1.readWords mm (some k.ctx) words {}
    let s3 := (s2.count k.ctx (if m = .sward then 17 else 19) r.len).count k.ctx 23 seen.bad
    let d := fun (a : Option Nat) => a.map fun v => addrDetail r.code v r.base
    let x1 := { x with ue := x.ue.or (d seen.ueAt), poison := x.poison.or (d seen.poisonAt), bad := x.bad || !seen.ok }
    if k.isChecked && r.chk then State.checkTags k r (x1, s3) else (x1, s3)

/-- One write of a step: poison from the first bad read on, epoch tags, partial words (08 R167, R169, R172; 09 R194; 07
counters 18, 20 and 21). `force` poisons it for a residue fault (11 R238). -/
def State.runWrite (k : RunCtx) (force : Bool) (p : Run × State) (wr : Wr) : Run × State :=
  let (x, s) := p
  let n := wr.bytes.length
  let poison := x.bad || x.hostBad || force
  if n = 0 then p
  else match wr.mem with
  | .none => p
  | .host => ({ x with poisoned := x.poisoned || poison }, ((s.writeHost poison wr.addr wr.bytes).hostReq k true wr.addr n).count k.ctx 21 n)
  | m =>
    let (badAt, s1) := s.writeMem m.mem (some k.ctx) poison wr.addr wr.bytes
    let s2 := if m = .sward then s1.setTags (some k.ctx) k.epoch wr.addr n else s1
    ({ x with part := x.part.or (badAt.map fun a => addrDetail wr.code a wr.base),
              poisoned := x.poisoned || poison || badAt.isSome },
      s2.count k.ctx (if m = .sward then 18 else 20) n)

/-- One step: its reads, then its writes. -/
def State.runStep (k : RunCtx) (force : Bool) (p : Run × State) (t : EngStep) : Run × State :=
  let p1 := t.reads.foldl (State.runRead k) p
  let p2 := t.writes.foldl (State.runWrite k force) p1
  ({ p2.1 with hostBad := false }, p2.2)

/-- The steps in order from step `n`; a stale read stops the run at the end of its group of 16 steps (09 R195).
`poisonFrom` is the step group from which a residue fault poisons what is written. Answers the steps run. -/
def State.runSteps (k : RunCtx) (poisonFrom : Option Nat) : Nat → List EngStep → Run × State → Nat × Run × State
  | n, [], p => (n, p)
  | n, t :: r, p =>
    if p.1.stale.isSome && n % 16 == 0 then (n, p)
    else
      let force := match poisonFrom with
        | some g => decide (g ≤ n / 16)
        | none => false
      State.runSteps k poisonFrom (n + 1) r (State.runStep k force p t)

/-! ### Requests over operands -/

/-- A request for some bytes of an operand. -/
def Opnd.req (o : Opnd) (runs : List (Nat × Nat)) : Rd := ⟨o.mem, runs, o.slot, o.base, o.chk⟩

/-- Bytes that one STRIDED or TRANSPOSE request returns: a line, or the lines of a block (08 Table 8.4). -/
def Opnd.requestUnit (o : Opnd) : Nat := if o.form = .transpose then 64 * (64 / o.esize) else 64

/-- The bytes that the STRIDED or TRANSPOSE requests for delivered bytes `lo` to `hi - 1` touch: every byte of each request
(08 R157). -/
def Opnd.requestRuns (o : Opnd) (lo hi : Nat) : List (Nat × Nat) :=
  let u := max 1 o.requestUnit
  let start := lo / u * u
  joinRuns ((rangeFrom start (min o.size ((hi + u - 1) / u * u) - start)).map o.directAddr)

/-- A request for bytes `b` to `b + n - 1` of a row. -/
def Opnd.rowReq (o : Opnd) (row b n : Nat) : Rd :=
  if n = 0 then o.req []
  else if o.form = .tensor ∨ o.form = .linear then o.req [(o.addr row b, n)]
  else o.req (o.requestRuns (row * o.rowBytes + b) (row * o.rowBytes + b + n))

/-- A request for elements `i` to `i + n - 1` of a row. -/
def Opnd.elemReq (o : Opnd) (row i n : Nat) : Rd :=
  if n = 0 then o.req []
  else
    let w := formatBits o.fmt
    o.rowReq row (i * w / 8) (((i + n) * w + 7) / 8 - i * w / 8)

/-- Requests for `n` elements from element `i` of an operand's elements counted in row order: one for each row that they
touch. -/
def Opnd.flatReqs (o : Opnd) (i n : Nat) : List Rd :=
  let d := max 1 (o.dim 0)
  if n = 0 then []
  else (rangeFrom (i / d) ((i + n - 1) / d + 1 - i / d)).map fun r =>
    o.elemReq r (max i (r * d) - r * d) (min (i + n) ((r + 1) * d) - max i (r * d))

/-- Requests for `n` bytes of a row's scale record from its byte `b`; none where the operand has no scales. -/
def Opnd.scaleReq (o : Opnd) (row b n : Nat) : List Rd :=
  match o.scale with
  | some r => if n = 0 then [] else [⟨r.mem, [(o.scaleAddr row + b, n)], 3, r.base, false⟩]
  | none => []

/-- A request for the whole scale record of a row. -/
def Opnd.recordReq (o : Opnd) (row : Nat) : List Rd := o.scaleReq row 0 (recordLen o.qmode (o.dim 0))

/-- The fields of an output's scale record that are read: S_ROW, and ZP where the mode has one (10 R214, R217). -/
def Opnd.outScaleReq (o : Opnd) (row : Nat) : List Rd :=
  o.scaleReq row 0 (match o.qmode with | 1 => 4 | 3 => 4 | 4 => 8 | 5 => 8 | _ => 0)

/-- A write of bytes at byte `b` of a row. -/
def Opnd.rowWrite (o : Opnd) (row b : Nat) (bs : List Byte) : Wr := ⟨o.mem, o.addr row b, bs, o.slot, o.base⟩

/-- A write into the scale record of a row. -/
def Opnd.scaleWrite (o : Opnd) (row b : Nat) (bs : List Byte) : List Wr :=
  match o.scale with
  | some r => if bs.isEmpty then [] else [⟨r.mem, o.scaleAddr row + b, bs, 3, r.base⟩]
  | none => []

/-- The writes of a run of output elements that starts at element `i` of a row, a multiple of 32 under a block mode: the
codes, and the block scales (10 R217, R218). -/
def Opnd.runWrites (o : Opnd) (row i : Nat) (scales : List Nat) (qs : List Quant) : List Wr :=
  o.rowWrite row (i * formatBits o.fmt / 8) (packCodes o.fmt (qs.map (·.code)))
    :: (if o.qmode = 2 ∨ o.qmode = 3 then
          o.scaleWrite row ((if o.qmode = 3 then 4 else 0) + i / 32) (scales.map (BitVec.ofNat 8))
        else [])

/-- The write of a ZP_SUM row's SUM field from the codes written (10 R214). -/
def Opnd.sumCodes (o : Opnd) (row : Nat) (codes : List Nat) : List Wr :=
  if o.qmode = 5 then o.scaleWrite row 8 (le 4 (unsigned 32 ((codes.map (codeInt o.fmt)).foldl (· + ·) 0))) else []

/-- The write of the SUM field of a row of output elements. -/
def Opnd.sumWrite (o : Opnd) (row : Nat) (qs : List Quant) : List Wr := o.sumCodes row (qs.map (·.code))

/-- Elements `i` to `i + n - 1` of an output row brought to codes by the output's QMODE. -/
def State.quantOut (s : State) (o : Opnd) (row : Nat) (r : List Rv) : List Nat × List Quant :=
  quantRun o.fmt o.qmode (s.sRow o row) (s.zpOf o row) r

/-- The step that writes the statistics record, after the tensor; it reads the stored record when it merges (10 R220). -/
def State.statStep (s : State) (c : CtxInfo) (w : Waybill) (t : Stats) : List EngStep :=
  if !w.stats then []
  else
    let x := s.statExtent c w
    let old := (rangeFrom x.base x.len).map fun a => BitVec.ofNat 8 (s.rawByte x.mem a)
    [⟨if w.merge then [⟨x.mem, [(x.base, x.len)], 3, x.base, false⟩] else [],
      [⟨x.mem, x.base, t.bytes (if w.merge then some old else none), 3, x.base⟩]⟩]

/-! ### Running and completing -/

/-- Zero the pending granules that a waybill's spans touch, before it reads anything (08 R161). -/
def State.touchSpans (c : CtxInfo) (w : Waybill) (s : State) : State :=
  (s.spans c w).foldl (fun (t : State) p =>
    if p.ext.mem = .lpddr then
      (t.mem.pendGran.filter fun g => (p.ext.firstIn (g * granule) ((g + 1) * granule)).isSome).foldl
        (fun (u : State) g => u.zeroGranule g) t
    else t) s

/-- The status and DETAIL of a run (09 R198): 0x4405 first, then the lowest of 0x8304, 0x8305, 0x8306 and 0x8401. -/
def Run.status (x : Run) (residue : Option Nat) : Nat × Nat :=
  match x.stale, x.part, x.ue, x.poison, residue with
  | some d, _, _, _, _ => (0x4405, d)
  | _, some d, _, _, _ => (0x8304, d)
  | _, _, some d, _, _ => (0x8305, d)
  | _, _, _, some d, _ => (0x8306, d)
  | _, _, _, _, some g => (0x8401, g)
  | _, _, _, _, _ => (0, 0)

/-- The residue events that a run of `n` steps met: counter 24, RESIDUE_MASKED for a retry that matched, FAULT_RESIDUE
and Verge's REPORT record for the first that did not (11 R238, 16 Table 16.3). -/
def State.residueReports (ctx e : Nat) (ev : List ResidueEvent) (first : Option Nat) (s : State) : State :=
  let s1 := ev.foldl (fun (t : State) v =>
    let t1 := t.count ctx 24 1
    if v.repeats then t1 else t1.post 0x0401 (e + v.group * 256) (some ctx)) s
  match first with
  | some g => (s1.record 0x8401 e 0 g).post 0x0402 (e + g * 256) (some ctx)
  | none => s1

/-- The least group of the residue events that repeat. -/
def firstRepeat (ev : List ResidueEvent) : Option Nat :=
  (ev.filter (·.repeats)).foldl (fun (a : Option Nat) v => some (match a with | some g => min g v.group | none => v.group)) none

/-- Run a waybill's steps on station `e` and complete it; `nSteps` is what its step counter takes when it is not cut, and
`last` are steps that follow the operator's own (the statistics record). A repeated residue mismatch fences the TE after
the record (11 R238). -/
def State.runPlan (c : CtxInfo) (w : Waybill) (e : Nat) (covered : Bool) (ev : List ResidueEvent)
    (steps last : List EngStep) (nSteps : Nat) (s : State) : State :=
  let k := runCtx c w
  let groups := (steps.length + 15) / 16
  let ev1 := if covered then ev.filter fun v => decide (v.group < groups) else []
  let (n, x, s1) := State.runSteps k (firstRepeat ev1) 0 steps ({}, s)
  let ev2 := ev1.filter fun v => decide (v.group * 16 < n)
  let rep := firstRepeat ev2
  let (x2, s2) := if x.stale.isSome then (x, s1) else
    let (_, y, t) := State.runSteps k none 1 last (x, s1)
    (y, t)
  let s3 := s2.count c.ctx (12 + w.wclass) (if x.stale.isSome then n else nSteps)
  let s4 := s3.residueReports c.ctx e ev2 rep
  let (st, d) := x2.status rep
  let s5 := s4.complete w st d { corrected := s2.counter c.ctx 22 != s.counter c.ctx 22,
                                 poisoned := x2.poisoned || rep.isSome }
  if rep.isSome then s5.enterFence e else s5

/-- The waybill that station `e` runs, when it is of this class and opcode. -/
def State.runningOn (s : State) (e cls op : Nat) : Option Waybill :=
  s.sched.flight.find? fun w => w.engine == some e && w.wclass == cls && w.opcode == op

/-- A running waybill needs a block that is FENCED: the endpoint for host memory, or an LPDDR5 controller (01 R24). -/
def State.cutOff (s : State) (w : Waybill) : Bool :=
  (w.usesHost && s.isFenced 0x50) || (w.usesLp && (rangeFrom 0x54 4).any fun b => s.isFenced b)

/-- The engine of station `e` runs its waybill of class `cls` and opcode `op` to its end; nothing happens when it runs
none. What the engine reads and writes happens at this one moment (log 18). -/
def State.runOn (e cls op : Nat) (f : CtxInfo → Waybill → State → State) (s : State) : State :=
  match s.runningOn e cls op with
  | none => s
  | some w =>
    match s.ctx w.ctx with
    | none => s
    | some c =>
      if s.cutOff w then s.complete w 0x4402 0 {}
      else f c w (s.touchSpans c w)

/-- NOP: no operands; it completes once it has started (09 section 9.2). -/
def execNop (e : Fin 19) (s : State) : Host.Outcome State Fault Refusal :=
  done s (s.runOn e (classOf e) 0 fun _ w t => t.complete w 0 0 {})

end Sys2Proof.Machine
end

