-- ==== Sys2Proof/Machine/Tensor.lean ====
section
/-! DEFINITION. The Waymark commit (09 R179, 01 section 1.4) and the operators of the Tensor Engines: MATMUL and CONV2D,
with their products, zero points, scales and requantisation (10 sections 10.3 to 10.7; 11 sections 11.3, 11.4, 11.7). -/

namespace Sys2Proof.Machine

/-! ### WAYMARK_COMMIT -/

/-- A Waymark slot. -/
def State.waymark (s : State) (n : Nat) : WmSlot := s.waymarks.get WmSlot.init n

/-- The half that readers see. -/
def WmSlot.activeHalf (x : WmSlot) : WmHalf := if x.active1 then x.half1 else x.half0

/-- The half that a commit writes. -/
def WmSlot.idleHalf (x : WmSlot) : WmHalf := if x.active1 then x.half0 else x.half1

/-- A slot whose idle half has been written and made active in one step (01 R13). -/
def WmSlot.commit (x : WmSlot) (h : WmHalf) : WmSlot :=
  if x.active1 then { x with half0 := h, active1 := false } else { x with half1 := h, active1 := true }

/-- A commit whose payload was read clean: made when its STAMP is greater than that of the active half, else discarded
and counted (01 R13, R15). -/
def State.commitWaymark (c n len stamp : Nat) (data : List Byte) (s : State) : State :=
  let x := s.waymark n
  if stamp ≤ x.activeHalf.stamp then
    ({ s with waymarks := s.waymarks.set WmSlot.init n { x with stale := x.stale + 1 } }).count c 29 1
  else
    let h : WmHalf := { seq := x.activeHalf.seq + 1, writer := BitVec.ofNat 8 c, length := BitVec.ofNat 8 len,
                        stamp := stamp, payload := x.idleHalf.payload.store 0 data }
    ({ s with waymarks := s.waymarks.set WmSlot.init n (x.commit h) }).count c 28 1

/-- Delivered bytes of an operand, `n` of them: their addresses. -/
def Opnd.firstBytes (o : Opnd) (n : Nat) : List Nat :=
  (List.range n).map fun i => o.addr (i / max 1 o.rowBytes) (i % max 1 o.rowBytes)

/-- WAYMARK_COMMIT: OP0's first LENGTH bytes go to the slot, unless a word read is poisoned or a line stale (09 R179,
R195; 08 R171). -/
def execWaymarkCommit (e : Fin 19) (s : State) : Host.Outcome State Fault Refusal :=
  done s (s.runOn e (classOf e) 1 fun c w t =>
    let o := t.operand c w 0
    let n := byteAt w.bytes 61
    let at_ := o.firstBytes n
    let data := at_.map fun a => BitVec.ofNat 8 (t.rawByte o.mem a)
    let (_, x, t1) := State.runSteps (runCtx c w) none 0 [⟨[o.req (joinRuns at_)], []⟩] ({}, t)
    let (st, d) := x.status none
    let t2 := if st = 0 then t1.commitWaymark w.ctx (byteAt w.bytes 60) n (fieldAt w.bytes 52 8) data else t1
    t2.complete w st d { corrected := t1.counter c.ctx 22 != t.counter c.ctx 22 })

/-! ### Products -/

/-- Exact sum of the products of two code lists as values. -/
def dotExact (fa fb : Nat) (a b : List Nat) : Rv :=
  rvSum ((a.zip b).map fun p => rvMul (decodeCode fa p.1) (decodeCode fb p.2))

/-- Exact sum of integer products with zero points taken off the codes (10 R206, R213). -/
def dotInt (fa fb : Nat) (za zb : Int) (a b : List Nat) : Int :=
  ((a.zip b).map fun p => (codeInt fa p.1 - za) * (codeInt fb p.2 - zb)).foldl (· + ·) 0

/-- The FP32 accumulator over groups of 32: the exact sum of each group is added with one rounding (10 R207). -/
def accumulate (groups : List Rv) : Rv := groups.foldl (fun a g => rne32 (rvAdd a g)) rv0

/-- A row of an input operand of a product: its codes and what its scale record gives. -/
structure TeRow where
  codes : List Nat
  srow : Rv
  zp : Int
  sum : Int
  blocks : List Rv
  deriving DecidableEq, Repr

/-- Row `row` of an input operand. -/
def State.teRow (s : State) (o : Opnd) (row : Nat) : TeRow :=
  { codes := (List.range (o.dim 0)).map (s.codeAt o row), srow := s.sRow o row, zp := s.zpOf o row,
    sum := if o.qmode = 5 then s.sumOf o row else 0,
    blocks := if o.qmode = 2 ∨ o.qmode = 3 then (List.range (o.dim 0 / 32)).map (s.blockScale o row) else [] }

/-- The formats and modes of a product's two inputs. -/
structure TePair where
  fa : Nat
  qa : Nat
  fb : Nat
  qb : Nat
  deriving DecidableEq, Repr

/-- The block method (10 Table 10.7). -/
def TePair.block (p : TePair) : Bool := p.qa == 2 || p.qa == 3 || p.qb == 2 || p.qb == 3

/-- The pair runs under the residue check: every pair but FP32 × FP32 (11 R237). -/
def TePair.covered (p : TePair) : Bool := p.fa != 9

/-- Reduction chunk of a TE step (11 Table 11.1, R226). -/
def TePair.chunk (p : TePair) : Nat :=
  if p.fa = 0 ∧ p.fb = 0 then (if p.qa = 4 ∨ p.qb = 4 then 64 else 128)
  else if p.fa = 9 then 4
  else if p.fa = 7 ∨ p.fa = 8 then 32
  else 64

/-- One output element before it is written: the integer P where the TE forms one, and r (10 R213, R215). -/
structure TeOut where
  p : Option Int
  r : Rv
  deriving DecidableEq, Repr

/-- The element that two rows give (10 R207, R213, R215). -/
def teElement (t : TePair) (a b : TeRow) : TeOut :=
  let s := rne32 (rvMul a.srow b.srow)
  if t.block then
    let n := a.codes.length / 32 + (if a.codes.length % 32 = 0 then 0 else 1)
    let acc := accumulate ((List.range n).map fun k =>
      rvMul (rvMul (dotExact t.fa t.fb ((a.codes.drop (32 * k)).take 32) ((b.codes.drop (32 * k)).take 32))
        (a.blocks.getD k (.fin false 1 0))) (b.blocks.getD k (.fin false 1 0)))
    ⟨none, rne32 (rvMul acc s)⟩
  else if isIntFmt t.fa then
    let p := if t.qa = 5 then
        dotInt t.fa t.fb 0 0 a.codes b.codes - b.zp * a.sum - a.zp * b.sum + a.codes.length * a.zp * b.zp
      else dotInt t.fa t.fb a.zp b.zp a.codes b.codes
    ⟨some p, rne32 (rvMul (rne32 (rvInt p)) s)⟩
  else
    let n := (a.codes.length + 31) / 32
    let acc := accumulate ((List.range n).map fun k =>
      dotExact t.fa t.fb ((a.codes.drop (32 * k)).take 32) ((b.codes.drop (32 * k)).take 32))
    ⟨none, rne32 (rvMul acc s)⟩

/-- A run of output elements brought to codes: an INT32 output of an integer product takes P saturated, any other goes
by the output's QMODE (10 R216, R217). -/
def State.teQuant (s : State) (o : Opnd) (row : Nat) (l : List TeOut) : List Nat × List Quant :=
  if o.fmt = 4 ∧ l.all (·.p.isSome) then
    ([], l.map fun x =>
      let (i, sat) := satInt 4 (x.p.getD 0)
      ⟨unsigned 32 i, sat, rne32 (rvInt (x.p.getD 0))⟩)
  else s.quantOut o row (l.map (·.r))

/-- The steps of one block of up to 64 output elements: one per chunk of `kc` reduction indices, the first also reading
the scale records, the last writing (11 R226, R230). `reads lo n` are the requests of one chunk. -/
def blockSteps (k kc : Nat) (first : List Rd) (reads : Nat → Nat → List Rd) (writes : List Wr) : List EngStep :=
  let n := (k + kc - 1) / kc
  (List.range n).map fun j =>
    ⟨(if j = 0 then first else []) ++ reads (j * kc) (min kc (k - j * kc)), if j + 1 = n then writes else []⟩

/-! ### MATMUL -/

/-- One output row of a product: its codes from the row of A and the rows of B, in blocks of 64, with its steps. -/
def State.teRowSteps (s : State) (t : TePair) (k : Nat) (oc : Opnd) (row : Nat) (outs : List TeOut)
    (first : List Rd) (blockFirst : Nat → Nat → List Rd) (reads : Nat → Nat → Nat → Nat → List Rd) :
    List EngStep × List Quant :=
  let n := outs.length
  let nb := (n + 63) / 64
  let blocks := (List.range nb).map fun j => s.teQuant oc row ((outs.drop (64 * j)).take 64)
  let all := (blocks.map (·.2)).flatten
  let steps := (List.range nb).map fun j =>
    let b := blocks.getD j ([], [])
    let cnt := min 64 (n - 64 * j)
    blockSteps k t.chunk ((if j = 0 then first else []) ++ blockFirst (64 * j) cnt)
      (fun lo m => reads (64 * j) cnt lo m)
      (oc.runWrites row (64 * j) b.1 b.2 ++ (if j + 1 = nb then oc.sumWrite row all else []))
  (steps.flatten, all)

/-- The steps and the statistics of a MATMUL: C[b, m, n] over all k (11 R225, R226). -/
def State.matmulPlan (s : State) (c : CtxInfo) (w : Waybill) : TePair × List EngStep × Stats :=
  let a := s.operand c w 0
  let b := s.operand c w 1
  let o := s.operand c w 2
  let t : TePair := ⟨a.fmt, a.qmode, b.fmt, b.qmode⟩
  let m := a.dim 1
  let n := b.dim 1
  let shared := b.dim 2 * b.dim 3 == 1
  let rows := (List.range (m * a.dim 2 * a.dim 3)).map fun r =>
    let ra := s.teRow a r
    let brow := fun j => if shared then j else r / m * n + j
    s.teRowSteps t (a.dim 0) o r ((List.range n).map fun j => teElement t ra (s.teRow b (brow j)))
      (a.recordReq r ++ o.outScaleReq r)
      (fun j cnt => ((rangeFrom j cnt).map fun x => b.recordReq (brow x)).flatten)
      (fun j cnt lo len => a.elemReq r lo len :: (rangeFrom j cnt).map fun x => b.elemReq (brow x) lo len)
  (t, (rows.map (·.1)).flatten, rows.foldl (fun (z : Stats) p => z.addRow p.2) {})

/-- MATMUL on a Tensor Engine, with the residue mismatches it meets (11 R225, R226, R238). -/
def execMatmul (e : Fin 19) (residue : List ResidueEvent) (s : State) : Host.Outcome State Fault Refusal :=
  done s (s.runOn e 0 0x101 fun c w t =>
    let (p, steps, st) := t.matmulPlan c w
    t.runPlan c w e p.covered residue steps (t.statStep c w st) steps.length)

/-! ### CONV2D -/

/-- The input coordinates of a tap, when they lie inside the input (11 R228). -/
def tapAt (p : Window) (h w oh ow kh kw : Nat) : Option (Nat × Nat) :=
  let y := oh * p.sh + kh * p.dh
  let x := ow * p.sw + kw * p.dw
  if p.pt ≤ y ∧ y < p.pt + h ∧ p.pl ≤ x ∧ x < p.pl + w then some (y - p.pt, x - p.pl) else none

/-- The reduction index k as (ci, kh, kw) (11 section 11.4). -/
def Window.split (p : Window) (k : Nat) : Nat × Nat × Nat := (k / (p.kh * p.kw), k / p.kw % p.kh, k % p.kw)

/-- Row number of line `y` of channel `ch` of image `n` of a planar tensor. -/
def Opnd.line (o : Opnd) (n ch y : Nat) : Nat := (n * o.dim 2 + ch) * o.dim 1 + y

/-- The steps and the statistics of a CONV2D (11 R228 to R230). -/
def State.convPlan (s : State) (c : CtxInfo) (w : Waybill) : TePair × List EngStep × Stats :=
  let i := s.operand c w 0
  let wt := s.operand c w 1
  let o := s.operand c w 2
  let t : TePair := ⟨i.fmt, i.qmode, wt.fmt, wt.qmode⟩
  let p := w.window
  let cg := i.dim 2 / max 1 p.groups
  let kg := cg * p.kh * p.kw
  let sIn := s.sRow i 0
  let zpIn := s.zpOf i 0
  let pad := if i.qmode = 4 then unsigned (formatBits i.fmt) zpIn else 0
  let tap := fun (n co oh ow k : Nat) =>
    let (ci, kh, kw) := p.split k
    let g := co / max 1 (o.dim 2 / max 1 p.groups)
    (tapAt p (i.dim 1) (i.dim 0) oh ow kh kw).map fun q => (i.line n (g * cg + ci) q.1, q.2)
  let rows := (List.range o.rows).map fun r =>
    let oh := r % o.dim 1
    let co := r / o.dim 1 % o.dim 2
    let n := r / (o.dim 1 * o.dim 2)
    let rw := s.teRow wt co
    let outs := (List.range (o.dim 0)).map fun ow =>
      let codes := (List.range kg).map fun k =>
        match tap n co oh ow k with
        | some (row, x) => s.codeAt i row x
        | none => pad
      teElement t { codes := codes, srow := sIn, zp := zpIn, sum := 0, blocks := [] } rw
    s.teRowSteps t kg o r outs
      ((if r = 0 then i.outScaleReq 0 else []) ++ wt.recordReq co ++ o.outScaleReq r) (fun _ _ => [])
      (fun j cnt lo len => wt.elemReq co lo len ::
        ((rangeFrom j cnt).map fun ow => (rangeFrom lo len).filterMap fun k =>
          (tap n co oh ow k).map fun q => i.elemReq q.1 q.2 1).flatten)
  (t, (rows.map (·.1)).flatten, rows.foldl (fun (z : Stats) q => z.addRow q.2) {})

/-- CONV2D on a Tensor Engine (11 R228 to R230, R238). -/
def execConv2d (e : Fin 19) (residue : List ResidueEvent) (s : State) : Host.Outcome State Fault Refusal :=
  done s (s.runOn e 0 0x102 fun c w t =>
    let (p, steps, st) := t.convPlan c w
    t.runPlan c w e p.covered residue steps (t.statStep c w st) steps.length)

end Sys2Proof.Machine
end

