-- ==== Sys2Proof/Machine/VectorOps.lean ====
section
/-! DEFINITION. The operators of the Vector Engines (11 section 11.5). -/

namespace Sys2Proof.Machine

/-- The larger of two values under IEEE 754, +0 above −0; with one NaN the manual leaves the operation open (log 19). -/
def veMax (op : Nat) (x y : Rv) : Rv :=
  if x.isNan || y.isNan then
    (if Config.numberOverNan op && !(x.isNan && y.isNan) then (if x.isNan then y else x) else .nan)
  else if x.isZero && y.isZero then (match x with | .fin true _ _ => y | _ => x)
  else rvMax x y

/-- The smaller of two values. -/
def veMin (op : Nat) (x y : Rv) : Rv := rvNeg (veMax op (rvNeg x) (rvNeg y))

/-- The maximum of a row; NaN of an empty one does not arise. -/
def veMaxRow (op : Nat) : List Rv → Rv
  | [] => rv0
  | x :: r => r.foldl (veMax op) x

/-- The row sum of R232: groups of 32 into an FP32 accumulator. -/
def rowSum (n : Nat) (l : List Rv) : Rv := accumulate ((chunks32 (n / 32 + 1) l).map rvSum)

/-- ACT's functions (11 R233). -/
def actFn (func : Nat) (scalar : Rv) (x : Rv) : Rv :=
  if x.isNan then .nan
  else match func with
    | 0 => if rvLt rv0 x then x else rv0
    | 1 => veMin 0x210 (veMax 0x210 x rv0) scalar
    | 2 => if rvLt x rv0 then rne32 (rvMul x scalar) else x
    | 3 => rne32 (rvSigmoid x)
    | 4 => rne32 (rvTanh x)
    | 5 => rne32 (rvGelu x)
    | 6 => rne32 (rvSilu x)
    | _ => rne32 (rvExp x)

/-- SOFTMAX of a row (11 R232). -/
def softmaxRow (x : List Rv) : List Rv :=
  let m := veMaxRow 0x220 x
  let e := x.map fun v => rne32 (rvExp (rne32 (rvAdd v (rvNeg m))))
  let s := rowSum x.length e
  e.map fun v => rne32 (rvDiv v s)

/-- LAYERNORM of a row (11 R232). -/
def layernormRow (eps : Rv) (gamma beta x : List Rv) : List Rv :=
  let n := rvInt x.length
  let mu := rne32 (rvDiv (rowSum x.length x) n)
  let d := x.map fun v => rne32 (rvAdd v (rvNeg mu))
  let v := rne32 (rvDiv (rowSum x.length (d.map fun y => rvMul y y)) n)
  let r := rne32 (rvRsqrt (rne32 (rvAdd v eps)))
  d.mapIdx fun i y =>
    rne32 (rvAdd (rne32 (rvMul (rne32 (rvMul y r)) (gamma.getD i rv0))) (beta.getD i rv0))

/-- RMSNORM of a row (11 R232). -/
def rmsnormRow (eps : Rv) (gamma x : List Rv) : List Rv :=
  let q := rne32 (rvDiv (rowSum x.length (x.map fun y => rvMul y y)) (rvInt x.length))
  let r := rne32 (rvRsqrt (rne32 (rvAdd q eps)))
  x.mapIdx fun i y => rne32 (rvMul (rne32 (rvMul y r)) (gamma.getD i rv0))

/-- The real values of a row (11 R231). -/
def State.rowReal (s : State) (o : Opnd) (row : Nat) : List Rv := (List.range (o.dim 0)).map (s.realAt o row)

/-- Real value of element `i` of an operand's elements counted in row order. -/
def State.flatReal (s : State) (o : Opnd) (i : Nat) : Rv := s.realAt o (i / max 1 (o.dim 0)) (i % max 1 (o.dim 0))

/-- The row and element of OP2 that element `i` of row `row` of OP0 takes: a dimension of 1 broadcasts (11 section
11.5). -/
def broadcast (o0 o2 : Opnd) (row i : Nat) : Nat × Nat :=
  let (a, b, c) := o0.rowIndex row
  let pick := fun k v => if o2.dim k = 1 then 0 else v
  ((pick 3 c * o2.dim 2 + pick 2 b) * o2.dim 1 + pick 1 a, pick 0 i)

/-- ADD to MIN on integers, exact (11 R231). -/
def intOp (op : Nat) (x y : Int) : Int :=
  match op with
  | 0x201 => x + y
  | 0x202 => x - y
  | 0x203 => x * y
  | 0x204 => max x y
  | _ => min x y

/-- ADD to MIN on real values, rounded to FP32. -/
def realOp (op : Nat) (x y : Rv) : Rv :=
  match op with
  | 0x201 => rne32 (rvAdd x y)
  | 0x202 => rne32 (rvAdd x (rvNeg y))
  | 0x203 => rne32 (rvMul x y)
  | 0x204 => veMax op x y
  | _ => veMin op x y

/-- What a vector operator computes for one output row: block scales and elements, in runs of 64. -/
structure VeRow where
  runs : List (List Nat × List Quant)
  deriving DecidableEq, Repr

/-- Real results of a row brought to codes, in runs of 64. -/
def State.veQuant (s : State) (o : Opnd) (row : Nat) (r : List Rv) : VeRow :=
  ⟨(List.range ((r.length + 63) / 64)).map fun j => s.quantOut o row ((r.drop (64 * j)).take 64)⟩

/-- The elements of a row. -/
def VeRow.all (v : VeRow) : List Quant := (v.runs.map (·.2)).flatten

/-- The steps of one row: `cost` passes over its chunks of 64, reads in the first and writes in the last (11 R235). A
one-element output is written with the last chunk. -/
def rowSteps (n cost : Nat) (reads : Nat → List Rd) (writes : Nat → List Wr) : List EngStep :=
  let ch := (n + 63) / 64
  (List.range (ch * cost)).map fun k =>
    let pass := k / ch
    let j := k % ch
    ⟨if pass = 0 then reads j else [], if pass + 1 = cost then writes j else []⟩

/-- The writes of chunk `j` of an output row. -/
def Opnd.chunkWrites (o : Opnd) (row : Nat) (v : VeRow) (j last : Nat) : List Wr :=
  (match v.runs[j]? with
   | some r => o.runWrites row (64 * j) r.1 r.2
   | none => [])
  ++ (if j = last then o.sumWrite row v.all else [])

/-- Cost per chunk of a vector operator (11 R235). -/
def veCost (op func : Nat) : Nat :=
  match op with
  | 0x210 => if func < 3 then 1 else 4
  | 0x220 | 0x221 => 6
  | 0x222 => 3
  | _ => 1

/-- The plan of a vector operator that works along rows: `f row` gives the output row, `more row j` the requests of
chunk `j` beside OP0. -/
def State.vePlan (s : State) (c : CtxInfo) (w : Waybill) (f : Nat → VeRow) (more : Nat → Nat → List Rd) :
    List EngStep × Stats :=
  let i := s.operand c w 0
  let o := s.operand c w 1
  let n := i.dim 0
  let ch := (n + 63) / 64
  let reduce := w.opcode == 0x230 || w.opcode == 0x231
  let rows := (List.range i.rows).map fun r =>
    let v := f r
    let steps := rowSteps n (veCost w.opcode (byteAt w.bytes 56))
      (fun j => i.elemReq r (64 * j) (min 64 (n - 64 * j)) :: (if j = 0 then i.recordReq r ++ o.outScaleReq r else [])
        ++ more r j)
      (fun j => if reduce then (if j + 1 = ch then o.chunkWrites r v 0 0 else []) else o.chunkWrites r v j (ch - 1))
    (steps, v.all)
  ((rows.map (·.1)).flatten, rows.foldl (fun (z : Stats) p => z.addRow p.2) {})

/-- Run a vector operator. -/
def State.runVe (e op : Nat) (f : State → CtxInfo → Waybill → Nat → VeRow)
    (more : State → CtxInfo → Waybill → Nat → Nat → List Rd) (s : State) : State :=
  s.runOn e 1 op fun c w t =>
    let (steps, st) := t.vePlan c w (f t c w) (more t c w)
    t.runPlan c w e false [] steps (t.statStep c w st) steps.length

/-- No requests beside OP0. -/
def noMore (_ : State) (_ : CtxInfo) (_ : Waybill) (_ _ : Nat) : List Rd := []

/-- A row of ADD to MIN. -/
def State.binaryRow (s : State) (c : CtxInfo) (w : Waybill) (row : Nat) : VeRow :=
  let a := s.operand c w 0
  let o := s.operand c w 1
  let b := s.operand c w 2
  let isInt := fun (x : Opnd) => isIntFmt x.fmt && x.qmode == 0
  let n := a.dim 0
  if isInt a && isInt b && isInt o then
    let q := (List.range n).map fun i =>
      let (r2, i2) := broadcast a b row i
      let v := intOp w.opcode (codeInt a.fmt (s.codeAt a row i)) (codeInt b.fmt (s.codeAt b r2 i2))
      let (x, sat) := satInt o.fmt v
      (⟨unsigned (formatBits o.fmt) x, sat, rvInt v⟩ : Quant)
    ⟨(List.range ((n + 63) / 64)).map fun j => ([], (q.drop (64 * j)).take 64)⟩
  else
    s.veQuant o row ((List.range n).map fun i =>
      let (r2, i2) := broadcast a b row i
      realOp w.opcode (s.realAt a row i) (s.realAt b r2 i2))

/-- The requests of OP2 for a chunk of ADD to MIN. -/
def State.binaryMore (s : State) (c : CtxInfo) (w : Waybill) (row j : Nat) : List Rd :=
  let a := s.operand c w 0
  let b := s.operand c w 2
  let (r2, i2) := broadcast a b row (64 * j)
  b.elemReq r2 i2 (if b.dim 0 = 1 then 1 else min 64 (a.dim 0 - 64 * j)) :: (if j = 0 then b.recordReq r2 else [])

/-- The requests of OP2 for a chunk of a norm: γ, and β behind it (11 Table 11.2). -/
def State.normMore (s : State) (c : CtxInfo) (w : Waybill) (_ j : Nat) : List Rd :=
  let n := (s.operand c w 0).dim 0
  let o := s.operand c w 2
  let k := min 64 (n - 64 * j)
  o.flatReqs (64 * j) k ++ (if w.opcode = 0x221 then o.flatReqs (n + 64 * j) k else [])

/-- ADD: OP1 = OP0 + OP2 (11 R231). -/
def execAdd (e : Fin 19) (s : State) : Host.Outcome State Fault Refusal :=
  done s (s.runVe e 0x201 State.binaryRow State.binaryMore)

/-- SUB: OP1 = OP0 − OP2. -/
def execSub (e : Fin 19) (s : State) : Host.Outcome State Fault Refusal :=
  done s (s.runVe e 0x202 State.binaryRow State.binaryMore)

/-- MUL: OP1 = OP0 × OP2. -/
def execMul (e : Fin 19) (s : State) : Host.Outcome State Fault Refusal :=
  done s (s.runVe e 0x203 State.binaryRow State.binaryMore)

/-- MAX: OP1 = the larger of OP0 and OP2. -/
def execMax (e : Fin 19) (s : State) : Host.Outcome State Fault Refusal :=
  done s (s.runVe e 0x204 State.binaryRow State.binaryMore)

/-- MIN: OP1 = the smaller of OP0 and OP2. -/
def execMin (e : Fin 19) (s : State) : Host.Outcome State Fault Refusal :=
  done s (s.runVe e 0x205 State.binaryRow State.binaryMore)

/-- ACT: FUNC of each element (11 R233). -/
def execAct (e : Fin 19) (s : State) : Host.Outcome State Fault Refusal :=
  done s (s.runVe e 0x210 (fun t c w row =>
    t.veQuant (t.operand c w 1) row
      ((t.rowReal (t.operand c w 0) row).map (actFn (byteAt w.bytes 56) (fp32Of (fieldAt w.bytes 52 4))))) noMore)

/-- SOFTMAX along rows. -/
def execSoftmax (e : Fin 19) (s : State) : Host.Outcome State Fault Refusal :=
  done s (s.runVe e 0x220 (fun t c w row =>
    t.veQuant (t.operand c w 1) row (softmaxRow (t.rowReal (t.operand c w 0) row))) noMore)

/-- LAYERNORM along rows, with γ and β in OP2. -/
def execLayernorm (e : Fin 19) (s : State) : Host.Outcome State Fault Refusal :=
  done s (s.runVe e 0x221 (fun t c w row =>
    let x := t.rowReal (t.operand c w 0) row
    let n := x.length
    let o := t.operand c w 2
    t.veQuant (t.operand c w 1) row (layernormRow (fp32Of (fieldAt w.bytes 52 4))
      ((List.range n).map (t.flatReal o)) ((rangeFrom n n).map (t.flatReal o)) x)) State.normMore)

/-- RMSNORM along rows, with γ in OP2. -/
def execRmsnorm (e : Fin 19) (s : State) : Host.Outcome State Fault Refusal :=
  done s (s.runVe e 0x222 (fun t c w row =>
    let x := t.rowReal (t.operand c w 0) row
    t.veQuant (t.operand c w 1) row (rmsnormRow (fp32Of (fieldAt w.bytes 52 4))
      ((List.range x.length).map (t.flatReal (t.operand c w 2))) x)) State.normMore)

/-- REDUCE_SUM: the row sum of each row (11 R232). -/
def execReduceSum (e : Fin 19) (s : State) : Host.Outcome State Fault Refusal :=
  done s (s.runVe e 0x230 (fun t c w row =>
    let x := t.rowReal (t.operand c w 0) row
    t.veQuant (t.operand c w 1) row [rowSum x.length x]) noMore)

/-- REDUCE_MAX: the maximum of each row. -/
def execReduceMax (e : Fin 19) (s : State) : Host.Outcome State Fault Refusal :=
  done s (s.runVe e 0x231 (fun t c w row =>
    t.veQuant (t.operand c w 1) row [veMaxRow 0x231 (t.rowReal (t.operand c w 0) row)]) noMore)

/-- CONVERT: OP0 in OP1's format and quantisation. -/
def execConvert (e : Fin 19) (s : State) : Host.Outcome State Fault Refusal :=
  done s (s.runVe e 0x240 (fun t c w row => t.veQuant (t.operand c w 1) row (t.rowReal (t.operand c w 0) row)) noMore)

/-- MAXABS: the statistics record of OP0 alone (11 Table 11.2, R224). -/
def execMaxabs (e : Fin 19) (s : State) : Host.Outcome State Fault Refusal :=
  done s (s.runOn e 1 0x260 fun c w t =>
    let i := t.operand c w 0
    let n := i.dim 0
    let rows := List.range i.rows
    let st := rows.foldl (fun (z : Stats) r => z.addRow ((t.rowReal i r).map fun x => (⟨0, false, x⟩ : Quant))) {}
    let steps := (rows.map fun r => rowSteps n 1
      (fun j => i.elemReq r (64 * j) (min 64 (n - 64 * j)) :: (if j = 0 then i.recordReq r else [])) fun _ => []).flatten
    t.runPlan c w e false [] steps (t.statStep c w st) steps.length)

/-! ### Pools -/

/-- The plan of a pool: each output line over its channel's input plane (11 R234, R235). -/
def State.poolPlan (s : State) (c : CtxInfo) (w : Waybill) : List EngStep × Stats :=
  let i := s.operand c w 0
  let o := s.operand c w 1
  let p := w.window
  let taps := (List.range (p.kh * p.kw)).map fun k => (k / max 1 p.kw, k % max 1 p.kw)
  let rows := (List.range o.rows).map fun r =>
    let oh := r % o.dim 1
    let plane := r / o.dim 1
    let tap := fun (ow : Nat) (t : Nat × Nat) =>
      (tapAt p (i.dim 1) (i.dim 0) oh ow t.1 t.2).map fun q => (plane * i.dim 1 + q.1, q.2)
    let v := s.veQuant o r ((List.range (o.dim 0)).map fun ow =>
      let x := (taps.filterMap (tap ow)).map fun q => s.realAt i q.1 q.2
      if x.isEmpty then rv0
      else if w.opcode = 0x250 then veMaxRow 0x250 x
      else rne32 (rvDiv (rowSum x.length x) (rvInt x.length)))
    let ch := (o.dim 0 + 63) / 64
    let steps := (List.range ch).map fun j => taps.mapIdx fun k t =>
      (⟨((rangeFrom (64 * j) (min 64 (o.dim 0 - 64 * j))).filterMap fun ow => (tap ow t).map fun q => i.elemReq q.1 q.2 1)
          ++ (if j = 0 ∧ k = 0 then o.outScaleReq r else []),
        if k + 1 = taps.length then o.chunkWrites r v j (ch - 1) else []⟩ : EngStep)
    (steps.flatten, v.all)
  let first : List EngStep → List EngStep := fun l => match l with
    | [] => []
    | x :: q => { x with reads := ((List.range i.rows).map i.recordReq).flatten ++ x.reads } :: q
  (first ((rows.map (·.1)).flatten), rows.foldl (fun (z : Stats) q => z.addRow q.2) {})

/-- MAXPOOL (11 R234). -/
def execMaxpool (e : Fin 19) (s : State) : Host.Outcome State Fault Refusal :=
  done s (s.runOn e 1 0x250 fun c w t =>
    let (steps, st) := t.poolPlan c w
    t.runPlan c w e false [] steps (t.statStep c w st) steps.length)

/-- AVGPOOL (11 R234). -/
def execAvgpool (e : Fin 19) (s : State) : Host.Outcome State Fault Refusal :=
  done s (s.runOn e 1 0x251 fun c w t =>
    let (steps, st) := t.poolPlan c w
    t.runPlan c w e false [] steps (t.statStep c w st) steps.length)

end Sys2Proof.Machine
end

