-- ==== Sys2Proof/Machine/Transfer.lean ====
section
/-! DEFINITION. The operators of the Transfer Engines: COPY and FILL (11 section 11.6), PLAN_ADMIT (08 section 8.8). -/

namespace Sys2Proof.Machine

/-- A byte that an XE writes: its destination address, and the source bytes that are requested for it (address, length). -/
structure XeByte where
  dst : Nat
  src : List (Nat × Nat)
  val : Byte
  deriving DecidableEq, Repr

/-- Bytes gathered by the 64-byte destination line that they go to, in the order in which the lines are first met. -/
def cutLines (l : List XeByte) : List (List XeByte) :=
  ((l.map fun b => b.dst / 64).eraseDups).map fun n => l.filter fun b => b.dst / 64 == n

/-- The writes of one destination line: runs of consecutive bytes. -/
def lineWrites (o : Opnd) : List XeByte → List Wr
  | [] => []
  | b :: r =>
    match lineWrites o r with
    | w :: q => if w.addr = b.dst + 1 then { w with addr := b.dst, bytes := b.val :: w.bytes } :: q
      else ⟨o.mem, b.dst, [b.val], o.slot, o.base⟩ :: w :: q
    | [] => [⟨o.mem, b.dst, [b.val], o.slot, o.base⟩]

/-- The steps of an XE transfer: one per destination line that it writes, whole or partial (11 R236). -/
def xeSteps (src : Option Opnd) (o : Opnd) (bytes : List XeByte) : List EngStep :=
  (cutLines bytes).map fun l =>
    let runs := (l.map (·.src)).flatten
    ⟨match src with
     | some i => [i.req (if i.form = .tensor ∨ i.form = .linear then joinRuns (runs.map (·.1)) else runs)]
     | none => [], lineWrites o l⟩

/-- The source bytes requested for byte `b` of row `r` of a COPY: that byte; for STRIDED and TRANSPOSE the whole request
with its first byte (08 R157). -/
def Opnd.copySource (o : Opnd) (r b : Nat) : List (Nat × Nat) :=
  if o.form = .tensor ∨ o.form = .linear then [(o.addr r b, 1)]
  else if b % max 1 o.requestUnit = 0 then o.requestRuns b (b + 1) else []

/-- The step that writes the SUM fields of a ZP_SUM tensor that a Transfer Engine has written, after the tensor; it is not
one of the steps counted (10 R214; log 50). -/
def Opnd.sumSteps (o : Opnd) (codes : Nat → List Nat) : List EngStep :=
  if o.qmode = 5 then [⟨[], ((List.range o.rows).map fun r => o.sumCodes r (codes r)).flatten⟩] else []

/-- The bytes of a COPY: by index through both tensors, or in delivered order (11 R236). -/
def State.copyBytes (s : State) (i o : Opnd) : List XeByte :=
  ((List.range i.rows).map fun r => (List.range i.rowBytes).map fun b =>
    let a := i.addr r b
    let v := s.rawByte i.mem a
    let last := i.fmt == 0 && i.dim 0 % 2 == 1 && b + 1 == i.rowBytes
    (⟨o.addr r b, i.copySource r b, BitVec.ofNat 8 (if last then v % 16 else v)⟩ : XeByte)).flatten

/-- COPY; `stores` are host software's stores that its host-memory reads find (log 6). -/
def execCopy (e : Fin 19) (stores : List HostStore) (s : State) : Host.Outcome State Fault Refusal :=
  done s ((s.hostStores stores).runOn e 3 0x401 fun c w t =>
    let i := t.operand c w 0
    let o := t.operand c w 1
    let steps := xeSteps (some i) o (t.copyBytes i o)
    let sums := o.sumSteps fun r => (List.range (i.dim 0)).map (t.codeAt i r)
    t.runPlan c w e false [] steps sums steps.length)

/-- The codes of a row of a HANDLE-mode FILL: each element takes the low bytes of PATTERN (11 R236). -/
def fillCodes (w : Waybill) (o : Opnd) : List Nat :=
  List.replicate (o.dim 0) (if o.fmt = 0 then byteAt w.bytes 52 % 16 else fieldAt w.bytes 52 (formatSize o.fmt))

/-- The bytes of a FILL (11 R236): byte i of PATTERN repeated in DIRECT mode; in HANDLE mode the row's codes. -/
def fillBytes (w : Waybill) (o : Opnd) : List XeByte :=
  let pat := (w.bytes.drop 52).take 8
  let row := packCodes o.fmt (fillCodes w o)
  if w.direct then (List.range o.size).map fun k => ⟨o.directAddr k, [], pat.getD (k % 8) 0⟩
  else ((List.range o.rows).map fun r => row.mapIdx fun b v => (⟨o.addr r b, [], v⟩ : XeByte)).flatten

/-- FILL. -/
def execFill (e : Fin 19) (s : State) : Host.Outcome State Fault Refusal :=
  done s (s.runOn e 3 0x402 fun c w t =>
    let o := t.operand c w 1
    let steps := xeSteps none o (fillBytes w o)
    t.runPlan c w e false [] steps (o.sumSteps fun _ => fillCodes w o) steps.length)

/-- PLAN_ADMIT: the deficits of the plan's ranges against the context's shares, written whatever the outcome (08 R175,
Table 8.8). It takes the one step that writes its result. A bad partial write cannot arise, as the result is two whole
words. -/
def execPlanAdmit (e : Fin 19) (s : State) : Host.Outcome State Fault Refusal :=
  done s (s.runOn e 3 2 fun c w t =>
    let sw := fieldAt w.bytes 20 4 - c.swSize
    let lp := fieldAt w.bytes 32 8 - (c.lpBase + c.lpSize + lpBase)
    let (m, a) := t.locate c w.result
    let (_, x, t1) := State.runSteps (runCtx c w) none 0 [⟨[], [⟨m, a, le 8 sw ++ le 8 lp, 2, a⟩]⟩] ({}, t)
    (t1.count c.ctx 15 1).complete w (if sw ≠ 0 then 0x2302 else if lp ≠ 0 then 0x2303 else 0) 0
      { poisoned := x.poisoned })

end Sys2Proof.Machine
end

