-- ==== Sys2Proof/Machine/Attention.lean ====
section
/-! DEFINITION. The Attention Engines: latent pools, sequences, the prefix tree and its hash, and the operators POOL_INIT,
SEQ_RESET, PREFIX_LOOKUP, KV_APPEND and ATTEND (12). A pool's token IDs and latents are LPDDR5 bytes; the choices are in
log 20. -/

namespace Sys2Proof.Machine

/-! ### Pools -/

/-- Block `i`. -/
def Pool.block (p : Pool) (i : Nat) : PoolBlock := p.blk.get PoolBlock.init i

/-- Replace block `i`. -/
def Pool.setBlock (p : Pool) (i : Nat) (b : PoolBlock) : Pool := { p with blk := p.blk.set PoolBlock.init i b }

/-- Sequence `n` of context `c`. -/
def Pool.seqOf (p : Pool) (c n : Nat) : PoolSeq := p.seq.get PoolSeq.init (c * 256 + n)

/-- Replace sequence `n` of context `c`. -/
def Pool.setSeq (p : Pool) (c n : Nat) (q : PoolSeq) : Pool := { p with seq := p.seq.set PoolSeq.init (c * 256 + n) q }

/-- Replace a registered pool. -/
def State.setPool (p : Pool) (s : State) : State :=
  { s with pools := s.pools.map fun x => if x.key = p.key then p else x }

/-- Some bytes that an AE on a context's behalf writes and whose content the manual does not give: they become free values
(log 20). -/
def State.freeWrite (ctx u n : Nat) (s : State) : State :=
  let (v, s1) := s.draw
  (s1.writeMem .lp (some ctx) false u (le n v)).2

/-- The same, a line at a time. -/
def State.freeLines (ctx u n : Nat) (s : State) : State :=
  (List.range ((n + 63) / 64)).foldl (fun (t : State) k => t.freeWrite ctx (u + 64 * k) (min 64 (n - 64 * k))) s

/-- A pool `p` becomes `q`: the nodes and block headers of the blocks that change, and the records of the sequences that
change, are rewritten (12 R247; log 20). -/
def State.changePool (ctx : Nat) (p q : Pool) (s : State) : State :=
  let blocks := (((p.blk ++ q.blk).map (·.1)).eraseDups).filter fun i => p.block i != q.block i
  let seqs := (((p.seq ++ q.seq).map (·.1)).eraseDups).filter fun k => p.seq.get PoolSeq.init k != q.seq.get PoolSeq.init k
  let s1 := blocks.foldl (fun (t : State) i => (t.freeWrite ctx (q.nodeAt i) 64).freeWrite ctx (q.blockAt i) 64) (s.setPool q)
  seqs.foldl (fun (t : State) k => t.freeLines ctx (q.seqAt ((s.members q).idxOf (k / 256)) (k % 256)) q.seqBytes) s1

/-- The hash of a block from its parent's hash and its token IDs (12 section 12.3). -/
def chainHash (start : BitVec 64) (ids : List (BitVec 32)) : BitVec 64 :=
  ids.foldl (fun h t => (List.range 4).foldl (fun (x : BitVec 64) k =>
    (x ^^^ ((t >>> (8 * k)).setWidth 8).setWidth 64) * 0x100000001B3) h) start

/-- The hash that a block starts from: its parent's, or the basis at sequence position 0. -/
def Pool.hashStart (p : Pool) (parent : Option Nat) : BitVec 64 :=
  match parent with
  | some i => (p.block i).hash
  | none => 0xCBF29CE484222325

/-- The tree nodes with a hash, in ascending block index. -/
def Pool.nodes (p : Pool) (h : BitVec 64) : List Nat :=
  (p.blk.filter fun b => b.2.used && b.2.tree && b.2.hash == h).map (·.1)

/-- The token IDs of block `i`. -/
def State.blockIds (s : State) (p : Pool) (i : Nat) : List (BitVec 32) :=
  (List.range 64).map fun t => BitVec.ofNat 32 (s.rawLe .lpddr (p.idAt i t) 4)

/-- A request for the first `n` token IDs of block `i`. -/
def Pool.idReq (p : Pool) (code i n : Nat) : Rd := ⟨.lpddr, [(p.idAt i 0, 4 * n)], code, 0, false⟩

/-- A block dropped by a sequence: a tree block loses a reference, a private one becomes free (12 R248). -/
def Pool.drop (p : Pool) (i : Nat) : Pool :=
  let b := p.block i
  p.setBlock i (if b.tree then { b with refs := b.refs - 1 } else PoolBlock.init)

/-- The tree node to evict: no reference, no child, the oldest last use, then the lowest index (12 R254). -/
def Pool.victim (p : Pool) : Option Nat :=
  let idle := p.blk.filter fun b => b.2.used && b.2.tree && b.2.refs == 0 &&
    !p.blk.any fun k => k.2.used && k.2.tree && k.2.parent == some b.1
  (idle.foldl (fun (a : Option (Nat × PoolBlock)) b =>
    match a with
    | some x => if b.2.lastUse < x.2.lastUse then some b else some x
    | none => some b) none).map (·.1)

/-- Take a new block: a free one (the lowest, log 20), else by eviction (12 R249, R254). -/
def Pool.takeBlock (p : Pool) : Option (Nat × Pool) :=
  let i := match (List.range p.nBlocks).find? fun k => !(p.block k).used with
    | some k => some k
    | none => p.victim
  i.map fun k => (k, p.setBlock k { PoolBlock.init with used := true })

/-- Take `n` new blocks; none where they cannot all be had. -/
def Pool.takeBlocks : Nat → Pool → Option (List Nat × Pool)
  | 0, p => some ([], p)
  | n + 1, p => do
    let (i, q) ← p.takeBlock
    let (l, r) ← Pool.takeBlocks n q
    return (i :: l, r)

/-! ### Running -/

/-- Complete an AE waybill whose run ended as `x`, after counting its steps (07 Table 7.8, counter 14). -/
def State.finishAe (c : CtxInfo) (w : Waybill) (steps corrBefore : Nat) (x : Run) (s : State) : State :=
  let (st, d) := x.status none
  (s.count c.ctx 14 steps).complete w st d
    { corrected := s.counter c.ctx 22 != corrBefore, poisoned := x.poisoned }

/-- Run an AE operator on its context's pool; a waybill whose pool is gone completes with 0x4402 (log 15). -/
def State.runAe (e op : Nat) (f : CtxInfo → Waybill → Pool → State → State) (s : State) : State :=
  s.runOn e 2 op fun c w t =>
    match t.poolOf w.ctx with
    | none => t.complete w 0x4402 0 {}
    | some p => f c w p t

/-- POOL_INIT: every block free, every sequence empty; the header, nodes and sequence records are written (12 R246). -/
def execPoolInit (e : Fin 19) (s : State) : Host.Outcome State Fault Refusal :=
  done s (s.runAe e 0x301 fun c w p t =>
    let head := 4096 + 64 * p.nBlocks
    let tail := t.memberCount c * p.seqs * p.seqBytes
    let t1 := (t.freeLines c.ctx p.at head).freeLines c.ctx (p.seqAt 0 0) tail
    ((t1.setPool { p with ready := true, blk := [], seq := [] }).count c.ctx 20 (head + tail)).finishAe c w
      ((head + tail) / 64) (t.counter c.ctx 22) {})

/-- SEQ_RESET (12 R248). -/
def execSeqReset (e : Fin 19) (s : State) : Host.Outcome State Fault Refusal :=
  done s (s.runAe e 0x302 fun c w p t =>
    let n := byteAt w.bytes 52
    let bs := (p.seqOf w.ctx n).blocks
    (t.changePool c.ctx p ((bs.foldl Pool.drop p).setSeq w.ctx n PoolSeq.init)).finishAe c w (Nat.max 1 bs.length)
      (t.counter c.ctx 22) {})

/-! ### PREFIX_LOOKUP -/

/-- A lookup on its way. -/
structure Lookup where
  pool : Pool
  seq : PoolSeq
  matched : Nat := 0
  examined : Nat := 0
  missed : Bool := false
  run : Run := {}
  deriving DecidableEq, Repr

/-- The 32-bit IDs `i` to `i + n - 1` of an INT32 row. -/
def State.idsAt (s : State) (o : Opnd) (i n : Nat) : List (BitVec 32) :=
  (rangeFrom i n).map fun k => BitVec.ofNat 32 (s.codeAt o 0 k)

/-- What a run met so far together with what one more read met. -/
def Run.join (x y : Run) : Run :=
  { x with ue := x.ue.or y.ue, poison := x.poison.or y.poison, bad := x.bad || y.bad }

/-- The run has read no uncorrectable and no poisoned word. -/
def Run.clean (x : Run) : Bool := x.ue.isNone && x.poison.isNone

/-- Nodes are examined in turn, each by a read of its token IDs, up to the first hit: its parent and all its IDs are those
asked for, and none of its words is uncorrectable or poisoned (12 R251, R255). Answers the hit and the number examined. -/
def State.examine (k : RunCtx) (code : Nat) (p : Pool) (parent : Option Nat) (ids : List (BitVec 32)) :
    List Nat → Run × State → Option Nat × Nat × Run × State
  | [], x => (none, 0, x)
  | i :: r, x =>
    let (y, s1) := State.runStep k false ({}, x.2) ⟨[p.idReq code i 64], []⟩
    if (p.block i).parent == parent && s1.blockIds p i == ids && y.clean then (some i, 1, x.1.join y, s1)
    else
      let (h, n, z) := State.examine k code p parent ids r (x.1.join y, s1)
      (h, n + 1, z)

/-- Positions from `at_` on, `n` of them at most: a hit takes a reference and joins the sequence; the first position
without one is a miss (12 R252). -/
def State.lookupFrom (k : RunCtx) (code : Nat) (o : Opnd) : Nat → Nat → Lookup → State → Lookup × State
  | 0, _, l, s => (l, s)
  | n + 1, at_, l, s =>
    if o.dim 0 < at_ + 64 ∨ l.pool.maxb ≤ l.seq.blocks.length then (l, s)
    else
      let x := State.runStep k false (l.run, s) ⟨[o.elemReq 0 at_ 64], []⟩
      let ids := s.idsAt o at_ 64
      let parent := l.seq.blocks.getLast?
      let (hit, seen, x1, s1) :=
        State.examine k code l.pool parent ids (l.pool.nodes (chainHash (l.pool.hashStart parent) ids)) x
      let l1 := { l with examined := l.examined + seen, run := x1 }
      match hit.filter fun i => decide ((l.pool.block i).refs < 65535) with
      | none => ({ l1 with missed := true }, s1)
      | some i =>
        let b := l.pool.block i
        State.lookupFrom k code o n (at_ + 64)
          { l1 with pool := l.pool.setBlock i { b with refs := b.refs + 1, lastUse := s.now },
                    seq := { blocks := l.seq.blocks ++ [i], tokens := l.seq.tokens + 64 },
                    matched := l.matched + 1 } s1

/-- PREFIX_LOOKUP (12 R250, R252). -/
def execPrefixLookup (e : Fin 19) (s : State) : Host.Outcome State Fault Refusal :=
  done s (s.runAe e 0x303 fun c w p t =>
    let n := byteAt w.bytes 52
    let q := p.seqOf w.ctx n
    let o := t.operand c w 0
    let proceeds := q.tokens % 64 == 0 && (match q.blocks.getLast? with | some i => (p.block i).tree | none => true)
    let k := runCtx c w
    let (v, t0) := t.draw
    let (l, t1) := if proceeds then State.lookupFrom k (4 + v) o (o.dim 0 / 64) 0 { pool := p, seq := q } t0
      else ({ pool := p, seq := q }, t0)
    let t2 := ((t1.changePool c.ctx p (l.pool.setSeq w.ctx n l.seq)).count c.ctx 26 l.matched).count c.ctx 27 (b2n l.missed)
    let out := t2.operand c w 1
    let (x, t3) := State.runStep k false (l.run, t2)
      ⟨[], [out.rowWrite 0 0 (le 4 l.matched ++ le 4 l.seq.tokens ++ le 8 0)]⟩
    t3.finishAe c w (Nat.max 1 (4 * l.examined)) (t.counter c.ctx 22) x)

/-! ### KV_APPEND -/

/-- The bytes of a row as stored. -/
def State.rowData (s : State) (o : Opnd) (row : Nat) : List Byte :=
  (List.range o.rowBytes).map fun b => BitVec.ofNat 8 (s.rawByte o.mem (o.addr row b))

/-- The step that appends token `i` of the operands at token position `pos` of a sequence with these blocks: its latents,
and with the first token of a line of IDs the IDs of that line. From the first bad word on, what is written carries poison
(08 R169). -/
def State.tokenStep (s : State) (code : Nat) (p : Pool) (blocks : List Nat) (lat ids : Opnd) (pos i : Nat) : EngStep :=
  let b := blocks.getD (pos / 64) 0
  let rows := rangeFrom (i * p.layers) p.layers
  let n := if i = 0 ∨ pos % 16 = 0 then min (16 - pos % 16) (ids.dim 0 - i) else 0
  ⟨rows.map (fun row => lat.rowReq row 0 lat.rowBytes) ++ [ids.elemReq 0 i n],
   [⟨.lpddr, p.latentAt b (pos % 64) 0, (rows.map (s.rowData lat)).flatten, code, 0⟩,
    ⟨.lpddr, p.idAt b (pos % 64), ((rangeFrom i n).map fun j => le 4 (s.codeAt ids 0 j)).flatten, code, 0⟩]⟩

/-- Append the tokens in order. -/
def State.appendTokens (k : RunCtx) (code : Nat) (p : Pool) (blocks : List Nat) (lat ids : Opnd) (start : Nat) :
    List Nat → Run × State → Run × State
  | [], x => x
  | i :: r, x => State.appendTokens k code p blocks lat ids start r
      (State.runStep k false x (x.2.tokenStep code p blocks lat ids (start + i) i))

/-- Insert the blocks at positions `i`, `i + 1`, … of a sequence of `start` tokens before the append, while each may be
inserted: no bad word has been read, among the IDs that stood in the block before and those of the nodes examined as
among the operands, its predecessor is a tree block, and there is no hit for it (12 R253, R255). -/
def State.insertBlocks (k : RunCtx) (code now start : Nat) (blocks : List Nat) :
    Nat → Nat → Pool → Run × State → Pool × Run × State
  | 0, _, p, x => (p, x)
  | n + 1, i, p, x =>
    let b := blocks.getD i 0
    let parent := if i = 0 then none else some (blocks.getD (i - 1) 0)
    if !x.1.clean || !(parent.all fun j => (p.block j).tree) then (p, x)
    else
      let y := State.runStep k false x ⟨[p.idReq code b (start - 64 * i)], []⟩
      let ids := y.2.blockIds p b
      let h := chainHash (p.hashStart parent) ids
      let (hit, _, z) := if y.1.clean then State.examine k code p parent ids (p.nodes h) y else (none, 0, y)
      if z.1.clean && hit.isNone then
        State.insertBlocks k code now start blocks n (i + 1)
          (p.setBlock b { p.block b with tree := true, hash := h, parent := parent, refs := 1, lastUse := now }) z
      else (p, z)

/-- KV_APPEND (12 R249, R253). -/
def execKvAppend (e : Fin 19) (s : State) : Host.Outcome State Fault Refusal :=
  done s (s.runAe e 0x304 fun c w p t =>
    let n := byteAt w.bytes 52
    let q := p.seqOf w.ctx n
    let lat := t.operand c w 0
    let ids := t.operand c w 1
    let len := ids.dim 0
    let total := q.tokens + len
    if 64 * p.maxb < total then t.complete w 0x4602 0 {}
    else match p.takeBlocks ((total + 63) / 64 - q.blocks.length) with
    | none => t.complete w 0x4601 0 {}
    | some (new, p1) =>
      let k := runCtx c w
      let (v, t0) := t.draw
      let blocks := q.blocks ++ new
      let x := State.appendTokens k (4 + v) p1 blocks lat ids q.tokens (List.range len) ({}, t0)
      let first := q.tokens / 64
      let (p2, y, t1) := if (byteAt w.bytes 53).testBit 0 then
          State.insertBlocks k (4 + v) t.now q.tokens blocks (total / 64 - first) first p1 x
        else (p1, x)
      (t1.changePool c.ctx p (p2.setSeq w.ctx n { blocks := blocks, tokens := total })).finishAe c w
        ((len * (p.layers * p.latentBytes + 4) + 63) / 64) (t.counter c.ctx 22) y)

/-! ### ATTEND -/

/-- What an ATTEND waybill and its pool say of its shape (12 Tables 12.4, 12.5). -/
structure AttnShape where
  heads : Nat
  d : Nat
  nq : Nat
  nk : Nat
  masked : Bool
  deriving DecidableEq, Repr

/-- The shape of an ATTEND waybill. -/
def State.attnShape (s : State) (c : CtxInfo) (w : Waybill) : AttnShape :=
  let q := s.operand c w 0
  { heads := q.dim 1, d := q.dim 0, nq := q.dim 2, nk := fieldAt w.bytes 58 2 + 1, masked := w.role 2 == .read }

/-- Key blocks. -/
def AttnShape.kb (a : AttnShape) : Nat := (a.nk + 63) / 64

/-- Query tiles. -/
def AttnShape.qt (a : AttnShape) : Nat := (a.nq + 63) / 64

/-- Bit `j` of a mask row. -/
def State.maskBit (s : State) (m : Opnd) (row j : Nat) : Bool := (s.rawByte m.mem (m.addr row (j / 8))).testBit (j % 8)

/-- The summary bit of tile (`t`, `b`) is 1; every tile without a mask (12 R259). -/
def State.tileShown (s : State) (a : AttnShape) (m : Opnd) (t b : Nat) : Bool := !a.masked || s.maskBit m (a.nq + t) b

/-- Key `j` is shown to query `i` (12 R259). -/
def State.keyShown (s : State) (a : AttnShape) (m : Opnd) (i j : Nat) : Bool :=
  !a.masked || (s.tileShown a m (i / 64) (j / 64) && s.maskBit m i j)

/-- A key block is live (12 R259). -/
def State.blockLive (s : State) (a : AttnShape) (m : Opnd) (b : Nat) : Bool :=
  (List.range a.qt).any fun t => s.tileShown a m t b

/-- Steps of ATTEND (12 R260). -/
def State.attnSteps (s : State) (a : AttnShape) (m : Opnd) (dl : Nat) : Nat :=
  let live := (List.range a.kb).countP (s.blockLive a m)
  let u := ((List.range a.qt).map fun t =>
    (List.range a.kb).countP (s.tileShown a m t) * (min a.nq (64 * (t + 1)) - 64 * t)).sum
  live * 2 * a.heads * a.d * ((dl + 63) / 64) + u * 2 * a.heads * ((a.d + 63) / 64)

/-- Exact products of two value lists, summed by R207. -/
def dotReal (a b : List Rv) : Rv := rowSum a.length ((a.zip b).map fun p => rvMul p.1 p.2)

/-- LPDDR5 offset of the latent of token `t` of a sequence at a layer. -/
def Pool.keyAt (p : Pool) (q : PoolSeq) (layer t : Nat) : Nat := p.latentAt (q.blocks.getD (t / 64) 0) (t % 64) layer

/-- The latent codes of token `t` at a layer. -/
def State.latentCodes (s : State) (p : Pool) (q : PoolSeq) (layer t : Nat) : List Nat :=
  let e := poolElem p.format
  (List.range p.dl).map fun j => s.rawLe .lpddr (p.keyAt q layer t + j * e) e

/-- One expanded value: row (h, d) of the weights against a latent (12 R258). -/
def State.expand (s : State) (o : Opnd) (row fmt : Nat) (c : List Nat) : Rv :=
  let wts := (List.range (o.dim 0)).map (s.codeAt o row)
  let n := (wts.length + 31) / 32
  let acc := accumulate ((List.range n).map fun k =>
    dotExact o.fmt fmt ((wts.drop (32 * k)).take 32) ((c.drop (32 * k)).take 32))
  if o.qmode = 1 then rne32 (rvMul acc (s.sRow o row)) else acc

/-- The output row of one query and head from its shown keys and values (12 R258). -/
def attendRow (d : Nat) (q : List Rv) (keys vals : List (List Rv)) : List Rv :=
  if keys.isEmpty then List.replicate d rv0
  else
    let sc := keys.map (dotReal q)
    let m := veMaxRow 0x305 sc
    let ex := sc.map fun x => rne32 (rvExp (rne32 (rvSum [x, rvNeg m])))
    let sum := rowSum ex.length ex
    (List.range d).map fun j => rne32 (rvDiv (dotReal ex (vals.map fun v => v.getD j rv0)) sum)

/-- The output row `row` of ATTEND: head `row mod H` of query `row / H` (12 R258). -/
def State.attnRow (s : State) (a : AttnShape) (p : Pool) (q : PoolSeq) (layer : Nat) (qo m wk wv : Opnd) (row : Nat) :
    List Rv :=
  let h := row % a.heads
  let keys := (List.range a.nk).filter (s.keyShown a m (row / a.heads))
  let exp := fun (o : Opnd) => keys.map fun t => (List.range a.d).map fun d =>
    s.expand o (h * a.d + d) p.format (s.latentCodes p q layer t)
  attendRow a.d (s.rowReal qo row) (exp wk) (exp wv)

/-- The latents read: those of every key below NK of each live block (12 R259, R260). -/
def State.latentReads (s : State) (code : Nat) (a : AttnShape) (m : Opnd) (p : Pool) (q : PoolSeq) (layer : Nat) : List Rd :=
  ((List.range a.nk).filter fun t => s.blockLive a m (t / 64)).map fun t =>
    ⟨.lpddr, [(p.keyAt q layer t, p.latentBytes)], code, 0, false⟩

/-- The first step of ATTEND: the mask's summary rows and the bitmap words of shown tiles, the weights where a block is
live, and the output's scale fields. -/
def State.attnReads (s : State) (a : AttnShape) (m wk wv o : Opnd) : List Rd :=
  let wts := fun (x : Opnd) => ((List.range x.rows).map fun r => x.rowReq r 0 x.rowBytes :: x.recordReq r).flatten
  (if a.masked then
    ((List.range a.qt).map fun t => m.rowReq (a.nq + t) 0 (8 * ((a.kb + 63) / 64))) ++
    ((List.range a.nq).map fun i => ((List.range a.kb).filter (s.tileShown a m (i / 64))).map fun b =>
      m.rowReq i (8 * b) 8).flatten
   else []) ++
  (if (List.range a.kb).any (s.blockLive a m) then wts wk ++ wts wv else []) ++
  ((List.range o.rows).map o.outScaleReq).flatten

/-- ATTEND (12 R257 to R260). -/
def execAttend (e : Fin 19) (s : State) : Host.Outcome State Fault Refusal :=
  done s (s.runAe e 0x305 fun c w p t =>
    let q := p.seqOf w.ctx (byteAt w.bytes 52)
    let a := t.attnShape c w
    if q.tokens < a.nk then t.complete w 0x4603 0 {}
    else
      let k := runCtx c w
      let layer := byteAt w.bytes 53
      let qo := t.operand c w 0
      let o := t.operand c w 1
      let m := t.operand c w 2
      let wk := t.descOpnd c w 3 (w.desc (fieldAt w.bytes 54 2 % 4096))
      let wv := t.descOpnd c w 3 (w.desc (fieldAt w.bytes 56 2 % 4096))
      let (v, t0) := t.draw
      let rows := (List.range o.rows).map fun r => (r, t.quantOut o r (t.attnRow a p q layer qo m wk wv r))
      let steps := rows.map fun r => (⟨[qo.rowReq r.1 0 qo.rowBytes],
        o.runWrites r.1 0 r.2.1 r.2.2 ++ o.sumWrite r.1 r.2.2⟩ : EngStep)
      let st := rows.foldl (fun (z : Stats) r => z.addRow r.2.2) {}
      let (x1, t1) := State.runStep k false ({}, t0)
        ⟨t.attnReads a m wk wv o ++ t.latentReads (4 + v) a m p q layer, []⟩
      let (_, x2, t2) := State.runSteps k none 0 steps (x1, t1)
      let (_, x3, t3) := State.runSteps k none 0 (t.statStep c w st) (x2, t2)
      t3.finishAe c w (t.attnSteps a m p.dl) (t.counter c.ctx 22) x3)

end Sys2Proof.Machine
end

