-- ==== Sys2Proof/Machine/Crypto.lean ====
section
/-! DEFINITION. CRC-32 (05 R102), SHA-384 and ECDSA over P-384 (05 R93). The manual names SHA-384 and P-384 and prints
neither: their constants are those of FIPS 180-4 and SP 800-186 (PRESUMED, log 26). -/

namespace Sys2Proof.Machine

/-! ### CRC-32 -/

/-- One bit of the reflected division. -/
def crc32Bit (c : Nat) : Nat := if c % 2 = 1 then (c / 2) ^^^ 0xEDB88320 else c / 2

/-- One byte. -/
def crc32Byte (c : Nat) (b : Byte) : Nat := (List.range 8).foldl (fun x _ => crc32Bit x) (c ^^^ b.toNat)

/-- CRC-32 of bytes: reflected, initial value and final XOR 0xFFFF_FFFF (05 R102). -/
def crc32 (l : List Byte) : Nat := (l.foldl crc32Byte 0xFFFFFFFF) ^^^ 0xFFFFFFFF

/-! ### SHA-384 -/

/-- The round constants. -/
def shaK : List (BitVec 64) :=
  [0x428a2f98d728ae22, 0x7137449123ef65cd, 0xb5c0fbcfec4d3b2f, 0xe9b5dba58189dbbc] ++
  [0x3956c25bf348b538, 0x59f111f1b605d019, 0x923f82a4af194f9b, 0xab1c5ed5da6d8118] ++
  [0xd807aa98a3030242, 0x12835b0145706fbe, 0x243185be4ee4b28c, 0x550c7dc3d5ffb4e2] ++
  [0x72be5d74f27b896f, 0x80deb1fe3b1696b1, 0x9bdc06a725c71235, 0xc19bf174cf692694] ++
  [0xe49b69c19ef14ad2, 0xefbe4786384f25e3, 0x0fc19dc68b8cd5b5, 0x240ca1cc77ac9c65] ++
  [0x2de92c6f592b0275, 0x4a7484aa6ea6e483, 0x5cb0a9dcbd41fbd4, 0x76f988da831153b5] ++
  [0x983e5152ee66dfab, 0xa831c66d2db43210, 0xb00327c898fb213f, 0xbf597fc7beef0ee4] ++
  [0xc6e00bf33da88fc2, 0xd5a79147930aa725, 0x06ca6351e003826f, 0x142929670a0e6e70] ++
  [0x27b70a8546d22ffc, 0x2e1b21385c26c926, 0x4d2c6dfc5ac42aed, 0x53380d139d95b3df] ++
  [0x650a73548baf63de, 0x766a0abb3c77b2a8, 0x81c2c92e47edaee6, 0x92722c851482353b] ++
  [0xa2bfe8a14cf10364, 0xa81a664bbc423001, 0xc24b8b70d0f89791, 0xc76c51a30654be30] ++
  [0xd192e819d6ef5218, 0xd69906245565a910, 0xf40e35855771202a, 0x106aa07032bbd1b8] ++
  [0x19a4c116b8d2d0c8, 0x1e376c085141ab53, 0x2748774cdf8eeb99, 0x34b0bcb5e19b48a8] ++
  [0x391c0cb3c5c95a63, 0x4ed8aa4ae3418acb, 0x5b9cca4f7763e373, 0x682e6ff3d6b2b8a3] ++
  [0x748f82ee5defb2fc, 0x78a5636f43172f60, 0x84c87814a1f0ab72, 0x8cc702081a6439ec] ++
  [0x90befffa23631e28, 0xa4506cebde82bde9, 0xbef9a3f7b2c67915, 0xc67178f2e372532b] ++
  [0xca273eceea26619c, 0xd186b8c721c0c207, 0xeada7dd6cde0eb1e, 0xf57d4f7fee6ed178] ++
  [0x06f067aa72176fba, 0x0a637dc5a2c898a6, 0x113f9804bef90dae, 0x1b710b35131c471b] ++
  [0x28db77f523047d84, 0x32caab7b40c72493, 0x3c9ebe0a15c9bebc, 0x431d67c49c100d4c] ++
  [0x4cc5d4becb3e42b6, 0x597f299cfc657e2a, 0x5fcb6fab3ad6faec, 0x6c44198c4a475817]

/-- The initial hash value of SHA-384. -/
def shaInit : List (BitVec 64) :=
  [0xcbbb9d5dc1059ed8, 0x629a292a367cd507, 0x9159015a3070dd17, 0x152fecd8f70e5939, 0x67332667ffc00b31, 0x8eb44a8768581511, 0xdb0c2e0d64f98fa7, 0x47b5481dbefa4fa4]

/-- The number that big-endian bytes spell. -/
def beNat (l : List Byte) : Nat := l.foldl (fun a b => a * 256 + b.toNat) 0

/-- The `k` big-endian bytes of a number. -/
def beBytes (k n : Nat) : List Byte := (le k n).reverse

/-- Lists cut into pieces of `k`. -/
def pieces (k : Nat) : Nat → List α → List (List α)
  | 0, _ => []
  | n + 1, l => l.take k :: pieces k n (l.drop k)

/-- A message padded to whole blocks of 128 bytes. -/
def shaPad (l : List Byte) : List Byte :=
  l ++ [0x80] ++ List.replicate ((239 - l.length % 128) % 128) 0 ++ beBytes 16 (8 * l.length)

/-- The message schedule, last word first. -/
def shaSchedule : Nat → List (BitVec 64) → List (BitVec 64)
  | 0, w => w
  | n + 1, w =>
    let a := w.getD 14 0
    let b := w.getD 1 0
    let s0 := a.rotateRight 1 ^^^ a.rotateRight 8 ^^^ (a >>> 7)
    let s1 := b.rotateRight 19 ^^^ b.rotateRight 61 ^^^ (b >>> 6)
    shaSchedule n ((w.getD 15 0 + s0 + w.getD 6 0 + s1) :: w)

/-- The eight working variables. -/
structure ShaVars where
  a : BitVec 64
  b : BitVec 64
  c : BitVec 64
  d : BitVec 64
  e : BitVec 64
  f : BitVec 64
  g : BitVec 64
  h : BitVec 64
  deriving DecidableEq, Repr

/-- One round with its constant plus schedule word. -/
def shaRound (v : ShaVars) (kw : BitVec 64) : ShaVars :=
  let s1 := v.e.rotateRight 14 ^^^ v.e.rotateRight 18 ^^^ v.e.rotateRight 41
  let ch := (v.e &&& v.f) ^^^ (~~~v.e &&& v.g)
  let t1 := v.h + s1 + ch + kw
  let s0 := v.a.rotateRight 28 ^^^ v.a.rotateRight 34 ^^^ v.a.rotateRight 39
  let mj := (v.a &&& v.b) ^^^ (v.a &&& v.c) ^^^ (v.b &&& v.c)
  { a := t1 + (s0 + mj), b := v.a, c := v.b, d := v.c, e := v.d + t1, f := v.e, g := v.f, h := v.g }

/-- One block of 128 bytes. -/
def shaBlock (v : ShaVars) (block : List Byte) : ShaVars :=
  let w0 := (pieces 8 16 block).map fun x => BitVec.ofNat 64 (beNat x)
  let w := (shaSchedule 64 w0.reverse).reverse
  let u := (List.zipWith (· + ·) shaK w).foldl shaRound v
  { a := v.a + u.a, b := v.b + u.b, c := v.c + u.c, d := v.d + u.d, e := v.e + u.e, f := v.f + u.f, g := v.g + u.g,
    h := v.h + u.h }

/-- SHA-384, as 48 big-endian bytes. -/
def sha384 (l : List Byte) : List Byte :=
  let m := shaPad l
  let x := fun i => shaInit.getD i 0
  let v := (pieces 128 (m.length / 128) m).foldl shaBlock ⟨x 0, x 1, x 2, x 3, x 4, x 5, x 6, x 7⟩
  ([v.a, v.b, v.c, v.d, v.e, v.f].map fun (y : BitVec 64) => beBytes 8 y.toNat).flatten

/-! ### P-384 -/

/-- The prime of the field. -/
def p384 : Nat := 2 ^ 384 - 2 ^ 128 - 2 ^ 96 + 2 ^ 32 - 1

/-- The order of the group. -/
def n384 : Nat :=
  0xffffffffffffffffffffffffffffffffffffffffffffffffc7634d81f4372ddf581a0db248b0a77aecec196accc52973

/-- The coefficient b of y² = x³ − 3x + b. -/
def b384 : Nat :=
  0xb3312fa7e23ee7e4988e056be3f82d19181d9c6efe8141120314088f5013875ac656398d8a2ed19d2a85c8edd3ec2aef

/-- A point in Jacobian coordinates; z = 0 for the point at infinity. -/
structure EcPoint where
  x : Nat
  y : Nat
  z : Nat
  deriving DecidableEq, Repr

/-- The base point. -/
def g384 : EcPoint :=
  { x := 0xaa87ca22be8b05378eb1c71ef320ad746e1d3b628ba79b9859f741e082542a385502f25dbf55296c3a545e3872760ab7,
    y := 0x3617de4a96262c6f5d9e98bf9292dc29f8f41dbd289a147ce9da3113b5f0b8c00a60b1ce1d7e819d7a431d7c90ea0e5f, z := 1 }

/-- A difference in the field. -/
def subMod (a b : Nat) : Nat := (a + p384 - b % p384) % p384

/-- A point doubled. -/
def EcPoint.double (q : EcPoint) : EcPoint :=
  let y2 := q.y * q.y % p384
  let s := 4 * q.x * y2 % p384
  let zz := q.z * q.z % p384
  let m := 3 * (subMod q.x zz * ((q.x + zz) % p384)) % p384
  let x := subMod (m * m) (2 * s)
  { x := x, y := subMod (m * subMod s x) (8 * y2 * y2), z := 2 * q.y * q.z % p384 }

/-- The sum of two points. -/
def EcPoint.add (q t : EcPoint) : EcPoint :=
  if q.z = 0 then t
  else if t.z = 0 then q
  else
    let a := q.z * q.z % p384
    let b := t.z * t.z % p384
    let u1 := q.x * b % p384
    let h := subMod (t.x * a) u1
    let s1 := q.y * b * t.z % p384
    let r := subMod (t.y * a * q.z) s1
    if h = 0 then (if r = 0 then q.double else { x := 1, y := 1, z := 0 })
    else
      let h2 := h * h % p384
      let h3 := h * h2 % p384
      let v := u1 * h2 % p384
      let x := subMod (r * r) (h3 + 2 * v)
      { x := x, y := subMod (r * subMod v x) (s1 * h3), z := h * q.z * t.z % p384 }

/-- A multiple of a point, from the highest of `w` bits down. -/
def EcPoint.times (q : EcPoint) (k : Nat) : Nat → EcPoint
  | 0 => { x := 1, y := 1, z := 0 }
  | w + 1 =>
    let d := (EcPoint.times q (k / 2) w).double
    if k % 2 = 1 then d.add q else d

/-- A power modulo `m`, over `w` bits of the exponent. -/
def powMod (m a e : Nat) : Nat → Nat
  | 0 => 1 % m
  | w + 1 =>
    let d := powMod m a (e / 2) w
    if e % 2 = 1 then d * d % m * a % m else d * d % m

/-- ECDSA over P-384: `sig` is r then s, `key` an uncompressed point, `hash` the SHA-384 digest. -/
def ecdsaVerify (key sig hash : List Byte) : Bool :=
  let r := beNat (sig.take 48)
  let s := beNat ((sig.drop 48).take 48)
  let x := beNat ((key.drop 1).take 48)
  let y := beNat ((key.drop 49).take 48)
  let onCurve := byteAt key 0 == 4 && decide (x < p384) && decide (y < p384)
    && decide (y * y % p384 = (x * x * x + b384 + 3 * (p384 - x)) % p384)
  let w := powMod n384 s (n384 - 2) 384
  let q := (g384.times (beNat hash * w % n384) 384).add (EcPoint.times { x := x, y := y, z := 1 } (r * w % n384) 384)
  let zz := q.z * q.z % p384
  onCurve && decide (0 < r) && decide (r < n384) && decide (0 < s) && decide (s < n384) && decide (q.z ≠ 0)
    && (decide (q.x = r * zz % p384) || (decide (r + n384 < p384) && decide (q.x = (r + n384) * zz % p384)))

end Sys2Proof.Machine
end

