-- ==== Sys2Proof/Machine/Book.lean ====
section
/-! DEFINITION. Route Book validation, stages 1 to 6 (05 sections 5.4, 5.5): the header and the record walk, the CRC,
reserved fields, field ranges with their joint rules, keys that may occur once, and record counts. -/

namespace Sys2Proof.Machine

/-- A refusal report with its place (05 Table 5.13). -/
def refusal (status stage off typ field : Nat) : Report :=
  { status := BitVec.ofNat 16 status, stage := stage, offset := off, recType := typ, field := field }

/-- The smallest number of a list. -/
def lowestField : List Nat → Option Nat
  | [] => none
  | x :: r => some (r.foldl min x)

/-- The fields of a list of conditions that hold. -/
def fieldsIf (l : List (Bool × Nat)) : List Nat := (l.filter (·.1)).map (·.2)

/-! ### Stages 1 to 3 -/

/-- Stage 1: MAGIC and FORMAT (05 Table 5.12, R391). -/
def bookStage1 (rbFormat : Nat) (d : List Byte) : Option Report :=
  if fieldAt d 0 4 ≠ 0x42525A56 then some (refusal 0x2104 1 0 0 0)
  else if fieldAt d 4 2 ≠ rbFormat then some (refusal 0x2104 1 0 0 4)
  else none

/-- The record walk of stage 2: `d` holds the bytes from `off` on, `n` those before the trailer (05 R391). -/
def bookWalk : Nat → Nat → Nat → List Byte → List Rec → Option Report × List Rec
  | 0, _, _, _, acc => (none, acc)
  | fuel + 1, off, n, d, acc =>
    if n = 0 then (none, acc)
    else
      let len := fieldAt d 4 4
      if len < 8 || len % 8 ≠ 0 || n < len then (some (refusal 0x2102 2 off (fieldAt d 0 2) 4), acc)
      else bookWalk fuel (off + len) (n - len) (d.drop len) (acc ++ [{ off := off, typ := fieldAt d 0 2, bytes := d.take len }])

/-- Stage 2: lengths, the walk and RECORD_COUNT (05 R391); answers the records. -/
def bookStage2 (committed : Nat) (d : List Byte) : Option Report × List Rec :=
  let total := fieldAt d 8 4
  if committed ≠ total || total < 72 || 4194304 < total || total % 8 ≠ 0 then (some (refusal 0x2102 2 0 0 8), [])
  else
    let (e, rs) := bookWalk (total / 8) 64 (total - 72) (d.drop 64) []
    match e with
    | some r => (some r, rs)
    | none => (if rs.length ≠ fieldAt d 0xC 4 then some (refusal 0x2102 2 0 0 0xC) else none, rs)

/-- Stage 3: the CRC (05 R102, R391). -/
def bookStage3 (d : List Byte) : Option Report :=
  let total := fieldAt d 8 4
  if crc32 (d.take (total - 4)) ≠ fieldAt d (total - 4) 4 then some (refusal 0x2101 3 (total - 8) 0 4) else none

/-! ### Stage 4: reserved fields -/

/-- The LENGTHs of a known TYPE (05 Table 5.10 and the record tables); none for an unknown TYPE. -/
def recLengths : Nat → List Nat
  | 0x01 => [40] | 0x02 => [40] | 0x03 => [24] | 0x04 => [32] | 0x10 => [40] | 0x11 => [32] | 0x20 => [16]
  | 0x30 => [168] | 0x31 => [528, 2064, 4112] | 0x40 => [1088] | 0x50 => [24] | 0x51 => [32] | 0x52 => [2568]
  | 0x60 => [24] | 0x61 => [24] | 0x70 => [64] | 0xA0 => [272] | 0xA1 => [24]
  | _ => []

/-- The bytes that 18 Table 18.3 leaves unlisted for a KIND, as runs (18 R366). -/
def portUnlisted : Nat → List (Nat × Nat)
  | 1 => [(0x21, 7), (0x30, 16)]
  | 2 => [(0x1B, 1), (0x23, 1), (0x28, 24)]
  | 3 => [(0x0F, 49)]
  | 4 => [(0x0C, 52)]
  | 5 => [(0x0D, 1), (0x11, 47)]
  | 6 => [(0x14, 44)]
  | 7 => [(0x16, 42)]
  | _ => []

/-- Reserved fields of a record: offset, size, and the lowest reserved bit within those bytes, in ascending offset
(the record tables of 02, 04, 07 and 14 to 18). Those of an unused Waymark read are judged with its other bytes at stage 5
(15 R301). -/
def reservedFields (r : Rec) : List (Nat × Nat × Nat) :=
  match r.typ with
  | 0x03 => [(0x09, 3, 0), (0x12, 6, 0)]
  | 0x04 => [(0x0B, 1, 1), (0x0E, 2, 0), (0x18, 8, 0)]
  | 0x10 => [(0x0E, 2, 1)]
  | 0x11 => [(0x0C, 4, 0)]
  | 0x20 => [(0x0A, 2, 0)]
  | 0x30 => [(0x0B, 1, 3), (0x1D, 3, 0), (0x5C, 4, 24)] ++
      ((List.range 4).filter fun i => r.u (0x69 + 16 * i) 1 ≠ 0).map fun i => (0x6D + 16 * i, 3, 0)
  | 0x31 => [(0x0A, 6, 0)]
  | 0x40 => [(0x0A, 1, 7), (0x0B, 1, 3), (0x16, 2, 0), (0x37, 1, 0), (0x3C, 4, 0)] ++
      ((List.range 64).map fun i => [(0x40 + 16 * i, 4, 30), (0x44 + 16 * i, 4, 30), (0x4A + 16 * i, 6, 0)]).flatten
  | 0x50 => [(0x0D, 1, 5), (0x0E, 2, 0), (0x10, 1, 4), (0x11, 7, 0)]
  | 0x51 => [(0x1A, 2, 1)]
  | 0x52 => [(0x1E, 2, 4), (0x43, 1, 0)]
  | 0x60 => [(0x0A, 2, 0), (0x16, 2, 0)]
  | 0x70 => (0x0B, 1, 0) :: (portUnlisted (r.u 8 1)).map fun p => (p.1, p.2, 0)
  | 0xA0 => [(0x0C, 1, 1), (0x0D, 3, 0)] ++
      ((List.range 32).map fun n => [(0x12 + 8 * n, 2, 0), (0x14 + 8 * n, 4, 23)]).flatten
  | 0xA1 => [(0x0C, 4, 0)]
  | _ => []

/-- Stage 4 for one record: TYPE, LENGTH, then reserved fields; answers the failing field (05 Table 5.12, R4). -/
def recStage4 (r : Rec) : Option Nat :=
  if (recLengths r.typ).isEmpty then some 0
  else if !(recLengths r.typ).contains r.bytes.length then some 4
  else if r.u 2 2 ≠ 0 then some 2
  else ((reservedFields r).find? fun f => r.u f.1 f.2.1 >>> f.2.2 ≠ 0).map (·.1)

/-- The first record at which a stage names a failing field. -/
def firstRefused (status stage : Nat) (f : Rec → Option Nat) : List Rec → Option Report
  | [] => none
  | r :: rest => match f r with
    | some x => some (refusal status stage r.off r.typ x)
    | none => firstRefused status stage f rest

/-- Stage 4: the header's reserved bytes, the records, the trailer's reserved bytes (05 R391). -/
def bookStage4 (d : List Byte) (rs : List Rec) : Option Report :=
  let total := fieldAt d 8 4
  match ([6, 7] ++ rangeFrom 0x18 40).find? (fun i => byteAt d i ≠ 0) with
  | some i => some (refusal 0x2104 4 0 0 i)
  | none => match firstRefused 0x2104 4 recStage4 rs with
    | some r => some r
    | none => ((List.range 4).find? fun i => byteAt d (total - 8 + i) ≠ 0).map fun i => refusal 0x2104 4 (total - 8) 0 i

/-! ### Stage 5: ranges -/

/-- An unsigned field outside `lo` to `hi`. -/
def Rec.outside (r : Rec) (off size lo hi : Nat) : Bool × Nat :=
  (decide (r.u off size < lo) || decide (hi < r.u off size), off)

/-- A signed field outside `lo` to `hi`. -/
def Rec.outsideI (r : Rec) (off size : Nat) (lo hi : Int) : Bool × Nat :=
  (decide (r.i off size < lo) || decide (hi < r.i off size), off)

/-- A field that is not a multiple of `m`. -/
def Rec.notMult (r : Rec) (off size m : Nat) : Bool × Nat := (decide (r.u off size % m ≠ 0), off)

/-- A 48-bit field whose bits 63:48 are not its sign extension (15 R301). -/
def Rec.notSigned48 (r : Rec) (off : Nat) : Bool × Nat := (r.i off 8 != signed 48 (r.u off 8), off)

/-- A 48-bit field whose bits 63:48 are not its zero extension (15 R301). -/
def Rec.notZero48 (r : Rec) (off : Nat) : Bool × Nat := (decide (2 ^ 48 ≤ r.u off 8), off)

/-- An FP32 field outside 0 to the value whose code is `top`: below 0, NaN or above (02 Table 2.11). -/
def Rec.outsideFp (r : Rec) (off top : Nat) : Bool × Nat :=
  (decide (top < r.u off 4) && decide (r.u off 4 ≠ 0x80000000), off)

/-- A ring of `n` bytes lies in host memory (08 Table 8.2). -/
def ringInHost (base n : Nat) : Bool := decide (hostBase ≤ base) && decide (base + n ≤ 2 * hostBase)

/-- A ring of `n` bytes lies wholly in LPDDR5 offsets `lo` to `lo + size`. -/
def ringInLp (lo size base n : Nat) : Bool := decide (lpBase + lo ≤ base) && decide (base + n ≤ lpBase + lo + size)

/-- A power of two from 16 to 4,096, or 0. -/
def ringEntriesOk (n : Nat) : Bool := n == 0 || [16, 32, 64, 128, 256, 512, 1024, 2048, 4096].contains n

/-- PACE (02 Table 2.10, R45). -/
def rangePace (r : Rec) : List (Bool × Nat) :=
  [r.outside 8 1 0 15, r.outside 0xC 2 650 850, r.notMult 0xC 2 5, r.outside 0xE 2 650 850, r.notMult 0xE 2 5,
   (decide (r.u 0xE 2 < r.u 0xC 2), 0xC), r.outside 0x10 2 0 200]

/-- TIME (02 Table 2.11). -/
def rangeTime (r : Rec) : List (Bool × Nat) :=
  let mac := fun o => (!([0, 1, 0xFF].contains (r.u o 1)), o)
  [mac 8, mac 9, r.outside 0xA 1 0 1, r.outside 0xC 1 0 127, r.outsideI 0xD 1 (-7) 4,
   (r.u 9 1 == 0xFF && r.u 0xD 1 != 0, 9), r.outsideFp 0x10 0x447A0000, r.outsideFp 0x14 0x42C80000]

/-- CONTEXT (07 Table 7.4). -/
def rangeContext (r : Rec) : List (Bool × Nat) :=
  [r.outside 9 1 0 15, r.outside 0xA 2 1 64, r.outside 0xC 2 0 255, r.notMult 0x10 4 65536, r.notMult 0x14 4 65536,
   r.notMult 0x18 8 granule, r.notMult 0x20 8 granule]

/-- A ring of a QUEUE record with entries of `esz` bytes: its base's alignment, and R136 (07), which relates the base, the
ring's size by DEPTH, and with a CONTEXT record the share of CTX (05 R392; DEDUCED, log 36). -/
def queueRing (book : List Rec) (usable : Nat) (r : Rec) (off esz : Nat) : List (Bool × Nat) :=
  let b := r.u off 8
  let n := r.u 0xB 1 * esz
  [(b % 4096 != 0, off),
   match (ofType book 0x10).find? (·.u 8 1 == r.u 8 1) with
   | some c => (!(ringInHost b n || ringInLp (c.u 0x18 8) (c.u 0x20 8) b n), 8)
   | none => (!(ringInHost b n || ringInLp 0 usable b n), 0xB)]

/-- QUEUE (07 Table 7.5, R136). -/
def rangeQueue (book : List Rec) (usable : Nat) (r : Rec) : List (Bool × Nat) :=
  [r.outside 9 1 0 3, r.outside 0xA 1 0 3, (!([2, 4, 8, 16, 32, 64].contains (r.u 0xB 1)), 0xB)]
    ++ queueRing book usable r 0x10 64 ++ queueRing book usable r 0x18 32

/-- Offsets of the Waymark read entries of a LOOP record (15 Table 15.3). -/
def readOffs : List Nat := [0x68, 0x78, 0x88, 0x98]

/-- One Waymark read entry of a LOOP record, at record offset `o` (15 Table 15.3, R301). -/
def rangeRead (r : Rec) (o : Nat) : List (Bool × Nat) :=
  let t := r.u (o + 1) 1
  if t = 0 then
    match (List.range 16).find? (fun j => r.u (o + j) 1 ≠ 0) with
    | some j => [(true, o + j)]
    | none => []
  else
    [(decide (3 < t), o + 1), r.outside o 1 0 63, (decide (240 < r.u (o + 2) 1 + r.u (o + 3) 1), o + 2),
     (!([2, 4, 6].contains (r.u (o + 3) 1)), o + 3), r.outside (o + 4) 1 0 2,
     (t == 2 && r.u (o + 4) 1 == 1, o + 1), r.outside (o + 8) 8 1000 4000000000]

/-- More than one read of a LOOP record with TARGET `t`: named at the first of them (15 R301, 05 R392). -/
def rangeReadTwice (r : Rec) (t : Nat) : List (Bool × Nat) :=
  match readOffs.filter fun o => r.u (o + 1) 1 == t with
  | o :: _ :: _ => [(true, o + 1)]
  | _ => []

/-- LOOP (15 Table 15.2, R301). A loop number above 31 lies outside its field (DESIGN CHOICE, log 36). -/
def rangeLoop (r : Rec) : List (Bool × Nat) :=
  let period := r.u 0xC 2 * 31250
  let out := r.u 0x19 1
  [r.outside 8 1 0 31, r.outside 9 1 0 2, (decide (15 < r.u 0xA 1) && r.u 0xA 1 != 0xFF, 0xA), r.outside 0xC 2 1 512,
   r.outside 0xE 1 1 64, r.outside 0xF 1 0 2, r.notMult 0x10 4 5, (decide (period ≤ r.u 0x10 4), 0xC),
   (decide (r.u 0x14 4 < 5000), 0x14), (decide (period < r.u 0x14 4), 0xC),
   (r.u 0xF 1 != 2 && r.u 0x18 1 != 0, 0xF), (decide (31 < r.u 0x18 1), 0x18), r.outside 0x19 1 0 2,
   (out == 0 && r.u 0x1A 1 != 0, 0x19), (out == 1 && decide (3 < r.u 0x1A 1), 0x1A),
   (out == 2 && decide (7 < r.u 0x1A 1), 0x1A), (out != 1 && (r.u 0x1B 1 != 0 || r.u 0x1C 1 != 0), 0x19),
   r.outside 0x1B 1 0 15, r.outside 0x1C 1 0 31, r.notSigned48 0x20, r.notSigned48 0x28, r.notZero48 0x30,
   r.notZero48 0x38, (r.u 0x48 4 == 0, 0x48), r.outsideI 0x4C 4 (-8388608) 8388607, r.outsideI 0x50 4 (-8388608) 8388607,
   (decide (r.i 0x54 4 < r.i 0x4C 4) || decide (r.i 0x50 4 < r.i 0x54 4), 0x4C), r.notZero48 0x60] ++
  (readOffs.map (rangeRead r)).flatten ++ rangeReadTwice r 1 ++ rangeReadTwice r 2

/-- The index of the first of `n` gain breaks that is not greater than the one before it (15 R300). -/
def gainNotAscending (entry : Nat → Nat) (n : Nat) : Option Nat :=
  (List.range n).find? fun j => j ≠ 0 && decide (entry j / 2 ^ 24 ≤ entry (j - 1) / 2 ^ 24)

/-- LOOP_TABLE (15 Table 15.5, R300, R301); a loop number above 31 lies outside its field (DESIGN CHOICE, log 36). -/
def rangeLoopTable (book : List Rec) (r : Rec) : List (Bool × Nat) :=
  let t := r.u 9 1
  let fits := r.bytes.length == (if t = 0 then 528 else if t = 1 then 2064 else 4112)
  let breaks := match (ofType book 0x30).find? (·.u 8 1 == r.u 8 1) with
    | some l => if t = 0 && fits then (gainNotAscending (fun j => r.u (0x10 + 8 * j) 8) (min 64 (l.u 0xE 1))) else none
    | none => none
  [r.outside 8 1 0 31, r.outside 9 1 0 2, (decide (t ≤ 2) && !fits, 4)] ++
    (match breaks with | some j => [(true, 0x10 + 8 * j)] | none => [])

/-- Bits of a CAN record's FLAGS (17 Table 17.2). -/
def Rec.flag (r : Rec) (off i : Nat) : Bool := (r.u off 1).testBit i

/-- A ring of a CAN record lies neither in host memory nor wholly below usable LPDDR5 (17 R348). -/
def canRingBad (usable : Nat) (r : Rec) (base entries : Nat) : Bool :=
  let n := r.u entries 2 * 80
  n != 0 && !(ringInHost (r.u base 8) n || ringInLp 0 usable (r.u base 8) n)

/-- One filter of a CAN record, at record offset `o` (17 Table 17.5). -/
def rangeFilter (r : Rec) (o : Nat) : List (Bool × Nat) :=
  [(!(r.u o 4).testBit 29 && decide (bits (r.u o 4) 28 11 ≠ 0), o), r.outside (o + 8) 1 0 3, r.outside (o + 9) 1 0 2]

/-- CAN (17 Table 17.2, R348). -/
def rangeCan (usable : Nat) (r : Rec) : List (Bool × Nat) :=
  let fd := r.flag 0xA 0
  let tdc := r.flag 0xA 3
  let ref := r.flag 0xA 5
  let nBit := r.u 0x10 1 * (1 + r.u 0xC 2 + r.u 0xE 1)
  let dBit := r.u 0x14 1 * (1 + r.u 0x11 1 + r.u 0x12 1)
  let sp := r.u 0x38 4
  let fdf := sp.testBit 30
  [r.outside 8 1 0 3, r.outside 9 1 0 3, r.outside 0xC 2 2 256, r.outside 0xE 1 1 128, r.outside 0xF 1 1 128,
   (decide (r.u 0xE 1 < r.u 0xF 1), 0xE), r.outside 0x10 1 1 32, (decide (nBit < 80), 0xC),
   (fd && (r.outside 0x11 1 1 32).1, 0x11), (fd && (r.outside 0x12 1 1 16).1, 0x12), (fd && (r.outside 0x13 1 1 16).1, 0x13),
   (fd && (r.outside 0x14 1 1 32).1, 0x14), (fd && decide (r.u 0x12 1 < r.u 0x13 1), 0x12), (fd && decide (dBit < 10), 0x11),
   (fd && decide (nBit < dBit), 0xC),
   (!fd && (r.u 0x11 1 != 0 || r.u 0x12 1 != 0 || r.u 0x13 1 != 0 || r.u 0x14 1 != 0 || tdc || fdf), 0xA),
   r.outside 0x15 1 0 127, (!tdc && r.u 0x15 1 != 0, 0xA), r.notMult 0x18 8 4096, r.notMult 0x20 8 4096,
   (!ringEntriesOk (r.u 0x28 2), 0x28), (!ringEntriesOk (r.u 0x2A 2), 0x2A),
   (canRingBad usable r 0x18 0x28, 0x18), (canRingBad usable r 0x20 0x2A, 0x20),
   (ref && ((r.outside 0x2C 4 250000 1000000000).1 || (r.notMult 0x2C 4 1000).1), 0x2C), (!ref && r.u 0x2C 4 != 0, 0xA),
   r.notMult 0x30 4 5, (decide (r.u 0x2C 4 ≤ r.u 0x30 4) && (ref || r.u 0x30 4 != 0), 0x2C), r.outside 0x34 2 0 2047,
   (!([0, 1, 2, 3, 4, 5, 6, 7, 8, 12, 16, 20, 24, 32, 48, 64].contains (r.u 0x36 1)), 0x36),
   (decide (8 < r.u 0x36 1) && !fdf, 0x36), (sp.testBit 31 && !fdf, 0x38),
   (!sp.testBit 29 && decide (bits sp 28 11 ≠ 0), 0x38)] ++
  ((List.range 64).map fun i => rangeFilter r (0x40 + 16 * i)).flatten

/-- LANE_MAP's used entries (14 Table 14.2). -/
def laneEntries (r : Rec) : List Nat := (List.range (r.u 9 1)).map fun i => r.u 0xC 1 >>> (2 * i) % 4

/-- CSI (14 Table 14.2). -/
def rangeCsi (r : Rec) : List (Bool × Nat) :=
  let n := r.u 9 1
  [r.outside 8 1 0 3, (!([1, 2, 4].contains n), 9), r.outside 0xA 2 80 2500,
   ([1, 2, 4].contains n && !((List.range n).all (laneEntries r).contains), 9)]

/-- SENSOR (14 Table 14.3, R286). -/
def rangeSensor (r : Rec) : List (Bool × Nat) :=
  let yuv := r.u 0xA 1 == 0x1E
  let trig := r.u 0x10 1 == 1
  let free := r.u 0x10 1 == 0
  let exps := r.u 0x2C 4 != 0 || r.u 0x30 4 != 0 || r.u 0x34 4 != 0
  let chain := decide (r.u 0x2C 4 ≤ r.u 0x34 4) && decide (r.u 0x34 4 ≤ r.u 0x30 4) && decide (r.u 0x30 4 + 10000 ≤ r.u 0x14 4)
  [r.outside 8 1 0 3, r.outside 9 1 0 15, (!yuv && (r.outside 0xA 1 0x2A 0x2E).1, 0xA), r.outside 0xB 1 0 3,
   (yuv && (r.u 0xB 1 != 0 || r.flag 0x1E 1 || r.u 0x38 2 != 4096), 0xA),
   r.outside 0xC 2 64 4096, r.notMult 0xC 2 2, r.outside 0xE 2 64 3072, r.notMult 0xE 2 2, r.outside 0x10 1 0 1,
   r.outside 0x11 1 0 1, (r.u 0x12 2 != 0 && (r.outside 0x12 2 24 360).1, 0x12),
   (trig && (r.outside 0x14 4 1000000 1000000000).1, 0x14), (free && (r.u 0x14 4 != 0 || exps), 0x10),
   (decide (r.u 0x14 4 ≤ r.u 0x18 4) && (trig || r.u 0x18 4 != 0), 0x14), r.outside 0x1C 1 0 3, r.outside 0x1D 1 0 3,
   r.outside 0x28 4 1000000 4000000000, (trig && decide (r.u 0x2C 4 < 10000), 0x2C), (trig && !chain, 0x14),
   (decide (r.u 0x38 2 < 4096), 0x38), (decide (r.u 0x3A 2 < r.u 0x38 2), 0x38), r.outside 0x3C 2 1024 32768,
   r.outside 0x3E 2 1024 32768, r.outside 0x42 1 0 3, r.outside 0xFB 1 2 8, r.notMult 0xFC 4 64]

/-- The SENSOR record of an ISP record's camera, in a book. -/
def sensorIn (book : List Rec) (k : Nat) : Option Rec := (ofType book 0x52).find? (·.u 8 1 == k)

/-- ISP (14 Table 14.5, R286). -/
def rangeIsp (book : List Rec) (r : Rec) : List (Bool × Nat) :=
  let raw := r.u 0xA 1 == 3
  let toIe := r.u 0xB 1 == 1
  let side := fun crop out => [r.notMult crop 2 2, r.notMult out 2 2, (decide (r.u out 2 < 16), out),
    (decide (r.u crop 2 < r.u out 2) || decide (16 * r.u out 2 < r.u crop 2), crop)]
  let cam := match sensorIn book (r.u 8 1) with
    | some s => [(decide (s.u 0xC 2 < r.u 0xC 2 + r.u 0x10 2), 0xC), (decide (s.u 0xE 2 < r.u 0xE 2 + r.u 0x12 2), 0xE),
        (s.u 0xA 1 == 0x1E && r.u 0xA 1 == 2, 0xA)]
    | none => []
  [r.outside 8 1 0 3, r.outside 9 1 0 3, r.outside 0xA 1 0 3, r.outside 0xB 1 0 1, r.notMult 0xC 2 2, r.notMult 0xE 2 2] ++
   side 0x10 0x14 ++ side 0x12 0x16 ++
   [(raw && (r.u 0x10 2 != r.u 0x14 2 || r.u 0x12 2 != r.u 0x16 2), 0xA),
    (!toIe && (r.outside 0x19 1 1 8).1, 0x19), (!toIe && (r.notMult 0x1C 4 64).1, 0x1C),
    (toIe && (r.u 0x19 1 != 0 || r.u 0x1C 4 != 0), 0xB)] ++ cam

/-- ETH (04 Table 4.13, R83). -/
def rangeEth (r : Rec) : List (Bool × Nat) :=
  [r.outside 8 1 0 1, r.outside 9 1 0 1, (decide (0xE0000000 ≤ r.u 0xC 4), 0xC),
   (r.u 0x10 6 == 0 || r.flag 0x10 0, 0x10)]

/-- A multicast IPv4 address (04 Table 4.14). -/
def isMulticast (ip : Nat) : Bool := decide (0xE0000000 ≤ ip) && decide (ip < 0xF0000000)

/-- RTP (04 Table 4.14, R85). -/
def rangeRtp (book : List Rec) (r : Rec) : List (Bool × Nat) :=
  let same := fun (x : Rec) => decide (x.off < r.off) && x.u 8 1 == r.u 8 1 && x.u 0xC 4 == r.u 0xC 4 && x.u 0xA 2 == r.u 0xA 2
  [r.outside 8 1 0 1, (r.u 9 1 != 0xFF && (r.outside 9 1 96 127).1, 9), r.outside 0xA 2 1024 65534, r.notMult 0xA 2 2,
   (decide (0xF0000000 ≤ r.u 0xC 4), 0xC), ((ofType book 0x61).any same, 8)]

/-- Fields of an ENCODER PORT record that apply to SSI only: offset, size (18 Table 18.3). -/
def ssiFields : List (Nat × Nat) :=
  [(0xD, 1), (0xE, 1), (0xF, 1), (0x10, 1), (0x11, 1), (0x12, 1), (0x13, 1), (0x14, 2), (0x16, 2), (0x18, 4)]

/-- An ENCODER PORT record (18 Table 18.3, R366). STATUS_ERR bits at or above STATUS_BITS break a rule that relates the two
fields and is named at STATUS_BITS, and CRC_POLY with CRC_BITS 0 at CRC_BITS (05 R392; DEDUCED, log 36). -/
def rangeEncoder (r : Rec) : List (Bool × Nat) :=
  let own := if r.u 0xC 1 = 0 then
      [r.outside 0xD 1 0 1, r.outside 0xE 1 10 32, r.outside 0xF 1 1 24, (decide (r.u 0xE 1 < r.u 0xF 1), 0xE),
       r.outside 0x10 1 0 4, (decide (r.u 0x11 1 >>> min 8 (r.u 0x10 1) ≠ 0), 0x10),
       (!([0, 6].contains (r.u 0x12 1)), 0x12), r.outside 0x13 1 0 63, (r.u 0x12 1 == 0 && r.u 0x13 1 != 0, 0x12),
       r.outside 0x14 2 100 4000, r.outside 0x16 2 0 2000, r.notMult 0x16 2 5, r.outside 0x18 4 1000 100000,
       (r.u 0x1C 4 != 0, 0x1C), (r.u 0x20 1 != 0, 0x20)]
    else if r.u 0xC 1 = 1 then
      (ssiFields.map fun f => (r.u f.1 f.2 != 0, f.1)) ++ [r.outside 0x1C 4 4 16777216, r.outside 0x20 1 0 2]
    else [(true, 0xC)]
  own ++ [r.notSigned48 0x28]

/-- A script of an SPI PORT record, at record offset `o`, enabled or not (18 Table 18.3, R366; log 36). -/
def rangeScript (r : Rec) (o : Nat) : List (Bool × Nat) :=
  let free := r.u (o + 2) 1 == 0xFF
  [(bits (r.u o 1) 6 2 != 0, o), r.outside (o + 1) 1 1 64, (!free && decide (31 < r.u (o + 2) 1), o + 2),
   (free && ((r.outside (o + 4) 4 10000 1000000000).1 || (r.notMult (o + 4) 4 1000).1), o + 4),
   (!free && r.u (o + 4) 4 != 0, o + 2)]

/-- Fields of a PORT record by KIND (18 Table 18.3). -/
def rangePortKind (r : Rec) : List (Bool × Nat) :=
  match r.u 8 1 with
  | 1 => rangeEncoder r
  | 2 => [r.outside 0xC 1 4 250, (!ringEntriesOk (r.u 0xE 2), 0xE), r.notMult 0x10 8 4096] ++ rangeScript r 0x18 ++ rangeScript r 0x20
  | 3 => [r.outside 0xC 2 67 65535, r.outside 0xE 1 0 3]
  | 5 => [r.outside 0xC 1 0 1, r.outside 0xE 2 200 8000]
  | 6 => [r.outside 0xC 4 10000 100000000, r.notMult 0xC 4 5, r.notMult 0x10 4 5, (decide (r.u 0xC 4 ≤ r.u 0x10 4), 0xC)]
  | _ => []

/-- Units of a PORT KIND (18 Table 18.2). -/
def portUnits : Nat → Nat
  | 1 => 16 | 2 => 2 | 3 => 2 | 6 => 8 | _ => 1

/-- PORT (18 Tables 18.2, 18.3, R366). -/
def rangePort (r : Rec) : List (Bool × Nat) :=
  let k := r.u 8 1
  if k < 1 || 7 < k then [(true, 8)]
  else [(decide (portUnits k ≤ r.u 9 1), 9),
        (if k = 1 ∨ k = 7 then r.u 0xA 1 != 0xFF else decide (15 < r.u 0xA 1), 0xA)] ++ rangePortKind r

/-- PINMUX (18 Table 18.4). -/
def rangePinmux (r : Rec) : List (Bool × Nat) :=
  ((List.range 16).map fun k => [r.outside (8 + 2 * k) 1 0 1, r.outside (9 + 2 * k) 1 0 31,
    (r.u (8 + 2 * k) 1 == 0 && r.u (9 + 2 * k) 1 != 0, 8 + 2 * k)]).flatten

/-- One LOOP_SAFE entry of the SAFETY record (16 Table 16.2, R324). -/
def rangeSafe (book : List Rec) (r : Rec) (n : Nat) : List (Bool × Nat) :=
  let o := 0x10 + 8 * n
  if (ofType book 0x30).any (·.u 8 1 == n) then [r.outside o 1 1 3, r.outside (o + 1) 1 0 1]
  else [(r.u o 1 != 0, o), (r.u (o + 1) 1 != 0, o + 1), (r.u (o + 4) 4 != 0, o + 4)]

/-- SAFETY (16 Table 16.2, R324). -/
def rangeSafety (book : List Rec) (r : Rec) : List (Bool × Nat) :=
  r.outside 8 4 1000 10000000 :: ((List.range 32).map (rangeSafe book r)).flatten

/-- TWIN (16 Table 16.7); a loop number above 31 that is not 0xFF lies outside its field (DESIGN CHOICE, log 36). -/
def rangeTwin (r : Rec) : List (Bool × Nat) :=
  let loop := fun o => (decide (31 < r.u o 1) && r.u o 1 != 0xFF, o)
  [r.outside 8 1 0 1, r.outside 9 1 0 1, loop 0xA, loop 0xB, r.notZero48 0x10]

/-- The key fields of a TYPE of which at most one record may exist per key: their number, from offset 8 on (05 R393). -/
def keyBytes : Nat → Nat
  | 0x10 => 1 | 0x11 => 2 | 0x30 => 1 | 0x40 => 1 | 0x50 => 1 | 0x52 => 1 | 0x51 => 2 | 0x60 => 1 | _ => 0

/-- The record repeats the key of an earlier one (05 R393). -/
def repeatsKey (book : List Rec) (r : Rec) : Bool :=
  keyBytes r.typ != 0 && (ofType book r.typ).any fun x => decide (x.off < r.off) && x.u 8 (keyBytes r.typ) == r.u 8 (keyBytes r.typ)

/-- Every stage 5 condition of a record, each with its field. -/
def rangeRules (book : List Rec) (usable : Nat) (r : Rec) : List (Bool × Nat) :=
  match r.typ with
  | 0x01 => (List.range 16).map fun f => r.outside (8 + 2 * f) 2 0 256
  | 0x02 => rangePinmux r
  | 0x03 => rangePace r
  | 0x04 => rangeTime r
  | 0x10 => rangeContext r
  | 0x11 => rangeQueue book usable r
  | 0x20 => [r.outside 8 1 0 63]
  | 0x30 => rangeLoop r
  | 0x31 => rangeLoopTable book r
  | 0x40 => rangeCan usable r
  | 0x50 => rangeCsi r
  | 0x51 => rangeIsp book r
  | 0x52 => rangeSensor r
  | 0x60 => rangeEth r
  | 0x61 => rangeRtp book r
  | 0x70 => rangePort r
  | 0xA0 => rangeSafety book r
  | 0xA1 => rangeTwin r
  | _ => []

/-- Stage 5: the first offending field of the first offending record (05 R392, R393). -/
def bookStage5 (usable : Nat) (book : List Rec) : Option Report :=
  firstRefused 0x2105 5 (fun r => lowestField (fieldsIf ((repeatsKey book r, 8) :: rangeRules book usable r))) book

/-! ### Stage 6: counts -/

/-- Known TYPEs with the fewest and most records of each (05 Table 5.10). -/
def recCounts : List (Nat × Nat × Nat) :=
  [(0x01, 1, 1), (0x02, 0, 1), (0x03, 1, 1), (0x04, 0, 1), (0x10, 0, 256), (0x11, 0, 1024), (0x20, 0, 64), (0x30, 0, 32),
   (0x31, 0, 96), (0x40, 0, 4), (0x50, 0, 4), (0x51, 0, 16), (0x52, 0, 4), (0x60, 0, 2), (0x61, 0, 16), (0x70, 0, 64),
   (0xA0, 1, 1), (0xA1, 0, 1)]

/-- Stage 6: too many of a type first, at the first record beyond the count; then too few (05 R391). -/
def bookStage6 (book : List Rec) : Option Report :=
  let excess := recCounts.filterMap fun c => (ofType book c.1)[c.2.2]?
  match lowestField (excess.map (·.off)) with
  | some o => (excess.find? (·.off == o)).map fun r => refusal 0x2106 6 r.off r.typ 0
  | none => (recCounts.find? fun c => decide ((ofType book c.1).length < c.2.1)).map fun c => refusal 0x2106 6 0 c.1 0

end Sys2Proof.Machine
end

