-- ==== Sys2Proof/Machine/BookLinks.lean ====
section
/-! DEFINITION. Route Book validation, stages 7 to 9 (05 section 5.5): references, claims and capacity, and the whole
validation of stages 1 to 9. -/

namespace Sys2Proof.Machine

/-! ### Stage 7: references -/

/-- The record of a TYPE whose byte at offset 8 is `n`, the first in book order. -/
def recIn (book : List Rec) (typ n : Nat) : Option Rec := (ofType book typ).find? (·.u 8 1 == n)

/-- The book has a CONTEXT record for `c`. -/
def ctxIn (book : List Rec) (c : Nat) : Bool := (recIn book 0x10 c).isSome

/-- The LOOP record of loop `l`. -/
def loopIn (book : List Rec) (l : Nat) : Option Rec := recIn book 0x30 l

/-- PORT record of a KIND and UNIT. -/
def portIn (book : List Rec) (kind unit : Nat) : Option Rec :=
  (ofType book 0x70).find? fun r => r.u 8 1 == kind && r.u 9 1 == unit

/-- PERIOD of a LOOP record in ns (15 Table 15.1). -/
def bookPeriod (r : Rec) : Nat := r.u 0xC 2 * 31250

/-- The loops that the CASCADE_FROM chain of a loop reaches, itself first; `fuel` bounds a cycle. -/
def chainOf (book : List Rec) : Nat → Rec → List Rec
  | 0, _ => []
  | n + 1, r =>
    r :: if r.u 0xF 1 = 2 then
      match loopIn book (r.u 0x18 1) with
      | some s => chainOf book n s
      | none => []
    else []

/-- A cascade rule of R313 is broken: no source, a PERIOD or PHASE off the consumer's grid, a cycle, or a chain of more
than 4 loops, which the first 5 steps show (15 R313). -/
def cascadeBad (book : List Rec) (r : Rec) : Bool :=
  match loopIn book (r.u 0x18 1) with
  | none => true
  | some s =>
    bookPeriod s % bookPeriod r != 0 || (s.i 0x10 4 - r.i 0x10 4) % (bookPeriod r : Int) != 0 ||
      decide (4 < (chainOf book 5 r).length)

/-- The loops that drive a CAN controller (15 Table 15.2). -/
def canLoops (book : List Rec) (c : Nat) : List Rec :=
  (ofType book 0x30).filter fun r => r.u 0x19 1 == 1 && r.u 0x1A 1 == c

/-- A CAN follower's breaches, against its lead's record (15 R301). -/
def followerBad (book : List Rec) (r : Rec) : List (Bool × Nat) :=
  if r.u 0x1C 1 = r.u 8 1 then []
  else match loopIn book (r.u 0x1C 1) with
    | some s =>
      if s.u 0x19 1 = 1 && s.u 0x1C 1 = s.u 8 1 then
        [(s.u 0xC 2 != r.u 0xC 2, 0xC), (s.u 0x10 4 != r.u 0x10 4, 0x10), (s.u 0x14 4 != r.u 0x14 4, 0x14),
         (s.u 0x1A 1 != r.u 0x1A 1, 0x1A)]
      else [(true, 0x1C)]
    | none => [(true, 0x1C)]

/-- A used Waymark read names a slot whose WAYMARK record does not let the loop read (15 R301). -/
def readRefBad (book : List Rec) (r : Rec) (o : Nat) : Bool :=
  r.u (o + 1) 1 != 0 && match recIn book 0x20 (r.u o 1) with
    | some w => !(w.u 0xC 4).testBit (r.u 8 1)
    | none => true

/-- References of a LOOP record (15 R301; 17 R348; 18 R366). -/
def refsLoop (book : List Rec) (r : Rec) : List (Bool × Nat) :=
  let enc := r.u 0xA 1
  let has := fun t => readOffs.any fun o => r.u (o + 1) 1 == t
  let encBad := if enc = 0xFF then r.u 9 1 != 2 || r.flag 0xB 1 || r.flag 0xB 2 else (portIn book 1 enc).isNone
  let output := match r.u 0x19 1 with
    | 1 => ((recIn book 0x40 (r.u 0x1A 1)).isNone, 0x1A) ::
        ((canLoops book (r.u 0x1A 1)).any (fun x => decide (x.off < r.off) && x.u 0x1C 1 == r.u 0x1C 1 && x.u 0x1B 1 == r.u 0x1B 1), 0x1B) ::
        followerBad book r
    | 2 => match portIn book 6 (r.u 0x1A 1) with
      | some p => [(bookPeriod r % p.u 0xC 4 != 0, 0xC)]
      | none => [(true, 0x1A)]
    | _ => []
  [(encBad, 0xA), (r.u 9 1 == 2 && !has 2, 9), (r.u 0xF 1 == 1 && !has 1, 0xF),
   (r.u 0xF 1 == 2 && cascadeBad book r, 0x18)] ++ (readOffs.map fun o => (readRefBad book r o, o)) ++ output

/-- The highest AXIS of some loops, plus 1. -/
def axesOf (ls : List Rec) : Nat := ls.foldl (fun a r => max a (r.u 0x1B 1 + 1)) 0

/-- References of a CAN record (17 R348). -/
def refsCan (book : List Rec) (r : Rec) : List (Bool × Nat) :=
  let ls := canLoops book (r.u 8 1)
  let led := ls.any fun x => x.u 0x1C 1 == x.u 8 1
  let len := r.u 0x36 1
  [(r.u 9 1 == 1 && (!ls.isEmpty || r.flag 0xA 5), 9), (if led then decide (len < 2 + 3 * axesOf ls) else len != 0, 0x36)] ++
    (List.range 64).map fun i =>
      let o := 0x48 + 16 * i
      ((r.u o 1 == 1 && r.u 0x28 2 == 0) || (r.u o 1 == 2 && r.u 0x2A 2 == 0), o)

/-- `n` bytes at a context's Sward address `a` do not lie wholly in its share, or the context is not defined
(14 R286, 08 R151). -/
def shareBad (book : List Rec) (c a n : Nat) : Bool :=
  match recIn book 0x10 c with
  | some r => decide (r.u 0x14 4 < a + n)
  | none => false

/-- Bytes of a statistics ring (14 section 14.6). -/
def statsBytes (r : Rec) : Nat := r.u 0xFB 1 * 2432

/-- References of a SENSOR record (14 R286). -/
def refsSensor (book : List Rec) (r : Rec) : List (Bool × Nat) :=
  let src := r.u 9 1
  let claimed := match recIn book 0x50 (src / 4) with
    | some c => (c.u 0x10 1).testBit (src % 4)
    | none => false
  let stats := r.flag 0x1E 2
  [(!claimed, 9), (stats && !ctxIn book (r.u 0xFA 1), 0xFA), (stats && shareBad book (r.u 0xFA 1) (r.u 0xFC 4) (statsBytes r), 0xFC)]

/-- References of an ISP record (14 R286). -/
def refsIsp (book : List Rec) (r : Rec) : List (Bool × Nat) :=
  [((sensorIn book (r.u 8 1)).isNone, 8), (!ctxIn book (r.u 0x18 1), 0x18),
   (r.u 0xB 1 == 0 && shareBad book (r.u 0x18 1) (r.u 0x1C 4) (r.u 0x19 1 * slotBytes r), 0x1C)]

/-- References of a TIME record (02 R42). -/
def refsTime (book : List Rec) (r : Rec) : List (Bool × Nat) :=
  let bad := fun o => (r.u o 1 != 0xFF && (recIn book 0x60 (r.u o 1)).isNone, o)
  [bad 8, bad 9, (r.u 8 1 != 0xFF && r.u 8 1 == r.u 9 1, 8)]

/-- References of an RTP record (04 R85). -/
def refsRtp (book : List Rec) (r : Rec) : List (Bool × Nat) :=
  match recIn book 0x60 (r.u 8 1) with
  | some e => [(!isMulticast (r.u 0xC 4) && r.u 0xC 4 != e.u 0xC 4, 0xC)]
  | none => [(true, 8)]

/-- An SSI channel's transaction does not fit the shortest period of the loops that name it, in ns (18 R366, R367). -/
def ssiTooLong (book : List Rec) (r : Rec) : Bool :=
  let cycles := 1 + r.u 0xE 1 + r.u 0x10 1 + r.u 0x12 1
  r.u 0xC 1 == 0 && (ofType book 0x30).any fun l => l.u 0xA 1 == r.u 9 1 &&
    decide (bookPeriod l * r.u 0x14 2 < cycles * 1000000 + (r.u 0x16 2 + 200 + r.u 0x18 4) * r.u 0x14 2)

/-- References of a PORT record (18 R366). -/
def refsPort (book : List Rec) (r : Rec) : List (Bool × Nat) :=
  match r.u 8 1 with
  | 1 => [(ssiTooLong book r, 0x18)]
  | 2 => ([0x18, 0x20].map fun o => [(r.flag o 7 && r.u 0xE 2 == 0, 0xE),
      (r.u (o + 2) 1 != 0xFF && (loopIn book (r.u (o + 2) 1)).isNone, o + 2)]).flatten
  | _ => []

/-- The first member of a sharing group, in book order (07 R135). -/
def groupFirst (book : List Rec) (g : Nat) : Option Rec := (ofType book 0x10).find? (·.u 0xC 2 == g)

/-- References of a record, each with its field. -/
def refRules (book : List Rec) (r : Rec) : List (Bool × Nat) :=
  match r.typ with
  | 0x02 => (List.range 16).map fun k => (r.u (8 + 2 * k) 1 == 1 && (loopIn book (r.u (9 + 2 * k) 1)).isNone, 9 + 2 * k)
  | 0x04 => refsTime book r
  | 0x10 => [(r.u 0xC 2 != 0 && (groupFirst book (r.u 0xC 2)).any fun g => g.u 9 1 != r.u 9 1, 9)]
  | 0x11 => [(!ctxIn book (r.u 8 1), 8)]
  | 0x20 => [(!ctxIn book (r.u 9 1), 9), ((List.range 32).any fun l => (r.u 0xC 4).testBit l && (loopIn book l).isNone, 0xC)]
  | 0x30 => refsLoop book r
  | 0x31 => [((loopIn book (r.u 8 1)).isNone, 8),
      ((ofType book 0x31).any fun x => decide (x.off < r.off) && x.u 8 2 == r.u 8 2, 8)]
  | 0x40 => refsCan book r
  | 0x51 => refsIsp book r
  | 0x52 => refsSensor book r
  | 0x61 => refsRtp book r
  | 0x70 => refsPort book r
  | 0xA1 => [0xA, 0xB].map fun o => (r.u o 1 != 0xFF && (match loopIn book (r.u o 1) with
      | some l => l.u 0xA 1 == 0xFF
      | none => true), o)
  | _ => []

/-- Stage 7: the first record with a reference that does not resolve, at its lowest such field. -/
def bookStage7 (book : List Rec) : Option Report :=
  firstRefused 0x2107 7 (fun r => lowestField (fieldsIf (refRules book r))) book

/-! ### Stage 8: claims -/

/-- A run of resources of one class that a record claims from one field (05 Table 5.11). Under class 0x04, `camera` marks
the claim of a camera buffer, and `share` is the context of the share that it lies in, or that a CONTEXT record gives. -/
structure Claim where
  field : Nat
  cls : Nat
  lo : Nat
  hi : Nat
  camera : Bool := false
  share : Nat := 0
  deriving DecidableEq, Repr

/-- The ball W-`n` (05 Table 5.11). -/
def ballW (n : Nat) : Nat := 3 * 512 + n

/-- The balls of a PORT unit: first and count (03 Table 3.8, 18 R365). -/
def portBalls (kind unit : Nat) : Nat × Nat :=
  match kind with
  | 1 => (9 + 3 * unit, 3)
  | 2 => (57 + 7 * unit, 7)
  | 3 => (71 + 2 * unit, 2)
  | 4 => (75, 1)
  | 5 => (76, 2)
  | _ => (78 + unit, 1)

/-- The LPDDR5 granules that `n` bytes at a device address touch, inside usable capacity. -/
def ringClaim (field usable base n : Nat) : List Claim :=
  if n ≠ 0 && decide (lpBase ≤ base) && decide (base < lpBase + usable) then
    [{ field := field, cls := 5, lo := (base - lpBase) / granule, hi := (min (base + n) (lpBase + usable) - lpBase - 1) / granule + 1 }]
  else []

/-- The Sward granules that a camera buffer of `n` bytes at a context's Sward address touches (14 R289). -/
def cameraClaim (book : List Rec) (field c a n : Nat) : List Claim :=
  match recIn book 0x10 c with
  | some r =>
    let b := r.u 0x10 4 + a
    [{ field := field, cls := 4, lo := b / 65536, hi := (b + n - 1) / 65536 + 1, camera := true, share := c }]
  | none => []

/-- A loop up the CASCADE_FROM chain uses the same encoder channel, and claims it (15 R302). -/
def encHeldOutside (book : List Rec) (r : Rec) : Bool := ((chainOf book 5 r).drop 1).any fun x => x.u 0xA 1 == r.u 0xA 1

/-- Claims of a PORT record (18 R365). -/
def portClaims (usable : Nat) (r : Rec) : List Claim :=
  let k := r.u 8 1
  let balls := if k = 7 then
      ((List.range 16).filter fun i => (r.u 0xC 2).testBit i).map fun i => { field := 0xC, cls := 1, lo := ballW (90 + i), hi := ballW (91 + i) }
    else
      let b := portBalls k (r.u 9 1)
      [{ field := 9, cls := 1, lo := ballW b.1, hi := ballW (b.1 + b.2) }]
  let timer := if k = 1 ∨ k = 7 then [] else [{ field := 0xA, cls := 2, lo := r.u 0xA 1, hi := r.u 0xA 1 + 1 }]
  let ring := if k = 2 then ringClaim 0x10 usable (r.u 0x10 8) (r.u 0xE 2 * 80) else []
  balls ++ timer ++ ring

/-- The claims of a record, in the order of R394 (05). -/
def claimsOf (book : List Rec) (usable : Nat) (r : Rec) : List Claim :=
  match r.typ with
  | 0x02 => ((List.range 16).filter fun k => r.u (8 + 2 * k) 1 == 1).map fun k =>
      { field := 8 + 2 * k, cls := 1, lo := ballW (90 + k), hi := ballW (91 + k) }
  | 0x10 =>
    [{ field := 0x10, cls := 4, lo := r.u 0x10 4 / 65536, hi := min ((r.u 0x10 4 + r.u 0x14 4) / 65536) 2048, share := r.u 8 1 },
     { field := 0x18, cls := 5, lo := r.u 0x18 8 / granule, hi := min ((r.u 0x18 8 + r.u 0x20 8) / granule) (usable / granule) }]
  | 0x20 => [{ field := 8, cls := 8, lo := r.u 8 1, hi := r.u 8 1 + 1 }]
  | 0x30 =>
    let u := r.u 0x1A 1
    (if r.u 0xA 1 ≠ 0xFF && !encHeldOutside book r then [{ field := 0xA, cls := 6, lo := r.u 0xA 1, hi := r.u 0xA 1 + 1 }] else []) ++
    (if r.u 0x19 1 = 1 ∧ r.u 0x1C 1 = r.u 8 1 then [{ field := 0x1A, cls := 3, lo := 3 * u, hi := 3 * u + 1 }]
     else if r.u 0x19 1 = 2 then [{ field := 0x1A, cls := 7, lo := u, hi := u + 1 }] else [])
  | 0x40 =>
    let c := r.u 8 1
    [{ field := 8, cls := 1, lo := ballW (1 + 2 * c), hi := ballW (3 + 2 * c) }] ++
    (((List.range 3).filter (r.flag 0xB)).map fun n => { field := 0xB, cls := 3, lo := 3 * c + n, hi := 3 * c + n + 1 }) ++
    ringClaim 0x18 usable (r.u 0x18 8) (r.u 0x28 2 * 80) ++ ringClaim 0x20 usable (r.u 0x20 8) (r.u 0x2A 2 * 80)
  | 0x50 => ((List.range 4).filter (r.flag 0x10)).map fun v =>
      { field := 0x10, cls := 9, lo := r.u 8 1 * 4 + v, hi := r.u 8 1 * 4 + v + 1 }
  | 0x51 => if r.u 0xB 1 = 0 then cameraClaim book 0x1C (r.u 0x18 1) (r.u 0x1C 4) (r.u 0x19 1 * slotBytes r) else []
  | 0x52 => if r.flag 0x1E 2 then cameraClaim book 0xFC (r.u 0xFA 1) (r.u 0xFC 4) (statsBytes r) else []
  | 0x70 => portClaims usable r
  | _ => []

/-- A claim with the record that makes it. -/
abbrev Held := Claim × Rec

/-- Two claims name a resource in common; a camera buffer never conflicts with the CONTEXT record of its share (14 R289). -/
def Claim.clashes (a b : Claim) : Bool :=
  a.cls == b.cls && decide (max a.lo b.lo < min a.hi b.hi) && !(a.camera != b.camera && a.share == b.share)

/-- The lowest resource of a claim that an earlier record holds, with that record. -/
def clashOf (held : List Held) (c : Claim) : Option (Nat × Rec) :=
  let hits := held.filterMap fun h =>
    if h.1.clashes c then some (max h.1.lo c.lo, h.2) else none
  (lowestField (hits.map (·.1))).bind fun i => hits.find? (·.1 == i)

/-- Stage 8: claims in record order; the first resource that an earlier record already holds fails (05 R394). -/
def bookStage8 (book : List Rec) (usable : Nat) : List Rec → List Held → Option Report
  | [], _ => none
  | r :: rest, held =>
    let cs := claimsOf book usable r
    match cs.findSome? fun c => (clashOf held c).map fun h => (c, h) with
    | some (c, i, other) => some { refusal 0x2103 8 r.off r.typ c.field with
        otherOffset := other.off, otherType := other.typ, resClass := c.cls, resIndex := i }
    | none => bookStage8 book usable rest (held ++ cs.map fun c => (c, r))

/-! ### Stage 9: capacity -/

/-- Stage 9 for one CONTEXT record: the failing field and DETAIL (05 R395). -/
def capacityBad (book : List Rec) (usable : Nat) (r : Rec) : Option (Nat × Nat) :=
  let swEnd := r.u 0x10 4 + r.u 0x14 4
  let lpEnd := r.u 0x18 8 + r.u 0x20 8
  let mates := (ofType book 0x10).filter fun x => x.u 9 1 == r.u 9 1
  let limit := match ofType book 0x01 with
    | d :: _ => d.u (8 + 2 * r.u 9 1) 2
    | [] => 0
  if swardSize < swEnd then some (0x14, swEnd - swardSize)
  else if usable < lpEnd then some (0x20, lpEnd - usable)
  else if limit < (mates.filter fun x => decide (x.off ≤ r.off)).length then some (9, mates.length - limit)
  else none

/-- Stage 9: every CONTEXT record in ascending offset (05 R395). -/
def bookStage9 (book : List Rec) (usable : Nat) : Option Report :=
  (ofType book 0x10).findSome? fun r =>
    (capacityBad book usable r).map fun p => { refusal 0x2108 9 r.off r.typ p.1 with detail := p.2 }

/-! ### The whole validation -/

/-- Stages 1 to 9 of 05 Table 5.12, in order, on the committed bytes: the refusal report of the first failing item, or
the records of the book (05 R103). -/
def validateBook (rbFormat committed usable : Nat) (d : List Byte) : Except Report (List Rec) :=
  let (e2, rs) := bookStage2 committed d
  match [bookStage1 rbFormat d, e2].findSome? id with
  | some e => .error e
  | none =>
    match bookStage3 d with
    | some e => .error e
    | none =>
      match bookStage4 d rs with
      | some e => .error e
      | none =>
        match [bookStage5 usable rs, bookStage6 rs, bookStage7 rs, bookStage8 rs usable rs [], bookStage9 rs usable].findSome? id with
        | some e => .error e
        | none => .ok rs

end Sys2Proof.Machine
end

