-- ==== Sys2Proof/Machine/Intake.lean ====
section
/-! DEFINITION. The Intake Engine: streams and dictionaries, FEED, background decode and the delivery queue, augmentation,
tokenising and packing (13). The model's choices are in log 21. -/

namespace Sys2Proof.Machine

/-- Bytes in a stream's byte buffer: its complete units and the open one. -/
def Stream.buffered (x : Stream) : Nat := (x.units.map fun u => u.1.length).sum + x.openUnit.length

/-- Size of the byte buffer (13 Table 13.1). -/
def Stream.capacity (x : Stream) : Nat := if x.kind = 3 then 262144 else 4194304

/-- Limit of one unit (13 Table 13.1). -/
def Stream.unitLimit (x : Stream) : Nat := if x.kind = 3 then 65536 else 2097152

/-! ### Completing -/

/-- A run that writes nothing. -/
def State.ieEnd (c : CtxInfo) (w : Waybill) (steps status detail : Nat) (s : State) : State :=
  (s.count c.ctx 16 steps).complete w status detail {}

/-- Write bytes to outputs in order, one step per line, and complete: the lines' own condition comes before the
operator's status (13 Table 13.3; 09 R198). -/
def State.ieWrite (c : CtxInfo) (w : Waybill) (outs : List (Opnd × List Byte)) (minSteps status detail : Nat) (s : State) :
    State :=
  let steps := (outs.map fun p => xeSteps none p.1 (p.2.mapIdx fun i v =>
    (⟨p.1.addr (i / max 1 p.1.rowBytes) (i % max 1 p.1.rowBytes), [], v⟩ : XeByte))).flatten
  let (_, x, t) := State.runSteps (runCtx c w) none 0 steps ({}, s)
  let (st, d) := x.status none
  (t.count c.ctx 16 (Nat.max minSteps steps.length)).complete w (if st ≠ 0 then st else status) (if st ≠ 0 then d else detail)
    { corrected := t.counter c.ctx 22 != s.counter c.ctx 22, poisoned := x.poisoned }

/-- Run an operator on the stream that byte `at_` of its waybill names; 0x4701 where it is not open (13 R262). -/
def State.runIe (e op at_ : Nat) (f : CtxInfo → Waybill → Nat → Stream → State → State) (s : State) : State :=
  s.runOn e 4 op fun c w t =>
    let n := byteAt w.bytes at_
    match t.stream w.ctx n with
    | none => t.ieEnd c w 0 0x4701 0
    | some x => f c w n x t

/-! ### Opening, closing, feeding -/

/-- STREAM_OPEN: the stream was opened at the waybill's start, unless something was lacking then (13 R262, R266). -/
def execStreamOpen (e : Fin 19) (s : State) : Host.Outcome State Fault Refusal :=
  done s (s.runOn e 4 0x501 fun c w t => t.ieEnd c w (if w.intake = 0 then 1 else 0) w.intake 0)

/-- STREAM_CLOSE (13 R266). -/
def execStreamClose (e : Fin 19) (s : State) : Host.Outcome State Fault Refusal :=
  done s (s.runIe e 0x502 16 fun c w n _ t => (t.setStream w.ctx n none).ieEnd c w 1 0 0)

/-- The open unit closes: it is a complete unit from now on. -/
def Stream.closeUnit (stamp : Nat) (x : Stream) : Stream :=
  { x.bump 0 1 with units := x.units ++ [(x.openUnit, stamp, false)], openUnit := [], rtpStamp := none }

/-- FEED (13 R272). -/
def execFeed (e : Fin 19) (s : State) : Host.Outcome State Fault Refusal :=
  done s (s.runIe e 0x503 16 fun c w n x t =>
    let len := byteAt w.bytes 17
    let data := (w.bytes.drop 20).take len
    if x.kind = 0 ∨ x.kind = 2 then t.ieEnd c w 0 0x4708 0
    else if x.capacity < x.buffered + len then (t.setStream w.ctx n (some (x.bump 15 1))).ieEnd c w 1 0x1703 0
    else if x.unitLimit < x.openUnit.length + len then
      (t.setStream w.ctx n (some { x with openUnit := [], rtpStamp := none })).ieEnd c w 0 0x4707 0
    else
      let x1 := { x.bump 1 len with openUnit := x.openUnit ++ data, rtpStamp := some (x.rtpStamp.getD t.now) }
      let x2 := if (byteAt w.bytes 18).testBit 0 then x1.closeUnit (x1.rtpStamp.getD 0) else x1
      (t.setStream w.ctx n (some x2)).ieEnd c w 1 0 0)

/-! ### Pictures -/

/-- A plane as rows. -/
def planeRows (w : Nat) : Nat → List Nat → List (List Nat)
  | 0, _ => []
  | n + 1, l => l.take w :: planeRows w n (l.drop w)

/-- Width, height and divisor of a plane: a chroma plane of 4:2:0 has half each. -/
def planeSize (w h : Nat) (p : List Nat) : Nat × Nat × Nat :=
  if p.length = w * h then (w, h, 1) else ((w + 1) / 2, (h + 1) / 2, 2)

/-- CROP of one plane, chroma at half the offset. -/
def cropPlane (w h x0 y0 wo ho : Nat) (p : List Nat) : List Nat :=
  let (pw, ph, d) := planeSize w h p
  ((((planeRows pw ph p).drop (y0 / d)).take (ho / d)).map fun r => (r.drop (x0 / d)).take (wo / d)).flatten

/-- Width and height of a picture once cropped. -/
def codedSize (c : CodedPicture) : Nat × Nat :=
  (c.width - c.cropLeft - c.cropRight, c.height - c.cropTop - c.cropBottom)

/-- The picture's planes of 8-bit 4:2:0 samples, cropped by the conformance cropping window (13 R267). -/
def croppedPlanes (c : CodedPicture) : List (List Nat) :=
  let n := (c.width + 1) / 2 * ((c.height + 1) / 2)
  let (w, h) := codedSize c
  (List.range 3).map fun i => cropPlane c.width c.height c.cropLeft c.cropTop w h
    ((fit (if i = 0 then c.width * c.height else n) 0 (c.planes.getD i [])).map (· % 256))

/-- The profiles and levels of 13 Table 13.1, 8-bit 4:2:0 progressive, within the largest picture (13 R267). The codes of
profiles and levels are those of H.264 and H.265 (log 39). -/
def supportedBy (codec : Nat) (c : CodedPicture) : Bool :=
  (if codec = 0 then ((c.profile == 66 && c.constrained) || c.profile == 77 || c.profile == 100) && decide (c.level ≤ 51)
   else c.profile == 1 && decide (c.level ≤ 153))
    && c.progressive && c.bitDepth == 8 && c.chroma == 1 && !c.extension && decide ((codedSize c).1 ≤ 4096) && decide ((codedSize c).2 ≤ 2304)

/-- The reason a picture is corrupt, 0 for none: the wait for recovery before all others; then an incomplete unit, what
the decoder finds, its size and its references (13 R268, Table 13.5). `refs` when every reference that it uses is there and
good. -/
def Stream.verdict (x : Stream) (incomplete refs : Bool) (c : CodedPicture) : Nat :=
  if x.broken && !c.refresh then 3
  else if incomplete then 1
  else if !c.decodable then 2
  else if !supportedBy x.codec c then 4
  else if x.maxW < (codedSize c).1 ∨ x.maxH < (codedSize c).2 then 5
  else if x.refs < c.refsNeeded then 6
  else if refs then 0 else 3

/-- The decoder reads the reference pictures that a picture uses: whether all are there and good, and the stream with
those that have turned corrupt (13 R268, section 13.9 corner 12). -/
def State.readRefs (key : Nat) : List Nat → Stream × State → Bool × Stream × State
  | [], p => (true, p)
  | back :: r, (x, s) =>
    match x.refPics.find? fun p => p.ordinal + back == x.ordinal + 1 with
    | none => let (_, q) := State.readRefs key r (x, s); (false, q)
    | some p =>
      let (got, s1) := s.loadPicture key x p
      let (ok, q) := State.readRefs key r (if got.isSome then x else x.spoil p.ordinal, s1)
      (ok && got.isSome, q)

/-- The decoder takes the oldest unit `u` of an open stream: the picture joins the delivery queue, or is skipped as
corrupt. -/
def State.decodeUnit (key : Nat) (u : List Byte × Nat × Bool) (rest : List (List Byte × Nat × Bool)) (x : Stream)
    (s : State) : State :=
  let c := Config.decodePicture x.codec (x.history ++ [u.1])
  let x1 := { x.bump 2 (b2n u.2.2) with
    units := rest, history := x.history ++ [u.1], refPics := if c.refresh then [] else x.refPics }
  let (refs, x2, s1) := State.readRefs key c.uses (x1, s)
  let r := x2.verdict u.2.2 refs c
  let x3 := { x2 with ordinal := x2.ordinal + 1, broken := r != 0 }
  let put := fun (y : Stream) (t : State) => t.setStream (key / 16) (key % 16) (some y)
  if r ≠ 0 then put (x3.skip r) s1
  else
    let p : Picture := { Picture.init with
      width := (codedSize c).1, height := (codedSize c).2, ordinal := x3.ordinal, stamp := u.2.1, refresh := c.refresh }
    let (q, s2) := s1.storePicture key x3 p (croppedPlanes c)
    let x4 := (x3.bump 3 1).offer q
    put (if c.isRef then { x4 with refPics := (q :: x4.refPics).take x4.refs } else x4) s2

/-- PICTURE_DECODED: the background decoder finishes the oldest unit of an open video stream (13 R267 to R269); it
decodes nothing while the IE is fenced or no unit waits. Bit upsets that the stream's frame stores have met come with it
(log 21). -/
def execPictureDecoded (ctx : Fin 256) (n : Fin 16) (upsets : List StoreUpset) (s : State) :
    Host.Outcome State Fault Refusal :=
  done s (
    match s.stream ctx n with
    | none => s
    | some x =>
      let key := ctx.val * 16 + n.val
      let s1 := upsets.foldl (fun t u => t.upset key u) s
      match x.units with
      | [] => s1
      | u :: rest =>
        if 2 ≤ x.kind ∨ s.stationFenced 18 ∨ !s.active then s1
        else s1.decodeUnit key u rest x)

/-! ### Augmentation (13 section 13.4) -/

/-- mix of 13 section 13.4. -/
def augMix (z : BitVec 64) : BitVec 64 :=
  let a := (z ^^^ (z >>> 30)) * 0xBF58476D1CE4E5B9
  let b := (a ^^^ (a >>> 27)) * 0x94D049BB133111EB
  b ^^^ (b >>> 31)

/-- draw of 13 section 13.4. -/
def augDraw (seed index : BitVec 64) (op j : Nat) : Nat :=
  (augMix (seed ^^^ augMix (index ^^^ augMix (BitVec.ofNat 64 (op * 2 ^ 32 + j % 2 ^ 32 + 0x9E3779B97F4A7C15))))).toNat

/-- A picture with the marks that its frame record carries. -/
structure AugPic where
  width : Nat
  height : Nat
  planes : List (List Nat)
  flipped : Bool := false
  cropX : Nat := 0
  cropY : Nat := 0
  tooBig : Bool := false
  deriving DecidableEq, Repr

/-- FLIP_H of one plane. -/
def flipPlane (w h : Nat) (p : List Nat) : List Nat :=
  let (pw, ph, _) := planeSize w h p
  ((planeRows pw ph p).map List.reverse).flatten

/-- One picture operation of Table 13.9. -/
def augPicture (seed index : BitVec 64) (x : AugPic) (ent : List Byte) : AugPic :=
  let d := augDraw seed index (fieldAt ent 0 2)
  let p0 := fieldAt ent 4 2
  let luma := fun (f : List Nat → List Nat) => { x with planes := x.planes.mapIdx fun i p => if i = 0 then f p else p }
  match byteAt ent 2 with
  | 1 =>
    let ho := fieldAt ent 6 2
    if x.width < p0 ∨ x.height < ho then { x with tooBig := true }
    else
      let x0 := 2 * (d 0 % ((x.width - p0) / 2 + 1))
      let y0 := 2 * (d 1 % ((x.height - ho) / 2 + 1))
      { x with width := p0, height := ho, planes := x.planes.map (cropPlane x.width x.height x0 y0 p0 ho),
               cropX := x0, cropY := y0 }
  | 2 => if d 0 / 2 ^ 48 < p0 then { x with planes := x.planes.map (flipPlane x.width x.height), flipped := true } else x
  | 3 =>
    let g := 65536 - p0 + 2 * p0 * (d 0 / 2 ^ 48) / 65536
    luma fun p => p.map fun y => min 255 (rneShift (y * g) 16)
  | 4 =>
    let a := byteAt ent 4
    luma fun p => p.mapIdx fun j y => (clampTo 0 255 ((y : Int) + ((d j / 2 ^ 56 % (2 * a + 1) : Nat) : Int) - a)).toNat
  | _ => x

/-- A recipe applied in order. -/
def augAll (x : Stream) (index : BitVec 64) (p : AugPic) : AugPic := x.recipe.foldl (augPicture x.seed index) p

/-- AUG_SET (13 section 13.4). -/
def execAugSet (e : Fin 19) (s : State) : Host.Outcome State Fault Refusal :=
  done s (s.runIe e 0x504 16 fun c w n x t =>
    let ents := (List.range (byteAt w.bytes 17)).map fun k => (w.bytes.drop (32 + 8 * k)).take 8
    let ok := ents.all fun ent => (byteAt ent 2 == 5) == (x.kind == 3)
    if !ok then t.ieEnd c w 0 0x4708 0
    else (t.setStream w.ctx n (some { x with recipe := ents, seed := BitVec.ofNat 64 (fieldAt w.bytes 24 8) })).ieEnd c w
      1 0 0)

/-! ### DECODE -/

/-- What DECODE delivers: the picture with its ordinal and stamp, how, the REASON and DROPPED of its record, and the stream
afterwards. -/
structure Delivery where
  pic : AugPic
  ordinal : Nat
  stamp : Nat
  repeated : Bool
  filled : Bool
  augmented : Bool
  reason : Nat
  dropped : Nat
  after : Stream
  deriving DecidableEq, Repr

/-- How a stream's pictures are laid out in OP1: 0 one plane, 1 planar 4:2:0, 2 three full planes, 3 two-byte samples,
4 the luma plane of video, 5 video as YUV444 (13 Table 13.6, 14 R288). -/
def State.picLayout (s : State) (x : Stream) (mode : Nat) : Nat :=
  if x.kind = 2 then ((s.branchRec x.source).map branchOut).getD 0 else if mode = 1 then 5 else 4

/-- DIMs of OP1 for a picture of this size. -/
def layoutDims (layout w h : Nat) : List Nat :=
  match layout with
  | 1 => [w, h * 3 / 2, 1, 1]
  | 2 | 5 => [w, h, 3, 1]
  | 3 => [2 * w, h, 1, 1]
  | _ => [w, h, 1, 1]

/-- The size of a picture that fills OP1 (log 21). -/
def layoutSize (layout d0 d1 : Nat) : Nat × Nat :=
  match layout with
  | 1 => (d0, d1 * 2 / 3)
  | 3 => (d0 / 2, d1)
  | _ => (d0, d1)

/-- The bytes of a picture in OP1's order. -/
def layoutBytes (layout : Nat) (p : AugPic) : List Byte :=
  let b := fun (l : List Nat) => l.map (BitVec.ofNat 8)
  match layout with
  | 3 => ((p.planes.getD 0 []).map (le 2)).flatten
  | 0 | 4 => b (p.planes.getD 0 [])
  | 5 =>
    let up := fun (q : List Nat) => ((List.range p.height).map fun y => (List.range p.width).map fun x =>
      q.getD (y / 2 * ((p.width + 1) / 2) + x / 2) 0).flatten
    b (p.planes.getD 0 [] ++ up (p.planes.getD 1 []) ++ up (p.planes.getD 2 []))
  | _ => b p.planes.flatten

/-- A picture of the fill values (13 R270). -/
def fillPicture (x : Stream) (layout w h : Nat) : AugPic :=
  let chroma := if layout = 2 ∨ layout = 0 ∨ layout = 3 then w * h else (w + 1) / 2 * ((h + 1) / 2)
  { width := w, height := h,
    planes := List.replicate (w * h) x.fillY :: (if layout = 0 ∨ layout = 3 then []
      else [List.replicate chroma x.fillC, List.replicate chroma x.fillC]) }

/-- How DECODE's waybill shapes a picture: whether the recipe applies, its sample index, and OP1's layout and first two
DIMs. -/
structure Shape where
  aug : Bool
  index : BitVec 64
  layout : Nat
  d0 : Nat
  d1 : Nat
  deriving DecidableEq, Repr

/-- A stored picture as DECODE delivers it. -/
def Stream.shaped (x : Stream) (h : Shape) (p : Picture) (planes : List (List Nat)) : AugPic :=
  let raw : AugPic := { width := p.width, height := p.height, planes := planes }
  if h.aug then augAll x h.index raw else raw

/-- The replacement for a corrupt picture: the last picture delivered good, or a picture of the fill values (13 R270). -/
def State.replacement (key : Nat) (x : Stream) (h : Shape) (reason dropped : Nat) (s : State) : Delivery × State :=
  let y := x.bump 8 1
  let filled := fun (z : Stream) =>
    let (w, v) := layoutSize h.layout h.d0 h.d1
    (⟨fillPicture x h.layout w v, 0, 0, false, true, false, reason, dropped, z.bump 6 1⟩ : Delivery)
  match if x.fill then none else x.lastGood with
  | none => (filled y, s)
  | some p =>
    match s.loadPicture key x p with
    | (some planes, s1) =>
      (⟨x.shaped h p planes, p.ordinal, p.stamp, true, false, h.aug && !x.recipe.isEmpty, reason, dropped, y.bump 5 1⟩, s1)
    | (none, s1) => (filled { y with lastGood := none }, s1)

/-- What DECODE delivers of what it took at its start, if anything (13 R269, R270). A picture found corrupt in the store is
replaced, with reason 7. -/
def State.decodeOut (key : Nat) (x : Stream) (h : Shape) (s : State) : Option Delivery × State :=
  let k := x.taking.getD Taking.init
  let y := { x with taking := none }
  if k.skip ≠ 0 then
    let (d, s1) := s.replacement key y h k.skip k.dropped
    (some d, s1)
  else match k.pic with
  | none => (none, s)
  | some p =>
    match s.loadPicture key x p with
    | (some planes, s1) =>
      (some ⟨x.shaped h p planes, p.ordinal, p.stamp, false, false, h.aug && !x.recipe.isEmpty, 0, k.dropped,
        { y.bump 8 1 with lastGood := some p }⟩, s1)
    | (none, s1) =>
      let (d, s2) := s1.replacement key ((y.bump 4 1).spoil p.ordinal) h 7 (satAdd 0xFFFF k.dropped 1)
      (some d, s2)

/-- The frame record (13 Table 13.7). -/
def Delivery.record (d : Delivery) (index : Nat) : List Byte :=
  le 2 d.pic.cropY ++ le 2 d.pic.cropX ++ le 1 (b2n d.repeated + 2 * b2n d.filled + 4 * b2n d.pic.flipped + 8 * b2n d.augmented)
    ++ le 1 d.reason ++ le 2 d.dropped ++ le 2 d.pic.height ++ le 2 d.pic.width ++ le 4 d.ordinal ++ le 8 d.stamp
    ++ le 8 index

/-- DECODE (13 R269 to R271). -/
def execDecode (e : Fin 19) (s : State) : Host.Outcome State Fault Refusal :=
  done s (s.runIe e 0x505 52 fun c w n x t =>
    let mode := byteAt w.bytes 53
    if x.kind = 3 ∨ (x.kind = 2 ∧ mode = 1) then (t.setStream w.ctx n (some x.giveBack)).ieEnd c w 0 0x4708 0
    else
      let o1 := t.operand c w 1
      let o2 := t.operand c w 2
      let index := fieldAt w.bytes 56 8
      let layout := t.picLayout x mode
      let h : Shape := ⟨(byteAt w.bytes 54).testBit 0, BitVec.ofNat 64 index, layout, o1.dim 0, o1.dim 1⟩
      match t.decodeOut (w.ctx * 16 + n) x h with
      | (none, t1) => (t1.setStream w.ctx n (some x.giveBack)).ieEnd c w 0 0x1702 0
      | (some d, t1) =>
        if d.pic.tooBig || layoutDims layout d.pic.width d.pic.height != o1.dims then
          (t1.setStream w.ctx n (some x.giveBack)).ieWrite c w [(o2, d.record index)] 0 0x4703 0
        else
          (t1.setStream w.ctx n (some d.after)).ieWrite c w [(o1, layoutBytes layout d.pic), (o2, d.record index)] 0
            (if d.reason ≠ 0 then 0x1701 else 0) d.reason)

/-! ### Dictionaries and tokens -/

/-- DICT_LOAD: all of its records or none; a dictionary that its start created goes again when it takes none (13 R262,
R273). -/
def execDictLoad (e : Fin 19) (s : State) : Host.Outcome State Fault Refusal :=
  done s (s.runOn e 4 0x506 fun c w t =>
    let n := byteAt w.bytes 16
    let old := (t.dict w.ctx n).getD Dict.init
    let d := if (byteAt w.bytes 18).testBit 0 then Dict.init else old
    let all := d.entries ++ (dictRecords w (byteAt w.bytes 17) 20).1
    if w.intake = 0x4702 then t.ieEnd c w 0 0x4702 0
    else if d.isSealed then t.ieEnd c w 0 0x4704 0
    else if 262144 < all.length ∨ 2097152 < (all.map fun p => p.1.length).sum then
      (if w.intake = 1 then t.setDict w.ctx n none else t).ieEnd c w 0 0x4706 0
    else (t.setDict w.ctx n (some { d with entries := all })).ieEnd c w 1 0 0)

/-- The load-order index of the first entry whose string an earlier entry holds (13 R274). -/
def firstDuplicate (l : List (List Byte × Nat)) : Option Nat :=
  (List.range l.length).find? fun i => (l.take i).any fun p => p.1 == (l.getD i ([], 0)).1

/-- DICT_SEAL (13 R274). -/
def execDictSeal (e : Fin 19) (s : State) : Host.Outcome State Fault Refusal :=
  done s (s.runOn e 4 0x507 fun c w t =>
    let n := byteAt w.bytes 16
    match t.dict w.ctx n with
    | none => t.ieEnd c w 0 0x4704 0
    | some d =>
      let steps := Nat.max 1 ((d.entries.length + 63) / 64)
      if d.isSealed then t.ieEnd c w 0 0x4704 0
      else match firstDuplicate d.entries with
        | some i => t.ieEnd c w steps 0x4705 i
        | none => (t.setDict w.ctx n (some { d with isSealed := true, byteBase := fieldAt w.bytes 20 3,
                                                     padId := fieldAt w.bytes 24 3 })).ieEnd c w steps 0 0)

/-- The longest entry at the head of some bytes: its length and ID (13 R275). -/
def longestEntry (l : List (List Byte × Nat)) (bs : List Byte) : Option (Nat × Nat) :=
  (List.range (min 32 bs.length)).foldl (fun (a : Option (Nat × Nat)) k =>
    match l.find? fun p => p.1 == bs.take (k + 1) with
    | some p => some (k + 1, p.2)
    | none => a) none

/-- The tokens of some bytes, each with whether it is a byte fallback; `n` bounds their number (13 R275). -/
def tokensOf (d : Dict) : Nat → List Byte → List (Nat × Bool)
  | 0, _ => []
  | n + 1, bs =>
    match bs with
    | [] => []
    | b :: r =>
      match longestEntry d.entries bs with
      | some (len, i) => (i, false) :: tokensOf d n (bs.drop len)
      | none => (d.byteBase + b.toNat, true) :: tokensOf d n r

/-- TOKEN_MASK operations over a unit's tokens, and how many tokens each masked (13 Table 13.9). -/
def maskTokens (x : Stream) (index : BitVec 64) (l : List Nat) : List Nat × Nat :=
  x.recipe.foldl (fun (a : List Nat × Nat) ent =>
    let hit := fun (j : Nat) => decide (augDraw x.seed index (fieldAt ent 0 2) j / 2 ^ 56 < byteAt ent 4)
    (a.1.mapIdx fun j v => if hit j then fieldAt ent 5 3 else v, a.2 + (List.range a.1.length).countP hit)) (l, 0)

/-- The counters of a unit consumed: tokens produced, fallbacks, masked, discarded (13 Table 13.10). -/
def Stream.countTokens (made fallback masked cut : Nat) (x : Stream) : Stream :=
  (((x.bump 9 made).bump 10 fallback).bump 11 masked).bump 12 cut

/-- TOKENISE (13 R275, R276, R278). -/
def execTokenise (e : Fin 19) (s : State) : Host.Outcome State Fault Refusal :=
  done s (s.runIe e 0x508 52 fun c w n x t =>
    let flags := byteAt w.bytes 54
    let pack := flags.testBit 1
    if x.kind ≠ 3 then t.ieEnd c w 0 0x4708 0
    else match (t.dict w.ctx (byteAt w.bytes 53)).filter (·.isSealed) with
    | none => t.ieEnd c w 0 0x4704 0
    | some d =>
      if pack && x.rowLen == 0 then t.ieEnd c w 0 0x4708 0
      else match x.units with
      | [] => t.ieEnd c w 0 0x1702 0
      | u :: rest =>
        let raw := tokensOf d u.1.length u.1
        let (toks, masked) := if flags.testBit 0 then
            maskTokens x (BitVec.ofNat 64 (fieldAt w.bytes 56 8)) (raw.map (·.1)) else (raw.map (·.1), 0)
        let made := toks.length
        let o1 := t.operand c w 1
        let o2 := t.operand c w 2
        let result := fun k => (o2, le 4 made ++ le 4 k ++ le 4 u.1.length ++ le 4 0)
        let x1 := fun kept => ({ x with units := rest } : Stream).countTokens made (raw.countP (·.2)) masked (made - kept)
        if pack then
          if x.rowLen < x.row.length + made ∧ x.row ≠ [] then t.ieWrite c w [result 0] 0 0x1704 0
          else
            let kept := min made x.rowLen
            (t.setStream w.ctx n (some { x1 kept with
              row := x.row ++ (toks.take kept).map fun v => (v, x.segs + 1),
              segs := x.segs + 1, rowPad := d.padId })).ieWrite c w [result kept] 0 (if kept < made then 0x1705 else 0) 0
        else
          let kept := min made (o1.dim 0)
          let out := ((toks.take kept ++ List.replicate (o1.dim 0 - kept) d.padId).map (le 4)).flatten
          (t.setStream w.ctx n (some (x1 kept))).ieWrite c w [(o1, out), result kept] 0
            (if kept < made then 0x1705 else 0) 0)

/-- PACK_EMIT (13 R279). An OP1 or OP2 that is not ROW_LEN long completes 0x4703 (log 21). -/
def execPackEmit (e : Fin 19) (s : State) : Host.Outcome State Fault Refusal :=
  done s (s.runIe e 0x509 52 fun c w n x t =>
    let o1 := t.operand c w 1
    let o2 := t.operand c w 2
    if x.kind ≠ 3 then t.ieEnd c w 0 0x4708 0
    else if x.row.isEmpty then t.ieEnd c w 0 0x1702 0
    else if o1.dim 0 ≠ x.rowLen ∨ o2.dim 0 ≠ x.rowLen then t.ieEnd c w 0 0x4703 0
    else
      let full := fit x.rowLen (x.rowPad, 0) x.row
      (t.setStream w.ctx n (some { x.bump 13 1 with row := [], segs := 0 })).ieWrite c w
        [(o1, (full.map fun p => le 4 p.1).flatten), (o2, (full.map fun p => le 2 p.2).flatten)] 0 0 0)

/-- The counters of a stream (13 Table 13.10): counter 14 is the picture store's. -/
def State.streamCounter (s : State) (key : Nat) (x : Stream) (i : Nat) : Nat :=
  if i = 14 then s.mem.picCorr.get 0 key else x.counters.get 0 i

/-- The counters of a stream at 0. -/
def State.clearStats (c n : Nat) (x : Stream) (s : State) : State :=
  let t := s.setStream c n (some { x with counters := [] })
  { t with mem := { t.mem with picCorr := t.mem.picCorr.set 0 (c * 16 + n) 0 } }

/-- STREAM_STATS (13 R281). -/
def execStreamStats (e : Fin 19) (s : State) : Host.Outcome State Fault Refusal :=
  done s (s.runIe e 0x50A 52 fun c w n x t =>
    let out := ((List.range 16).map fun i => le 8 (t.streamCounter (w.ctx * 16 + n) x i)).flatten
    (if (byteAt w.bytes 53).testBit 0 then t.clearStats w.ctx n x else t).ieWrite c w [(t.operand c w 1, out)] 2 0 0)

end Sys2Proof.Machine
end

