-- ==== Sys2Proof/Machine/Cameras.lean ====
section
/-! DEFINITION. Camera commands: CSI-2 packets, frame ends, frame records and statistics, trigger pulses and CAM_LOST
(14). Cameras work in RUN, FENCED and FAULT (log 22). -/

namespace Sys2Proof.Machine

/-- The camera timing units run: START has been accepted and no HELD has followed (14 R292). -/
def State.camerasLive (s : State) : Bool := s.active || s.devState == .fault

/-- Receiver `rx` takes packets: its CSI record exists, it is not fenced and its PHY supply stands. -/
def State.rxLive (s : State) (rx : Nat) : Bool :=
  s.camerasLive && (s.recN 0x50 rx).isSome && !s.isFenced (0x22 + rx)

/-- Virtual channel `vc` of receiver `rx` is claimed (14 Table 14.2). -/
def State.vcClaimed (s : State) (rx vc : Nat) : Bool := (s.recN 0x50 rx).any fun r => (r.u 0x10 1).testBit vc

/-- The cameras that a virtual channel feeds. -/
def State.camerasOf (s : State) (rx vc : Nat) : List Nat :=
  if s.vcClaimed rx vc then (List.range 4).filter fun k => (s.sensor k).any fun r => r.u 9 1 == rx * 4 + vc else []

/-- A packet discarded: counted for each camera of its channel, or for the receiver where no camera is named
(14 R283). -/
def State.dropPacket (rx vc : Nat) (s : State) : State :=
  let ks := s.camerasOf rx vc
  if ks.isEmpty then { s with rxDiscards := s.rxDiscards.set 0 rx (add64 (s.rxDiscards.get 0 rx) 1) }
  else ks.foldl (fun t k => t.modCam k (CamSt.bump 6 1)) s

/-- Act on a packet for each camera of its channel: an uncorrectable header discards it, a corrected one is counted
(14 R284). -/
def State.onPacket (rx vc : Nat) (hdr : HeaderEcc) (f : Nat → Rec → State → State) (s : State) : State :=
  if !s.rxLive rx then s
  else if hdr = .uncorrectable ∨ (s.camerasOf rx vc).isEmpty then s.dropPacket rx vc
  else (s.camerasOf rx vc).foldl (fun t k =>
    match t.sensor k with
    | some r => f k r (if hdr = .corrected then t.modCam k (CamSt.bump 5 1) else t)
    | none => t) s

/-! ### Frame records -/

/-- The branches of camera `k`, in branch order. -/
def State.branches (s : State) (k : Nat) : List Rec :=
  (List.range 4).filterMap fun b => (s.recs 0x51).find? fun r => r.u 8 1 == k && r.u 9 1 == b

/-- A write of the ISP into a context's Sward share: EFN bits 7:0 are its epoch tag (14 R290; 08 R151). -/
def State.ispWrite (ctx a efn : Nat) (bs : List Byte) (s : State) : State :=
  match s.ctx ctx with
  | none => s
  | some c => ((s.writeMem .sw none false (c.swBase + a) bs).2).setTags none efn (c.swBase + a) bs.length

/-- A frame record's bytes (14 Table 14.6). -/
def frameRecord (b : Rec) (f : CamFrame) (padded dropped status slot : Nat) : List Byte :=
  le 16 0 ++ le 1 slot ++ le 1 f.flags.toNat ++ le 2 status ++ le 2 dropped ++ le 2 f.bad ++ le 2 f.cut ++ le 2 padded
    ++ le 2 (b.u 0x16 2) ++ le 2 (b.u 0x14 2) ++ le 2 f.sensorFn.toNat ++ le 2 f.bundle.wbB ++ le 2 f.bundle.wbR
    ++ le 2 f.bundle.dgain ++ le 4 f.exposure ++ le 4 f.efn.toNat ++ le 8 (f.ended.getD 0) ++ le 8 f.stamp

/-- Slot index and address of a SWARD branch's next frame. -/
def State.nextSlot (s : State) (k : Nat) (b : Rec) : Nat × Nat :=
  let i := (s.cam k).delivery.get 0 (b.u 9 1) % (b.u 0x19 1)
  (i, b.u 0x1C 4 + i * slotBytes b)

/-- The record line with STATUS 0x1802, in each SWARD branch (14 R290). -/
def State.writingRecords (k : Nat) (f : CamFrame) (s : State) : State :=
  (s.branches k).foldl (fun t b =>
    if b.u 0xB 1 = 0 then
      let (i, a) := t.nextSlot k b
      t.ispWrite (b.u 0x18 1) a f.efn.toNat (frameRecord b f 0 ((t.cam k).dropCount.get 0 (b.u 9 1)) 0x1802 i)
    else t) s

/-! ### CSI_FRAME_START -/

/-- EFN `a` has reached target `t` (it wraps modulo 2^32). -/
def efnReached (a t : Nat) : Bool := decide ((a + 2 ^ 32 - t % 2 ^ 32) % 2 ^ 32 < 2 ^ 31)

/-- The shadow swap at an accepted frame start with this EFN (14 R293, R294). -/
def CamSt.swap (r : Rec) (efn now : Nat) (x : CamSt) : CamSt :=
  let x1 := match x.decided with
    | some (b, t) =>
      if r.u 0x10 1 = 0 ∧ t ≤ now then { x with decided := none, shadow := some (b, (efn + r.u 0x1D 1) % 2 ^ 32) } else x
    | none => x
  match x1.shadow with
  | some (b, t) => if efnReached efn t then { x1 with active := b, shadow := none } else x1
  | none => x1

/-- A frame start for camera `k` (14 R285, R297, R298). -/
def State.frameStart (k : Nat) (r : Rec) (fn : BitVec 16) (s : State) : State :=
  let x := s.cam k
  let trigger := r.u 0x10 1 == 1
  if trigger && x.pulses == x.pulsesAtFrame then s.modCam k fun y => { y.bump 7 1 with resync := true }
  else
    let s1 := s.endFrame k 16
    let efn := if trigger then BitVec.ofNat 32 x.pulses else x.efn + 1
    let lost := x.lostPosted
    let s2 := s1.modCam k fun y =>
      { (y.bump 0 1).swap r efn.toNat s.now with
        efn := efn, pulsesAtFrame := x.pulses, lostPosted := false, lossArmed := !trigger, lastStart := s.now }
    let s3 := if lost then s2.post 0x0804 k none else s2
    if s3.isFenced (0x13 + k) then s3.modCam k fun y => { (y.bump 6 1).undelivered 1 with resync := true }
    else
      let a := (s3.cam k).active
      let carried := x.pulses - r.u 0x1C 1
      let f : CamFrame :=
        { CamFrame.init with stamp := s.now, sensorFn := fn, efn := efn, bundle := a,
                             exposure := if trigger then x.pulseExp.get (r.u 0x34 4) carried else 0 }
      let s4 := s3.modCam k fun y => { y with frame := some f, resync := false }
      if (s4.cam k).done.isEmpty then s4.writingRecords k f else s4

/-- CSI_FRAME_START. -/
def execCsiFrameStart (rx vc : Fin 4) (hdr : HeaderEcc) (fn : BitVec 16) (s : State) : Host.Outcome State Fault Refusal :=
  done s (s.onPacket rx vc hdr fun k r t => t.frameStart k r fn)

/-! ### Lines and frame ends -/

/-- A line packet for a camera with an open frame (14 Table 14.8). -/
def CamFrame.line (r : Rec) (crcOk overrun : Bool) (codes : List Nat) (f : CamFrame) : CamFrame :=
  let px := linePixels r codes
  let w := camWidth r
  if camHeight r ≤ f.lines.length then { f with cut := f.cut + 1, flags := f.flags ||| 8 }
  else
    let short := if px.length < w then 1 else 0
    let long := if w < px.length then 2 else 0
    let f1 := if crcOk then
        { f with lines := f.lines ++ [some (px.take w)], flags := f.flags ||| BitVec.ofNat 8 (short + long) }
      else { f with lines := f.lines ++ [none], bad := f.bad + 1, flags := f.flags ||| 64 }
    if overrun then { f1 with lines := setAt f1.lines (f1.lines.length - 17) none, flags := f1.flags ||| 32 } else f1

/-- CSI_LINE_PACKET: a long packet of image data (14 R283, R284, R295). -/
def execCsiLinePacket (rx vc : Fin 4) (dt : Byte) (hdr : HeaderEcc) (crcOk overrun : Bool) (codes : List Nat) (s : State) :
    Host.Outcome State Fault Refusal :=
  checked (.csiLinePacket rx vc dt hdr crcOk overrun codes) "CSI_LINE_PACKET" s
    (s.onPacket rx vc hdr fun k r t =>
      match (t.cam k).frame with
      | some f =>
        if (t.cam k).resync || camDt r != dt.toNat then t.modCam k (CamSt.bump 6 1)
        else t.modCam k fun y => { y with frame := some (f.line r crcOk overrun codes) }
      | none => t.modCam k (CamSt.bump 6 1))

/-- CSI_FRAME_END (14 R295). -/
def execCsiFrameEnd (rx vc : Fin 4) (hdr : HeaderEcc) (s : State) : Host.Outcome State Fault Refusal :=
  done s (s.onPacket rx vc hdr fun k _ t =>
    if (t.cam k).frame.isSome && !(t.cam k).resync then t.endFrame k 0 else t.modCam k (CamSt.bump 6 1))

/-- CSI_PACKET_DISCARD: any other packet; line start and line end are accepted and ignored, but for a camera that
discards every packet up to its next accepted frame start (14 R283, R285, R298). -/
def execCsiPacketDiscard (rx vc : Fin 4) (dt : Byte) (hdr : HeaderEcc) (s : State) : Host.Outcome State Fault Refusal :=
  done s (s.onPacket rx vc hdr fun k _ t =>
    if (dt = 2 ∨ dt = 3) ∧ !(t.cam k).resync ∧ !t.isFenced (0x13 + k) then t else t.modCam k (CamSt.bump 6 1))

/-- FRAME_END_TIMEOUT: no frame end within PERIOD or LOSS_TIMEOUT after the frame start (14 Table 14.8). -/
def execFrameEndTimeout (cam : Fin 4) (s : State) : Host.Outcome State Fault Refusal :=
  done s (match (s.cam cam).frame, s.sensor cam with
    | some f, some r =>
      let limit := if r.u 0x10 1 = 1 then r.u 0x14 4 else r.u 0x28 4
      if s.camerasLive && decide (f.stamp + limit ≤ s.now) then s.endFrame cam 16 else s
    | _, _ => s)

/-! ### FRAME_RECORD_WRITE -/

/-- The final status of a frame (14 R296). -/
def frameStatus (r : Rec) (f : CamFrame) : Nat :=
  if r.u 0x26 2 < f.repaired (camWidth r) (camHeight r) then 0x1803 else if f.flags = 0 then 0 else 0x1801

/-- A sample row as bytes. -/
def rowBytesOf (b : Rec) (l : List Nat) : List Byte := (l.map (le (sampleBytes b))).flatten

/-- The planes of a slot written row by row. -/
def State.writePlanes (b : Rec) (efn : Nat) : List BranchPlane → Nat → State → State
  | [], _, s => s
  | p :: r, a, s =>
    let pitch := rowPitch b p.w
    let s1 := ((List.range p.h).zip p.rows).foldl (fun t l =>
      t.ispWrite (b.u 0x18 1) (a + l.1 * pitch) efn (rowBytesOf b l.2)) s
    State.writePlanes b efn r (a + p.h * pitch) s1

/-- A SWARD branch's frame: planes, then the complete record; the delivery count (14 R290). -/
def State.deliverSward (k : Nat) (r b : Rec) (f : CamFrame) (o : IspOut) (status : Nat) (s : State) : State :=
  let n := b.u 9 1
  let (i, a) := s.nextSlot k b
  let efn := f.efn.toNat
  let dropped := (s.cam k).dropCount.get 0 n
  let s1 := s.writePlanes b efn (branchPlanes b o) (a + 64)
  let s2 := s1.ispWrite (b.u 0x18 1) a efn (frameRecord b f (f.repaired (camWidth r) (camHeight r)) dropped status i)
  let s3 := s2.modCam k fun x => if status = 0x1803 then { x with dropCount := x.dropCount.set 0 n (satAdd 0xFFFF dropped 1) }
    else { x with delivery := x.delivery.set 0 n (x.delivery.get 0 n + 1), dropCount := x.dropCount.set 0 n 0 }
  if (b.u 0x1A 2).testBit 0 then
    s3.post 0x0801 (k + n * 4 + i * 16 + efn % 2 ^ 24 * 256) (some (b.u 0x18 1)) else s3

/-- An IE branch's frame joins the camera stream that is open for it, or is discarded (14 R291; 13 R264). -/
def State.deliverIe (k : Nat) (b : Rec) (f : CamFrame) (o : IspOut) (status : Nat) (s : State) : State :=
  match s.intake.streams.find? fun p => p.2.any fun x => x.kind == 2 && x.source == k * 4 + b.u 9 1 with
  | some (key, some x) =>
    let x1 := { x with ordinal := x.ordinal + 1 }
    if status = 0x1803 then s.setStream (key / 16) (key % 16) (some ((x1.bump 2 1).skip 1))
    else
      let p : Picture := { Picture.init with
        width := b.u 0x14 2, height := b.u 0x16 2, wide := branchOut b == 3, ordinal := x1.ordinal, stamp := f.stamp, refresh := true }
      let (q, s1) := s.storePicture key x1 p ((branchPlanes b o).map fun p => p.rows.flatten)
      s1.setStream (key / 16) (key % 16) (some ((x1.bump 0 1).offer q))
  | _ => s

/-- The statistics record, its header last, and its event (14 section 14.6). -/
def State.writeStats (k : Nat) (r : Rec) (f : CamFrame) (o : IspOut) (status : Nat) (s : State) : State :=
  let flags := r.u 0x1E 2
  if !flags.testBit 2 then s
  else
    let efn := f.efn.toNat
    let ctx := r.u 0xFA 1
    let a := r.u 0xFC 4 + efn % (r.u 0xFB 1) * 2432
    let bs := statsRecord r f o status (s.cam k).counters
    let s1 := (s.ispWrite ctx (a + 64) efn (bs.drop 64)).ispWrite ctx a efn (bs.take 64)
    if flags.testBit 3 then s1.post 0x0802 (k + efn % 2 ^ 24 * 256) (some ctx) else s1

/-- The governor after a statistics record of a delivered frame: the bundle waits for its pulse or frame start, and
replaces one still pending (14 R293). -/
def State.governCam (k : Nat) (r : Rec) (f : CamFrame) (o : IspOut) (status : Nat) (s : State) : State :=
  if !(r.u 0x1E 2).testBit 2 || status == 0x1803 then s
  else match govern r f.bundle o with
    | some b => s.modCam k fun x => { x with decided := some (b, s.now + 20000), shadow := none }
    | none => s

/-- FRAME_RECORD_WRITE: the oldest ended frame of a camera is finished on every branch (14 R290, R296). -/
def execFrameRecordWrite (cam : Fin 4) (s : State) : Host.Outcome State Fault Refusal :=
  done s (match (s.cam cam).done, s.sensor cam with
    | f :: rest, some r =>
      if !s.camerasLive || s.isFenced (0x13 + cam) || s.isFenced 0x60 then s
      else
        let o := ispRun r f
        let st := frameStatus r f
        let s1 := s.modCam cam fun x => { (x.bump 1 (b2n (st == 0x1801))).bump 2 (b2n (st == 0x1803)) with done := rest }
        let s2 := (s1.branches cam).foldl (fun t b =>
          if b.u 0xB 1 = 0 then t.deliverSward cam r b f o st else t.deliverIe cam b f o st) s1
        let s3 := (s2.writeStats cam r f o st).governCam cam r f o st
        match rest.head?.or (s3.cam cam).frame with
        | some g => s3.writingRecords cam g
        | none => s3
    | _, _ => s)

/-! ### Trigger pulses and CAM_LOST -/

/-- CAM_TRIG takes a level, once the outputs have left their reset state (14 R292; 03 R64). -/
def State.trigLevel (k : Nat) (level : Bool) (s : State) : State :=
  if s.outputsUp && (s.cam k).trigPin != level then (s.modCam k fun y => { y with trigPin := level }).emit (.trig k level) else s

/-- TRIGGER_PULSE: the pulse rises at its Milestone instant with the exposure in force; a decided bundle whose time has
come rides on it (14 R292, R293, R297). -/
def execTriggerPulse (cam : Fin 4) (s : State) : Host.Outcome State Fault Refusal :=
  let x := s.cam cam
  done s (match x.nextPulse, s.sensor cam with
    | some t, some r =>
      if !s.camerasLive || r.u 0x10 1 != 1 || decide (s.now < t) then s
      else
        let p := x.pulses + 1
        let x1 := match x.decided with
          | some (b, due) => if due ≤ t then
              { x with decided := none, exposureNow := b.exposure, shadow := some (b, (p + r.u 0x1D 1) % 2 ^ 32) } else x
          | none => x
        let s1 := s.modCam cam fun _ =>
          { x1 with pulses := p, trig := true, trigFall := t + x1.exposureNow, nextPulse := some (t + r.u 0x14 4),
                    pulseExp := Map.set 0 (x1.pulseExp.filter fun e => decide (p ≤ e.1 + 8)) p x1.exposureNow,
                    lossArmed := true, lastStart := if x1.lossArmed then x1.lastStart else t }
        s1.trigLevel cam (r.u 0x11 1 == 0)
    | _, _ => s)

/-- TRIGGER_PULSE_END: the pulse falls after its exposure (14 R292). -/
def execTriggerPulseEnd (cam : Fin 4) (s : State) : Host.Outcome State Fault Refusal :=
  let x := s.cam cam
  done s (if s.camerasLive && x.trig && decide (x.trigFall ≤ s.now) then
    (s.modCam cam fun y => { y with trig := false }).trigLevel cam ((s.sensor cam).any fun r => r.u 0x11 1 != 0) else s)

/-- CAM_LOST: no frame start accepted for LOSS_TIMEOUT, posted once (14 R297). -/
def execCamLost (cam : Fin 4) (s : State) : Host.Outcome State Fault Refusal :=
  let x := s.cam cam
  done s (match s.sensor cam with
    | some r =>
      if s.camerasLive && x.lossArmed && !x.lostPosted && decide (x.lastStart + r.u 0x28 4 ≤ s.now) then
        (s.modCam cam fun y => { y with lostPosted := true }).post 0x0803 cam none
      else s
    | none => s)

/-- The camera timing unit as START resets it to its SENSOR record (14 R292): the first pulse comes at the first Milestone
value after RUN entry that is congruent to PHASE modulo PERIOD. -/
def CamSt.start (r : Rec) (now : Nat) : CamSt :=
  let b : Bundle := { exposure := r.u 0x34 4, dgain := r.u 0x38 2, wbR := r.u 0x3C 2, wbB := r.u 0x3E 2 }
  let per := r.u 0x14 4
  let free := r.u 0x10 1 == 0
  { CamSt.init with active := b, exposureNow := b.exposure, lastStart := now, lossArmed := free,
                    nextPulse := if free || per == 0 then none
                      else some (now + 1 + (r.u 0x18 4 + per - (now + 1) % per) % per) }

/-- START of camera `k`: CAM_MCLK runs, and a CAM_TRIG that is active low goes to its inactive level (14 R292). -/
def State.startCamera (s : State) (k : Nat) : State :=
  match s.sensor k with
  | none => s
  | some r =>
    let div := r.u 0x12 2
    let s1 := s.modCam k fun _ => { CamSt.start r s.now with mclk := if s.outputsUp then div else 0 }
    let s2 := if s.outputsUp && decide (div ≠ 0) then s1.emit (.mclk k div) else s1
    s2.trigLevel k (r.u 0x10 1 == 1 && r.u 0x11 1 == 1)

/-- START resets the camera timing units (14 R292). -/
def State.startCameras (s : State) : State :=
  (List.range 4).foldl State.startCamera { s with rxDiscards := [], cams := [] }

end Sys2Proof.Machine
end

