-- ==== Sys2Proof/Machine/Encoders.lean ====
section
/-! DEFINITION. Encoder channels (18 section 18.2): SSI transactions, ABZ counting, Z edges, and the position that a
sample gives to the loops that name the channel. -/

namespace Sys2Proof.Machine

/-- The Control Island works for the loops and ports: START has been accepted and no HELD has followed (16 R328, R329;
18 R383, R384). -/
def State.islandLive (s : State) : Bool := s.active || s.devState == .fault

/-- The PORT record of a kind and unit (18 Table 18.2). -/
def State.port (s : State) (kind unit : Nat) : Option Rec := (s.recs 0x70).find? fun r => r.u 8 1 == kind && r.u 9 1 == unit

/-- The ENCODER record of channel `ch`, while the channel works. -/
def State.encRec (s : State) (ch : Nat) : Option Rec := if s.isFenced (0x30 + ch) then none else s.port 1 ch

/-- An ENCODER record in ABZ mode. -/
def encAbz (r : Rec) : Bool := r.u 0xC 1 == 1

/-- Clock cycles of an SSI transaction (18 R367). -/
def ssiCycles (r : Rec) : Nat := 1 + r.u 0xE 1 + r.u 0x10 1 + r.u 0x12 1

/-- The input-ready delay of a channel in ns, a broken ns counting whole (18 R367, R370). -/
def encDelay (r : Rec) : Nat :=
  if encAbz r then 100 else (ssiCycles r * 1000000 + r.u 0x14 2 - 1) / r.u 0x14 2 + r.u 0x16 2 + 200

/-- The loops that name channel `ch`. -/
def State.encLoops (s : State) (ch : Nat) : List Nat :=
  (List.range 32).filter fun l => (s.loopRec l).any fun r => r.u 0xA 1 == ch

/-- A 32-bit Gray code as binary (18 R369). -/
def grayToBin (g : Nat) : Nat :=
  [1, 2, 4, 8, 16].foldl (fun (x k : Nat) => x ^^^ (x >>> k)) g

/-- A CRC of `w` bits over bits in received order, MSB first, initial value `c`, no reflection, no final inversion. -/
def crcBits (w poly c : Nat) (l : List Bool) : Nat :=
  l.foldl (fun c b => (c * 2 % 2 ^ w) ^^^ (if (c.testBit (w - 1)) != b then poly else 0)) c

/-- The bits of a number, highest first. -/
def bitsDown (w n : Nat) : List Bool := ((List.range w).map fun i => n.testBit i).reverse

/-- The number that bits spell, highest first. -/
def bitsNat (l : List Bool) : Nat := l.foldl (fun n b => 2 * n + b2n b) 0

/-- Bits `at_` to `at_ + n - 1` of what an SSI transaction read; a bit that the observation leaves out reads high, as an
idle data line does. -/
def ssiField (bits : List Bool) (at_ n : Nat) : Nat := bitsNat ((List.range n).map fun i => bits.getD (at_ + i) true)

/-- Code, status bits and CRC of an SSI transaction, MSB first, after the discarded first bit (18 R367). -/
def ssiParts (r : Rec) (bits : List Bool) : Nat × Nat × Nat :=
  let w := r.u 0xE 1
  let n := r.u 0x10 1
  (ssiField bits 1 w, ssiField bits (1 + w) n, ssiField bits (1 + w + n) (r.u 0x12 1))

/-- The cause that makes an SSI sample invalid, the first that holds in the order of 18 R368; 0 for a valid sample. -/
def ssiCause (r : Rec) (low : Bool) (bits : List Bool) : Nat :=
  let n := r.u 0x10 1
  let (code, status, crc) := ssiParts r bits
  if low then 1
  else if bits.getD 0 true then 2
  else if (List.range n).any fun i => status.testBit i == (r.u 0x11 1).testBit i then 3
  else if r.u 0x12 1 = 6 ∧ crcBits 6 (r.u 0x13 1 % 64) 0 (bitsDown (r.u 0xE 1) code ++ bitsDown n status) ≠ crc then 4
  else 0

/-- An invalid sample: counted, its cause kept; position and previous code stay (18 R368, R369). -/
def EncSt.reject (cause : Nat) (x : EncSt) : EncSt :=
  { x with errCount := satAdd 0xFFFFFFFF x.errCount 1, invalid := true, cause := cause }

/-- A valid SSI code: the first gives the position outright, a later one moves it by the signed difference
(18 R369). -/
def EncSt.takeCode (r : Rec) (code : Nat) (x : EncSt) : EncSt :=
  let w := r.u 0xE 1
  let c := (if r.u 0xD 1 = 1 then grayToBin (code % 2 ^ w) else code) % 2 ^ w
  let lsb : Int := 2 ^ (24 - r.u 0xF 1)
  let p := match x.codePrev with
    | none => (c : Int) * lsb + r.i 0x28 8
    | some d => x.pos + signed w (c + 2 ^ w - d) * lsb
  { x with pos := wrapTo 48 p, codePrev := some c, invalid := false }

/-- A sample of a channel, valid or invalid, in its registers (18 R368 to R370). An observation of the other mode is
none that this channel can make. -/
def EncSt.take (r : Rec) (sample : EncSample) (x : EncSt) : EncSt :=
  match sample with
  | .ssi low bits =>
    if encAbz r then x
    else match ssiCause r low bits with
      | 0 => x.takeCode r (ssiParts r bits).1
      | k => x.reject k
  | .abz =>
    if !encAbz r then x
    else if x.latchedBad then x.reject 5
    else { x with pos := wrapTo 48 (rneInt (x.latched * 2 ^ 24) (r.u 0x1C 4) + r.i 0x28 8), invalid := false }

/-- The observation fits the channel's mode. -/
def sampleFits (r : Rec) : EncSample → Bool
  | .ssi _ _ => !encAbz r
  | .abz => encAbz r

/-- A channel latches its count and begins its sample (18 R367, R370). -/
def EncSt.latch (at_ : Nat) (x : EncSt) : EncSt :=
  { x with busy := true, readyAt := at_, latched := x.count, latchedBad := x.illegal, illegal := false }

/-- The clock burst of an SSI transaction on ENCn_P0, once the outputs have left their reset state (18 R367; 03 R64). -/
def State.encClock (ch : Nat) (r : Rec) (s : State) : State :=
  if s.outputsUp && !encAbz r then s.emit (.encClock ch (ssiCycles r)) else s

/-- A channel samples for instant `S` of a loop; a channel already sampling for `S` goes on (18 section 18.2). -/
def State.encSample (ch at_ : Nat) (s : State) : State :=
  match s.encRec ch with
  | none => s
  | some r =>
    let due := at_ + encDelay r
    if (s.enc ch).readyAt = due then s else (s.modEnc ch (EncSt.latch due)).encClock ch r

/-- The position of channel `ch` reaches each of its loops that waits for it (15 Table 15.6 step 2, R318). -/
def State.encDeliver (ch : Nat) (s : State) : State :=
  let x := s.enc ch
  (s.encLoops ch).foldl (fun t l => t.modLoop l fun y =>
    if y.sample.isSome && !y.inReady then { y with inReady := true, inPos := x.pos, inValid := !x.invalid } else y) s

/-- ENCODER_POSITION_READY: the input-ready delay of a sample in progress has passed (18 R367 to R370). -/
def execEncoderPositionReady (ch : Fin 16) (sample : EncSample) (s : State) : Host.Outcome State Fault Refusal :=
  done s (match s.encRec ch with
    | none => s
    | some r =>
      let x := s.enc ch
      if s.islandLive && x.busy && decide (x.readyAt ≤ s.now) && sampleFits r sample then
        (s.modEnc ch fun y => { y.take r sample with busy := false }).encDeliver ch
      else s)

/-- ENCODER_FREE_SAMPLE: a channel that no loop names samples once for each whole millisecond (18 section 18.2). -/
def execEncoderFreeSample (ch : Fin 16) (sample : EncSample) (s : State) : Host.Outcome State Fault Refusal :=
  done s (match s.encRec ch with
    | none => s
    | some r =>
      if s.islandLive && (s.encLoops ch).isEmpty && decide ((s.enc ch).readyAt / 1000000 < s.now / 1000000)
          && sampleFits r sample then
        (s.modEnc ch fun y => { (y.latch s.now).take r sample with busy := false }).encClock ch r
      else s)

/-- The input filter rejects pulses shorter than 20 ns (18 R370). -/
def filtered (heldNs : Nat) : Bool := decide (20 ≤ heldNs)

/-- ENC_Z_EDGE: a rising Z edge, whose high level passes the filter, captures the count and its Milestone, or homes the count once after
START (18 R370, R371). -/
def execEncZEdge (z : EncEdge) (s : State) : Host.Outcome State Fault Refusal :=
  done s (match s.encRec z.ch with
    | none => s
    | some r =>
      if !s.islandLive || !encAbz r || !filtered z.heldNs then s
      else match r.u 0x20 1 with
        | 1 => s.modEnc z.ch fun y => { y with zSeen := true, zCap := y.count, zStamp := s.now }
        | 2 => s.modEnc z.ch fun y => { y with zSeen := true, homed := true, count := if y.homed then y.count else 0 }
        | _ => s.modEnc z.ch fun y => { y with zSeen := true })

/-- The step that one A or B edge makes: A leads B on the way 00, A, AB, B (18 R370; log 23 for the sign). -/
def abStep (a0 b0 a b : Bool) : Int :=
  let ahead := if a0 != a then a != b0 else b == a0
  if ahead == Config.abzForward then 1 else -1

/-- The count after new filtered levels of A and B: both changed together is an illegal transition, which moves no count
(18 R370). -/
def EncSt.edge (a b : Bool) (x : EncSt) : EncSt :=
  if x.levA != a && x.levB != b then { x with illegal := true }
  else if x.levA == a && x.levB == b then x
  else { x with count := wrapTo 48 (x.count + abStep x.levA x.levB a b) }

/-- ENC_AB_EDGE: levels of A and B that hold after an edge. The channel follows the levels whatever the
device state, and counts while it works in ABZ mode (18 R370). -/
def execEncAbEdge (edge : EncEdge) (a b : Bool) (s : State) : Host.Outcome State Fault Refusal :=
  done s (
    if !filtered edge.heldNs then s
    else s.modEnc edge.ch fun y => { (if (s.encRec edge.ch).any encAbz then y.edge a b else y) with levA := a, levB := b })

/-- START clears the channels but for the levels they see (18 R385); a channel that no loop names samples next at the
following whole millisecond. -/
def State.startEncoders (s : State) : State :=
  (List.range 16).foldl (fun (t : State) ch => t.modEnc ch fun y =>
    { EncSt.init with levA := y.levA, levB := y.levB, readyAt := if (s.port 1 ch).isSome then s.now else 0 }) s

end Sys2Proof.Machine
end

