-- ==== Sys2Proof/Machine/Queues.lean ====
section
/-! DEFINITION. Event rings and MSI-X unmasking (06 section 6.7, 04 section 4.1.2), and the doorbell page (07 section
7.3). -/

namespace Sys2Proof.Machine

/-! ### Event rings -/

/-- The function whose registers a requester reaches: QSPI has the PF0 view (04 section 4.2). -/
def fnOf : Requester → Nat
  | .pcie f => f
  | .qspi => 0

/-- The event ring of a function has no room for a record (06 R128, R130). -/
def FnState.ringFull (x : FnState) : Bool :=
  x.evEntries == 0 || (x.evTail + x.evEntries - x.evHead) % x.evEntries == x.evEntries - 1

/-- An event record's 16 bytes (06 Table 6.13). -/
def eventBytes (e : EvRecord) (phase : Bool) : List Byte :=
  le 2 (b2n phase + (match e.ctx with | some c => 2 + c % 256 * 256 | none => 0)) ++ le 2 e.code.toNat ++
    le 4 e.payload.toNat ++ le 8 e.stamp

/-- Write one record at TAIL, advance TAIL, and signal when HEAD equalled the TAIL it advanced (06 R129, R131); PF0's
ring also sets QSPI_STAT.EVENT (04 Table 4.9). -/
def State.ringWrite (f : Nat) (e : EvRecord) (s : State) : State :=
  let x := s.fn f
  let s1 := s.writeDev none (x.evBase + x.evTail * 16) (eventBytes e x.evPhase)
  let t := (x.evTail + 1) % x.evEntries
  let s2 := s1.modFn f fun y => { y with evTail := t, evPhase := if t = 0 then !y.evPhase else y.evPhase }
  let s3 := if x.evHead = x.evTail then s2.signal f 1025 else s2
  if f = 0 then s3.qspiSet 2#4 else s3

/-- The EVENT_LOST record that comes first when room returns (06 R130). -/
def State.ringLost (f : Nat) (s : State) : State :=
  let x := s.fn f
  if x.evLostSince = 0 ∨ x.ringFull ∨ s.held f then s
  else (s.ringWrite f { code := 0x0003#16, payload := BitVec.ofNat 32 x.evLostSince, stamp := s.now, ctx := none }).modFn f
    fun y => { y with evLostSince := 0 }

/-- The event waits for the answer of the Signpost command that caused it (06 R126); those posted after it wait too, as
records are written in posting order (R129). -/
def State.awaitsAnswer (s : State) (e : EvRecord) : Bool := e.owed && (s.fn 0).spOwed.isSome

/-- EVENT_WRITE: the oldest posted event of a function goes to its ring, after an EVENT_LOST record where one is owed,
which also goes alone; on a full ring the event is counted lost; while the events are held, or wait for an answer,
nothing happens (06 R126, R129, R130, R133). -/
def execEventWrite (fn : Fin 16) (s : State) : Host.Outcome State Fault Refusal :=
  done s (
    match (s.fn fn).posted with
    | [] => s.ringLost fn
    | e :: rest =>
      if s.held fn || s.awaitsAnswer e then s
      else if (s.fn fn).ringFull then
        s.modFn fn fun x => { x with posted := rest, evLost := satAdd 0xFFFFFFFF x.evLost 1,
                                     evLostSince := satAdd 0xFFFFFFFF x.evLostSince 1 }
      else
        let s1 := s.ringLost fn
        if (s1.fn fn).ringFull then s1
        else (s1.modFn fn fun x => { x with posted := x.posted.drop 1 }).ringWrite fn e)

/-- A write to EV_HEAD: it takes a HEAD within the written records, signals again when HEAD differs from TAIL, and lets
an owed EVENT_LOST record out when it makes room (06 R130, R131). -/
def State.writeEvHead (f value : Nat) (s : State) : State :=
  let x := s.fn f
  let v := value % 65536
  let n := x.evEntries
  if n = 0 ∨ n ≤ v ∨ (x.evTail + n - x.evHead) % n < (v + n - x.evHead) % n then s
  else
    let s1 := s.modFn f fun y => { y with evHead := v }
    (if v ≠ x.evTail then s1.signal f 1025 else s1).ringLost f

/-- EV_HEAD_WRITE. -/
def execEvHeadWrite (p : Requester) (value : BitVec 32) (s : State) : Host.Outcome State Fault Refusal :=
  done s (s.writeEvHead (fnOf p) value.toNat)

/-- Send a pending vector that can now be sent; vector 1,024 only while STATE is still DONE (06 R127). -/
def State.sendPending (f v : Nat) (s : State) : State :=
  let x := s.fn f
  if x.msixPending.get false v && x.msixEnable && !x.msixFnMask && x.msixOpen.get false v && s.link.up then
    let s1 := s.modFn f fun y => { y with msixPending := y.msixPending.set false v false }
    if v = 1024 ∧ x.spState ≠ .done then s1 else s1.emit (.msix f v)
  else s

/-- MSIX_UNMASK: the function's MSI-X is enabled and unmasked, or one vector is unmasked; what was left pending is sent
(06 R127, 04 Table 4.4). -/
def execMsixUnmask (fn : Fin 16) (vector : Option (Fin 1088)) (s : State) : Host.Outcome State Fault Refusal :=
  done s (
    match vector with
    | some v => (s.modFn fn fun x => { x with msixOpen := x.msixOpen.set false v true }).sendPending fn v
    | none =>
      let s1 := s.modFn fn fun x => { x with msixEnable := true, msixFnMask := false }
      ((s1.fn fn).msixPending.map (·.1)).foldl (fun t v => t.sendPending fn v) s1)

/-! ### Doorbell pages -/

/-- The live queue that a function's BAR2 page offers: PF0 reaches every page, a VF those of its contexts (04 R72). -/
def State.liveQueue (s : State) (f c q : Nat) : Option QueueInfo :=
  if f = 0 ∨ s.ctxFn c = some f then s.queueInfo c q else none

/-- The word that a read at an aligned BAR2 offset gives: the registers of a live queue, and zeros elsewhere (04 R72, 07
Table 7.6). Such a read has no effect, so no command stands for it. -/
def State.readBar2 (s : State) (f off : Nat) : Nat :=
  match if off % 4096 < 0x100 then s.liveQueue f (off / 4096) (off % 4096 / 64) else none with
  | none => 0
  | some i =>
    let q := s.queue i.ctx i.queue
    match off % 64 with
    | 4 => q.cqHead.toNat
    | 8 => q.dbValue.toNat * 2 ^ 16 + q.dbStatus.toNat
    | 12 => q.cqTail.toNat
    | _ => 0

/-- The status of an SQ_TAIL write (07 R140). -/
def State.sqCheck (s : State) (i : QueueInfo) (value : BitVec 16) : Nat :=
  let q := s.queue i.ctx i.queue
  let new := (value - q.sqTail).toNat
  if !s.active then 0x2204
  else if q.halted then 0x2203
  else if i.depth < new then 0x2202
  else if i.depth < (q.sqTail - q.cqHead).toNat + new then 0x2201
  else 0

/-- The status of a CQ_HEAD write (07 R141). -/
def State.cqCheck (s : State) (i : QueueInfo) (value : BitVec 16) : Nat :=
  let q := s.queue i.ctx i.queue
  if !(s.active || s.devState == .fault) then 0x2204
  else if (q.cqTail - q.cqHead).toNat < (value - q.cqHead).toNat then 0x2205
  else 0

/-- DB_RESULT and the doorbell counters of a judged write (07 Table 7.6, Table 7.8). -/
def State.doorbell (i : QueueInfo) (status : Nat) (value : BitVec 16) (s : State) : State :=
  (s.modQueue i.ctx i.queue fun x =>
      { x with dbStatus := BitVec.ofNat 16 status, dbValue := if status = 0 then 0 else value }).count i.ctx
    (if status = 0 then 6 else if status = 0x2201 then 7 else 8) 1

/-- A write to SQ_TAIL of a live queue: the whole write is taken or refused (07 R140). -/
def State.writeSqTail (f c q : Nat) (value : BitVec 16) (s : State) : State :=
  match s.liveQueue f c q with
  | none => s
  | some i =>
    let st := s.sqCheck i value
    let s1 := s.doorbell i st value
    if st = 0 then s1.modQueue c q fun x => { x with sqTail := value } else s1

/-- A write to CQ_HEAD of a live queue; a taken value that differs from CQ_TAIL signals the queue's vector again
(07 R138, R141). -/
def State.writeCqHead (f c q : Nat) (value : BitVec 16) (s : State) : State :=
  match s.liveQueue f c q with
  | none => s
  | some i =>
    let st := s.cqCheck i value
    let s1 := s.doorbell i st value
    if st = 0 then
      let s2 := s1.modQueue c q fun x => { x with cqHead := value }
      if value ≠ (s.queue c q).cqTail then s2.signal ((s.ctxFn c).getD 0) (c * 4 + q) else s2
    else s1

/-- SQ_TAIL_WRITE; bits 31:16 are reserved. -/
def execSqTailWrite (fn : Fin 16) (ctx : Fin 256) (q : Fin 4) (value : BitVec 32) (s : State) :
    Host.Outcome State Fault Refusal :=
  done s (s.writeSqTail fn ctx q (value.setWidth 16))

/-- CQ_HEAD_WRITE; bits 31:16 are reserved. -/
def execCqHeadWrite (fn : Fin 16) (ctx : Fin 256) (q : Fin 4) (value : BitVec 32) (s : State) :
    Host.Outcome State Fault Refusal :=
  done s (s.writeCqHead fn ctx q (value.setWidth 16))

end Sys2Proof.Machine
end

