-- ==== Sys2Proof/Machine/Can.lean ====
section
/-! DEFINITION. The CAN controllers: transmit buffers, queue and reference slot, arbitration, reception, error states and
setpoint frames (17). -/

namespace Sys2Proof.Machine

/-! ### Records and frames -/

/-- The CAN record of controller `c` (17 Table 17.2). -/
def State.canRec (s : State) (c : Nat) : Option Rec := s.recN 0x40 c

/-- MODE of a CAN record: 0 NORMAL, 1 LISTEN_ONLY, 2 INT_LOOPBACK, 3 EXT_LOOPBACK. -/
def canMode (r : Rec) : Nat := r.u 9 1

/-- FLAGS bits of a CAN record. -/
def canFlag (r : Rec) (i : Nat) : Bool := (r.u 0xA 1).testBit i

/-- The lead loop of controller `c`'s setpoint frame: it claims TXB0 (15 R302). -/
def State.leadLoop (s : State) (c : Nat) : Option Nat :=
  (List.range 32).find? fun l => (s.loopRec l).any fun r => r.u 0x19 1 == 1 && r.u 0x1A 1 == c && r.u 0x1C 1 == l

/-- TXB `n` is written by host software (17 Table 17.2). -/
def canHostTxb (r : Rec) (n : Nat) : Bool := (r.u 0xB 1).testBit n

/-- Data bytes that a DLC names (ISO 11898-1). -/
def dlcLen (fdf : Bool) (dlc : Nat) : Nat :=
  if dlc ≤ 8 then dlc else if fdf then [12, 16, 20, 24, 32, 48, 64].getD (dlc - 9) 64 else 8

/-- The DLC of a frame of `n` bytes. -/
def lenDlc (n : Nat) : Nat := if n ≤ 8 then n else 9 + ([12, 16, 20, 24, 32, 48].filter (· < n)).length

/-- A frame from the 72 bytes of a buffer (17 Table 17.8). -/
def frameOfBytes (l : List Byte) : CanFrame :=
  let a := fieldAt l 0 4
  let b := fieldAt l 4 4
  { id := BitVec.ofNat 29 a, ide := a.testBit 29, rtr := a.testBit 30, dlc := BitVec.ofNat 4 b, fdf := b.testBit 4,
    brs := b.testBit 5, data := (l.drop 8).take 64 }

/-- The 72 bytes of a buffer that hold a frame. -/
def bytesOfFrame (f : CanFrame) : List Byte :=
  le 4 (f.id.toNat + b2n f.ide * 2 ^ 29 + b2n f.rtr * 2 ^ 30) ++ le 4 (f.dlc.toNat + b2n f.fdf * 16 + b2n f.brs * 32)
    ++ fit 64 0 f.data

/-- A buffer's bytes spell a frame that is valid for the record (17 R353 check 5; log 24). -/
def frameValid (r : Rec) (l : List Byte) : Bool :=
  let a := fieldAt l 0 4
  let b := fieldAt l 4 4
  let f := frameOfBytes l
  !a.testBit 31 && decide (b / 64 = 0) && (!f.fdf || canFlag r 0) && (!f.brs || f.fdf) && (!f.rtr || !f.fdf)
    && (f.fdf || decide (f.dlc.toNat ≤ 8)) && (f.ide || decide (f.id.toNat < 2048))

/-- The bytes of a buffer at a region offset. -/
def CanSt.buffer (x : CanSt) (off : Nat) : List Byte := x.area.bytes off 72

/-- Add to a controller's counter (17 R364). -/
def CanSt.bump (i n : Nat) (x : CanSt) : CanSt := { x with counters := x.counters.set 0 i (add64 (x.counters.get 0 i) n) }

/-! ### Transmission -/

/-- TXB `n` fails with a cause (17 Table 17.8). -/
def CanSt.fail (n cause : Nat) (x : CanSt) : CanSt :=
  { x with pend := x.pend.set n false, failed := x.failed.set n true, cause := x.cause.set n cause,
           abortReq := x.abortReq.set n false }

/-- The status of a TX_CMD write, in the order of 17 R353. -/
def State.txCheck (s : State) (c cmd : Nat) : Nat :=
  let x := s.can c
  let req := fun n => cmd.testBit n
  let abt := fun n => cmd.testBit (4 + n)
  let txbs := [0, 1, 2]
  match s.canRec c with
  | none => 0x2B05
  | some r =>
    if !s.islandLive || s.isFenced (0x28 + c) || canMode r == 1 || decide (2 ≤ x.state) then 0x2B05
    else if txbs.any (fun n => req n && abt n) || cmd.testBit 3 || cmd.testBit 7 || decide (cmd / 512 ≠ 0) then 0x2B06
    else if txbs.any fun n => (req n || abt n) && !canHostTxb r n then 0x2B04
    else if txbs.any fun n => req n && x.pend.getD n false then 0x2B03
    else if txbs.any (fun n => req n && !frameValid r (x.buffer (0x80 * n)))
        || (cmd.testBit 8 && !frameValid r (x.buffer 0x180)) then 0x2B02
    else if cmd.testBit 8 && decide (32 ≤ x.txq.length) then 0x2B01
    else 0

/-- What a taken TX_CMD does to one TXB (17 R353, R355). -/
def CanSt.command (cmd n : Nat) (x : CanSt) : CanSt :=
  if cmd.testBit n then { x with pend := x.pend.set n true }
  else if cmd.testBit (4 + n) && x.pend.getD n false then
    if x.onBus = some (.txb n) then { x with abortReq := x.abortReq.set n true } else x.fail n 3
  else x

/-- A write of TX_CMD: taken whole or refused whole (17 R353). In VFs it is ignored (17 section 17.9). -/
def State.writeTxCmd (p : Requester) (c cmd : Nat) (s : State) : State :=
  if fnOf p ≠ 0 then s
  else
    let st := s.txCheck c cmd
    s.modCan c fun x =>
      let y := { x with txResult := BitVec.ofNat 16 st }
      if st ≠ 0 then y
      else
        let z := [0, 1, 2].foldl (fun a n => a.command cmd n) y
        if cmd.testBit 8 then { z with txq := z.txq ++ [frameOfBytes (z.buffer 0x180)] } else z

/-- CAN_REQ: a TX_CMD write that requests TXBs (17 R353). -/
def execCanReq (p : Requester) (c : Fin 4) (cmd : BitVec 32) (s : State) : Host.Outcome State Fault Refusal :=
  done s (s.writeTxCmd p c cmd.toNat)

/-- CAN_ABORT: a TX_CMD write that aborts TXBs (17 R355). -/
def execCanAbort (p : Requester) (c : Fin 4) (cmd : BitVec 32) (s : State) : Host.Outcome State Fault Refusal :=
  done s (s.writeTxCmd p c cmd.toNat)

/-- CAN_PUSH: a TX_CMD write that queues the staged frame (17 R353). -/
def execCanPush (p : Requester) (c : Fin 4) (cmd : BitVec 32) (s : State) : Host.Outcome State Fault Refusal :=
  done s (s.writeTxCmd p c cmd.toNat)

/-- A write into the frame area of a TXB: taken, or without effect on a pending or claimed buffer (17 R353, R363), or at
a FENCED controller (01 R23). -/
def State.writeTxb (p : Requester) (c n off : Nat) (data : List Byte) (s : State) : State :=
  if fnOf p ≠ 0 ∨ s.isFenced (0x28 + c) then s
  else
    let x := s.can c
    let st := if x.pend.getD n false then 0x2B03
              else if (s.canRec c).any fun r => !canHostTxb r n then 0x2B04 else 0
    s.modCan c fun x =>
      { x with txResult := BitVec.ofNat 16 st,
               area := if st = 0 then x.area.store (0x80 * n + off) (data.take (72 - off)) else x.area }

/-- CAN_TXB_WRITE. -/
def execCanTxbWrite (p : Requester) (c : Fin 4) (txb : Fin 3) (off : Fin 72) (data : List Byte) (s : State) :
    Host.Outcome State Fault Refusal :=
  done s (s.writeTxb p c txb off data)

/-- CYCLE of the reference message in the slot (17 R361). -/
def CanSt.cycle (x : CanSt) : Nat := (x.refCount + 63) % 64

/-- The reference message, with the stamp of its own SOF (17 R361). -/
def CanSt.refFrame (r : Rec) (now : Nat) (x : CanSt) : CanFrame :=
  { id := BitVec.ofNat 29 (r.u 0x34 2), ide := false, rtr := false, dlc := 8, fdf := false, brs := false,
    data := le 1 x.cycle ++ le 7 now }

/-- The arbitration value of a frame: 11 bits, base before extended, then the low 18 bits (17 R352). -/
def arbValue (f : CanFrame) : Nat :=
  if f.ide then f.id.toNat / 2 ^ 18 * 2 ^ 19 + 2 ^ 18 + f.id.toNat % 2 ^ 18 else f.id.toNat % 2048 * 2 ^ 19

/-- The pending sources but for the reference slot, TXBs first, with their frames. -/
def CanSt.sources (x : CanSt) : List (CanSrc × CanFrame) :=
  ([0, 1, 2].filter fun n => x.pend.getD n false).map (fun n => (CanSrc.txb n, frameOfBytes (x.buffer (0x80 * n))))
    ++ (x.txq.take 1).map fun f => (CanSrc.queue, f)

/-- The source of the lowest arbitration value, the earlier one among equals. -/
def lowest : List (CanSrc × CanFrame) → Option (CanSrc × CanFrame)
  | [] => none
  | a :: r => match lowest r with
    | some b => if arbValue b.2 < arbValue a.2 then some b else some a
    | none => some a

/-- The source that the next arbitration takes (17 R352). -/
def CanSt.select (r : Rec) (now : Nat) (x : CanSt) : Option (CanSrc × CanFrame) :=
  if x.refPending then some (.ref, x.refFrame r now)
  else if canFlag r 2 then lowest x.sources else x.sources.head?

/-- The controller takes part on the bus: in RUN, FENCED or FAULT, unfenced, joined, and not bus-off. -/
def State.canLive (s : State) (c : Nat) : Bool :=
  s.islandLive && !s.isFenced (0x28 + c) && (s.can c).joined && decide ((s.can c).state < 2)

/-- The controller can reach its bus: the outputs have left their reset state, in which CAN_TX is recessive (03 R64).
INT_LOOPBACK needs no bus (17 Table 17.7). -/
def State.canDrives (s : State) (r : Rec) : Bool := s.outputsUp || canMode r == 2

/-- CAN_ARBITRATION: a start of frame of the selected source (17 R352, R358). -/
def execCanArbitration (c : Fin 4) (s : State) : Host.Outcome State Fault Refusal :=
  done s (match s.canRec c with
    | none => s
    | some r =>
      if !s.canLive c || canMode r == 1 || !s.canDrives r || (s.can c).onBus.isSome then s
      else match (s.can c).select r s.now with
        | none => s
        | some (src, f) =>
          let s1 := s.modCan c fun x => { x with onBus := some src, busFrame := f, sof := s.now }
          if canMode r = 2 then s1
          else s1.emit (.canFrame c f.id f.ide f.rtr f.fdf f.brs f.dlc (f.data.take (dlcLen f.fdf f.dlc.toNat))))

/-! ### Error states -/

/-- PAYLOAD of the error-state events (19 Table 19.2). -/
def State.canPayload (s : State) (c : Nat) : Nat := c + min 255 (s.can c).tec * 256 + (s.can c).recCnt * 65536

/-- Entry to bus-off: host TXBs fail with CAUSE 4, the queue is emptied and counted, and recovery starts at once where
the record or a claiming loop says so (17 R359). -/
def State.busOff (c : Nat) (r : Rec) (s : State) : State :=
  let s1 := s.modCan c fun x =>
    let y := [0, 1, 2].foldl (fun a n => if x.pend.getD n false && canHostTxb r n then a.fail n 4 else a) x
    { y.bump 7 y.txq.length with txq := [], state := if canFlag r 4 || (s.leadLoop c).isSome then 3 else 2 }
  s1.post 0x0B04 (s1.canPayload c) none

/-- The error state that the counts give (ISO 11898-1: passive from 128, bus-off above 255), with its events
(17 R359). -/
def State.canErrorState (c : Nat) (r : Rec) (s : State) : State :=
  let x := s.can c
  if 256 ≤ x.tec then s.busOff c r
  else
    let st := if 128 ≤ x.tec ∨ 128 ≤ x.recCnt then 1 else 0
    let s1 := s.modCan c fun y => { y with state := st }
    if st = 1 ∧ x.state = 0 then s1.post 0x0B03 (s1.canPayload c) none else s1

/-- What a controller drives on its bus beside frames: in LISTEN_ONLY and INT_LOOPBACK nothing (17 Table 17.7), and
nothing while the outputs are in their reset state (03 R64). -/
def State.canSays (o : Out) (r : Rec) (s : State) : State :=
  if s.outputsUp && (canMode r == 0 || canMode r == 3) then s.emit o else s

/-- The error flag of a controller: active while it is error-active, else passive (17 R359). -/
def State.canErrorFlag (c : Nat) (r : Rec) (s : State) : State := s.canSays (.canFlag c ((s.can c).state == 0)) r

/-! ### Reception -/

/-- A filter entry matches a frame (17 R356). -/
def filterMatches (e : List Byte) (f : CanWire) : Bool :=
  let id := fieldAt e 0 4
  let mask := fieldAt e 4 4
  let form := byteAt e 9
  decide ((f.id.toNat ^^^ id % 2 ^ 29) &&& (mask % 2 ^ 29) = 0) && (!mask.testBit 29 || f.ide == id.testBit 29)
    && (form == 0 || (form == 1 && !f.fdf) || (form == 2 && f.fdf))

/-- What the filters decide: a ring with the filter number that chose it, or none for a rejected frame (17 R356). -/
def filterFate (r : Rec) (f : CanWire) : Option (Nat × Nat) :=
  match (List.range 64).find? fun k =>
      let e := (r.bytes.drop (0x40 + 16 * k)).take 16
      byteAt e 8 != 0 && filterMatches e f with
  | some k =>
    let a := r.u (0x48 + 16 * k) 1
    if a = 3 then none else some (a - 1, k)
  | none => if canFlag r 6 then some (0, 0xFF) else none

/-- A receive record's 80 bytes (17 Table 17.6). -/
def rxRecord (f : CanWire) (looped phase : Bool) (filter stamp : Nat) : List Byte :=
  le 8 (f.id.toNat + b2n phase * 2 ^ 45 + b2n looped * 2 ^ 46 + b2n f.ide * 2 ^ 47 + b2n f.rtr * 2 ^ 48
      + b2n f.esi * 2 ^ 49 + b2n f.brs * 2 ^ 50 + b2n f.fdf * 2 ^ 51 + f.dlc.toNat * 2 ^ 52 + filter * 2 ^ 56)
    ++ le 8 stamp ++ fit 64 0 (f.data.take (if f.rtr then 0 else dlcLen f.fdf f.dlc.toNat))

/-- Write a record to a receive ring, or drop the frame and count it (17 R357). -/
def State.rxStore (c ring filter stamp : Nat) (r : Rec) (f : CanWire) (looped : Bool) (s : State) : State :=
  let x := s.can c
  let base := r.u (0x18 + 8 * ring) 8
  let n := r.u (0x28 + 2 * ring) 2
  let head := x.rxHead.getD ring 0
  let tail := x.rxTail.getD ring 0
  let blocked := decide (hostBase ≤ base) && s.isFenced 0x50
  if blocked || decide (n = 0) || decide ((tail + n - head) % n = n - 1) then
    let s1 := s.modCan c fun y => { y.bump (3 + ring) 1 with rxDropping := y.rxDropping.set ring true }
    if x.rxDropping.getD ring false then s1 else s1.post 0x0B02 (c + ring * 256) none
  else
    let phase := x.rxPhase.getD ring true
    let s1 := s.writeDev none (base + tail * 80) (rxRecord f looped phase filter stamp)
    let t := (tail + 1) % n
    let s2 := s1.modCan c fun y =>
      { y with rxTail := y.rxTail.set ring t, rxDropping := y.rxDropping.set ring false,
               rxPhase := y.rxPhase.set ring (if t = 0 then !phase else phase) }
    if head = tail then s2.post 0x0B01 (c + ring * 256) none else s2

/-- A frame received without error is counted, filtered and stored or rejected (17 R356, R364). -/
def State.rxFrame (c stamp : Nat) (r : Rec) (f : CanWire) (looped : Bool) (s : State) : State :=
  let s1 := s.modCan c (CanSt.bump 1 1)
  match filterFate r f with
  | none => s1.modCan c (CanSt.bump 2 1)
  | some (ring, k) => s1.rxStore c ring k stamp r f looped

/-- The receive count after a correct reception: one less, or, above 127, some value from 119 to 127 that ISO 11898-1
leaves open (log 24). -/
def State.recGood (c : Nat) (s : State) : State :=
  let x := s.can c
  if x.recCnt ≤ 127 then s.modCan c fun y => { y with recCnt := y.recCnt - 1 }
  else
    let (v, s1) := s.draw
    s1.modCan c fun y => { y with recCnt := 119 + v % 9 }

/-- What a receiver adds to REC for an error (ISO 11898-1, by 17 R359; log 24): 1, or 8 for a bit error in an overload
flag; 8 when the first bit after its flag is dominant; and 8 for each further error of the flag. -/
def rxErrorCount (e : CanErr) (after : Bool) : Nat := (if e.inOverload then 8 else 1) + 8 * b2n after + 8 * e.more

/-- CAN_FRAME_RECEIVE: a frame of another node, which the controller acknowledges, or an error while it was received
(17 R356 to R359). A listening controller keeps its error counts (log 24). -/
def execCanFrameReceive (c : Fin 4) (rx : CanRx) (s : State) : Host.Outcome State Fault Refusal :=
  checked (.canFrameReceive c rx) "CAN_FRAME_RECEIVE" s (match s.canRec c with
    | none => s
    | some r =>
      if !s.canLive c || canMode r == 2 || (s.can c).onBus.isSome then s
      else match rx with
        | .frame f =>
          let s1 := (s.canSays (.canAck c) r).rxFrame c (s.now - f.age) r f false
          if canMode r = 1 then s1 else (s1.recGood c).canErrorState c r
        | .error e after =>
          let s1 := (s.canErrorFlag c r).modCan c fun x => { x with lastErr := e.kind, errData := e.dataPhase }
          if canMode r = 1 then s1
          else (s1.modCan c fun x => { x with recCnt := min 255 (x.recCnt + rxErrorCount e after) }).canErrorState c r)

/-- A write of RXn_HEAD takes an index within the written records (17 R364); a FENCED controller takes none (01 R23). -/
def State.writeRxHead (p : Requester) (c ring value : Nat) (s : State) : State :=
  let x := s.can c
  let n := (s.canRec c).elim 0 fun r => r.u (0x28 + 2 * ring) 2
  let v := value % 4096
  let head := x.rxHead.getD ring 0
  let tail := x.rxTail.getD ring 0
  if fnOf p ≠ 0 ∨ s.isFenced (0x28 + c) ∨ n ≤ v ∨ (tail + n - head) % n < (v + n - head) % n then s
  else s.modCan c fun y => { y with rxHead := y.rxHead.set ring v }

/-- CAN_RX_HEAD_WRITE. -/
def execCanRxHeadWrite (p : Requester) (c : Fin 4) (ring : Fin 2) (value : BitVec 32) (s : State) :
    Host.Outcome State Fault Refusal :=
  done s (s.writeRxHead p c ring value.toNat)

/-! ### Setpoint frames -/

/-- A setpoint frame was replaced: counted, and reported once after a frame was sent (17 R363). -/
def State.spReplaced (c seq : Nat) (s : State) : State :=
  let s1 := s.modCan c fun x => { x.bump 5 1 with spOver := true }
  if (s.can c).spOver then s1 else s1.post 0x0B07 (c + seq * 256) none

/-- SEQ of a setpoint frame. -/
def CanFrame.seqOf (f : CanFrame) : Nat := byteAt f.data 0

/-- A frame enters TXB0 (17 R363). -/
def CanSt.enterTxb0 (f : CanFrame) (x : CanSt) : CanSt :=
  { x with area := x.area.store 0 (bytesOfFrame f), pend := x.pend.set 0 true }

/-- A newly formed setpoint frame enters TXB0, replaces the frame there, or waits in the hold (17 R363). -/
def State.offerSetpoint (c : Nat) (f : CanFrame) (s : State) : State :=
  let x := s.can c
  if x.onBus = some (.txb 0) then
    (match x.spHold with
     | some g => s.spReplaced c g.seqOf
     | none => s).modCan c fun y => { y with spHold := some f }
  else if x.pend.getD 0 false then
    (s.spReplaced c (frameOfBytes (x.buffer 0)).seqOf).modCan c (CanSt.enterTxb0 f)
  else s.modCan c (CanSt.enterTxb0 f)

/-- A controlled stop is in progress: ordered, and not yet ended in STO (16 R330). -/
def State.stopping (s : State) : Bool := s.verge.stop == .controlled && !s.verge.stoByStop

/-- The committed output of loop `l` as the pins, the frames and LOOP_STATUS show it: clamped while REDUCED is in force
(16 R333). -/
def State.output (s : State) (l : Nat) : Int :=
  if s.verge.reduced then
    let m : Int := s.recField 0xA0 (0x14 + 8 * l) 4 % 2 ^ 23
    clampTo (-m) m (s.loop l).out
  else (s.loop l).out

/-- The setpoint frame of controller `c` at this instant (17 R362). -/
def State.setpointFrame (s : State) (c : Nat) (r : Rec) : CanFrame :=
  let id := r.u 0x38 4
  let n := r.u 0x36 1
  let flags := b2n (s.verge.stoA && s.verge.stoB) + 2 * b2n s.stopping + 4 * b2n s.verge.reduced
  let axis := fun (a : Nat) => match (List.range 32).find? (fun l => (s.loopRec l).any fun q =>
      q.u 0x19 1 == 1 && q.u 0x1A 1 == c && q.u 0x1B 1 == a) with
    | some l => le 3 (unsigned 24 (s.output l))
    | none => le 3 0
  { id := BitVec.ofNat 29 id, ide := id.testBit 29, rtr := false, dlc := BitVec.ofNat 4 (lenDlc n), fdf := id.testBit 30,
    brs := id.testBit 31,
    data := fit n 0 (le 1 (s.can c).spSeq.toNat ++ le 1 flags ++ ((List.range 16).map axis).flatten) }

/-- Form the setpoint frame and place it (17 R362, R363). -/
def State.formSetpoint (c : Nat) (s : State) : State :=
  match s.canRec c with
  | none => s
  | some r =>
    (s.offerSetpoint c (s.setpointFrame c r)).modCan c fun x => { x with spSeq := x.spSeq + 1 }

/-! ### The end of an attempt -/

/-- The frame as its sender receives it in a loopback mode (17 Table 17.7). -/
def wireOf (f : CanFrame) (esi : Bool) : CanWire :=
  { age := 0, id := f.id, ide := f.ide, rtr := f.rtr, fdf := f.fdf, brs := f.brs, esi := esi, dlc := f.dlc, data := f.data }

/-- The held setpoint frame enters TXB0 once the attempt of the old one has ended (17 R363). -/
def State.releaseHold (c : Nat) (correct : Bool) (s : State) : State :=
  match (s.can c).spHold with
  | none => s
  | some f =>
    let s1 := if correct then s else s.spReplaced c (s.can c).busFrame.seqOf
    s1.modCan c fun x => { x.enterTxb0 f with spHold := none }

/-- A correct end of the frame on the bus (17 R354, R361, R363). -/
def State.txSent (c : Nat) (src : CanSrc) (s : State) : State :=
  let s1 := s.modCan c fun x => { x.bump 0 1 with tec := x.tec - 1 }
  match src with
  | .ref => s1.modCan c fun x =>
      { x.bump 6 1 with refPending := byteAt x.busFrame.data 0 != x.cycle, refOver := false }
  | .queue => s1.modCan c fun x => { x with txq := x.txq.drop 1 }
  | .txb n =>
    let s2 := s1.modCan c fun x =>
      { x with pend := x.pend.set n false, done := x.done.set n true, abortReq := x.abortReq.set n false }
    if n = 0 ∧ (s.leadLoop c).isSome then (s2.modCan c fun x => { x with spOver := false }).releaseHold c true else s2

/-- An attempt that ended by lost arbitration (CAUSE 1) or an error (CAUSE 2) (17 R354, R355, R363). -/
def State.txFailed (c : Nat) (src : CanSrc) (cause : Nat) (r : Rec) (s : State) : State :=
  match src with
  | .ref => s
  | .queue => if canFlag r 1 then s.modCan c fun x => { x.bump 7 1 with txq := x.txq.drop 1 } else s
  | .txb n =>
    if n = 0 ∧ (s.leadLoop c).isSome then s.releaseHold c false
    else if (s.can c).abortReq.getD n false then s.modCan c (CanSt.fail n 3)
    else if canFlag r 1 then s.modCan c fun x => (x.fail n cause).bump 7 1
    else s

/-- The outcome of an attempt as the record takes it: INT_LOOPBACK ignores the bus and acknowledges itself, EXT_LOOPBACK
takes its frame as acknowledged (17 Table 17.7), and with TDC a delay above 127 units measured at the FDF-to-res edge of
an FD frame is a bit error, of the dominant res bit (17 R351; log 24). -/
def txOutcome (r : Rec) (fdf : Bool) (outcome : CanTxEnd) : CanTxEnd :=
  if canMode r = 2 then .sent 0
  else match outcome with
    | .sent d => if canFlag r 3 && fdf && decide (127 < d) then .error ⟨5, false, false, 0⟩ false false else .sent d
    | .error e a b => if canMode r = 3 && decide (e.kind.val = 3) then .sent 0 else .error e a b
    | .lost => .lost

/-- What a transmitter adds to TEC for an error (ISO 11898-1, by 17 R359; log 24): 8, but 0 for an acknowledgement error
while it is error-passive and reads no dominant bit in its flag, and 0 for a recessive stuff bit read dominant during
arbitration; and 8 for each further error of the flag. -/
def txErrorCount (passive : Bool) (e : CanErr) (arbStuff dominant : Bool) : Nat :=
  (if (passive && decide (e.kind.val = 3) && !dominant) || (arbStuff && decide (e.kind.val = 1)) then 0 else 8) + 8 * e.more

/-- CAN_TX_END: the attempt of the frame on the bus ends (17 R354, R358, R359). -/
def execCanTxEnd (c : Fin 4) (outcome : CanTxEnd) (s : State) : Host.Outcome State Fault Refusal :=
  done s (match (s.can c).onBus, s.canRec c with
    | some src, some r =>
      if !s.canLive c then s
      else
        let x := s.can c
        let off := fun (t : State) => t.modCan c fun y => { y with onBus := none }
        match txOutcome r x.busFrame.fdf outcome with
        | .sent _ =>
          let s1 := (off (s.txSent c src)).canErrorState c r
          if 2 ≤ canMode r then s1.rxFrame c x.sof r (wireOf x.busFrame (x.state == 1)) true else s1
        | .lost => off (s.txFailed c src 1 r)
        | .error e a b =>
          let s1 := (s.canErrorFlag c r).modCan c fun y =>
            { y with lastErr := e.kind, errData := e.dataPhase, tec := min 256 (y.tec + txErrorCount (x.state == 1) e a b) }
          (off (s1.txFailed c src 2 r)).canErrorState c r
    | _, _ => s)

/-- A write of CTRL: RECOVER starts bus-off recovery (17 R359); a FENCED controller takes none (01 R23). -/
def State.canRecover (p : Requester) (c v : Nat) (s : State) : State :=
  if fnOf p = 0 ∧ v.testBit 0 ∧ (s.can c).state = 2 ∧ s.isFenced (0x28 + c) = false then
    s.modCan c fun x => { x with state := 3 } else s

/-- CAN_RECOVER. -/
def execCanRecover (p : Requester) (c : Fin 4) (value : BitVec 32) (s : State) : Host.Outcome State Fault Refusal :=
  done s (s.canRecover p c value.toNat)

/-- CAN_BUS_ON: recovery has seen 128 occurrences of 11 recessive bits (17 R359). -/
def execCanBusOn (c : Fin 4) (s : State) : Host.Outcome State Fault Refusal :=
  done s (if s.islandLive && (s.can c).state == 3 && !s.isFenced (0x28 + c) then
    let s1 := s.modCan c fun x => { x with state := 0, tec := 0, recCnt := 0 }
    s1.post 0x0B05 (s1.canPayload c) none else s)

/-- CAN_JOIN_BUS: 11 consecutive recessive bits from entry to RUN (17 R358). -/
def execCanJoinBus (c : Fin 4) (s : State) : Host.Outcome State Fault Refusal :=
  done s (if s.islandLive && (s.canRec c).isSome && !s.isFenced (0x28 + c) then
    s.modCan c fun x => { x with joined := true } else s)

/-- CAN_REFERENCE_INSTANT: a reference message is placed in the reference slot (17 R361). -/
def execCanReferenceInstant (c : Fin 4) (s : State) : Host.Outcome State Fault Refusal :=
  done s (match s.canRec c, (s.can c).refNext with
    | some r, some t =>
      if !s.islandLive || !canFlag r 5 || decide (s.now < t) then s
      else
        let x := s.can c
        let s1 := if x.refPending && !x.refOver then s.post 0x0B06 (c + x.cycle * 256) none else s
        s1.modCan c fun y =>
          { y with refPending := true, refCount := y.refCount + 1, refReplaced := y.refReplaced + b2n x.refPending,
                   refOver := y.refOver || x.refPending, refNext := some (t + r.u 0x2C 4) }
    | _, _ => s)

/-! ### START and block reset -/

/-- The first Milestone value after now that is congruent to `phase` modulo `period`. -/
def firstInstant (now phase period : Nat) : Nat :=
  if period = 0 then now + 1 else now + 1 + (phase + period - (now + 1) % period) % period

/-- START: counters, rings and setpoint sequence begin again, and the first reference instant is set (17 R357, R361,
R362, R364). -/
def State.startCans (s : State) : State :=
  (List.range 4).foldl (fun (t : State) c =>
    t.modCan c fun x =>
      { CanSt.init with area := x.area,
                        refNext := (s.canRec c).bind fun r =>
                          if canFlag r 5 then some (firstInstant s.now (r.u 0x30 4) (r.u 0x2C 4)) else none }) s

/-- BLOCK_CONTROL RESET of a controller: the frame on the bus is cut, host TXBs fail with CAUSE 5, the queue is emptied,
the error counts return to 0; rings stay (17 R360). -/
def State.resetCan (c : Nat) (s : State) : State :=
  match s.canRec c with
  | none => s
  | some r => s.modCan c fun x =>
    let y := [0, 1, 2].foldl (fun a n => if x.pend.getD n false && canHostTxb r n then a.fail n 5 else a) x
    { y with onBus := none, txq := [], tec := 0, recCnt := 0, state := 0, joined := false }

end Sys2Proof.Machine
end

