-- ==== Sys2Proof/Machine/Ports.lean ====
section
/-! DEFINITION. The small ports: SPI masters, UARTs, Tool Spur, annunciator with its supervision, PWM outputs and GPIO
(18 sections 18.3 to 18.9, 16 section 16.6). -/

namespace Sys2Proof.Machine

/-- The PORT record of a kind and unit while its block `b` is not fenced. -/
def State.portRec (s : State) (kind unit b : Nat) : Option Rec := if s.isFenced b then none else s.port kind unit

/-! ### SPI -/

/-- The SPI record of master `m`. -/
def State.spiRec (s : State) (m : Nat) : Option Rec := s.portRec 2 m (0x48 + m)

/-- A script's entry in an SPI record (18 Table 18.3): CS, ENABLE, LEN, LOOP, PERIOD. -/
def scriptEnabled (r : Rec) (k : Nat) : Bool := (r.u (0x18 + 8 * k) 1).testBit 7
def scriptCs (r : Rec) (k : Nat) : Nat := r.u (0x18 + 8 * k) 1 % 4
def scriptLen (r : Rec) (k : Nat) : Nat := r.u (0x19 + 8 * k) 1
def scriptLoop (r : Rec) (k : Nat) : Nat := r.u (0x1A + 8 * k) 1
def scriptPeriod (r : Rec) (k : Nat) : Nat := r.u (0x1C + 8 * k) 4

/-- A transfer starts: chip select falls, and the bytes are those the area holds now (18 R372, R373). -/
def State.spiStart (m : Nat) (j : SpiJob) (s : State) : State :=
  let x := s.spi m
  let bytes := match j.script with
    | some k => x.script.bytes (64 * k) j.len
    | none => x.txBuf.bytes 0 j.len
  let s1 := s.modSpi m fun y => { y with busy := some j, jobStamp := s.now }
  if s.outputsUp then s1.emit (.spi m j.cs bytes) else s1

/-- The transfer of script `k`. -/
def scriptJob (r : Rec) (k : Nat) : SpiJob := { script := some k, len := scriptLen r k, cs := scriptCs r k }

/-- SPI_SCRIPT_TRIGGER: a due trigger starts its script, waits, or is skipped and counted (18 R372). -/
def execSpiScriptTrigger (m k : Fin 2) (s : State) : Host.Outcome State Fault Refusal :=
  done s (match s.spiRec m with
    | none => s
    | some r =>
      let x := s.spi m
      let t := x.nextTrig.get 0 k
      if !s.islandLive || !scriptEnabled r k || t = 0 || decide (s.now + 1 < t) then s
      else
        let next := if scriptLoop r k = 0xFF then t + scriptPeriod r k else 0
        let s1 := s.modSpi m fun y => { y with nextTrig := y.nextTrig.set 0 k next }
        if x.busy.isNone && x.waiting.isEmpty then s1.spiStart m (scriptJob r k)
        else if x.waiting.contains k.val then
          s1.modSpi m fun y => { y with skipped := y.skipped.set false k true, skipCount := y.skipCount + 1 }
        else s1.modSpi m fun y => { y with waiting := y.waiting ++ [k.val] })

/-- Write a script record to the SPI ring, or drop it (18 R372, 17 R357). -/
def State.spiRecord (m k len : Nat) (rx : List Byte) (r : Rec) (s : State) : State :=
  let x := s.spi m
  let n := r.u 0xE 2
  let base := r.u 0x10 8
  if decide (n = 0) || decide ((x.ringTail + n - x.ringHead) % n = n - 1) || (decide (hostBase ≤ base) && s.isFenced 0x50) then
    s.modSpi m fun y => { y with ringDrops := y.ringDrops + 1 }
  else
    let bytes := fit 64 0 rx ++ le 8 x.jobStamp ++ le 1 k ++ le 1 len ++ le 1 (b2n (x.skipped.get false k)) ++ le 5 0
    (s.writeDev none (base + x.ringTail * 80) bytes).modSpi m fun y =>
      { y with ringTail := (y.ringTail + 1) % n, skipped := y.skipped.set false k false }

/-- SPI_TRANSFER_END: the record of a script or RXBUF is complete, and the next waiting script starts (18 R372, R373). -/
def execSpiTransferEnd (m : Fin 2) (rx : List Byte) (s : State) : Host.Outcome State Fault Refusal :=
  checked (.spiTransferEnd m rx) "SPI_TRANSFER_END" s (match s.spiRec m, (s.spi m).busy with
    | some r, some j =>
      let got := fit j.len 0 rx
      let s1 := match j.script with
        | some k => s.spiRecord m k j.len got r
        | none => s.modSpi m fun y => { y with rxBuf := y.rxBuf.store 0 got }
      match (s1.spi m).waiting with
      | k :: rest => (s1.modSpi m fun y => { y with waiting := rest }).spiStart m (scriptJob r k)
      | [] => s1.modSpi m fun y => { y with busy := none }
    | _, _ => s)

/-- A write of SPI_CMD (18 R373, R385). -/
def State.writeSpiCmd (p : Requester) (m v : Nat) (s : State) : State :=
  if fnOf p ≠ 0 ∨ s.isFenced (0x48 + m) then s
  else if (s.port 2 m).isNone then s.modSpi m fun y => { y with result := 0x2C01#16 }
  else if !v.testBit 31 then s
  else if (s.spi m).busy.isSome || !(s.spi m).waiting.isEmpty then s.modSpi m fun y => { y with result := 0x2C02#16 }
  else (s.modSpi m fun y => { y with result := 0 }).spiStart m { script := none, len := v % 64 + 1, cs := v / 256 % 4 }

/-- SPI_CMD. -/
def execSpiCmd (p : Requester) (m : Fin 2) (value : BitVec 32) (s : State) : Host.Outcome State Fault Refusal :=
  done s (s.writeSpiCmd p m value.toNat)

/-- A write of RING_HEAD takes an index within the written records (18 R372, 17 R364). -/
def State.writeSpiHead (p : Requester) (m value : Nat) (s : State) : State :=
  let x := s.spi m
  let n := (s.spiRec m).elim 0 fun r => r.u 0xE 2
  let v := value % 4096
  if fnOf p ≠ 0 ∨ n ≤ v ∨ (x.ringTail + n - x.ringHead) % n < (v + n - x.ringHead) % n then s
  else s.modSpi m fun y => { y with ringHead := v }

/-- SPI_RING_HEAD_WRITE. -/
def execSpiRingHeadWrite (p : Requester) (m : Fin 2) (value : BitVec 32) (s : State) : Host.Outcome State Fault Refusal :=
  done s (s.writeSpiHead p m value.toNat)

/-! ### UART -/

/-- The UART record of unit `u`. -/
def State.uartRec (s : State) (u : Nat) : Option Rec := s.portRec 3 u (0x4A + u)

/-- FRAME of a UART record: 0 8N1, 1 8E1, 2 8O1, 3 8N2. -/
def uartFrame (r : Rec) : Nat := r.u 0xE 1

/-- The majority of samples 7, 8 and 9 (18 R374). -/
def Vote.level (v : Vote) : Bool := (v.s7 && v.s8) || (v.s7 && v.s9) || (v.s8 && v.s9)

/-- The RXDATA word of a character: data LSB first, parity where the frame has it, the first stop bit (18 R374,
Table 18.7). A bit that the observation leaves out reads high, as an idle line does. -/
def rxWord (frame : Nat) (votes : List Vote) (ovr : Bool) : Nat :=
  let b := fun i => ((votes[i]?).map Vote.level).getD true
  let ones := (List.range 8).countP fun i => b i
  let data := ((List.range 8).map fun i => b2n (b i) * 2 ^ i).sum
  let hasParity := frame == 1 || frame == 2
  let pe := hasParity && decide ((ones + b2n (b 8)) % 2 ≠ frame - 1)
  let fe := !b (if hasParity then 9 else 8)
  data + b2n fe * 256 + b2n pe * 512 + b2n ovr * 1024 + b2n (fe && data == 0 && !pe) * 2048 + 32768

/-- UART_CHARACTER_RECEIVE: a character is stored with its flags, or dropped on a full FIFO; a framing error disarms
start detection (18 R374, R375). -/
def execUartCharacterReceive (u : Fin 2) (bits : List Vote) (s : State) : Host.Outcome State Fault Refusal :=
  checked (.uartCharacterReceive u bits) "UART_CHARACTER_RECEIVE" s (match s.uartRec u with
    | none => s
    | some r =>
      let x := s.uart u
      if !s.islandLive || !x.armed then s
      else
        let w := rxWord (uartFrame r) bits x.ovr
        let s1 := s.modUart u fun y => { y with armed := !w.testBit 8 }
        if 256 ≤ x.rx.length then s1.modUart u fun y => { y with ovr := true }
        else
          let s2 := s1.modUart u fun y => { y with rx := y.rx ++ [BitVec.ofNat 16 w], ovr := false }
          if x.rx.isEmpty then s2.post 0x0C04 u none else s2)

/-- UART_REARM: 16 consecutive high samples after a framing error (18 R374). -/
def execUartRearm (u : Fin 2) (s : State) : Host.Outcome State Fault Refusal :=
  done s (if (s.uartRec u).isSome then s.modUart u fun y => { y with armed := true } else s)

/-- The transmitter takes the next character, once UART_TX is driven (18 R375, 03 R64). -/
def State.uartNext (u : Nat) (s : State) : State :=
  let x := s.uart u
  match x.txBusy, x.tx with
  | none, c :: rest => if s.outputsUp then (s.modUart u fun y => { y with tx := rest, txBusy := some c }).emit (.uart u c) else s
  | _, _ => s

/-- A write of TXDATA (18 R375, R385). -/
def State.writeTxdata (p : Requester) (u v : Nat) (s : State) : State :=
  if fnOf p ≠ 0 ∨ s.isFenced (0x4A + u) then s
  else if (s.port 3 u).isNone then s.modUart u fun y => { y with result := 0x2C01#16 }
  else if 64 ≤ (s.uart u).tx.length then s.modUart u fun y => { y with result := 0x2C03#16 }
  else (s.modUart u fun y => { y with tx := y.tx ++ [BitVec.ofNat 8 v] }).uartNext u

/-- UART_TXDATA. -/
def execUartTxdata (p : Requester) (u : Fin 2) (value : BitVec 32) (s : State) : Host.Outcome State Fault Refusal :=
  done s (s.writeTxdata p u value.toNat)

/-- A whole read of RXDATA: the oldest character, which it removes, or 0 (18 R375, R385). -/
def State.readRxdata (p : Requester) (u : Nat) (s : State) : Nat × State :=
  match (s.uart u).rx with
  | w :: rest =>
    if fnOf p ≠ 0 ∨ (s.uartRec u).isNone then (0, s) else (w.toNat, s.modUart u fun y => { y with rx := rest })
  | [] => (0, s)

/-- UART_RXDATA_READ of `size` bytes: any but a whole 4-byte read returns 0 and removes nothing (00 R390). -/
def execUartRxdataRead (p : Requester) (u : Fin 2) (size : Nat) (s : State) : Host.Outcome State Fault Refusal :=
  done s (
    if size = 4 then
      let (w, s1) := s.readRxdata p u
      s1.emit (.read (le 4 w) false)
    else s.emit (.read (List.replicate size 0) false))

/-- UART_TX_CHARACTER_END: the next character of the FIFO starts (18 R375). -/
def execUartTxCharacterEnd (u : Fin 2) (s : State) : Host.Outcome State Fault Refusal :=
  done s (if (s.uart u).txBusy.isSome && (s.uartRec u).isSome then
    (s.modUart u fun y => { y with txBusy := none }).uartNext u else s)

/-! ### Tool Spur -/

/-- The CRC-8 of an ID's bytes 0 to 6 stands in its byte 7 (18 section 18.5). -/
def spurCrcOk (id : Nat) : Bool :=
  crcBits 8 7 0 (((List.range 7).map fun i => bitsDown 8 (id / 256 ^ i)).flatten) == id / 2 ^ 56 % 256

/-- The bit and its complement read at position `k`; a slot that the observation leaves out reads 1, as the undriven bus
does. -/
def spurSlot (slots : List (Bool × Bool)) (k : Nat) : Bool × Bool := slots.getD k (true, true)

/-- The bit that Larza writes at position `k`: the one read, or at a conflict the path's choice (18 R378). -/
def spurChoice (old : Nat) (last : Option Nat) (k : Nat) (x : Bool × Bool) : Bool :=
  if x.1 != x.2 then x.1
  else match last with
    | some j => if k < j then old.testBit k else k == j
    | none => false

/-- One pass from bit position `k`: the path so far, and the last fork; none when a device vanished (18 R378). -/
def spurBits (old : Nat) (last : Option Nat) (slots : List (Bool × Bool)) : Nat → Nat → Nat → Option Nat → Option (Nat × Option Nat)
  | 0, _, path, fork => some (path, fork)
  | n + 1, k, path, fork =>
    let x := spurSlot slots k
    if x.1 && x.2 then none
    else
      let d := spurChoice old last k x
      spurBits old last slots n (k + 1) (path + b2n d * 2 ^ k) (if !x.1 && !x.2 && !d then some k else fork)

/-- What Larza drives in one pass: a reset and, where a device answers, the command byte 0x3C and the bit written at each
position up to one at which a device vanished; each written bit follows two read slots (18 R378). -/
def spurDrive (old : Nat) (last : Option Nat) (p : SpurPass) : List Out :=
  if !p.presence then [.spurReset]
  else
    let ks := (List.range 64).takeWhile fun k => !((spurSlot p.slots k).1 && (spurSlot p.slots k).2)
    .spurReset :: .spurByte 0x3C :: ks.map fun k => .spurBit (spurChoice old last k (spurSlot p.slots k))

/-- The search of 18 R378 over the passes that the bus showed: status, IDs kept, and what Larza drove. A pass that the
observation leaves out has no presence. -/
def spurSearch : List SpurPass → List Nat → Nat → Option Nat → Nat → Nat × List Nat × List Out
  | [], found, _, _, _ => (0, found, [.spurReset])
  | p :: rest, found, path, last, restarts =>
    let go := fun (x : Nat × List Nat × List Out) => (x.1, x.2.1, spurDrive path last p ++ x.2.2)
    let again := if 3 ≤ restarts then (0x4C01, [], []) else spurSearch rest [] 0 none (restarts + 1)
    if !p.presence then go (0, found, [])
    else match spurBits path last p.slots 64 0 0 none with
      | none => go again
      | some (q, fork) =>
        if !spurCrcOk q then go again
        else if found.length = 16 then go (0x4C02, found, [])
        else match fork with
          | none => go (0, found ++ [q], [])
          | some _ => go (spurSearch rest (found ++ [q]) q fork restarts)

/-- A search ends with a status and the IDs kept, and SPUR_DONE is posted (18 R379). -/
def State.spurEnd (status : Nat) (ids : List Nat) (s : State) : State :=
  let x : SpurSt := { s.ports.spur with running := false, announced := false, ids := ids.map (BitVec.ofNat 64) }
  { s with ports := { s.ports with spur := x } }.post 0x0C02 (status + ids.length * 65536) none

/-- SPUR_SEARCH_END. -/
def execSpurSearchEnd (passes : List SpurPass) (busLow : Bool) (s : State) : Host.Outcome State Fault Refusal :=
  checked (.spurSearchEnd passes busLow) "SPUR_SEARCH_END" s (
    if !s.ports.spur.running then s
    else
      let (st, ids, outs) := spurSearch passes [] 0 none 0
      let s1 := if s.outputsUp then outs.foldl (fun (t : State) o => t.emit o) s else s
      if busLow then s1.spurEnd 0x4C03 [] else s1.spurEnd st ids)

/-- SPUR_ANNOUNCE: a low on the idle bus that Larza did not drive (18 R377). -/
def execSpurAnnounce (s : State) : Host.Outcome State Fault Refusal :=
  let x := s.ports.spur
  done s (
    if !s.islandLive || x.running || (s.portRec 4 0 0x4C).isNone then s
    else
      let s1 := { s with ports := { s.ports with spur := { x with changed := true, announced := true } } }
      if x.announced then s1 else s1.post 0x0C01 0 none)

/-! ### Annunciator -/

/-- The ANN record. -/
def State.annRec (s : State) : Option Rec := s.port 5 0

/-- A tone is commanded, by ANN_TONE or by STOP_TONE (18 section 18.6). -/
def State.toneCommanded (s : State) : Bool :=
  s.outputsUp && match s.annRec with
    | none => false
    | some r => s.ports.ann.on || ((r.u 0xC 1).testBit 0
        && (s.verge.stop == .controlled || s.verge.partnerStop || s.verge.stoByStop))

/-- ANN_STAT.STATE (18 Table 18.7). -/
def State.annState (s : State) : Nat :=
  if s.ports.ann.state ≠ 0 then s.ports.ann.state else b2n s.toneCommanded

/-- Change the annunciator. -/
def State.modAnn (g : AnnSt → AnnSt) (s : State) : State := { s with ports := { s.ports with ann := g s.ports.ann } }

/-- A write of ANN_TONE (18 section 18.6, R385). -/
def State.writeTone (p : Requester) (v : Nat) (s : State) : State :=
  if fnOf p ≠ 0 ∨ s.annRec.isNone then s
  else s.modAnn fun a => { a with freq := BitVec.ofNat 14 v, level := BitVec.ofNat 8 (v / 65536), on := v.testBit 31 }

/-- ANN_TONE_WRITE. -/
def execAnnToneWrite (p : Requester) (value : BitVec 32) (s : State) : Host.Outcome State Fault Refusal :=
  done s (s.writeTone p value.toNat)

/-- The warning channel is lost: recorded, and REDUCED where the SAFETY record says so (16 R336, R333). -/
def State.warningLost (s : State) : State :=
  if s.verge.warnLost then s
  else if (s.recField 0xA0 0xC 1).testBit 0 then
    let s1 := s.raise 0x8A0B 0xFF .reduced 0
    { s1 with verge := { s1.verge with warnLost := true, reduced := true } }.post 0x0A02 0x8A0B none
  else
    let s1 := s.raise 0x8A0B 0xFF .report 0
    { s1 with verge := { s1.verge with warnLost := true } }

/-- ANN_TRIP: 1.2 A of bridge current; the fourth trip without a clear latches, and ANN_SHORT follows the SAFETY_FAULT of
a warning channel lost by it (18 R380, 16 R336, 19 R389). -/
def execAnnTrip (s : State) : Host.Outcome State Fault Refusal :=
  done s (
    if s.annState ≠ 1 then s
    else
      let n := s.ports.ann.trips + 1
      if n < 4 then
        (s.modAnn fun a => { a with trips := n, state := 2, retryAt := s.now + 100000000 }).warningLost
      else
        ((s.modAnn fun a => { a with trips := n, state := 3, status := 0x8C01#16 }).warningLost).post 0x0C03 n none)

/-- ANN_RETRY: 100 ms after a trip the tone may sound again (18 R380). -/
def execAnnRetry (s : State) : Host.Outcome State Fault Refusal :=
  done s (if s.ports.ann.state = 2 ∧ s.ports.ann.retryAt ≤ s.now then s.modAnn fun a => { a with state := 0 } else s)

/-- ANN_OPEN_LOAD: below 20 mA for 10 ms while a tone is commanded (16 R336). -/
def execAnnOpenLoad (s : State) : Host.Outcome State Fault Refusal :=
  done s (if s.annState = 1 then s.warningLost else s)

/-- ANN_RESTORED: 10 ms of sound without a fault (16 R336, R333). -/
def execAnnRestored (s : State) : Host.Outcome State Fault Refusal :=
  done s (
    if s.annState = 1 ∧ s.verge.warnLost then
      let s1 := { s with verge := { s.verge with warnLost := false, reduced := false } }
      if s.verge.reduced then s1.post 0x0A03 0x8A0B none else s1
    else s)

/-! ### PWM -/

/-- The PWM record of output `n`. -/
def State.pwmRec (s : State) (n : Nat) : Option Rec := s.portRec 6 n (0x40 + n)

/-- The loop that drives PWM output `n` (15 R302). -/
def State.pwmLoop (s : State) (n : Nat) : Option Nat :=
  (List.range 32).find? fun l => (s.loopRec l).any fun r => r.u 0x19 1 == 2 && r.u 0x1A 1 == n

/-- P, the period in 5 ns ticks (18 section 18.7). -/
def pwmTicks (r : Rec) : Nat := r.u 0xC 4 / 5

/-- The high time in ticks of a period that starts now (18 R381, R382). -/
def State.pwmHigh (s : State) (n : Nat) (r : Rec) : Nat :=
  if !(s.verge.stoA && s.verge.stoB) then 0
  else if (s.pwmLoop n).isSome then (rneInt (max (s.pwm n).cmd 0 * pwmTicks r) 8388607).toNat
  else min (s.pwm n).duty.toNat (pwmTicks r)

/-- PWM_PERIOD_START: the next period of an output starts (18 section 18.7). -/
def execPwmPeriodStart (n : Fin 8) (s : State) : Host.Outcome State Fault Refusal :=
  done s (match s.pwmRec n, (s.pwm n).nextPeriod with
    | some r, some t =>
      if !s.islandLive || !s.outputsUp || decide (s.now < t) then s
      else
        let h := s.pwmHigh n r
        (s.modPwm n fun x => { x with high := h, nextPeriod := some (t + r.u 0xC 4) }).emit (.pwm n h)
    | _, _ => s)

/-- A write of DUTY (18 R381, R385). -/
def State.writeDuty (p : Requester) (n v : Nat) (s : State) : State :=
  if fnOf p ≠ 0 ∨ s.isFenced (0x40 + n) then s
  else if (s.port 6 n).isNone || (s.pwmLoop n).isSome then s.modPwm n fun x => { x with result := 0x2C01#16 }
  else s.modPwm n fun x => { x with duty := BitVec.ofNat 25 v }

/-- PWM_DUTY_WRITE. -/
def execPwmDutyWrite (p : Requester) (n : Fin 8) (value : BitVec 32) (s : State) : Host.Outcome State Fault Refusal :=
  done s (s.writeDuty p n value.toNat)

/-! ### GPIO -/

/-- The GPIO record. -/
def State.gpioRec (s : State) : Option Rec := s.port 7 0

/-- Pins that a GPIO record drives: in USE with DIR 1 (18 R383). -/
def gpioOuts (r : Rec) : BitVec 16 := BitVec.ofNat 16 (r.u 0xC 2) &&& BitVec.ofNat 16 (r.u 0xE 2)

/-- Change the GPIO block. -/
def State.modGpio (g : GpioSt → GpioSt) (s : State) : State := { s with ports := { s.ports with gpio := g s.ports.gpio } }

/-- The driven GPIO pins after a change: their new levels go out (18 R383). -/
def State.gpioDrive (drive out : BitVec 16) (s : State) : State :=
  let x := s.ports.gpio
  let s1 := s.modGpio fun y => { y with drive := drive, out := out }
  if x.drive = drive ∧ x.out &&& drive = out &&& drive then s1 else s1.emit (.gpio drive (out &&& drive))

/-- A write that gives the used output pins new levels (18 R383); in VFs and without a record it is ignored. -/
def State.writeGpio (p : Requester) (g : BitVec 16 → BitVec 16 → BitVec 16) (s : State) : State :=
  match s.gpioRec with
  | none => s
  | some r => if fnOf p ≠ 0 then s else s.gpioDrive s.ports.gpio.drive (g s.ports.gpio.out (gpioOuts r))

/-- GPIO_SET_WRITE. -/
def execGpioSetWrite (p : Requester) (value : BitVec 32) (s : State) : Host.Outcome State Fault Refusal :=
  done s (s.writeGpio p fun old pins => old ||| (value.setWidth 16 &&& pins))

/-- GPIO_CLR_WRITE. -/
def execGpioClrWrite (p : Requester) (value : BitVec 32) (s : State) : Host.Outcome State Fault Refusal :=
  done s (s.writeGpio p fun old pins => old &&& ~~~(value.setWidth 16 &&& pins))

/-- A GPIO record captures an edge of a pin: an input in USE with the edge enabled (18 R383). -/
def gpioCaptures (r : Rec) (pin : Nat) (rising : Bool) : Bool :=
  (r.u 0xC 2).testBit pin && !(r.u 0xE 2).testBit pin && (r.u (if rising then 0x12 else 0x14) 2).testBit pin

/-- GPIO_EDGE: an edge on a pin that Larza does not drive. Its level is seen whatever the device state, and an enabled
edge is stamped and flagged (18 R383). -/
def execGpioEdge (pin : Fin 16) (rising : Bool) (s : State) : Host.Outcome State Fault Refusal :=
  done s (
    if s.ports.gpio.drive.getLsbD pin then s
    else
      let bit : BitVec 16 := 1#16 <<< pin.val
      let s1 := s.modGpio fun x => { x with level := if rising then x.level ||| bit else x.level &&& ~~~bit }
      if !s.gpioRec.any fun r => gpioCaptures r pin rising then s1
      else
        let s2 := s1.modGpio fun x => { x with flags := x.flags ||| bit, stamps := x.stamps.set 0 pin s.now }
        if s.ports.gpio.flags = 0 then s2.post 0x0C05 s2.ports.gpio.flags.toNat none else s2)

/-! ### START and block resets -/

/-- The first periodic trigger of each script of master `m` (18 R372). -/
def firstTriggers (r : Rec) (now : Nat) : Map Nat :=
  (List.range 2).foldl (fun (m : Map Nat) k =>
    if scriptEnabled r k && scriptLoop r k == 0xFF then m.set 0 k (firstInstant now 0 (scriptPeriod r k) + 1) else m) []

/-- An SPI master with its counters, ring and transfers cleared (18 R385). -/
def SpiSt.restart (r : Option Rec) (now : Nat) (x : SpiSt) : SpiSt :=
  { SpiSt.init with txBuf := x.txBuf, rxBuf := x.rxBuf, script := x.script, result := x.result,
                    nextTrig := r.elim [] fun q => firstTriggers q now }

/-- An SPI master after a BLOCK_CONTROL RESET: its ring goes on from where it stood, as RING_HEAD and RING_TAIL return to
0 at START alone (18 R372, R385; 17 R357). -/
def SpiSt.blockReset (r : Option Rec) (now : Nat) (x : SpiSt) : SpiSt :=
  { x.restart r now with ringHead := x.ringHead, ringTail := x.ringTail, skipped := x.skipped }

/-- A UART with its FIFOs cleared (18 R385). -/
def UartSt.restart (x : UartSt) : UartSt := { UartSt.init with result := x.result }

/-- A PWM output that starts over: low, and for a host output the next period at PHASE (18 section 18.7). -/
def State.restartPwm (n : Nat) (s : State) : State :=
  let next := if (s.pwmLoop n).isSome then none
    else (s.port 6 n).map fun r => firstInstant s.now (r.u 0x10 4) (r.u 0xC 4)
  s.modPwm n fun x => { PwmSt.init with duty := x.duty, result := x.result, nextPeriod := next }

/-- START clears the counters and FIFOs of the small ports and takes the PORT records (18 R383, R385). -/
def State.startPorts (s : State) : State :=
  let s1 := (List.range 2).foldl (fun (t : State) k =>
    (t.modSpi k (SpiSt.restart (s.port 2 k) s.now)).modUart k UartSt.restart) s.startEncoders
  let s2 := (List.range 8).foldl (fun (t : State) n => t.restartPwm n) s1
  (s2.modGpio fun x => { x with marks := [] }).gpioDrive
    (if s.outputsUp then s.gpioRec.elim 0 gpioOuts else 0)
    (s.gpioRec.elim 0 fun r => BitVec.ofNat 16 (r.u 0x10 2) &&& gpioOuts r)

/-- BLOCK_CONTROL RESET of a small-port or CAN block (06 Table 6.11; 17 R360; 18 R379, R385). -/
def State.resetPort (b : Nat) (s : State) : State :=
  if 0x28 ≤ b ∧ b < 0x2C then s.resetCan (b - 0x28)
  else if 0x30 ≤ b ∧ b < 0x40 then
    s.modEnc (b - 0x30) fun y => { EncSt.init with levA := y.levA, levB := y.levB, readyAt := s.now }
  else if 0x40 ≤ b ∧ b < 0x48 then s.restartPwm (b - 0x40)
  else if 0x48 ≤ b ∧ b < 0x4A then s.modSpi (b - 0x48) (SpiSt.blockReset (s.port 2 (b - 0x48)) s.now)
  else if 0x4A ≤ b ∧ b < 0x4C then s.modUart (b - 0x4A) UartSt.restart
  else if b = 0x4C ∧ s.ports.spur.running then s.spurEnd 0x4C04 []
  else s

end Sys2Proof.Machine
end

