-- ==== Sys2Proof/Machine/Power.lean ====
section
/-! DEFINITION. Whole-device reset, PORST_N and the supplies (03 sections 3.1, 3.2), the end of a fence (01 section 1.6)
and the PCIe link going down and up (04 section 4.1.4). -/

namespace Sys2Proof.Machine

/-- A memory's stuck bits, which are the part's own and stand over a reset. -/
def MemSpace.hardOnly (p : MemSpace) : MemSpace := { MemSpace.init with hard := p.hard }

/-- Whole-device reset to OFF (03 R60, 05 R90, 01 R9): every field at its reset value but the world outside the block
(host memory, the fitted LPDDR5, stuck bits, PORST_N and the rails) and the model's own record. -/
def State.toOff (s : State) : State :=
  let t := s.outputsDown
  { State.reset with
    porst := t.porst, lostRails := t.lostRails, free := t.free, out := t.out,
    mem := { MemSt.init with host := t.mem.host, hostBad := t.mem.hostBad, fittedGiB := t.mem.fittedGiB,
                             sward := t.mem.sward.hardOnly, lpddr := t.mem.lpddr.hardOnly,
                             tag := t.mem.tag.hardOnly, pic := t.mem.pic.hardOnly } }

/-- PORST_N_LOW: the whole device is reset (03 R54, R64; 01 R9). -/
def execPorstNLow (s : State) : Host.Outcome State Fault Refusal := done s { s.toOff with porst := false }

/-! ### The PCIe link -/

/-- The queues either of whose rings lies in host memory become HALTED (04 Table 4.7 step 2, 07 R142). -/
def State.haltHostQueues (s : State) : State :=
  (s.queueInfos.filter fun i => decide (hostBase ≤ i.sqBase) || decide (hostBase ≤ i.cqBase)).foldl
    (fun (t : State) i => t.modQueue i.ctx i.queue fun x => { x with halted := true }) s

/-- Hold or release the events of every function of a list (04 Table 4.7 steps 4 and 7). -/
def State.holdEvents (hold : Bool) (fs : List Nat) (s : State) : State :=
  fs.foldl (fun (t : State) f => t.modFn f fun x => { x with evHold := hold }) s

/-- Link-down: the queues halt, events enter the hold, and the endpoint enters FENCED (04 R75, Table 4.7 steps 1 to 4). -/
def State.linkLost (s : State) : State :=
  if s.link.up then (({ s with link := { s.link with up := false } }.haltHostQueues).holdEvents true (List.range 16)).enterFence 0x50
  else s.enterFence 0x50

/-- The event ring of a function is removed (06 R133). -/
def State.dropRing (f : Nat) (s : State) : State :=
  s.modFn f fun x => { x with evSet := false, evBase := 0, evEntries := 0, evTail := 0, evHead := 0, evPhase := true }

/-- The counters of a function's contexts start at 0 again (07 R147). -/
def State.clearCounters (f : Nat) (s : State) : State :=
  { s with counters := s.counters.filter fun p => s.ctxFn (p.1 / 32) != some f }

/-- The pools of a function's contexts are unregistered (12 R243). -/
def State.dropPools (f : Nat) (s : State) : State :=
  let keys := (s.ctxs.filter fun c => c.fn == f).map poolKey
  s.unregister fun p => keys.contains p.key

/-- What a PF FLR does besides the link-down: PF0's event ring goes, and its contexts' counters, pools, streams and
writer outcomes start anew (06 R133; 07 R147; 09 R186; 12 R243; 13 R264). -/
def State.pfFlr (s : State) : State :=
  let s1 := (((s.dropRing 0).clearCounters 0).dropPools 0).closeIntake fun c => s.ctxFn c == some 0
  { s1 with sched := { s1.sched with outcomes := s1.sched.outcomes.filter fun p => s.ctxFn (p.1 / 16384) != some 0 } }

/-- LINK_DOWN: loss of DL_Up, a hot reset, a PF FLR or entry to D3hot (04 R75). -/
def execLinkDown (cause : LinkDownCause) (s : State) : Host.Outcome State Fault Refusal :=
  done s (
    let s1 := if s.link.up then s.linkLost else s
    match cause with
    | .pfFlr => s1.pfFlr
    | .d3hot => s1.modFn 0 fun x => { x with cfg := { x.cfg with d3hot := true } }
    | _ => s1)

/-- The configuration registers of every function at their reset values (04 Table 4.7 step 5); vectors left pending are
kept (06 R127). -/
def State.resetConfig (s : State) : State :=
  let s1 := (List.range 16).foldl (fun (t : State) f => t.modFn f fun x =>
    { x with msixEnable := false, msixFnMask := false, msixTable := [], msixOpen := [], bar0 := 0, bar2 := 0, bar4 := 0,
             cfg := CfgSt.init }) s
  { s1 with link := { s1.link with vfEnable := false, numVfs := 0, vfBar0 := 0, vfBar2 := 0, vfBar4 := 0 } }

/-- Lower the fence line of a block and post FENCE_EXIT (01 Table 1.8 step 7). When the first station leaves FENCED, the
ring's monitor counts from that moment, as it judges only while a station is unfenced (02 Table 2.7). -/
def State.lowerFence (b : Nat) (s : State) : State :=
  if s.isFenced b then
    let s1 := (s.modFence b fun f => { f with fenced := false }).postFence 0x0005 b
    if (List.range 19).all (fun e => s.stationFenced e) && (List.range 19).any (fun e => !s1.stationFenced e) then
      { s1 with sched := { s1.sched with lastCircuit := s1.now } }
    else s1
  else s

/-- The functions with no HALTED queue, whose held events therefore wait on no restart; PF0 waits on every queue's. -/
def State.nothingHalted (s : State) : List Nat :=
  (List.range 16).filter fun f => s.queueInfos.all fun i =>
    !(s.queue i.ctx i.queue).halted || !(f == 0 || s.ctxFn i.ctx == some f)

/-- LINK_UP: the link has trained again; configuration state is at reset, the endpoint leaves FENCED and LINK_UP is posted
and held like the others (04 Table 4.7 step 5). A function with no queue to restart holds no further (log 43). -/
def execLinkUp (width rate : BitVec 4) (s : State) : Host.Outcome State Fault Refusal :=
  done s (
    if s.link.up || s.devState == .off || s.lostRails.contains .vphyHs then s
    else
      let s1 := (({ s.resetConfig with link := { s.resetConfig.link with up := true } }).lowerFence 0x50).post 0x0D01
        (width.toNat + rate.toNat * 16) none
      s1.holdEvents false s1.nothingHalted)

/-! ### Supplies -/

/-- Position of a rail in 03 Table 3.2: the UNIT of its fault record. -/
def railIndex : Rail → Nat
  | .vcore => 0 | .vctl => 1 | .vio18 => 2 | .vio33 => 3 | .vfield => 4 | .vddq => 5 | .vdd2h => 6 | .vphyHs => 7 | .vphyMipi => 8

/-- Some blocks enter FENCED in turn. -/
def State.fenceBlocks (bs : List Nat) (s : State) : State := bs.foldl (fun (t : State) b => t.enterFence b) s

/-- LPDDR5 after a loss of its supply: zeros with valid check bits, so no pool holds anything (03 section 3.2). -/
def State.lpddrCleared (s : State) : State :=
  let s1 := s.zeroRange .lp 0 s.usable
  { s1 with pools := s1.pools.map fun p => { p with blk := [], seq := [] } }

/-- What the declared loss of a rail does outside OFF (03 Table 3.4). -/
def State.railLost (r : Rail) (s : State) : State :=
  match r with
  | .vctl | .vio18 => s.toOff
  | .vio33 | .vfield => (s.raise 0x8A07 (railIndex r) .immediate 0).outputsDown
  | .vcore => if 3 ≤ s.devState.code then s.piLoss else s.raise 0x8A0A 0xFF .fencePi 0
  | .vddq | .vdd2h => (s.fenceBlocks [0x54, 0x55, 0x56, 0x57]).lpddrCleared
  | .vphyHs => s.linkLost.fenceBlocks [0x20, 0x21]
  | .vphyMipi => s.fenceBlocks [0x22, 0x23, 0x24, 0x25]

/-- OFF is left for ROM_WAIT: PORST_N is high and VCTL and VIO18 are in range; Milestone starts at 0, and each other rail
that is still out of range counts as lost from then on (03 Table 3.3 step 7, R54, section 3.8; 05 Table 5.2). -/
def State.toRomWait (s : State) : State :=
  if s.devState = .off ∧ s.porst ∧ !s.lostRails.contains .vctl ∧ !s.lostRails.contains .vio18 then
    s.lostRails.foldl (fun (t : State) r => t.railLost r)
      ({ s with time := { TimeSt.init with running := true }, mc := McSt.init }.enter .romWait 0)
  else s

/-- PORST_N_RELEASE: PORST_N is high; with VCTL and VIO18 in range OFF is left (03 R54). After RESET_DEVICE it stands for
Larza leaving OFF by itself, as PORST_N is high already (05 Table 5.2). -/
def execPorstNRelease (s : State) : Host.Outcome State Fault Refusal := done s { s with porst := true }.toRomWait

/-- SUPPLY_LOSS: a rail has stayed outside its threshold for the filter time (03 R57). -/
def execSupplyLoss (rail : Rail) (s : State) : Host.Outcome State Fault Refusal :=
  done s (
    if s.lostRails.contains rail then s
    else
      let s1 := { s with lostRails := s.lostRails ++ [rail] }
      if s.devState = .off then s1 else s1.railLost rail)

/-- SUPPLY_RESTORE: the rail is within range again. From OFF, Larza starts anew (03 R60); with VCORE back a Perception
Island reset begins, but not while a thermal fence waits for its PI_RESET (02 R49). The outputs stay in their reset state
until the next START, whatever rail returns (DESIGN CHOICE, log 46). -/
def execSupplyRestore (rail : Rail) (s : State) : Host.Outcome State Fault Refusal :=
  done s (
    if !s.lostRails.contains rail then s
    else
      let s1 := { s with lostRails := s.lostRails.filter (· ≠ rail) }
      if s.devState = .off then s1.toRomWait
      else if rail = .vcore && s.isFenced 0x60 && !s.pace.thermalFence then { s1 with piReset := true }
      else s1)

/-! ### The end of a fence -/

/-- The rails that feed a block (03 Tables 3.2, 3.4, 3.8). -/
def railsOf (b : Nat) : List Rail :=
  if b < 0x17 || (0x58 ≤ b && b ≤ 0x60) then [.vcore]
  else if b < 0x22 then [.vphyHs]
  else if b < 0x26 then [.vphyMipi]
  else if b < 0x2C then [.vio33]
  else if b < 0x48 || b = 0x4A || b = 0x4B || b = 0x4C then [.vfield]
  else if b < 0x4A then [.vio33]
  else if 0x54 ≤ b && b < 0x58 then [.vddq, .vdd2h]
  else []

/-- The Perception Island after its reset: Sward zeroed, pools, streams and dictionaries gone, and the island and its
blocks out of FENCED but for those powered down (01 R10, R29; 06 R120; 12 R243; 13 R264). -/
def State.exitPi (s : State) : State :=
  let s1 := ((s.zeroSward.unregister fun _ => true).closeIntake fun _ => true)
  let s2 := { s1 with piReset := false, pace := { s1.pace with thermalFence := false, hostReset := false }, fw := { s1.fw with runSinceZero := s1.active } }
  let s3 := (0x60 :: piBlocks).foldl (fun (t : State) b => if (t.fenceOf b).poweredDown then t else t.lowerFence b) s2
  if s3.devState = .fenced then s3.enter .run 0 else s3

/-- FENCE_EXIT: a block has been reinitialised (01 R22, Table 1.8 step 7). The endpoint leaves FENCED by LINK_UP; the
blocks of the Perception Island wait for the island's own reset. The island stays fenced after a thermal fence until host
software has asked for a reset (02 R49), and from a FAULT until START when it was fenced there (05 R108). -/
def execFenceExit (block : BitVec 8) (s : State) : Host.Outcome State Fault Refusal :=
  let b := block.toNat
  done s (
    if !s.isFenced b || b == 0x50 || (s.fenceOf b).poweredDown || (railsOf b).any s.lostRails.contains then s
    else if b = 0x60 then
      (if s.piReset && !s.fw.piHeld && (!s.pace.thermalFence || s.pace.hostReset) then s.exitPi else s)
    else if piBlocks.contains b && s.isFenced 0x60 then s
    else s.lowerFence b)

end Sys2Proof.Machine
end

