-- ==== Sys2Proof/Machine/Control.lean ====
section
/-! DEFINITION. The Control Engine: loop records, sample timing, the control law, Waymark reads and fallbacks, stops, and
the actuation monitor (15; 16 R331, R332). -/

namespace Sys2Proof.Machine

/-! ### Loop records (15 Tables 15.2, 15.3) -/

/-- PERIOD in ns. -/
def loopPeriod (r : Rec) : Nat := r.u 0xC 2 * 31250

/-- ACT_DELAY in ns. -/
def loopDelay (r : Rec) : Nat := r.u 0x14 4

/-- FLAGS bit of a LOOP record: 0 START_MANUAL, 1 FRICTION, 2 COGGING. -/
def loopFlag (r : Rec) (i : Nat) : Bool := (r.u 0xB 1).testBit i

/-- K of a loop (16 Table 16.2). -/
def State.lateLimit (s : State) (l : Nat) : Nat := s.recField 0xA0 (0x10 + 8 * l) 1

/-- The reaction that a loop's STOP_CAT names (16 Table 16.2). -/
def State.stopCat (s : State) (l : Nat) : Reaction :=
  if s.recField 0xA0 (0x11 + 8 * l) 1 = 0 then .immediate else .controlled

/-! ### The law's functions (15 R308, R309) -/

/-- Clamp to 48 signed bits. -/
def sat48 (x : Int) : Int := clampTo (-2 ^ 47) (2 ^ 47 - 1) x

/-- Wrap to 48 signed bits. -/
def wrap48 (x : Int) : Int := wrapTo 48 x

/-- An exact value in units of 2^-16, rounded once (10 R203). -/
def rne16 (x : Int) : Int := rneInt x 65536

/-- A quotient by a signed non-zero number, rounded once. -/
def rneQuot (n d : Int) : Int := if d < 0 then rneInt (-n) d.natAbs else rneInt n d.natAbs

/-- Break of gain entry `j`. -/
def gainBreak (t : Map Nat) (j : Nat) : Nat := t.get 0 j / 2 ^ 24 % 2 ^ 40

/-- Gain of gain entry `j`. -/
def gainValue (t : Map Nat) (j : Nat) : Nat := t.get 0 j % 2 ^ 24

/-- Interpolation between two gain entries (15 R308). -/
def gainBetween (t : Map Nat) (j ea : Nat) : Int :=
  let g := gainValue t j
  g + rneInt (((gainValue t (j + 1) : Int) - g) * ((ea : Int) - gainBreak t j)) (gainBreak t (j + 1) - gainBreak t j)

/-- gain(ea) over `n` points (15 R308). -/
def gainAt (t : Map Nat) (n ea : Nat) : Int :=
  if ea ≤ gainBreak t 0 then gainValue t 0
  else if gainBreak t (n - 1) ≤ ea then gainValue t (n - 1)
  else match (List.range (n - 1)).find? fun j => gainBreak t j ≤ ea && ea < gainBreak t (j + 1) with
    | some j => gainBetween t j ea
    | none => gainValue t (n - 1)

/-- table(T, N, th) (15 R309). -/
def tableAt (t : Map Int) (n th : Nat) : Int :=
  let k := th * n / 2 ^ 24
  let a := t.get 0 k
  sat48 (a + rneInt ((t.get 0 ((k + 1) % n) - a) * (th * n % 2 ^ 24 : Nat)) (2 ^ 24))

/-- A value moved towards a target by at most a step. -/
def stepTowards (target : Int) (step : Nat) (v : Int) : Int :=
  if v < target then min (v + step) target else max (v - step) target

/-! ### Waymark reads (15 section 15.4) -/

/-- A Waymark read entry. -/
structure ReadEntry where
  index : Nat
  slot : Nat
  target : Nat
  offset : Nat
  width : Nat
  fallback : Nat
  maxAge : Nat
  deriving DecidableEq, Repr

/-- The used read entries of a LOOP record, in order. -/
def readEntries (r : Rec) : List ReadEntry :=
  ((List.range 4).map fun i =>
    let o := 0x68 + 16 * i
    (⟨i, r.u o 1, r.u (o + 1) 1, r.u (o + 2) 1, r.u (o + 3) 1, r.u (o + 4) 1, r.u (o + 8) 8⟩ : ReadEntry)).filter
      fun e => e.target != 0

/-- The fresh value of an entry, where the slot's active half gives one for sample instant `at_` (15 R310). -/
def State.freshRead (s : State) (e : ReadEntry) (at_ : Nat) : Option Int :=
  let h := (s.waymark e.slot).activeHalf
  if h.seq ≠ 0 ∧ at_ ≤ h.stamp + e.maxAge ∧ e.offset + e.width ≤ h.length.toNat then
    some (signed (8 * e.width) (unle (h.payload.bytes e.offset e.width)))
  else none

/-- What an entry supplies, and its state afterwards (15 R311, R312). -/
def ReadSt.supply (r : Rec) (e : ReadEntry) (fresh : Option Int) (x : ReadSt) : ReadSt :=
  let initial : Option Int := match e.target with
    | 1 => some (r.i 0x20 8)
    | 3 => some 0
    | _ => none
  match fresh with
  | some v => { fresh := some v, value := some v, stale := false, requested := false }
  | none =>
    if e.fallback = 1 then
      let target := if e.target = 1 then r.i 0x28 8 else 0
      { x with value := (x.value.or initial).map (stepTowards target (r.u 0x30 8)), stale := true }
    else { x with value := x.fresh.or initial, stale := true }

/-- The reads of one evaluation: what each entry supplies. -/
def State.readAll (s : State) (r : Rec) (x : LoopSt) (at_ : Nat) : List (ReadEntry × ReadSt) :=
  (readEntries r).map fun e => (e, (x.reads.get ReadSt.init e.index).supply r e (s.freshRead e at_))

/-- The value of the entry with a target. -/
def valueOf (l : List (ReadEntry × ReadSt)) (target : Nat) : Option Int :=
  (l.find? fun p => p.1.target == target).bind fun p => p.2.value

/-- LOOP_FALLBACK and LOOP_RESUMED for the entries whose fallback came into force or ended (15 R312). -/
def State.postFallbacks (l : Nat) (x : LoopSt) (reads : List (ReadEntry × ReadSt)) (s : State) : State :=
  reads.foldl (fun t p =>
    let was := (x.reads.get ReadSt.init p.1.index).stale
    if was = p.2.stale then t
    else t.post (if p.2.stale then 0x0901 else 0x0902) (l + p.1.index * 256 + p.1.fallback * 65536) none) s

/-- An entry whose STOP fallback makes its request at this sample: the first automatic one since it came into force (15
R311, section 15.8 corner 6). -/
def stopEntry (x : LoopSt) (p : ReadEntry × ReadSt) : Bool :=
  !x.manual && p.2.stale && p.1.fallback == 2 && !p.2.requested

/-- The loop requests its stop category at this sample (15 R311). -/
def stopRequested (x : LoopSt) (reads : List (ReadEntry × ReadSt)) : Bool := reads.any (stopEntry x)

/-- The read entries of a loop after a sample: an input-invalid one leaves the values, and keeps which fallbacks are in
force and which requests are made (15 R311, R312, R318). -/
def LoopSt.keepReads (x : LoopSt) (evaluated : Bool) (reads : List (ReadEntry × ReadSt)) (y : LoopSt) : LoopSt :=
  { y with reads := reads.foldl (fun (m : Map ReadSt) p =>
      let req := p.2.stale && (p.2.requested || stopEntry x p)
      let new := if evaluated then p.2 else { x.reads.get ReadSt.init p.1.index with stale := p.2.stale }
      m.set ReadSt.init p.1.index { new with requested := req }) y.reads }

/-! ### One evaluation (15 R307) -/

/-- The reference of an evaluation, the ramp velocity and whether the ramp has reached its end (15 R307, R313, R319;
16 R329). -/
def State.reference (s : State) (r : Rec) (x : LoopSt) (reads : List (ReadEntry × ReadSt)) : Int × Option Int × Bool :=
  let decel := r.u 0x38 8
  if s.verge.stop = .immediate ∨ x.reinitAt.isSome ∨ (s.verge.stop = .controlled ∧ x.manual) then
    (x.refHeld, x.rampVel, x.rampDone || (s.verge.stop == .controlled && x.manual))
  else if s.verge.stop = .controlled then
    match r.u 9 1 with
    | 0 =>
      let v := stepTowards 0 decel (x.rampVel.getD x.vel)
      (wrap48 (x.refHeld + v), some v, x.rampDone || v == 0)
    | k =>
      let target := if k = 1 then 0 else r.i 0x28 8
      let v := stepTowards target decel x.refHeld
      (v, none, x.rampDone || v == target)
  else match r.u 0xF 1 with
    | 0 => (r.i 0x20 8, none, false)
    | 1 => ((valueOf reads 1).getD 0, none, false)
    | _ => (sat48 (rne16 ((s.loop (r.u 0x18 1)).out * r.i 0x58 4)), none, false)

/-- The integrator after an exact sum, with WRAP when it leaves the range (15 R316). -/
def LoopSt.integrate (sum : Int) (x : LoopSt) : LoopSt :=
  if wrap48 sum = sum then { x with integ := sum }
  else { x with integ := wrap48 sum, wrap := true, wrapCount := satAdd 0xFFFFFFFF x.wrapCount 1 }

/-- The law on position, velocity, feedback, reference and feed-forward: the state after the evaluation and the output
(15 R307, R314). -/
def LoopSt.law (r : Rec) (pos vel y ref ff : Int) (x : LoopSt) : LoopSt × Int :=
  let yPrev := if x.posPrev.isNone then y else x.yPrev
  let e := wrap48 (ref - y)
  let g := gainAt x.tables.gain (r.u 0xE 1) (min e.natAbs (2 ^ 47 - 1))
  let p := sat48 (rne16 (g * e))
  let d := sat48 (rne16 (r.i 0x44 4 * (yPrev - y)))
  let th := ((pos + (r.u 0x5C 3 : Nat)) % (2 ^ 24 : Int)).toNat
  let sign : Int := if vel.natAbs ≤ r.u 0x60 8 then 0 else vel.sign
  let f := if loopFlag r 1 then tableAt x.tables.fric 512 th * sign else 0
  let c := if loopFlag r 2 then tableAt x.tables.cog 1024 th else 0
  let scale := r.i 0x48 4
  let held := fun v => clampTo (r.i 0x4C 4) (r.i 0x50 4) v
  let z := { x with posPrev := some pos, yPrev := y, vel := vel, refHeld := ref, evalManual := x.manual, pos := pos }
  if x.manual then (z, held x.manualOut)
  else if x.evalManual then
    let ustar := rneQuot (x.out * 65536) scale
    (z.integrate (ustar - p - d - ff - f - c), held (rne16 (ustar * scale)))
  else
    let w := z.integrate (x.integ + rne16 (r.i 0x40 4 * p))
    (w, held (rne16 (sat48 (p + w.integ + d + ff + f + c) * scale)))

/-- The feed-forward of an evaluation. Several FF reads are allowed and the manual says of one value only: then a free
value stands for it (log 25). -/
def State.feedForward (reads : List (ReadEntry × ReadSt)) (s : State) : Int × State :=
  match reads.filter fun p => p.1.target == 3 with
  | [] => (0, s)
  | [p] => (p.2.value.getD 0, s)
  | _ => let (v, s1) := s.draw
    (signed 48 v, s1)

/-- The law applied to the sample of loop `l`: none when the sample is input-invalid for want of an FB value (15 R307,
R311). -/
def State.evaluate (l : Nat) (r : Rec) (reads : List (ReadEntry × ReadSt)) (s : State) : Option (LoopSt × Int) × State :=
  let x := s.loop l
  let pos := if r.u 0xA 1 = 0xFF then 0 else x.inPos
  let vel := match x.posPrev with
    | some q => wrap48 (pos - q)
    | none => 0
  let y := match r.u 9 1 with
    | 0 => some pos
    | 1 => some vel
    | _ => valueOf reads 2
  match y with
  | none => (none, s)
  | some fb =>
    let (ff, s1) := s.feedForward reads
    let (ref, rv, ended) := s.reference r x reads
    let (z, out) := x.law r pos vel fb ref ff
    (some ({ z with rampVel := rv, rampDone := ended }, out), s1)

/-! ### Sample instants (15 R303, R304; 18 R372, R384) -/

/-- Parameters that a loop takes at START: AUTO or MANUAL, START_OUT, the held reference; tables and shadow stay
(15 section 15.5, R316). -/
def LoopSt.fresh (r : Rec) (x : LoopSt) : LoopSt :=
  { LoopSt.init with tables := x.tables, shadow := x.shadow, manual := loopFlag r 0, manualOut := r.i 0x54 4,
                     refHeld := r.i 0x20 8 }

/-- What takes effect at a sample instant: a reinitialisation, a table commit, a mode change (15 R315, R322; 16 R345). -/
def LoopSt.takeChanges (r : Rec) (at_ : Nat) (x : LoopSt) : LoopSt :=
  let a := match x.reinitAt with
    | some t => if t ≤ at_ then { x.fresh r with nextSample := x.nextSample, sample := x.sample, actPend := x.actPend,
                                                 commitTbl := x.commitTbl, modeReq := x.modeReq } else x
    | none => x
  let b := match a.commitTbl with
    | some (k, t) => if t ≤ at_ then
        { a with commitTbl := none, tables := match k with
          | 0 => { a.tables with gain := a.shadow.gain }
          | 1 => { a.tables with fric := a.shadow.fric }
          | _ => { a.tables with cog := a.shadow.cog } } else a
    | none => a
  match b.modeReq with
  | some (m, out, t) => if t ≤ at_ then
      { b with modeReq := none, manual := m, manualOut := if m then out else b.manualOut } else b
  | none => b

/-- The sample-mark pins of loop `l` rise for 1 µs (18 R384). -/
def State.raiseMarks (l : Nat) (s : State) : State :=
  (List.range 16).foldl (fun (t : State) k =>
    if (s.recs 2).any (fun q => q.u (8 + 2 * k) 1 == 1 && q.u (9 + 2 * k) 1 == l) then
      (t.modGpio fun g => { g with marks := g.marks.set 0 k (s.now + 1000) }).emit (.mark k true)
    else t) s

/-- The scripts of loop `l` are triggered (18 R372). -/
def State.triggerScripts (l at_ : Nat) (s : State) : State :=
  (List.range 2).foldl (fun (t : State) m =>
    match s.spiRec m with
    | none => t
    | some r => (List.range 2).foldl (fun (u : State) k =>
        if scriptEnabled r k && scriptLoop r k == l then
          u.modSpi m fun y => { y with nextTrig := y.nextTrig.set 0 k (at_ + 1) }
        else u) t) s

/-- LOOP_SAMPLE_INSTANT: the instant `S` is reached. A sample that has not begun evaluation is abandoned, changes take
effect, the channel samples, marks rise and scripts are triggered (15 R303, R304; 18 R372, R384). -/
def execLoopSampleInstant (l : Fin 32) (s : State) : Host.Outcome State Fault Refusal :=
  done s (match s.loopRec l, (s.loop l).nextSample with
    | some r, some t =>
      if !s.islandLive || decide (s.now < t) then s
      else
        let ch := r.u 0xA 1
        let s1 := s.modLoop l fun x =>
          { x.takeChanges r t with sample := some t, inReady := decide (ch = 0xFF), inPos := 0, inValid := true,
                                   nextSample := some (t + loopPeriod r), actPend := x.actPend ++ [(t + loopDelay r, false)] }
        let s2 := s1.encSample ch t
        let s3 := if ch ≠ 0xFF ∧ ¬ (s2.enc ch).busy ∧ (s2.encRec ch).any (fun q => (s2.enc ch).readyAt == t + encDelay q)
          then s2.encDeliver ch else s2
        (s3.raiseMarks l).triggerScripts l t
    | _, _ => s)

/-- SAMPLE_MARK_END: the pin falls 1 µs after it rose (18 R384). -/
def execSampleMarkEnd (pin : Fin 16) (s : State) : Host.Outcome State Fault Refusal :=
  let t := s.ports.gpio.marks.get 0 pin
  done s (if t ≠ 0 ∧ t ≤ s.now then
    (s.modGpio fun g => { g with marks := g.marks.set 0 pin 0 }).emit (.mark pin false) else s)

/-! ### Evaluation and commit -/

/-- A consumer of a cascade waits for its source's evaluation of the same instant, or its actuation instant (15 R313). -/
def State.cascadeWaits (s : State) (r : Rec) (at_ : Nat) : Bool :=
  r.u 0xF 1 == 2 && (s.loopRec (r.u 0x18 1)).any fun q =>
    let y := s.loop (r.u 0x18 1)
    (y.sample == some at_ || y.nextSample == some at_) && decide (s.now < at_ + loopDelay q)

/-- The actuation instant of a loop whose sample is ready for evaluation (15 R304, R318). -/
def State.readyAt (s : State) (l : Nat) : Option Nat :=
  (s.loopRec l).bind fun r =>
    let x := s.loop l
    x.sample.bind fun t => if x.inReady && x.inValid && !s.cascadeWaits r t then some (t + loopDelay r) else none

/-- The loop that the CE takes: the earliest actuation instant, then the lowest number (15 R304). -/
def State.nextLoop (s : State) : Option Nat :=
  ((List.range 32).foldl (fun (best : Option (Nat × Nat)) l =>
    match s.readyAt l, best with
    | some a, some (b, _) => if a < b then some (a, l) else best
    | some a, none => some (a, l)
    | none, _ => best) none).map (·.2)

/-- A compared output is committed when its actuation instant is still ahead; a late one is discarded (15 R317, R320;
16 R332, R334). -/
def LoopSt.commit (act now : Nat) (out : Int) (x : LoopSt) : LoopSt :=
  if now < act then
    { x with out := out, committed := x.committed || x.reinitAt.isNone, lastLate := false, lateRun := 0,
             actPend := x.actPend.map fun p => if p.1 = act then (p.1, true) else p }
  else x

/-- LOOP_EVALUATION: the law on the sample of the next ready loop, the comparison of its results, the commit, and what
the reads and the ramp report to Verge (15 R307, R310 to R320; 16 R330, R331). The SAFETY_FAULT of a STOP fallback stands
before its LOOP_FALLBACK (19 R389), and a miscompare is a fault also where there was no FB value (15 R320). -/
def execLoopEvaluation (outcome : CeOutcome) (s : State) : Host.Outcome State Fault Refusal :=
  done s (
    if !s.islandLive then s
    else match s.nextLoop with
      | none => s
      | some l =>
        match s.loopRec l, (s.loop l).sample with
        | some r, some t =>
          let x := s.loop l
          let taken := s.modLoop l fun y => { y with sample := none }
          if outcome = .memoryUe then taken.raise 0x8A04 0xFF .immediate 0
          else
            let reads := s.readAll r x t
            let (res, s1) := taken.evaluate l r reads
            let s2 := match res with
              | none => s1.modLoop l (x.keepReads false reads)
              | some (z, out) =>
                let w := x.keepReads true reads { z with lastSample := t }
                (s1.modLoop l fun _ => if outcome = CeOutcome.agree then w.commit (t + loopDelay r) s.now out else w).endRamps
            let s3 := (if stopRequested x reads then s2.raise 0x8A0D l (s.stopCat l) 0 else s2).postFallbacks l x reads
            if outcome = .diverge then s3.raise 0x8A01 0xFF .immediate 0 else s3
        | _, _ => s)

/-- DIAGNOSTIC_EVALUATION: a divergence that the comparator flags where none was forced is a lockstep fault; a forced
one that it does not flag is a Verge internal fault (16 R326, R327). -/
def execDiagnosticEvaluation (diverged flagged forced : Bool) (s : State) : Host.Outcome State Fault Refusal :=
  done s (
    if s.devState = .off then s
    else if forced && !flagged then s.raise 0x8A02 0xFF .immediate 0
    else if !forced && diverged && flagged then s.raise 0x8A01 0xFF .immediate 0
    else s)

/-- LOOP_ACTUATION: at A the committed output goes to its PWM output or setpoint frame, and the monitor counts a sample
without a compared commit LATE (15 R305, R317; 16 R332). -/
def execLoopActuation (l : Fin 32) (s : State) : Host.Outcome State Fault Refusal :=
  done s (match s.loopRec l, (s.loop l).actPend with
    | some r, (a, ok) :: rest =>
      if !s.islandLive || decide (s.now < a) then s
      else
        let s1 := s.modLoop l fun x => { x with actPend := rest }
        let s2 := match r.u 0x19 1 with
          | 1 => if r.u 0x1C 1 = l then s1.formSetpoint (r.u 0x1A 1) else s1
          | 2 => s1.modPwm (r.u 0x1A 1) fun p => { p with cmd := s1.output l, nextPeriod := some a }
          | _ => s1
        if ok then s2
        else
          let n := (s.loop l).lateRun + 1
          let s3 := s2.modLoop l fun x =>
            { x with lateCount := satAdd 0xFFFFFFFF x.lateCount 1, lastLate := true, lateRun := n }
          if n = s.lateLimit l then s3.raise 0x8A0C l (s.stopCat l) n else s3
    | _, _ => s)

/-- CI_SCRUB: a correctable word is corrected; an uncorrectable one is a CI memory fault (15 R321). -/
def execCiScrub (outcome : CheckOutcome) (s : State) : Host.Outcome State Fault Refusal :=
  done s (match outcome with
    | .bad unit row => if s.devState = .off then s else s.raise 0x8A04 unit .immediate row
    | _ => s)

/-! ### START -/

/-- The tables of a loop from the accepted book; a table without a record is all zero (15 R300). -/
def State.bookTables (s : State) (l : Nat) : LoopTables :=
  (s.recs 0x31).foldl (fun (t : LoopTables) r =>
    if r.u 8 1 ≠ l then t
    else match r.u 9 1 with
      | 0 => { t with gain := (List.range 64).foldl (fun (m : Map Nat) k => m.set 0 k (r.u (0x10 + 8 * k) 8)) [] }
      | 1 => { t with fric := (List.range 512).foldl (fun (m : Map Int) k => m.set 0 k (r.i (0x10 + 4 * k) 4)) [] }
      | _ => { t with cog := (List.range 1024).foldl (fun (m : Map Int) k => m.set 0 k (r.i (0x10 + 4 * k) 4)) [] }) {}

/-- START: each loop takes its record's parameters, and its first sample is its first instant at least 100 µs after
(15 R303, section 15.5). -/
def State.startLoops (s : State) : State :=
  (List.range 32).foldl (fun (t : State) l =>
    match s.loopRec l with
    | none => t
    | some r => t.modLoop l fun x =>
        { x.fresh r with nextSample := some (firstInstant (s.now + 99999) (r.u 0x10 4) (loopPeriod r)) }) s

end Sys2Proof.Machine
end

