-- ==== Sys2Proof/Machine/Verge.lean ====
section
/-! DEFINITION. Verge: detected faults and periodic tests, stops and STO, and the Twin Link (16). -/

namespace Sys2Proof.Machine

/-! ### Detection (16 sections 16.1, 16.3) -/

/-- A fault that Verge detects in any powered state (16 R325, R328). -/
def State.detect (code unit : Nat) (r : Reaction) (detail : Nat) (s : State) : State :=
  if s.devState = .off then s else s.raise code unit r detail

/-- VERGE_HALF_MISMATCH: VA and VB disagree for 1 µs (16 R323). -/
def execVergeHalfMismatch (s : State) : Host.Outcome State Fault Refusal :=
  done s (s.detect 0x8A02 0xFF .immediate 0)

/-- CI_CHECKER_TEST: the 100 µs test of the CI and Verge ECC checkers (16 R327). -/
def execCiCheckerTest (outcome : CheckOutcome) (s : State) : Host.Outcome State Fault Refusal :=
  done s (match outcome with
    | .bad unit row => s.detect 0x8A05 unit .immediate row
    | _ => s)

/-- PI_CHECKER_TEST: the 1 ms test of the Sward, LPDDR5 and residue checkers (16 R327). -/
def execPiCheckerTest (outcome : PiCheck) (s : State) : Host.Outcome State Fault Refusal :=
  done s (match outcome with
    | .good => s
    | .swardTract n row => s.detect 0x8A08 n .fencePi row
    | .lpddrChannel n row => s.detect 0x8A08 n .fencePi row
    | .residue te => s.detect 0x8A09 te .fenceTe 0)

/-- STO_FEEDBACK_DISCREPANCY: a feedback differs from its channel's command for 250 µs; self-test judges its own
feedback (16 R335, 05 R399). -/
def execStoFeedbackDiscrepancy (chanB : Bool) (s : State) : Host.Outcome State Fault Refusal :=
  done s (if s.devState = .selftest then s else s.detect 0x8A06 (b2n chanB) .immediate 0)

/-! ### Stops and STO (16 sections 16.4, 16.5) -/

/-- STOP_TIMEOUT: the longest controlled stop has passed (16 R330). -/
def execStopTimeout (s : State) : Host.Outcome State Fault Refusal :=
  done s (if s.stopping && decide (s.verge.stopSince + s.recField 0xA0 8 4 * 1000 ≤ s.now) then
    s.assertSto s.verge.stoCause.toNat else s)

/-- Every loop that drives an output has committed a sample since START or TWIN_REARM (16 R334). -/
def State.loopsCommitted (s : State) : Bool :=
  (List.range 32).all fun l => match s.loopRec l with
    | some r => r.u 0x19 1 == 0 || (s.loop l).committed
    | none => true

/-- The conditions of R334 apart from the partner's. -/
def State.ready (s : State) : Bool :=
  s.active && s.verge.stop == .none && !s.verge.partnerStop && s.loopsCommitted

/-- The TWIN record. -/
def State.twinRec (s : State) : Option Rec := (s.recs 0xA1).head?

/-- MODE of a TWIN record is CROSS_CHECK. -/
def twinCross (r : Rec) : Bool := r.u 9 1 == 1

/-- The partner's condition of R334. -/
def State.partnerOk (s : State) : Bool :=
  match s.twinRec with
  | some r => !twinCross r || (s.verge.twin.up && s.verge.twin.partnerReady)
  | none => true

/-- STO_RELEASE: both channels in one Verge cycle, once every condition holds and the outputs are enabled (16 R334; 03
R58, R64). -/
def execStoRelease (s : State) : Host.Outcome State Fault Refusal :=
  done s (
    if s.outputsUp && s.ready && s.partnerOk && !s.verge.stoA && !s.verge.stoB then
      let s1 := { s with verge := { s.verge with stoA := true, stoB := true, stoByStop := false, stoCause := 0 } }
      ((s1.emit (.sto 0 true)).emit (.sto 1 true)).post 0x0A04 0 none
    else s)

/-! ### Twin Link: sending (16 R338, R339) -/

/-- Change the Twin Link. -/
def State.modTwin (g : TwinSt → TwinSt) (s : State) : State := { s with verge := { s.verge with twin := g s.verge.twin } }

/-- The STOP field that this unit sends (16 Table 16.8, R343). -/
def State.stopField (s : State) : Nat :=
  if s.verge.partnerStop then 3 else if s.verge.stoByStop then 2 else if s.stopping then 1
  else if s.verge.reduced then 4 else 0

/-- The position that a check loop sends (16 Table 16.8). -/
def State.checkPos (s : State) (r : Rec) (off : Nat) : Nat :=
  if twinCross r && r.u off 1 != 0xFF then unsigned 48 (s.loop (r.u off 1)).pos else 0

/-- SYNC. -/
def twinSync : Nat := 0xF2C0

/-- A frame from its bits 239:32: SYNC above, CRC below (16 Table 16.8). -/
def twinSeal (body : Nat) : Nat := twinSync * 2 ^ 240 + body * 2 ^ 32 + crc32 (beBytes 26 body)

/-- Bits 239:32 of this unit's TWIN frame (16 Table 16.8). -/
def State.twinBody (s : State) (r : Rec) : Nat :=
  ((((((((((((1 * 2 + r.u 8 1 % 2) * 2 + r.u 9 1 % 2) * 4) * 2 ^ 16 + s.verge.twin.txSeq.toNat) * 16 + s.devState.code) * 8
    + s.stopField) * 2 + b2n s.ready) * 4 + (b2n s.verge.stoA * 2 + b2n s.verge.stoB)) * 4) * 2 ^ 64 + s.now % 2 ^ 64) * 2 ^ 48
    + s.checkPos r 0xA) * 2 ^ 48 + s.checkPos r 0xB) * 2 ^ 12

/-- Scramble the low `n` bits of `d`, highest first, from history `h`: the scrambled bits and the new history
(16 R339). -/
def scramble : Nat → Nat → Nat → Nat × Nat
  | 0, _, h => (0, h)
  | n + 1, d, h =>
    let b := b2n ((d.testBit n != h.testBit 38) != h.testBit 57)
    let (x, h2) := scramble n d (h * 2 % 2 ^ 58 + b)
    (b * 2 ^ n + x, h2)

/-- Descramble the low `n` bits of `d`, highest first (16 R339). -/
def descramble : Nat → Nat → Nat → Nat × Nat
  | 0, _, h => (0, h)
  | n + 1, d, h =>
    let b := b2n ((d.testBit n != h.testBit 38) != h.testBit 57)
    let (x, h2) := descramble n d (h * 2 % 2 ^ 58 + b2n (d.testBit n))
    (b * 2 ^ n + x, h2)

/-- Frames as they leave: SYNC in clear, bits 239:0 scrambled (16 R339). -/
def scrambleFrames : List Nat → Nat → List (BitVec 256) × Nat
  | [], h => ([], h)
  | f :: r, h =>
    let (x, h1) := scramble 240 f h
    let (l, h2) := scrambleFrames r h1
    (BitVec.ofNat 256 (f / 2 ^ 240 * 2 ^ 240 + x) :: l, h2)

/-- TWIN_FRAME_TRANSMIT: a TWIN frame and the 39 IDLE frames that follow it, on both lanes (16 R338). -/
def execTwinFrameTransmit (s : State) : Host.Outcome State Fault Refusal :=
  done s (match s.twinRec with
    | some r =>
      if !s.verge.twin.on then s
      else
        let (l, h) := scrambleFrames (twinSeal (s.twinBody r) :: List.replicate 39 (twinSeal 0)) s.verge.twin.scr.toNat
        (s.modTwin fun t => { t with scr := BitVec.ofNat 58 h, txSeq := t.txSeq + 1 }).emit (.twin l)
    | none => s)

/-! ### Twin Link: receiving (16 R340 to R344) -/

/-- The fields that a received TWIN frame carries, from its bits 239:32 (16 Table 16.8). -/
structure TwinFields where
  typ : Nat
  unit : Nat
  mode : Nat
  seq : Nat
  stop : Nat
  ready : Bool
  check0 : Nat
  check1 : Nat
  deriving DecidableEq, Repr

/-- The fields of a whole frame. -/
def twinFields (f : Nat) : TwinFields :=
  { typ := bits f 239 236, unit := bits f 235 235, mode := bits f 234 234, seq := bits f 231 216,
    stop := bits f 211 209, ready := f.testBit 208, check0 := bits f 139 92, check1 := bits f 91 44 }

/-- The partner stop (16 R343): a controlled stop of every loop, unless one is in force. -/
def State.partnerStopNow (s : State) : State :=
  if s.verge.partnerStop then s
  else { s with verge := { s.verge with partnerStop := true } }.orderStop 0

/-- A used check position lies further than CHECK_TOL from this unit's own (16 R344). -/
def State.checkOff (s : State) (r : Rec) (off received : Nat) : Bool :=
  r.u off 1 != 0xFF && decide (r.u 0x10 8 < (wrap48 ((s.loop (r.u off 1)).pos - received)).natAbs)

/-- Cross-check of a valid frame: a partner's stop that differs from that of the frame before, or of START (log 27), and
the compared positions, in every state (16 R343, R344). -/
def State.crossCheck (r : Rec) (f : TwinFields) (wasStop : Nat) (s : State) : State :=
  let s1 := if f.stop ≠ 0 ∧ f.stop ≠ wasStop ∧ s.active then (s.post 0x0A0B f.stop none).partnerStopNow else s
  if s.checkOff r 0xA f.check0 || s.checkOff r 0xB f.check1 then
    let n := s.verge.twin.mismatch + 1
    let s2 := s1.modTwin fun t => { t with mismatch := min 4 n }
    if n = 4 then s2.raise 0x8A0E 0xFF .controlled 0 else s2
  else s1.modTwin fun t => { t with mismatch := 0 }

/-- A valid TWIN frame (16 R341, R342). -/
def State.twinValid (r : Rec) (f : TwinFields) (s : State) : State :=
  let t := s.verge.twin
  let s1 := s.modTwin fun x =>
    { x with rxSeq := some (BitVec.ofNat 16 f.seq), misses := 0, winStart := s.now, up := true, partnerReady := f.ready,
             lastStop := f.stop }
  let s2 := if t.misses = 4 ∧ ¬ twinCross r then s1.post 0x0A09 0 none else s1
  if twinCross r then s2.crossCheck r f t.lastStop else s2

/-- A TWIN frame with a good CRC on a locked lane: judged on TYPE, SEQ, UNIT and MODE (16 R341). -/
def State.twinFrame (r : Rec) (f : TwinFields) (s : State) : State :=
  let t := s.verge.twin
  if f.typ ≠ 1 ∨ t.rxSeq = some (BitVec.ofNat 16 f.seq) then s
  else if f.unit = r.u 8 1 ∨ f.mode ≠ r.u 9 1 then
    if t.cfgPosted then s
    else (s.post 0x0A07 (f.unit + f.mode * 2) none).modTwin fun x => { x with cfgPosted := true }
  else s.twinValid r f

/-- The lane `n`. -/
def TwinSt.lane (t : TwinSt) (n : Nat) : TwinLane := if n = 0 then t.lane0 else t.lane1

/-- Replace lane `n`. -/
def TwinSt.setLane (n : Nat) (l : TwinLane) (t : TwinSt) : TwinSt :=
  if n = 0 then { t with lane0 := l } else { t with lane1 := l }

/-- The 256 bits at bit offset `o` of two chunks in a row. -/
def frameAt (prev chunk : BitVec 256) (o : Nat) : Nat := (prev.toNat * 2 ^ 256 + chunk.toNat) / 2 ^ (256 - o) % 2 ^ 256

/-- A lane in search: SYNC hits of every offset, and the first offset with eight in a row (16 R340). -/
def TwinLane.search (chunk : BitVec 256) (l : TwinLane) : TwinLane :=
  let hits := (List.range 256).foldl (fun (m : Map Nat) o =>
    if frameAt l.prev chunk o / 2 ^ 240 = twinSync then m.set 0 o (l.hits.get 0 o + 1) else m) []
  match hits.find? fun p => 8 ≤ p.2 with
  | some p => { TwinLane.init with prev := chunk, locked := some p.1, descr := l.descr }
  | none => { l with prev := chunk, hits := hits }

/-- TWIN_FRAME_RECEIVE: the next 256 bits of a lane, at whatever alignment (16 R340, R341). -/
def execTwinFrameReceive (lane : Fin 2) (chunk : BitVec 256) (s : State) : Host.Outcome State Fault Refusal :=
  done s (match s.twinRec with
    | none => s
    | some r =>
      let l := s.verge.twin.lane lane
      match l.locked with
      | none =>
        let l2 := l.search chunk
        let s1 := s.modTwin (TwinSt.setLane lane l2)
        if l2.locked.isSome then s1.post 0x0A06 (lane + 256) none else s1
      | some o =>
        let raw := frameAt l.prev chunk o
        let (d, h) := descramble 240 raw l.descr.toNat
        let miss := if raw / 2 ^ 240 = twinSync then 0 else l.misses + 1
        let good := crc32 (beBytes 26 (d / 2 ^ 32)) = d % 2 ^ 32
        let fails := if good then 0 else l.crcFails + 1
        let lost := decide (miss = 4) || decide (fails = 16)
        let l2 : TwinLane := { l with prev := chunk, misses := miss, crcFails := fails, descr := BitVec.ofNat 58 h }
        let s1 := s.modTwin (TwinSt.setLane lane (if lost then { TwinLane.init with prev := chunk, descr := l2.descr } else l2))
        if lost then s1.post 0x0A06 lane none
        else if good then s1.twinFrame r (twinFields d) else s1)

/-- TWIN_MISS_WINDOW: 8,250 ns without a valid TWIN frame; at the fourth miss in a row the link is down (16 R342). -/
def execTwinMissWindow (s : State) : Host.Outcome State Fault Refusal :=
  done s (match s.twinRec with
    | none => s
    | some r =>
      let t := s.verge.twin
      if s.now < t.winStart + 8250 then s
      else
        let s1 := s.modTwin fun x =>
          { x with winStart := t.winStart + 8250, up := false, misses := min 4 (t.misses + 1),
                   cfgPosted := x.cfgPosted && t.misses != 3 }
        if t.misses ≠ 3 then s1
        else if twinCross r then
          let s2 := s1.post 0x0A0A 0 none
          if s.active then s2.partnerStopNow else s2
        else s1.post 0x0A08 0 none)

/-! ### START and TWIN_REARM -/

/-- START: no stop is in force but a partner stop that stands; the Twin transmitters come on (16 R334, R338, R343). -/
def State.startVerge (s : State) : State :=
  let v := s.verge
  let t : TwinSt := { v.twin with on := s.twinRec.isSome && s.outputsUp, scr := BitVec.allOnes 58, lastStop := 0, mismatch := 0 }
  { s with verge := { v with stop := if v.partnerStop then .controlled else .none, stopSince := s.now, stoByStop := false,
                             stoCause := 0, twin := t } }

/-- TWIN_REARM taken: the partner stop ends, and each loop is reinitialised at its first sample instant at least 50 µs
after (16 R345). -/
def State.rearm (s : State) : State :=
  let v := s.verge
  (List.range 32).foldl (fun (t : State) l =>
      if (s.loopRec l).isSome then
        t.modLoop l fun x => { x with rampVel := none, rampDone := false, committed := false, reinitAt := some (s.now + 50000) }
      else t)
    { s with verge := { v with partnerStop := false, stop := .none, stoByStop := false, stoCause := 0 } }

end Sys2Proof.Machine
end

