-- ==== Sys2Proof/Machine/Bringup.lean ====
section
/-! DEFINITION. From FW_VERIFY to RUN: the ends of image verification, self-test, Route Book validation and the retest of
CLEAR_FAULT (05 sections 5.2, 5.3, 5.5, 5.6), and what an accepted START does. -/

namespace Sys2Proof.Machine

/-- The answer to a taken command: the whole of SP_RSP, then STATUS, then DONE; then vector 1,024, and QSPI_STAT when
the host port is QSPI (06 Tables 6.6, 6.7). A refusal or failure carries no payload. -/
def State.respond (f opcode status detail : Nat) (payload : List Byte) (s : State) : State :=
  let body := if status < 0x2000 then payload else []
  let head := le 2 status ++ le 1 (s.fn f).spTag.toNat ++ le 1 detail ++ le 2 body.length ++ le 2 opcode
  let s1 := (s.modFn f fun x =>
    { x with spRsp := Map.store [] 0 (head ++ body), spStatus := BitVec.ofNat 16 status, spState := .done,
             spOwed := none }).signal f 1024
  if f = 0 ∧ s.link.hostPort = some .qspi then s1.qspiSet 1#4 else s1

/-! ### FW_VERIFY -/

/-- Bytes of the staged image (05 Table 5.4). -/
def State.image (s : State) (off n : Nat) : List Byte := s.fw.stage.bytes off n

/-- A field of the staged image. -/
def State.imageField (s : State) (off n : Nat) : Nat := unle (s.image off n)

/-- Step 2 of R93: MAGIC, FORMAT, ranges and reserved fields. -/
def State.imageFormatOk (s : State) : Bool :=
  let n := s.imageField 8 4
  s.imageField 0 4 == 0x57465A56 && s.imageField 4 2 == 1 && decide (s.imageField 6 1 < 4)
    && n % 16 == 0 && decide (16 ≤ n) && decide (n ≤ 1572864)
    && s.imageField 0x14 4 % 4 == 0 && decide (s.imageField 0x14 4 < n)
    && s.imageField 7 1 == 0 && s.imageField 0x12 2 == 0 && (s.image 0x81 383).all (· == 0)

/-- The status of the boot ROM's checks, in the order of R93; 0 when the image verifies. -/
def State.imageStatus (s : State) : Nat :=
  let n := s.imageField 8 4
  let slot := Config.romKey (s.imageField 6 1)
  let pieces := (s.fw.commitLen + 3) / 4
  if s.fw.commitLen ≠ 608 + n ∨ (s.fw.written.filter fun p => decide (p.1 < pieces)).length ≠ pieces then 0x2015
  else if !s.imageFormatOk then 0x2012
  else if slot.isEmpty || sha384 (s.image 0x20 97) != slot then 0x2013
  else if !ecdsaVerify (s.image 0x20 97) (s.image (512 + n) 96) (sha384 (s.image 0 (512 + n))) then 0x2014
  else 0

/-- FW_VERIFY_END: the result of the boot ROM's checks is the answer to FW_COMMIT; a failure discards the image, success
starts it (05 R93, R94). -/
def execFwVerifyEnd (s : State) : Host.Outcome State Fault Refusal :=
  done s (
    if s.devState ≠ .fwVerify ∨ s.mc.lost then s
    else
      let st := s.imageStatus
      if st ≠ 0 then
        ({ s with fw := { s.fw with stage := [], written := [], commitLen := 0 } }.enter .romWait st).respond 0 3 st 0 []
      else
        let slot := s.imageField 6 1
        let s1 := { s with fw := { s.fw with version := BitVec.ofNat 32 (s.imageField 0xC 4),
                                             rbFormat := BitVec.ofNat 16 (s.imageField 0x10 2), keySlot := BitVec.ofNat 8 slot } }
        ((s1.vcoreCommand 750).enter .selftest 0).respond 0 3 0 0 (s.image 0xC 4 ++ le 1 slot ++ le 3 0))

/-! ### Self-test -/

/-- Why a self-test step fails: its status, and RESOURCE_CLASS, RESOURCE_INDEX and DETAIL of the report (05 Table 5.5,
R105). -/
structure TestFail where
  step : Nat
  status : Nat
  resClass : Nat
  resIndex : Nat
  detail : Nat
  deriving DecidableEq, Repr

/-- The levels that the two samples of a step of Table 5.7 must show, A then B. -/
def stoExpected (step : Nat) : Bool × Bool := (step == 2, step == 4)

/-- VIO33 and VFIELD are in range, so field outputs have their enable (03 R58, section 3.8 corner 5). -/
def State.fieldPower (s : State) : Bool := !(s.lostRails.contains .vio33 || s.lostRails.contains .vfield)

/-- The first wrong sample of the STO channel test: step and channel (05 R399). A sample that the observation leaves out
shows what its step requires, or low where the outputs have no supply (log 46). -/
def stoWrong (powered : Bool) (l : List (Bool × Bool)) : Option (Nat × Nat) :=
  (List.range 10).findSome? fun i =>
    let want := stoExpected (i / 2 + 1)
    let got := l.getD i (if powered then want else (false, false))
    if got = want then none else some (i / 2 + 1, if got.1 ≠ want.1 then 0 else 1)

/-- What row `r` of 05 Table 5.6 expects of a read of the test word. -/
def eccExpected (r : Nat) : EccSeen :=
  if r = 1 then .clean 0
  else if r = 2 then .clean (BitVec.allOnes 64)
  else if r < 75 then .corrected 0 (r - 3)
  else .uncorrectable

/-- The first row of 05 Table 5.6 that a unit's test word fails: a read that differs from the table, or the row in which
the word's stuck bit shows (`stuck`, log 48). -/
def eccRow (reads : List EccRead) (stuck : Option Nat) (unit : Nat) : Option Nat :=
  (rangeFrom 1 76).find? fun r =>
    stuck == some r || reads.any fun x => x.unit == unit && x.row == r && x.seen != eccExpected r

/-- The lowest failing unit of an ECC checker test with its first failing row; `word` is each unit's test word. -/
def State.eccFail (s : State) (m : Mem) (units : Nat) (word : Nat → Nat) (reads : List EccRead) : Option (Nat × Nat) :=
  (List.range units).findSome? fun u =>
    let stuck := if (s.space m).hard.get 0 (word u) = 0 then none else some (1 + Config.freeValue s.free % 2)
    (eccRow reads stuck u).map fun r => (u, r)

/-- The test word of a Sward bank: the first word of the bank (05 R97, 08 Table 8.3). -/
def swardTestWord (bank : Nat) : Nat := (bank / 32 * 2 ^ 24 + bank % 32 * 64) / 8

/-- The test word of an LPDDR5 channel: the word at channel address 0 (05 R97, 08 Table 8.6). -/
def lpddrTestWord (ch : Nat) : Nat := ch * 7 * 64 / 8

/-- The residue test passes on a TE: the clean run matches with no error, and each forced run raises one (05 section
5.3). -/
def residuePasses (r : ResidueRun) : Bool := r.cleanMatches && !r.cleanError && r.accError && r.pathError

/-- Steps 6 and 7 of Table 5.5, which CLEAR_FAULT reruns: the comparator must flag each of three forcings, and the STO
feedbacks must follow (05 section 5.3, R399). -/
def State.retestFail (s : State) (o : SelfTestObs) : Option TestFail :=
  if (List.range 3).any fun i => !o.lockstepFlags.getD i true then
    some { step := 6, status := 0x8026, resClass := 5, resIndex := 0, detail := 0 }
  else (stoWrong s.fieldPower o.stoSamples).map fun p => { step := 7, status := 0x8027, resClass := 6, resIndex := p.2, detail := p.1 }

/-- The read-back of the 0.75 V command within ±15 mV (05 Table 5.5 step 1). -/
def avsPasses (readBack : Option Nat) : Bool := readBack.any fun v => decide (735 ≤ v) && decide (v ≤ 765)

/-- The lowest of some unit numbers. -/
def lowestOf (l : List Nat) : Option Nat := l.min?

/-- The first failing step of the self-test (05 R96, R97, Table 5.5). -/
def State.firstFail (s : State) (o : SelfTestObs) : Option TestFail :=
  let fail := fun (step cls : Nat) (p : Nat × Nat) =>
    ({ step := step, status := 0x8020 + step, resClass := cls, resIndex := p.1, detail := p.2 } : TestFail)
  if !avsPasses o.avsReadBack then some (fail 1 1 (0, 0))
  else
    ((lowestOf (o.trainFail.map (·.val))).map fun n => fail 2 2 (n, 0)).or (
    ((s.eccFail .sw 256 swardTestWord o.swardReads).map (fail 3 3)).or (
    ((s.eccFail .lp 4 lpddrTestWord o.lpddrReads).map (fail 4 2)).or (
    ((lowestOf ((o.residueRuns.filter fun r => !residuePasses r).map (·.te.val))).map fun n => fail 5 4 (n, 0)).or
    (s.retestFail o))))

/-- The refusal report after a self-test failure: STAGE 0x10 (05 R105). -/
def TestFail.report (t : TestFail) : Report :=
  { Report.init with status := BitVec.ofNat 16 t.status, stage := 0x10, resClass := t.resClass, resIndex := t.resIndex,
                     detail := t.detail }

/-- The results that SELFTEST_REPORT shows after a failure: PASS before it, FAIL, NOT_RUN after it (05 R96). -/
def TestFail.results (t : TestFail) : List Nat :=
  (rangeFrom 1 8).map fun k => if k < t.step then 1 else if k = t.step then 2 else 0

/-- What the STO channel test drives: steps 2 to 5 raise and lower one channel at a time, up to the step that fails
(05 Table 5.7); nothing without the outputs' supply (03 R58). -/
def State.stoTest (fail : Option TestFail) (s : State) : State :=
  let last := match fail with
    | some t => if t.step < 7 ∨ !s.fieldPower then 0 else t.detail
    | none => if s.fieldPower then 5 else 0
  let at_ := fun (k : Nat) (o : Out) (t : State) => if k ≤ last then t.emit o else t
  let s1 := at_ 4 (.sto 1 true) (at_ 3 (.sto 0 false) (at_ 2 (.sto 0 true) s))
  if last = 2 then s1.emit (.sto 0 false) else if 4 ≤ last then s1.emit (.sto 1 false) else s1

/-- A failed self-test step: HELD with the self-test report (05 R96, R106). -/
def State.testFailed (t : TestFail) (s : State) : State :=
  { s with fw := { s.fw with testResult := t.results, testStatus := BitVec.ofNat 16 t.status, testPassed := false,
                             report := t.report } }.enter .held t.status

/-- Every LPDDR5 granule below usable capacity, in ascending order. -/
def State.allGranules (s : State) : List Nat := List.range (s.usable / granule)

/-- Self-test passed: Sward is zeroed, every usable LPDDR5 granule is pending, the patrol scrubbers run from then on,
AWAIT_ROUTE (05 Table 5.5 step 8; 08 R160, R166). -/
def State.testsDone (s : State) : State :=
  let s1 := ({ s with fw := { s.fw with testResult := List.replicate 8 1, testStatus := 0, testPassed := true,
                                        runSinceZero := false, scrubbing := true },
                      pace := { s.pace with unconfirmed := false, pending := none } }.zeroSward)
  ({ s1 with mem := { s1.mem with pendGran := s.allGranules, zeroOwed := true } }.zeroDone).enter .awaitRoute 0

/-- SELFTEST_END: the self-test stops at its first failing step, or passes (05 R96, Table 5.2). -/
def execSelftestEnd (obs : SelfTestObs) (s : State) : Host.Outcome State Fault Refusal :=
  done s (
    if s.devState ≠ .selftest ∨ s.mc.lost then s
    else
      let r := s.firstFail obs
      let s1 := { s.stoTest r with free := s.free + 1 }
      match r with
      | some t => s1.testFailed t
      | none => s1.testsDone)

/-! ### VALIDATE -/

/-- Stage 10's report: the field at book offset `a` does not read back as written (05 Table 5.12, R391). -/
def applyReport (recs : List Rec) (a : Nat) : Option Report :=
  (recs.find? fun r => decide (r.off ≤ a) && decide (a < r.off + r.bytes.length)).map fun r =>
    { Report.init with status := 0x8109#16, stage := 10, offset := r.off, recType := r.typ, field := a - r.off }

/-- The result of every stage: the records, or the report of the first failing item (05 R103). -/
def State.judgeBook (s : State) (applyFault : Option Nat) : Except Report (List Rec) :=
  match validateBook s.fw.rbFormat.toNat s.fw.bookLen s.usable s.fw.bookRaw with
  | .error e => .error e
  | .ok recs =>
    match applyFault.bind (applyReport recs) with
    | some e => .error e
    | none => .ok recs

/-- A book that names no time source leaves Milestone FREE at the nominal increment (02 Table 2.6, R42). -/
def State.dropSource (s : State) : State :=
  match s.timeRec with
  | some r => if r.u 8 1 < 2 then s else s.freeRun
  | none => s.freeRun

/-- HELD after validation, and ROUTE_RESULT (05 Table 5.2, 06 R118). -/
def State.routeResult (e : Report) (s : State) : State :=
  ({ s with fw := { s.fw with report := e } }.enter .held e.status.toNat).post 0x0002 (e.status.toNat + e.stage * 65536) none

/-- The granules of every context's LPDDR5 share. -/
def State.shareGranules (s : State) : List Nat :=
  (s.ctxs.map fun c => if c.lpSize = 0 then [] else
    rangeFrom (c.lpBase / granule) ((c.lpBase + c.lpSize - 1) / granule + 1 - c.lpBase / granule)).flatten

/-- An accepted book: its settings are taken, the granules of its shares are pending, Sward is zeroed when Larza has
been in RUN since it last was (08 R160, R162), and the loop tables are loaded (15 R300). -/
def State.acceptBook (recs : List Rec) (s : State) : State :=
  let s1 := { s with fw := { s.fw with book := recs, bookAccepted := true } }.unregister fun _ => true
  let s2 := s1.markPending s1.shareGranules
  let s3 := if s2.fw.runSinceZero then { s2 with fw := { s2.fw with runSinceZero := false } }.zeroSward else s2
  let s4 := (List.range 32).foldl (fun (t : State) l => t.modLoop l fun x =>
    { x with tables := t.bookTables l, shadow := t.bookTables l, commitTbl := none }) s3
  s4.modTwin fun t => { t with winStart := s.now, misses := 0 }

/-- VALIDATE_END: HELD with the book accepted, or refused with its report and nothing applied (05 R103, R104); in either
case a book without a time source leaves none (02 R42). -/
def execValidateEnd (applyFault : Option Nat) (s : State) : Host.Outcome State Fault Refusal :=
  done s (
    if s.devState ≠ .validate ∨ s.mc.lost then s
    else match s.judgeBook applyFault with
      | .error e => ({ s with fw := { s.fw with book := [], bookAccepted := false } }.dropSource).routeResult e
      | .ok recs => ((s.acceptBook recs).dropSource).routeResult Report.init)

/-! ### START -/

/-- The PACE record takes effect (05 R107, 06 R119). -/
def State.startPace (s : State) : State :=
  { s with pace := { s.pace with floor := s.recField 3 0xC 2, ceiling := s.recField 3 0xE 2, target := s.recField 3 0x10 2,
                                 conflict := none } }

/-- A Waymark half with a zero header (01 R18); its payload bytes stand. -/
def WmHalf.zeroHeader (h : WmHalf) : WmHalf := { WmHalf.init with payload := h.payload }

/-- Every Waymark slot reads as a zero header (01 R18). -/
def State.zeroWaymarks (s : State) : State :=
  { s with waymarks := (List.range 64).foldl (fun (m : Map WmSlot) k =>
      let w := m.get WmSlot.init k
      m.set WmSlot.init k { w with half0 := w.half0.zeroHeader, half1 := w.half1.zeroHeader, active1 := false }) s.waymarks }

/-- Counters, queues, pools and streams are empty again, and so is the Scoreboard but for what still runs, which gets its
record when it ends (07 R146, R147; 09 R197; 12 R243; 13 R264). -/
def State.freshWork (s : State) : State :=
  let s1 := { s with counters := [], queues := [],
                     sched := { s.sched with flight := s.sched.flight.filter (·.running), outcomes := [], lastWriter := [] } }
  ((s1.reloadCredits).unregister fun _ => true).closeIntake fun _ => true

/-- The timebase at START: a discipline that is not LOCKED is FREE, at the nominal increment (02 Table 2.6). -/
def State.startTime (s : State) : State :=
  if s.time.disc = .locked then s else s.freeRun

/-- An accepted START: RUN, or FENCED while the Perception Island is fenced, with outputs, contexts, cameras, loops, buses
and ports at their Route Book settings (05 R107, R108; 03 R64). -/
def State.enterRun (s : State) : State :=
  let s1 := { s with reachedRun := true, fw := { s.fw with runSinceZero := true, piHeld := false },
                     outputsUp := s.fieldPower }
  let s2 := ((s1.zeroWaymarks.freshWork).startPace).startTime
  let s3 := ((((s2.startCameras).startLoops).startCans).startPorts).startVerge
  s3.enter (if s.isFenced 0x60 then .fenced else .run) 0

/-! ### The retest of CLEAR_FAULT -/

/-- CLEAR_FAULT_RETEST_END: steps 6 and 7 have run; on a pass HELD with the book kept, on a failure HELD with the self-test
report (05 R108, 06 R118). -/
def execClearFaultRetestEnd (obs : SelfTestObs) (s : State) : Host.Outcome State Fault Refusal :=
  done s (
    if s.devState ≠ .fault ∨ s.mc.lost ∨ (s.fn 0).spOwed ≠ some 0x0009#16 then s
    else
      let r := s.retestFail obs
      let s1 := (s.stoTest r).outputsDown
      match r with
      | some t => (s1.testFailed t).respond 0 9 t.status 0 []
      | none => (s1.enter .held 0).respond 0 9 0 0 (le 2 s.fw.faultCause.toNat ++ le 6 0))

end Sys2Proof.Machine
end

