-- ==== Sys2Proof/Machine/Signpost.lean ====
section
/-! DEFINITION. The Signpost (06): the command catalogue, the checks of Table 6.9 in their order, the commands with their
layouts of Table 6.10, and the doorbell. -/

namespace Sys2Proof.Machine

/-! ### The catalogue -/

/-- A row of 06 Table 6.8 with what Table 6.10 says of its request: the VF set (section 6.5), context-scoped, the states
that accept it, its LEN, and its reserved bits as SP_CMD byte offsets with masks. -/
structure CommandRow where
  vf : Bool := false
  ofCtx : Bool := false
  states : DevState → Bool
  lenOk : List Byte → Nat → Bool
  reserved : List (Nat × Nat) := []

/-- SELFTEST onward, HELD onward, RUN FENCED and FAULT, RUN and FENCED, AWAIT_ROUTE and HELD (06 section 6.4). -/
def fromSelftest (d : DevState) : Bool := decide (3 ≤ d.code)
def fromHeld (d : DevState) : Bool := decide (6 ≤ d.code)
def fromRun (d : DevState) : Bool := decide (7 ≤ d.code)
def inRun (d : DevState) : Bool := d == .run || d == .fenced
def inHeld (d : DevState) : Bool := d == .awaitRoute || d == .held

/-- A request of fixed LEN. -/
def lenIs (n : Nat) (_ : List Byte) (len : Nat) : Bool := len == n

/-- Reserved bytes from `lo`, `n` of them. -/
def reservedBytes (lo n : Nat) : List (Nat × Nat) := (rangeFrom lo n).map fun o => (o, 255)

/-- Entry size of a LOOP_TABLE_WRITE table. -/
def tableEntry (t : Nat) : Nat := if t = 0 then 8 else 4

/-- LEN of LOOP_TABLE_WRITE: 8 and COUNT entries of TABLE's size; for a TABLE that check 8 refuses any LEN (06 Table
6.10). -/
def tableLen (b : List Byte) (len : Nat) : Bool :=
  decide (8 ≤ len) && decide (len ≤ 248) && (decide (2 < byteAt b 9) || len == 8 + fieldAt b 14 2 * tableEntry (byteAt b 9))

/-- The row of an opcode (06 Table 6.8). -/
def commandRow (op : Nat) : Option CommandRow :=
  match op with
  | 0x0001 => some { vf := true, states := fromSelftest, lenOk := lenIs 0 }
  | 0x0002 => some { states := (· == .romWait), lenOk := fun _ n => decide (12 ≤ n) && decide (n ≤ 248) && n % 4 == 0,
                     reserved := reservedBytes 12 4 }
  | 0x0003 => some { states := (· == .romWait), lenOk := lenIs 8, reserved := reservedBytes 12 4 }
  | 0x0004 => some { states := fromSelftest, lenOk := lenIs 0 }
  | 0x0005 => some { states := inHeld, lenOk := lenIs 16, reserved := reservedBytes 20 4 }
  | 0x0006 => some { states := fromHeld, lenOk := lenIs 0 }
  | 0x0007 => some { states := inHeld, lenOk := lenIs 8 }
  | 0x0008 => some { states := inHeld, lenOk := lenIs 0 }
  | 0x0009 => some { states := (· == .fault), lenOk := lenIs 0 }
  | 0x000A => some { states := fun _ => true, lenOk := lenIs 8, reserved := reservedBytes 12 4 }
  | 0x0101 => some { states := inRun, lenOk := lenIs 8, reserved := reservedBytes 14 2 }
  | 0x0102 => some { states := inRun, lenOk := lenIs 0 }
  | 0x0103 => some { states := inRun, lenOk := lenIs 8, reserved := reservedBytes 11 5 }
  | 0x0104 => some { vf := true, states := fromSelftest, lenOk := lenIs 16, reserved := reservedBytes 20 4 }
  | 0x0105 => some { vf := true, states := fromSelftest, lenOk := lenIs 0 }
  | 0x0106 => some { states := fromSelftest, lenOk := lenIs 0 }
  | 0x0201 => some { vf := true, ofCtx := true, states := fromRun, lenOk := lenIs 8, reserved := reservedBytes 9 7 }
  | 0x0202 => some { vf := true, ofCtx := true, states := inRun, lenOk := lenIs 8, reserved := reservedBytes 9 7 }
  | 0x0203 => some { vf := true, ofCtx := true, states := fromRun, lenOk := lenIs 0 }
  | 0x0204 => some { vf := true, ofCtx := true, states := fromRun, lenOk := lenIs 0 }
  | 0x0301 => some { states := fromSelftest, lenOk := lenIs 0 }
  | 0x0901 => some { states := inRun, lenOk := lenIs 8, reserved := reservedBytes 10 2 ++ [(15, 255)] }
  | 0x0902 => some { states := inRun, lenOk := tableLen, reserved := [(10, 254), (11, 255)] }
  | 0x0903 => some { states := fromRun, lenOk := lenIs 8, reserved := (9, 254) :: reservedBytes 10 6 }
  | 0x0A01 => some { states := (· == .run), lenOk := lenIs 0 }
  | 0x0C01 => some { states := inRun, lenOk := lenIs 0 }
  | 0x0C02 => some { states := inRun, lenOk := lenIs 0 }
  | 0x0C03 => some { states := fromRun, lenOk := lenIs 0 }
  | _ => none

/-- The context belongs to the caller: PF0 owns every context of the accepted book (06 Table 6.9 check 7). -/
def State.ownsCtx (s : State) (f c : Nat) : Bool := (s.ctx c).any fun i => f == 0 || i.fn == f

/-- Checks 1 to 7 of 06 Table 6.9 for the request bytes of function `f`; 0 when all pass. -/
def State.requestStatus (s : State) (f : Nat) (b : List Byte) : Nat :=
  match commandRow (fieldAt b 0 2) with
  | none => 0x2001
  | some r =>
    if !r.lenOk b (fieldAt b 4 2) then 0x2003
    else if byteAt b 3 ≠ 0 ∨ (r.reserved.any fun p => byteAt b p.1 &&& p.2 != 0) then 0x2004
    else if f ≠ 0 ∧ !r.vf then 0x2002
    else if f ≠ 0 ∧ !s.reachedRun then 0x2007
    else if !r.states s.devState then 0x2011
    else if (if r.ofCtx then !s.ownsCtx f (fieldAt b 6 2) else fieldAt b 6 2 != 0xFFFF) then 0x2005
    else 0

/-! ### Answers -/

/-- A command that succeeds with a payload. -/
def State.answer (f op : Nat) (payload : List Byte) (s : State) : State := s.respond f op 0 0 payload

/-- The first offending field of a list of rules (broken?, SP_CMD offset): the lowest offset (06 Table 6.9 check 8, 05
R392). -/
def offendingField (l : List (Bool × Nat)) : Option Nat := lowestField (fieldsIf l)

/-- Check 8: refuse at the first offending field, or go on. -/
def State.ifFields (f op : Nat) (rules : List (Bool × Nat)) (next : State → State) (s : State) : State :=
  match offendingField rules with
  | some o => s.respond f op 0x2006 o []
  | none => next s

/-! ### Bring-up commands -/

/-- GET_INFO (06 Table 6.10): the context map shows the caller's contexts (R123). -/
def State.cmdGetInfo (f : Nat) (s : State) : State :=
  let flags := b2n s.fw.testPassed + 2 * b2n s.fw.bookAccepted + 4 * b2n (s.link.hostPort == some .qspi)
  let mapByte := fun k => le 1 (((List.range 8).map fun j => b2n (s.ownsCtx f (8 * k + j)) * 2 ^ j).sum)
  s.answer f 0x0001 (le 4 s.fw.version.toNat ++ le 2 s.fw.rbFormat.toNat ++ le 1 0x10 ++ le 1 f ++ le 1 s.devState.code
    ++ le 1 flags ++ le 1 s.mem.fittedGiB ++ le 5 0 ++ le 8 s.fw.bookId.toNat ++ ((List.range 32).map mapByte).flatten)

/-- FW_LOAD: image bytes into the staging store (05 Table 5.3). -/
def State.cmdFwLoad (b : List Byte) (s : State) : State :=
  let off := fieldAt b 8 4
  let data := (b.drop 16).take (fieldAt b 4 2 - 8)
  s.ifFields 0 0x0002 [(off % 4 != 0, 8), (decide (1573472 < off + data.length), 8)] fun t =>
    { t with fw := { t.fw with
        stage := t.fw.stage.store off data,
        written := (rangeFrom (off / 4) (data.length / 4)).foldl (fun (m : Map Bool) k => m.set false k true) t.fw.written } }.answer
      0 0x0002 []

/-- The events that `s` has beyond those of `t` are caused by a command whose answer is still owed (06 R126). -/
def State.markOwed (t s : State) : State :=
  (List.range 16).foldl (fun (u : State) f => u.modFn f fun x =>
    let n := (t.fn f).posted.length
    { x with posted := x.posted.take n ++ (x.posted.drop n).map fun e => { e with owed := true } }) s

/-- FW_COMMIT: FW_VERIFY starts; the answer comes with its result (05 Table 5.3, 06 R118). -/
def State.cmdFwCommit (b : List Byte) (s : State) : State :=
  (State.markOwed s ({ s with fw := { s.fw with commitLen := fieldAt b 8 4 } }.enter .fwVerify 0)).modFn 0 fun x =>
    { x with spOwed := some 0x0003#16 }

/-- SELFTEST_REPORT (06 Table 6.10). While the self-test runs, how far it has come is a free value (log 2). -/
def State.cmdSelftestReport (s : State) : State :=
  if s.devState = .selftest then
    let (v, s1) := s.draw
    let k := v % 8 + 1
    s1.answer 0 0x0004 (((rangeFrom 1 8).map fun j => le 1 (if j < k then 1 else if j = k then 3 else 0)).flatten ++ le 8 0)
  else
    s.answer 0 0x0004 ((s.fw.testResult.map fun r => le 1 r).flatten ++ le 2 s.fw.testStatus.toNat ++ le 6 0)

/-- The staged bytes as ROUTE_COMMIT copies them; a word that reads poisoned, or whose channel is FENCED, gives a free
value (05 R101, log 2). -/
def State.copyBook (off n : Nat) (s : State) : List Byte × State :=
  let (bytes, _, s1) := s.readMem .lp none off n
  (List.range (n / 8)).foldl (fun (acc : List Byte × State) k =>
    let w := off / 8 + k
    if acc.2.mem.lpddr.marks.get Ecc.clean w = .poison ∨ acc.2.isFenced (0x54 + lpChannel (w * 8)) then
      let (v, t) := acc.2.draw
      (acc.1.take (8 * k) ++ le 8 v ++ acc.1.drop (8 * k + 8), t)
    else acc) (bytes, s1)

/-- ROUTE_COMMIT: the named bytes replace any earlier book, and VALIDATE is entered (05 R101, 06 R118). -/
def State.cmdRouteCommit (b : List Byte) (s : State) : State :=
  let off := fieldAt b 8 8
  let n := fieldAt b 16 4
  s.ifFields 0 0x0005 [(off % 8 != 0, 8), (n % 8 != 0 || decide (n < 72) || decide (4194304 < n), 16),
      (decide (s.usable < off + n), 8)] fun t =>
    let (bytes, t1) := t.copyBook off n
    ({ t1 with fw := { t1.fw with bookRaw := bytes, bookLen := n, bookId := BitVec.ofNat 64 (fieldAt bytes 0x10 8),
                                  bookCommitted := true, bookAccepted := false, book := [] } }.enter .validate 0).answer 0 0x0005 []

/-- The 32 bytes of a refusal report (05 Table 5.13). -/
def reportBytes (r : Report) : List Byte :=
  le 2 r.status.toNat ++ le 1 r.stage ++ le 1 0 ++ le 4 r.offset ++ le 2 r.recType ++ le 2 r.field ++ le 4 r.otherOffset
    ++ le 2 r.otherType ++ le 1 r.resClass ++ le 1 0 ++ le 4 r.resIndex ++ le 8 r.detail

/-- ROUTE_REPORT (05 R105). -/
def State.cmdRouteReport (s : State) : State := s.answer 0 0x0006 (reportBytes s.fw.report ++ le 8 s.fw.bookId.toNat)

/-- SET_MILESTONE: never backward (05 R92, 02 R38). -/
def State.cmdSetMilestone (b : List Byte) (s : State) : State :=
  let v := fieldAt b 8 8
  if v < s.now then s.respond 0 0x0007 0x2016 0 []
  else (s.jumpMs (v - s.now)).answer 0 0x0007 (le 8 s.now)

/-- START: accepted in HELD with self-test passed and the book accepted; the refusals of 05 R106. -/
def State.cmdStart (s : State) : State :=
  if s.devState = .awaitRoute then
    ({ s with fw := { s.fw with report := { Report.init with status := 0x2109#16 } } }.enter .held 0x2109).respond 0 0x0008 0x2109 0 []
  else if !s.fw.testPassed then s.respond 0 0x0008 0x2018 0 []
  else if !s.fw.bookCommitted then s.respond 0 0x0008 0x2109 0 []
  else if !s.fw.bookAccepted then s.respond 0 0x0008 0x210A 0 []
  else s.enterRun.answer 0 0x0008 []

/-- Some loop's LATE samples in a row still stand at the count that made the fault (16 R332). -/
def State.lateStands (s : State) : Bool :=
  (List.range 32).any fun l => match s.loopRec l with
    | some _ => decide (s.lateLimit l ≤ (s.loop l).lateRun)
    | none => false

/-- Some Waymark read whose fallback is STOP still stands stale (15 R312). -/
def State.stopReadStands (s : State) : Bool :=
  (List.range 32).any fun l => match s.loopRec l with
    | some r => (readEntries r).any fun e => e.fallback == 2 && ((s.loop l).reads.get ReadSt.init e.index).stale
    | none => false

/-- The cause of the FAULT persists: a supply outside its range, a lost MC, or the condition behind 0x8A0C, 0x8A0D or
0x8A0E still present (05 R108; which of these stand is the model's reading, log 34). -/
def State.faultPersists (s : State) : Bool :=
  s.mc.lost || !s.fieldPower || (s.fw.faultCause == 0x8A0C#16 && s.lateStands)
    || (s.fw.faultCause == 0x8A0D#16 && s.stopReadStands) || (s.fw.faultCause == 0x8A0E#16 && s.verge.twin.mismatch == 4)

/-- Whether the cause is a condition that no state of the block shows: an uncorrectable word or a failing checker of the
Control Island, or a feedback that still differs. Then a free value tells whether it is still present (log 2). -/
def State.hiddenCause (s : State) : Bool :=
  s.fw.faultCause == 0x8A04#16 || s.fw.faultCause == 0x8A05#16 || s.fw.faultCause == 0x8A06#16

/-- Steps 6 and 7 run again with STO asserted; the answer comes after them (05 R108, 06 R118), and so do the events that
they cause (06 R126). -/
def State.startRetest (s : State) : State :=
  ((if s.verge.stoA || s.verge.stoB then s.assertSto s.verge.stoCause.toNat else s).markOwed s).modFn 0 fun x =>
    { x with spOwed := some 0x0009#16 }

/-- CLEAR_FAULT: refused for a cause that only a reset clears, or that persists; else the retest starts (05 R108). -/
def State.cmdClearFault (s : State) : State :=
  if s.fw.faultCause = 0x8A01#16 ∨ s.fw.faultCause = 0x8A02#16 ∨ s.fw.faultCause = 0x8A03#16 then s.respond 0 0x0009 0x2018 0 []
  else if s.faultPersists then s.respond 0 0x0009 0x2017 0 []
  else if s.hiddenCause then
    let (v, s1) := s.draw
    if v % 2 = 1 then s1.respond 0 0x0009 0x2017 0 [] else s1.startRetest
  else s.startRetest

/-- CONFIRM of RESET_DEVICE. -/
def confirmWord : Nat := 0x52534554

/-- RESET_DEVICE answers first and enters OFF (05 R90, 06 R118). -/
def State.cmdResetDevice (b : List Byte) (s : State) : State :=
  s.ifFields 0 0x000A [(fieldAt b 8 4 != confirmWord, 8)] fun t => (t.answer 0 0x000A []).toOff

/-! ### Device commands -/

/-- PACE_SET (02 R45, 06 R119): the governor's next period works with the values. -/
def State.cmdPaceSet (b : List Byte) (s : State) : State :=
  let ce := fieldAt b 8 2
  let fl := fieldAt b 10 2
  let tg := fieldAt b 12 2
  let bad := fun v => v % 5 != 0 || decide (v < 650) || decide (850 < v)
  s.ifFields 0 0x0101 [(bad ce || decide (ce < fl), 8), (bad fl, 10), (decide (200 < tg), 12)] fun t =>
    { t with pace := { t.pace with ceiling := ce, floor := fl, target := tg } }.answer 0 0x0101 []

/-- PI_RESET: the whole Perception Island is fenced, and its reset runs (06 R120). After a thermal fence it is what lets
the island leave FENCED (02 R49). -/
def State.cmdPiReset (s : State) : State :=
  if s.pace.thermalFence && decide (200 < s.pace.tjHalf) then s.respond 0 0x0102 0x2009 1 []
  else
    let s1 := { s with pace := { s.pace with hostReset := s.pace.thermalFence } }
    if s.piReset then s1.respond 0 0x0102 0x1001 0 []
    else { s1.fencePi with piReset := true }.answer 0 0x0102 []

/-- The actions that a BLOCK supports: 0 RESET, 1 POWER_DOWN, 2 POWER_UP, 3 RELOAD (06 Table 6.11). -/
def blockActions (blk : Nat) : List Nat :=
  if blk < 0x12 then [0, 1, 2, 3]
  else if blk < 0x17 then [0, 3]
  else if (0x20 ≤ blk && blk < 0x26) || (0x28 ≤ blk && blk < 0x2C) || (0x30 ≤ blk && blk < 0x4D) then [0]
  else []

/-- A loop claims the block: a CAN controller, encoder channel or PWM output (01 R28). -/
def State.loopClaims (s : State) (blk : Nat) : Bool :=
  (s.recs 0x30).any fun r =>
    (decide (0x28 ≤ blk) && decide (blk < 0x2C) && r.u 0x19 1 == 1 && r.u 0x1A 1 == blk - 0x28)
    || (decide (0x30 ≤ blk) && decide (blk < 0x40) && r.u 0xA 1 == blk - 0x30)
    || (decide (0x40 ≤ blk) && decide (blk < 0x48) && r.u 0x19 1 == 2 && r.u 0x1A 1 == blk - 0x40)

/-- A RESET or RELOAD of an unfenced block: it enters FENCED, and what it holds is gone (06 R120; 13 R264; 18 R385). -/
def State.blockRestart (blk : Nat) (s : State) : State :=
  let s1 := s.enterFence blk
  if blk = 0x12 then s1.closeIntake fun _ => true else s1.resetPort blk

/-- What BLOCK_CONTROL does, with its status (06 R120). -/
def State.blockAction (blk act : Nat) (s : State) : Nat × State :=
  let f := s.fenceOf blk
  match act with
  | 1 => (0, (s.enterFence blk).modFence blk fun x => { x with poweredDown := true })
  | 2 => if f.poweredDown then (0, s.modFence blk fun x => { x with poweredDown := false }) else (0x1001, s)
  | _ => if f.fenced then (0x1001, s) else (0, s.blockRestart blk)

/-- BLOCK_CONTROL (06 Tables 6.10, 6.11; 01 R28). An ACTION that BLOCK does not support relates both fields, and is named
at BLOCK, the lower one (06 Table 6.9 check 8, 05 R392). -/
def State.cmdBlockControl (b : List Byte) (s : State) : State :=
  let blk := fieldAt b 8 2
  let act := byteAt b 10
  s.ifFields 0 0x0103 [(!(blockActions blk).contains act && (decide (act ≤ 3) || (blockActions blk).isEmpty), 8),
      (decide (3 < act), 10)] fun t =>
    if t.loopClaims blk then t.respond 0 0x0103 0x2008 0 []
    else
      let (st, t1) := t.blockAction blk act
      t1.respond 0 0x0103 st 0 (le 1 (t1.fenceOf blk).gen.toNat ++ le 7 0)

/-- Bytes `a` to `e - 1` of LPDDR5 lie within the shares of function `f`'s contexts, taken in ascending order (06 R124). -/
def coveredBy : Nat → List (Nat × Nat) → Nat → Nat → Bool
  | 0, _, _, _ => false
  | n + 1, shares, a, e =>
    if e ≤ a then true
    else match shares.find? fun p => decide (p.1 ≤ a) && decide (a < p.1 + p.2) with
      | some p => coveredBy n shares (p.1 + p.2) e
      | none => false

/-- The ring may stand at device address `base` (06 R124). -/
def State.ringPlaceOk (s : State) (f base n : Nat) : Bool :=
  let a := base - lpBase
  if hostBase ≤ base then decide (base + n ≤ 2 * hostBase)
  else if base < lpBase ∨ s.usable < a + n then false
  else if f = 0 then s.ctxs.all fun c => c.lpSize == 0 || decide (a + n ≤ c.lpBase) || decide (c.lpBase + c.lpSize ≤ a)
  else
    let mine := (s.ctxs.filter fun c => c.fn == f).map fun c => (c.lpBase, c.lpSize)
    coveredBy (mine.length + 1) mine a (a + n)

/-- ENTRIES is a power of two from 64 to 65,536. -/
def ringSizeOk (n : Nat) : Bool := (rangeFrom 6 11).any fun k => n == 2 ^ k

/-- EVENT_RING_SET: the ring's registers start at 0; ENTRIES 0 removes it (06 R124, R128, R133). Events lost in the hold
stay owed for EVENT_LOST, which comes first where nothing else is posted (06 R133). -/
def State.cmdEventRingSet (f : Nat) (b : List Byte) (s : State) : State :=
  let base := fieldAt b 8 8
  let n := fieldAt b 16 4
  s.ifFields f 0x0104 [(base % 4096 != 0 || (n != 0 && !s.ringPlaceOk f base (16 * n)), 8), (n != 0 && !ringSizeOk n, 16)] fun t =>
    (t.modFn f fun x => { x with evSet := n != 0, evBase := if n = 0 then 0 else base, evEntries := n, evTail := 0, evHead := 0,
                                 evLost := 0, evPhase := true }).answer f 0x0104 []

/-- TIME_STATUS (06 Table 6.10). -/
def State.cmdTimeStatus (f : Nat) (s : State) : State :=
  s.answer f 0x0105 (le 8 s.now ++ le 1 s.time.disc.code ++ le 3 0 ++ le 4 s.time.inc ++ le 8 (unsigned 64 s.time.lastOff))

/-- A fault record's 16 bytes (16 Table 16.6). -/
def faultBytes (r : FaultRec) : List Byte :=
  le 4 r.detail.toNat ++ le 1 (r.devState % 16 + r.reaction % 16 * 16) ++ le 1 r.unit.toNat ++ le 2 r.code.toNat ++ le 8 r.stamp

/-- The 8 newest records, newest first, empty ones as zeros (16 R337). -/
def State.faultRing (s : State) : List Byte := (fit 8 FaultRec.init s.verge.records).flatMap faultBytes

/-- FAULT_READ. -/
def State.cmdFaultRead (s : State) : State := s.answer 0 0x0106 s.faultRing

/-- ECC_COUNTERS (06 Table 6.10, 08 R163 to R166). -/
def State.cmdEccCounters (s : State) : State :=
  s.answer 0 0x0301 (le 8 s.mem.swCorr ++ le 8 s.mem.swUe ++ le 8 s.mem.lpCorr ++ le 8 s.mem.lpUe ++ le 8 s.mem.passes)

/-! ### Context commands -/

/-- QUEUE names a queue of the context that has a QUEUE record; otherwise 0x2006 with DETAIL 8 (06 Table 6.10). -/
def State.withQueue (f op : Nat) (b : List Byte) (g : QueueInfo → State → State) (s : State) : State :=
  match s.queueInfo (fieldAt b 6 2) (byteAt b 8) with
  | some i => g i s
  | none => s.respond f op 0x2006 8 []

/-- QUEUE_STATE. -/
def State.cmdQueueState (f : Nat) (b : List Byte) (s : State) : State :=
  s.withQueue f 0x0201 b fun i t =>
    let q := t.queue i.ctx i.queue
    t.answer f 0x0201 (le 1 (b2n q.halted) ++ le 1 0 ++ le 2 i.depth ++ le 2 q.fetched.toNat ++ le 2 q.sqTail.toNat
      ++ le 2 (t.sched.flight.countP fun w => w.ctx == i.ctx && w.queue == i.queue) ++ le 2 q.held.length ++ le 4 0)

/-- A HALTED queue becomes ACTIVE and its held records are written in order, and the events held since link-down for its
function and PF0 may go to their rings; while the endpoint is FENCED no record can be written to host memory, and the
queue stays HALTED (07 R142, 04 Table 4.7 step 7). Answers RELEASED. -/
def State.restartQueue (i : QueueInfo) (s : State) : Nat × State :=
  let q := s.queue i.ctx i.queue
  if !q.halted || s.isFenced 0x50 then (0, s)
  else (q.held.length, (q.held.foldl (fun (t : State) bs => t.writeRecord i bs)
    (s.modQueue i.ctx i.queue fun x => { x with halted := false, held := [] })).holdEvents false
      [0, (s.ctxFn i.ctx).getD 0])

/-- QUEUE_RESTART. -/
def State.cmdQueueRestart (f : Nat) (b : List Byte) (s : State) : State :=
  s.withQueue f 0x0202 b fun i t =>
    let (n, t1) := t.restartQueue i
    t1.answer f 0x0202 (le 2 n ++ le 6 0)

/-- CONTEXT_INFO (06 Table 6.10, 07 Table 7.4). -/
def State.cmdContextInfo (f : Nat) (b : List Byte) (s : State) : State :=
  match s.ctx (fieldAt b 6 2) with
  | none => s.respond f 0x0203 0x2005 0 []
  | some c => s.answer f 0x0203 (le 4 c.swBase ++ le 4 c.swSize ++ le 8 c.lpBase ++ le 8 c.lpSize ++ le 2 c.weight
      ++ le 2 c.group ++ le 1 (b2n c.isChecked) ++ le 1 c.fn ++ le 2 0)

/-- COUNTERS_READ: the 30 counters of 07 Table 7.8 in order. -/
def State.cmdCountersRead (f : Nat) (b : List Byte) (s : State) : State :=
  s.answer f 0x0204 ((List.range 30).map fun i => le 8 (s.counter (fieldAt b 6 2) i)).flatten

/-! ### Control commands -/

/-- LOOP_MODE: it takes effect at the first sample instant at least 50 µs later (06 R121, 15 R315). -/
def State.cmdLoopMode (b : List Byte) (s : State) : State :=
  let l := byteAt b 8
  s.ifFields 0 0x0901 [(decide (31 < l), 8), (decide (1 < byteAt b 9), 9)] fun t =>
    (t.modLoop l fun x => { x with modeReq := some (byteAt b 9 == 1, signed 24 (fieldAt b 12 3), t.now + 50000) }).answer 0 0x0901 []

/-- Entries in a loop table. -/
def tableSize (k : Nat) : Nat := if k = 0 then 64 else if k = 1 then 512 else 1024

/-- The shadow tables with the entries of a LOOP_TABLE_WRITE (15 R308, R309). -/
def LoopTables.put (k first count : Nat) (data : List Byte) (x : LoopTables) : LoopTables :=
  match k with
  | 0 => { x with gain := (List.range count).foldl (fun (m : Map Nat) j => m.set 0 (first + j) (fieldAt data (8 * j) 8)) x.gain }
  | 1 => { x with fric := (List.range count).foldl (fun (m : Map Int) j => m.set 0 (first + j) (signed 32 (fieldAt data (4 * j) 4))) x.fric }
  | _ => { x with cog := (List.range count).foldl (fun (m : Map Int) j => m.set 0 (first + j) (signed 32 (fieldAt data (4 * j) 4))) x.cog }

/-- The first GAIN_POINTS breaks of loop `l`'s shadow gain table are strictly ascending (15 R300, R322). -/
def State.breaksOk (s : State) (l : Nat) (x : LoopTables) : Bool :=
  match s.loopRec l with
  | none => true
  | some r => (List.range (r.u 0xE 1 - 1)).all fun j => decide (gainBreak x.gain j < gainBreak x.gain (j + 1))

/-- LOOP_TABLE_WRITE: into the shadow; with COMMIT it becomes active at a sample instant at least 50 µs later (06 R121, 15
R322). -/
def State.cmdLoopTableWrite (b : List Byte) (s : State) : State :=
  let l := byteAt b 8
  let k := byteAt b 9
  let commit := (byteAt b 10).testBit 0
  let first := fieldAt b 12 2
  let count := fieldAt b 14 2
  let fits := decide (first + count ≤ tableSize k)
  let shadow := (s.loop l).shadow.put k first count (b.drop 16)
  s.ifFields 0 0x0902 [(decide (31 < l), 8), (decide (2 < k), 9),
      (decide (l ≤ 31) && decide (k ≤ 2) && fits && commit && !s.breaksOk l shadow, 10), (decide (k ≤ 2) && !fits, 12)] fun t =>
    if (t.loop l).commitTbl.isSome then t.respond 0 0x0902 0x2009 3 []
    else (t.modLoop l fun x => { x with shadow := shadow, commitTbl := if commit then some (k, t.now + 50000) else none }).answer
      0 0x0902 []

/-- LOOP_STATUS reports WRAP as it stands, which CLEAR clears, and the output as it is clamped while REDUCED is in force
(06 Table 6.10, 15 R316, 16 R333). -/
def State.cmdLoopStatus (b : List Byte) (s : State) : State :=
  let l := byteAt b 8
  s.ifFields 0 0x0903 [(decide (31 < l), 8)] fun t =>
    let x := t.loop l
    let flags := b2n x.wrap + 2 * b2n x.lastLate + 4 * b2n (x.reads.any fun p => p.2.stale) + 8 * b2n x.commitTbl.isSome
    (if (byteAt b 9).testBit 0 then t.modLoop l fun y => { y with wrap := false } else t).answer 0 0x0903
      (le 1 (b2n x.manual) ++ le 1 flags ++ le 2 0 ++ le 4 x.wrapCount ++ le 4 x.lateCount ++ le 4 (unsigned 24 (t.output l))
        ++ le 8 x.lastSample)

/-- TWIN_REARM (16 R345). -/
def State.cmdTwinRearm (s : State) : State :=
  if !s.verge.twin.up then s.respond 0 0x0A01 0x2009 2 []
  else if !s.verge.partnerStop then s.respond 0 0x0A01 0x2009 4 []
  else s.rearm.answer 0 0x0A01 []

/-! ### Small ports -/

/-- ANN_CLEAR clears a latched trip and has no effect in any other state (18 R380). -/
def State.cmdAnnClear (s : State) : State :=
  (if s.ports.ann.state = 3 then s.modAnn fun a => { a with state := 0, trips := 0, status := 0 } else s).answer 0 0x0C01 []

/-- SPUR_SEARCH starts a search and answers; one that runs goes on (06 R122, 18 R377). On a FENCED Tool Spur it ends at
once as by its RESET. -/
def State.cmdSpurSearch (s : State) : State :=
  if s.ports.spur.running then s.respond 0 0x0C02 0x1001 0 []
  else
    let s1 := { s with ports := { s.ports with spur := { s.ports.spur with running := true, changed := false } } }
    (if s.isFenced 0x4C then s1.spurEnd 0x4C04 [] else s1).answer 0 0x0C02 []

/-- SPUR_READ (06 Table 6.10). -/
def State.cmdSpurRead (s : State) : State :=
  let x := s.ports.spur
  s.answer 0 0x0C03 (le 1 x.ids.length ++ le 1 (b2n x.changed + 2 * b2n x.running) ++ le 6 0
    ++ x.ids.flatMap fun i => le 8 i.toNat)

/-! ### Serving a request -/

/-- The command of a request that has passed checks 1 to 7. -/
def State.carryOut (f : Nat) (b : List Byte) (s : State) : State :=
  match fieldAt b 0 2 with
  | 0x0001 => s.cmdGetInfo f
  | 0x0002 => s.cmdFwLoad b
  | 0x0003 => s.cmdFwCommit b
  | 0x0004 => s.cmdSelftestReport
  | 0x0005 => s.cmdRouteCommit b
  | 0x0006 => s.cmdRouteReport
  | 0x0007 => s.cmdSetMilestone b
  | 0x0008 => s.cmdStart
  | 0x0009 => s.cmdClearFault
  | 0x000A => s.cmdResetDevice b
  | 0x0101 => s.cmdPaceSet b
  | 0x0102 => s.cmdPiReset
  | 0x0103 => s.cmdBlockControl b
  | 0x0104 => s.cmdEventRingSet f b
  | 0x0105 => s.cmdTimeStatus f
  | 0x0106 => s.cmdFaultRead
  | 0x0201 => s.cmdQueueState f b
  | 0x0202 => s.cmdQueueRestart f b
  | 0x0203 => s.cmdContextInfo f b
  | 0x0204 => s.cmdCountersRead f b
  | 0x0301 => s.cmdEccCounters
  | 0x0901 => s.cmdLoopMode b
  | 0x0902 => s.cmdLoopTableWrite b
  | 0x0903 => s.cmdLoopStatus b
  | 0x0A01 => s.cmdTwinRearm
  | 0x0C01 => s.cmdAnnClear
  | 0x0C02 => s.cmdSpurSearch
  | 0x0C03 => s.cmdSpurRead
  | _ => s

/-- The MC serves a request: the first failed check answers, else the command is carried out (06 R115). -/
def State.serve (f : Nat) (b : List Byte) (s : State) : State :=
  let st := s.requestStatus f b
  if st ≠ 0 then s.respond f (fieldAt b 0 2) st 0 [] else s.carryOut f b

/-- Signpost hardware answers while the MC is lost: a valid RESET_DEVICE of PF0 is carried out, all else is answered 0x8001
(06 R113). -/
def State.serveLost (f : Nat) (b : List Byte) (s : State) : State :=
  if f = 0 ∧ fieldAt b 0 2 = 0x000A ∧ fieldAt b 4 2 = 8 ∧ fieldAt b 8 4 = confirmWord then (s.answer 0 0x000A []).toOff
  else s.mcLostAnswer f

/-- The request bytes in SP_CMD. -/
def State.request (s : State) (f : Nat) : List Byte := (s.fn f).spCmd.bytes 0 256

/-- The doorbell of function `f` rung from a port that may ring it: refused while BUSY, else SP_CMD is copied, the TAG
taken and the request served (06 Table 6.7, R109, R110). -/
def State.ring (f : Nat) (s : State) : State :=
  if (s.fn f).spState = .busy then s.modFn f fun x => { x with spOverrun := true }
  else
    let b := s.request f
    let s1 := s.modFn f fun x => { x with spState := .busy, spTag := BitVec.ofNat 8 (byteAt b 2) }
    if s.mc.lost then s1.serveLost f b else s1.serve f b

/-- A write to SP_DOORBELL. Only the host port rings PF0's Signpost, and the first port to ring it becomes the host port
(04 R80); a VF rings its own through PCIe. In OFF nothing answers. -/
def State.writeDoorbell (p : Requester) (v : Nat) (s : State) : State :=
  if v % 2 = 0 ∨ s.devState = .off then s
  else match p with
    | .pcie 0 =>
      if s.link.hostPort = some .qspi then { s with link := { s.link with pcieRefused := true } }
      else { s with link := { s.link with hostPort := some .pcie } }.ring 0
    | .qspi =>
      if s.link.hostPort = some .pcie then { s with link := { s.link with qspiRefused := true } }
      else { s with link := { s.link with hostPort := some .qspi } }.ring 0
    | .pcie f => s.ring f

/-- SP_DOORBELL. -/
def execSpDoorbell (p : Requester) (value : BitVec 32) (s : State) : Host.Outcome State Fault Refusal :=
  done s (s.writeDoorbell p value.toNat)

end Sys2Proof.Machine
end

