-- ==== Sys2Proof/Machine/Registers.lean ====
section
/-! DEFINITION. The registers of BAR0 and BAR2 (04 Table 4.4; 02 Tables 2.4, 2.5; 06 Table 6.2; 07 Table 7.6; 17 Table 17.8;
18 Table 18.7) as words that a host reads and writes, and the access sizes of 00 R390. -/

namespace Sys2Proof.Machine

/-- Word `k` (0 low, 1 high) of an 8-byte register. -/
def half (v k : Nat) : Nat := v / 2 ^ (32 * k) % 2 ^ 32

/-- The little-endian word at byte offset `o` of an area. -/
def Map.word (m : Map Byte) (o : Nat) : Nat := unle (m.bytes o 4)

/-! ### MSI-X -/

/-- A word of the MSI-X table: an entry's address and data as written, and Vector Control with its Mask bit. -/
def FnState.msixWord (x : FnState) (o : Nat) : Nat :=
  if o % 16 = 12 then b2n (!x.msixOpen.get false (o / 16)) else x.msixTable.word o

/-- A word of the PBA. -/
def FnState.pbaWord (x : FnState) (o : Nat) : Nat :=
  ((List.range 32).map fun j => b2n (x.msixPending.get false (8 * o + j)) * 2 ^ j).sum

/-- A word written to the MSI-X table; a vector that is unmasked is sent when it is pending (04 section 4.1.2). -/
def State.writeMsixWord (f o v : Nat) (s : State) : State :=
  if o % 16 = 12 then
    (s.modFn f fun x => { x with msixOpen := x.msixOpen.set false (o / 16) (v % 2 == 0) }).sendPending f (o / 16)
  else s.modFn f fun x => { x with msixTable := x.msixTable.store o (le 4 v) }

/-! ### CAN controllers (17 Table 17.8) -/

/-- A word of a frame area, reserved bits as 0. -/
def frameWord (m : Map Byte) (base o : Nat) : Nat :=
  let w := m.word (base + o)
  if o = 0 then w % 2 ^ 31 else if o = 4 then w % 64 else w

/-- TX_STAT. -/
def CanSt.txStat (x : CanSt) : Nat :=
  let three := fun (l : List Bool) => b2n (l.getD 0 false) + 2 * b2n (l.getD 1 false) + 4 * b2n (l.getD 2 false)
  three x.pend + 16 * three x.done + 256 * three x.failed
    + 4096 * (x.cause.getD 0 0 % 8 + 8 * (x.cause.getD 1 0 % 8) + 64 * (x.cause.getD 2 0 % 8)) + 2 ^ 24 * (x.txq.length % 256)

/-- ERR. -/
def CanSt.err (x : CanSt) : Nat :=
  min 255 x.tec + 256 * (x.recCnt % 256) + 2 ^ 16 * (x.state % 4) + 2 ^ 18 * (x.lastErr % 8) + 2 ^ 21 * b2n x.errData

/-- A word of a controller's registers. -/
def CanSt.readWord (x : CanSt) (o : Nat) : Nat :=
  if o < 0x200 then (if o % 0x80 < 72 then frameWord x.area (o / 0x80 * 0x80) (o % 0x80) else 0)
  else if o = 0x204 then x.txStat
  else if o = 0x208 then x.txResult.toNat
  else if o = 0x20C then x.err
  else if o = 0x220 then x.rxHead.getD 0 0
  else if o = 0x224 then x.rxTail.getD 0 0
  else if o = 0x228 then x.rxHead.getD 1 0
  else if o = 0x22C then x.rxTail.getD 1 0
  else if 0x240 ≤ o ∧ o < 0x280 then half (x.counters.get 0 ((o - 0x240) / 8)) (o / 4 % 2)
  else 0

/-- A W1C write of TX_STAT clears DONE and FAILED bits. -/
def CanSt.clearStat (v : Nat) (x : CanSt) : CanSt :=
  { x with done := x.done.mapIdx fun i b => b && !v.testBit (4 + i), failed := x.failed.mapIdx fun i b => b && !v.testBit (8 + i) }

/-- A word written to a controller's registers by PF0; a FENCED controller takes only a TX_CMD, which it refuses (01 R23,
17 R353). -/
def State.writeCanWord (p : Requester) (c o v : Nat) (s : State) : State :=
  if o = 0x200 then s.writeTxCmd p c v
  else if o = 0x204 then (if s.isFenced (0x28 + c) then s else s.modCan c (CanSt.clearStat v))
  else if o = 0x210 then s.canRecover p c v
  else if o = 0x220 then s.writeRxHead p c 0 v
  else if o = 0x228 then s.writeRxHead p c 1 v
  else s

/-- Bytes written into TXQ_STAGE (17 Table 17.8); a FENCED controller takes none (01 R23). -/
def State.writeStage (c off : Nat) (data : List Byte) (s : State) : State :=
  if s.isFenced (0x28 + c) then s else s.modCan c fun x => { x with txResult := 0, area := x.area.store (0x180 + off) (data.take (72 - off)) }

/-! ### Small ports (18 Table 18.7) -/

/-- A word of the encoder registers of channel `n`. -/
def EncSt.word (x : EncSt) (o : Nat) : Nat :=
  match o with
  | 0 => half (unsigned 64 x.pos) 0
  | 4 => half (unsigned 64 x.pos) 1
  | 8 => min x.errCount 0xFFFFFFFF
  | _ => b2n x.invalid + 2 * (x.cause % 8) + 256 * b2n x.zSeen

/-- A word of the Z capture of channel `n`. -/
def EncSt.zWord (x : EncSt) (o : Nat) : Nat :=
  if o < 8 then half (unsigned 48 x.zCap) (o / 4) else half x.zStamp (o / 4 - 2)

/-- A word of an SPI master's registers. -/
def SpiSt.word (x : SpiSt) (o : Nat) : Nat :=
  if o < 0x40 then x.txBuf.word o
  else if o < 0x80 then x.rxBuf.word (o - 0x40)
  else if o = 0x84 then b2n x.busy.isSome + 2 ^ 16 * x.result.toNat
  else if o = 0x88 then x.ringHead
  else if o = 0x8C then x.ringTail
  else 0

/-- Levels of the pins in USE: an output's driven level, an input's last seen level. -/
def GpioSt.levels (r : Rec) (x : GpioSt) : BitVec 16 :=
  (x.level &&& BitVec.ofNat 16 (r.u 0xC 2) &&& ~~~gpioOuts r) ||| (x.out &&& gpioOuts r)

/-- A word of the annunciator and GPIO registers; a port without a record reads zeros (18 R385). -/
def State.readSmallWord (s : State) (o : Nat) : Nat :=
  let a := s.ports.ann
  let g := s.ports.gpio
  if o = 0x9500 then (if s.annRec.isSome then a.freq.toNat + 2 ^ 16 * a.level.toNat + 2 ^ 31 * b2n a.on else 0)
  else if o = 0x9504 then (if s.annRec.isSome then s.annState + 4 * (a.trips % 8) + 2 ^ 16 * a.status.toNat else 0)
  else match s.gpioRec with
    | none => 0
    | some r =>
      if o = 0x9700 then (g.levels r).toNat
      else if o = 0x9704 then g.out.toNat
      else if o = 0x9710 then g.flags.toNat
      else if 0x9740 ≤ o ∧ o < 0x97C0 then half (g.stamps.get 0 ((o - 0x9740) / 8)) (o / 4 % 2)
      else 0

/-- A word of the small-port registers and script areas, and what the read does (18 Table 18.7, R385). -/
def State.readPortWord (p : Requester) (o : Nat) (s : State) : Nat × State :=
  if o < 0x9100 then (if (s.port 1 ((o - 0x9000) / 16)).isSome then (s.enc ((o - 0x9000) / 16)).word (o % 16) else 0, s)
  else if o < 0x9200 then (if (s.port 1 ((o - 0x9100) / 16)).isSome then (s.enc ((o - 0x9100) / 16)).zWord (o % 16) else 0, s)
  else if o < 0x9400 then
    let m := (o - 0x9200) / 0x100
    let x := s.spi m
    (if (s.port 2 m).isSome then x.word (o % 0x100) else if o % 0x100 = 0x84 then 2 ^ 16 * x.result.toNat else 0, s)
  else if o < 0x9480 then
    let u := (o - 0x9400) / 0x40
    let x := s.uart u
    match o % 0x40 with
    | 4 => s.readRxdata p u
    | 8 => (if (s.port 3 u).isSome then x.tx.length % 128 + 2 ^ 16 * (x.rx.length % 512) else 0, s)
    | 12 => (x.result.toNat, s)
    | _ => (0, s)
  else if 0x9600 ≤ o ∧ o < 0x9640 then
    let n := (o - 0x9600) / 8
    (if o % 8 = 4 then (s.pwm n).result.toNat else if (s.port 6 n).isSome then (s.pwm n).duty.toNat else 0, s)
  else if 0xA000 ≤ o then
    (if (s.port 2 ((o - 0xA000) / 0x80)).isSome then (s.spi ((o - 0xA000) / 0x80)).script.word (o % 0x80) else 0, s)
  else (s.readSmallWord o, s)

/-- A word written to the small-port registers by PF0. -/
def State.writePortWord (p : Requester) (o v : Nat) (s : State) : State :=
  if 0x9200 ≤ o ∧ o < 0x9400 then
    let m := (o - 0x9200) / 0x100
    if o % 0x100 = 0x80 then s.writeSpiCmd p m v else if o % 0x100 = 0x88 then s.writeSpiHead p m v else s
  else if 0x9400 ≤ o ∧ o < 0x9480 then (if o % 0x40 = 0 then s.writeTxdata p ((o - 0x9400) / 0x40) v else s)
  else if o = 0x9500 then s.writeTone p v
  else if 0x9600 ≤ o ∧ o < 0x9640 then (if o % 8 = 0 then s.writeDuty p ((o - 0x9600) / 8) v else s)
  else if o = 0x9704 then s.writeGpio p fun old pins => (old &&& ~~~pins) ||| (BitVec.ofNat 16 v &&& pins)
  else if o = 0x9708 then s.writeGpio p fun old pins => old ||| (BitVec.ofNat 16 v &&& pins)
  else if o = 0x970C then s.writeGpio p fun old pins => old &&& ~~~(BitVec.ofNat 16 v &&& pins)
  else if o = 0x9710 ∧ s.gpioRec.isSome then s.modGpio fun x => { x with flags := x.flags &&& ~~~BitVec.ofNat 16 v }
  else s

/-- Bytes written into TXBUF of master `m`, from an offset within it (18 Table 18.7), within its end. -/
def State.writeTxbuf (m off : Nat) (data : List Byte) (s : State) : State :=
  if (s.spiRec m).isNone then s else s.modSpi m fun x => { x with txBuf := x.txBuf.store off (data.take (64 - off)) }

/-- Bytes written into the script areas of master `m`, script 0 and then script 1. -/
def State.writeScript (m off : Nat) (data : List Byte) (s : State) : State :=
  if (s.spiRec m).isNone then s else s.modSpi m fun x => { x with script := x.script.store off (data.take (128 - off)) }

/-! ### BAR0 -/

/-- SP_STATUS as a port reads it: the port that R80 refused reads 0x2D01 (06 Table 6.4, R113; 04 R80). -/
def State.spStatusWord (p : Requester) (s : State) : Nat :=
  let x := s.fn (fnOf p)
  let refused := match p with
    | .pcie 0 => s.link.pcieRefused
    | .qspi => s.link.qspiRefused
    | _ => false
  if refused then 0x2D01
  else x.spStatus.toNat + 2 ^ 16 * (match x.spState with | .idle => 0 | .busy => 1 | .done => 2) + 2 ^ 19 * b2n x.spOverrun
    + 2 ^ 24 * x.spTag.toNat

/-- The latched high half of Milestone of a requester (02 Table 2.5). -/
def State.msHiWord (p : Requester) (s : State) : Nat :=
  match p with
  | .pcie f => (s.fn f).msHi.toNat
  | .qspi => s.link.qspiMsHi.toNat

/-- The word of BAR0 at an aligned offset, and what the read does: a read of MS_LO latches, a read of RXDATA removes a
character (02 R40, 18 R375). -/
def State.readReg (p : Requester) (o : Nat) (s : State) : Nat × State :=
  let f := fnOf p
  let x := s.fn f
  if o = 0 then (0x00801000 + f, s)
  else if o = 4 then (s.devState.code, s)
  else if o = 0x100 then (s.now % 2 ^ 32, s.latchMs p)
  else if o = 0x104 then (s.msHiWord p, s)
  else if o = 0x200 then (if f = 0 then s.link.qspiStat.toNat else 0, s)
  else if 0x1000 ≤ o ∧ o < 0x1100 then (x.spCmd.word (o - 0x1000), s)
  else if 0x1100 ≤ o ∧ o < 0x1200 then (x.spRsp.word (o - 0x1100), s)
  else if o = 0x1204 then (s.spStatusWord p, s)
  else if o = 0x1300 then (x.evTail, s)
  else if o = 0x1304 then (x.evHead, s)
  else if o = 0x1308 then (x.evLost, s)
  else if 0x2000 ≤ o ∧ o < 0x6400 then (x.msixWord (o - 0x2000), s)
  else if 0x7000 ≤ o ∧ o < 0x7088 then (x.pbaWord (o - 0x7000), s)
  else if f ≠ 0 then (0, s)
  else if 0x8000 ≤ o ∧ o < 0x9000 then ((s.can ((o - 0x8000) / 0x400)).readWord (o % 0x400), s)
  else if 0x9000 ≤ o ∧ o < 0xA100 then s.readPortWord p o
  else (0, s)

/-- A whole word written to a 4-byte register of BAR0, by its field access codes (00 R3). -/
def State.writeReg (p : Requester) (o v : Nat) (s : State) : State :=
  let f := fnOf p
  if o = 0x200 then (if f = 0 then { s with link := { s.link with qspiStat := s.link.qspiStat &&& ~~~BitVec.ofNat 4 v } } else s)
  else if o = 0x1200 then s.writeDoorbell p v
  else if o = 0x1204 then (if v.testBit 19 then s.modFn f fun x => { x with spOverrun := false } else s)
  else if o = 0x1304 then s.writeEvHead f v
  else if 0x2000 ≤ o ∧ o < 0x6400 then s.writeMsixWord f (o - 0x2000) v
  else if f ≠ 0 then s
  else if 0x8000 ≤ o ∧ o < 0x9000 then s.writeCanWord p ((o - 0x8000) / 0x400) (o % 0x400) v
  else if 0x9000 ≤ o ∧ o < 0xA100 then s.writePortWord p o v
  else s

/-- The areas larger than 8 B of BAR0 that a host writes (00 R390). -/
inductive Area where
  | spCmd | txb (c n : Nat) | stage (c : Nat) | txbuf (m : Nat) | script (m : Nat)
  deriving DecidableEq, Repr

/-- The area that BAR0 offset `o` lies in for a function, its offset within the area, and the bytes from there to the
area's end (06 Table 6.2, 17 Table 17.8, 18 Table 18.7). -/
def areaAt (f o : Nat) : Option (Area × Nat × Nat) :=
  if 0x1000 ≤ o ∧ o < 0x1100 then some (.spCmd, o - 0x1000, 0x1100 - o)
  else if f ≠ 0 then none
  else if 0x8000 ≤ o ∧ o < 0x9000 ∧ o % 0x400 < 0x200 ∧ o % 0x80 < 72 then
    let c := (o - 0x8000) / 0x400
    some (if o % 0x400 < 0x180 then .txb c (o % 0x400 / 0x80) else .stage c, o % 0x80, 72 - o % 0x80)
  else if 0x9200 ≤ o ∧ o < 0x9400 ∧ o % 0x100 < 0x40 then some (.txbuf ((o - 0x9200) / 0x100), o % 0x100, 0x40 - o % 0x100)
  else if 0xA000 ≤ o ∧ o < 0xA100 then some (.script ((o - 0xA000) / 0x80), o % 0x80, 0x80 - o % 0x80)
  else none

/-- Bytes written within one area. -/
def State.writePart (p : Requester) (a : Area) (off : Nat) (data : List Byte) (s : State) : State :=
  match a with
  | .spCmd => s.modFn (fnOf p) fun x => { x with spCmd := x.spCmd.store off data }
  | .txb c n => s.writeTxb p c n off data
  | .stage c => s.writeStage c off data
  | .txbuf m => s.writeTxbuf m off data
  | .script m => s.writeScript m off data

/-- A write of any size: each byte that lies in an area takes effect as written, and no other byte has an effect (00
R390). `fuel` bounds the parts. -/
def State.writeArea (p : Requester) : Nat → Nat → List Byte → State → State
  | 0, _, _, s => s
  | fuel + 1, o, data, s =>
    if data.isEmpty then s
    else match areaAt (fnOf p) o with
      | some (a, off, room) =>
        State.writeArea p fuel (o + room) (data.drop room) (s.writePart p a off (data.take room))
      | none => State.writeArea p fuel (o + 1) (data.drop 1) s

/-- A host write to BAR0: to a register only whole and aligned; an MSI-X entry also by an aligned 8 bytes, as PCI Express
has it; any other write reaches the areas byte by byte (00 R390). -/
def State.writeBar0 (p : Requester) (o : Nat) (data : List Byte) (s : State) : State :=
  if s.devState = .off then s
  else if data.length = 4 ∧ o % 4 = 0 ∧ (areaAt (fnOf p) o).isNone then s.writeReg p o (unle data)
  else if data.length = 8 ∧ o % 8 = 0 ∧ 0x2000 ≤ o ∧ o < 0x6400 then
    (s.writeReg p o (unle (data.take 4))).writeReg p (o + 4) (unle (data.drop 4))
  else s.writeArea p data.length o data

/-- REGISTER_WRITE: a host write to BAR0 (00 R390). -/
def execRegisterWrite (p : Requester) (off : BitVec 16) (data : List Byte) (s : State) : Host.Outcome State Fault Refusal :=
  done s (s.writeBar0 p off.toNat data)

end Sys2Proof.Machine
end

