-- ==== Sys2Proof/Machine/Links.lean ====
section
/-! DEFINITION. The host links (04): configuration space, VF FLR, MCTP, the LPDDR5 window of BAR4, QSPI frames, and what the
Ethernet MACs pass on. -/

namespace Sys2Proof.Machine

/-! ### Configuration space (04 Table 4.3, section 4.1.2) -/

/-- The value of a configuration register (04 Tables 4.2, 4.3; log 42). A BAR reads its base with its type bits: 64-bit,
BAR4 prefetchable. The VFs' BARs lie once in PF0's SR-IOV capability, and a VF's own BARs read 0. -/
def State.configValue (s : State) (f : Nat) (r : CfgReg) : Nat :=
  let x := s.fn f
  let c := x.cfg
  let pf := fun (v : Nat) => if f = 0 then v else 0
  match r with
  | .vendorId => if f = 0 then 0x1E6C else 0xFFFF
  | .deviceId => if f = 0 then 0x0080 else 0x0081
  | .classCode => 0x120000
  | .revisionId => 0x10
  | .subsystemVendorId => 0x1E6C
  | .subsystemId => if f = 0 then 0x0080 else 0x0081
  | .interruptPin => 0
  | .totalVfs => pf 15
  | .initialVfs => pf 15
  | .firstVfOffset => pf 1
  | .vfStride => pf 1
  | .numVfs => pf s.link.numVfs.toNat
  | .vfEnable => pf (b2n s.link.vfEnable)
  | .vfDeviceId => pf 0x0081
  | .bar0 => pf (x.bar0.toNat + 4)
  | .bar2 => pf (x.bar2.toNat + 4)
  | .bar4 => pf (x.bar4.toNat + 12)
  | .vfBar0 => pf (s.link.vfBar0.toNat + 4)
  | .vfBar2 => pf (s.link.vfBar2.toNat + 4)
  | .vfBar4 => pf (s.link.vfBar4.toNat + 12)
  | .msixControl => 1087 + 2 ^ 14 * b2n x.msixFnMask + 2 ^ 15 * b2n x.msixEnable
  | .extendedTags => pf (b2n c.extTags)
  | .aspmControl => pf c.aspm.toNat
  | .powerState => 3 * b2n c.d3hot
  | .ecrcControl => pf (0xA0 + 64 * b2n c.ecrcGen + 256 * b2n c.ecrcCheck)
  | .aerUncStatus => c.uncStatus.toNat
  | .aerUncMask => pf c.uncMask.toNat
  | .aerUncSeverity => pf c.uncSev.toNat
  | .aerCorStatus => c.corStatus.toNat
  | .aerCorMask => pf c.corMask.toNat

/-- Every pending vector of a function that can now be sent is sent (06 R127). -/
def State.sendAllPending (f : Nat) (s : State) : State :=
  ((s.fn f).msixPending.map (·.1)).foldl (fun (t : State) v => t.sendPending f v) s

/-- A base aligned to a BAR of 2^k bytes. -/
def barBase (k : Nat) (v : BitVec 64) : BitVec 64 := BitVec.ofNat 64 (v.toNat / 2 ^ k * 2 ^ k)

/-- A change of the feature registers of function `f`. -/
def State.modCfg (f : Nat) (g : CfgSt → CfgSt) (s : State) : State := s.modFn f fun x => { x with cfg := g x.cfg }

/-- A write of PowerState: D0 and D3hot are taken, the states that Larza lacks are not; PF0's entry to D3hot is handled as
a link-down (04 Table 4.2, section 4.1.4). -/
def State.writePower (f v : Nat) (s : State) : State :=
  if v % 4 = 0 then s.modCfg f fun c => { c with d3hot := false }
  else if v % 4 = 3 then (if f = 0 then s.linkLost else s).modCfg f fun c => { c with d3hot := true }
  else s

/-- A write of a configuration register: what PF0 has once for the device (the BARs, NumVFs while VF Enable is clear, VF
Enable, the link, tag, ECRC and AER controls), and what each function has (MSI-X control, PowerState, and the AER status
registers, cleared by writing 1); the others are read-only (04 Tables 4.2, 4.3; log 42). -/
def State.configWrite (f : Nat) (r : CfgReg) (v : BitVec 64) (s : State) : State :=
  let pf := fun (t : State) => if f = 0 then t else s
  match r with
  | .bar0 => pf (s.modFn 0 fun x => { x with bar0 := barBase 16 v })
  | .bar2 => pf (s.modFn 0 fun x => { x with bar2 := barBase 20 v })
  | .bar4 => pf (s.modFn 0 fun x => { x with bar4 := barBase 35 v })
  | .vfBar0 => pf { s with link := { s.link with vfBar0 := barBase 16 v } }
  | .vfBar2 => pf { s with link := { s.link with vfBar2 := barBase 20 v } }
  | .vfBar4 => pf { s with link := { s.link with vfBar4 := barBase 35 v } }
  | .msixControl =>
    (s.modFn f fun x => { x with msixEnable := v.getLsbD 15, msixFnMask := v.getLsbD 14 }).sendAllPending f
  | .numVfs => if f = 0 ∧ !s.link.vfEnable then { s with link := { s.link with numVfs := v.setWidth 16 } } else s
  | .vfEnable => if f = 0 then { s with link := { s.link with vfEnable := v.getLsbD 0 } } else s
  | .extendedTags => pf (s.modCfg 0 fun c => { c with extTags := v.getLsbD 0 })
  | .aspmControl => pf (s.modCfg 0 fun c => { c with aspm := v.setWidth 2 &&& 2 })
  | .powerState => s.writePower f v.toNat
  | .ecrcControl => pf (s.modCfg 0 fun c => { c with ecrcGen := v.getLsbD 6, ecrcCheck := v.getLsbD 8 })
  | .aerUncStatus => s.modCfg f fun c => { c with uncStatus := c.uncStatus &&& ~~~v.setWidth 32 }
  | .aerUncMask => pf (s.modCfg 0 fun c => { c with uncMask := v.setWidth 32 })
  | .aerUncSeverity => pf (s.modCfg 0 fun c => { c with uncSev := v.setWidth 32 })
  | .aerCorStatus => s.modCfg f fun c => { c with corStatus := c.corStatus &&& ~~~v.setWidth 32 }
  | .aerCorMask => pf (s.modCfg 0 fun c => { c with corMask := v.setWidth 32 })
  | _ => s

/-- CONFIG_REQUEST: answered from ROM_WAIT onward by a function that exists, while the link is up (04 R71) or PF0 is in
D3hot, which it leaves by such a request (log 42). -/
def execConfigRequest (fn : Fin 16) (req : CfgReq) (s : State) : Host.Outcome State Fault Refusal :=
  done s (
    if s.devState = .off ∨ !(s.link.up || (s.fn 0).cfg.d3hot) ∨ !s.fnExists fn then s
    else match req with
      | .read r => s.emit (.config (s.configValue fn r))
      | .write r v => s.configWrite fn r v)

/-! ### VF FLR (04 R78; 06 R133, section 6.8; 07 R142, R147; 12 R243; 13 R264) -/

/-- One waybill in flight is aborted with 0x4D01 and no record; a POOL_INIT loses its pool (12 R246). -/
def State.flrAbort (w : Waybill) (s : State) : State :=
  let s1 := s.poolFailed w 0x4D01
  let left := (s1.sched.flight.filter fun (v : Waybill) => v.id != w.id).map fun (v : Waybill) =>
    { v with waits := v.waits.filter (· != w.id) }
  { s1 with sched := { s1.sched with flight := left } }

/-- What a VF holds after an FLR: registers at reset; events posted for it and counted lost stay in the hold. -/
def FnState.afterFlr (x : FnState) : FnState :=
  { FnState.init with posted := x.posted, evLostSince := x.evLostSince }

/-- The FLR of a VF: the work of its contexts is aborted and its records discarded, and its queues, counters, pools,
streams and registers start anew. -/
def State.flr (f : Nat) (s : State) : State :=
  let mine := fun (c : Nat) => s.ctxFn c == some f
  let infos := s.queueInfos.filter fun i => mine i.ctx
  let gone := s.sched.flight.filter fun w => mine w.ctx
  let waiting := (infos.map fun i => ((s.queue i.ctx i.queue).sqTail - (s.queue i.ctx i.queue).fetched).toNat).sum
  let s1 := gone.foldl (fun (t : State) w => t.flrAbort w) s
  let s2 := { s1 with
    queues := s1.queues.filter (fun p => !mine (p.1 / 4)),
    counters := s1.counters.filter (fun p => !mine (p.1 / 32)),
    sched := { s1.sched with outcomes := s1.sched.outcomes.filter (fun p => !mine (p.1 / 16384)),
                             lastWriter := s1.sched.lastWriter.filter (fun p => !mine (p.1 / 16384)) },
    link := { s1.link with flrBusy := s1.link.flrBusy.set 0 f (gone.length + waiting + 1) } }
  let keys := (s.ctxs.filter fun c => c.fn == f).map poolKey
  (((s2.unregister fun p => keys.contains p.key).closeIntake mine).modFn f FnState.afterFlr).settleAll

/-- VF_FLR: a reset of an enabled VF that is not in FLR already. -/
def execVfFlr (vf : Fin 16) (s : State) : Host.Outcome State Fault Refusal :=
  done s (
    if vf = 0 ∨ s.devState = .off ∨ !s.link.up ∨ !s.fnExists vf ∨ s.link.flrBusy.get 0 vf ≠ 0 then s else s.flr vf)

/-- FLR_DONE: the FLR completes, and PF0 learns how many waybills were aborted (04 R78, 19 Table 19.2). -/
def execFlrDone (vf : Fin 16) (s : State) : Host.Outcome State Fault Refusal :=
  done s (
    let n := s.link.flrBusy.get 0 vf
    if n = 0 then s
    else { s with link := { s.link with flrBusy := s.link.flrBusy.set 0 vf 0 } }.post 0x0D02 (vf + min 0xFFFF (n - 1) * 65536) none)

/-! ### MCTP (04 R74, Table 4.6) -/

/-- MCTP is answered from ROM_WAIT onward over the link; R74 makes no exception for a lost MC. -/
def State.mctpLive (s : State) : Bool := s.devState != .off && s.link.up

/-- An answer of a message type and command. -/
def State.mctpAnswer (ty cmd : Byte) (body : List Byte) (s : State) : State :=
  if s.mctpLive then s.emit (.mctp ty cmd body) else s

/-- Telemetry is 0 before RUN (04 R74). -/
def State.telemetry (s : State) (l : List Byte) : List Byte := if s.reachedRun then l else l.map fun _ => 0

/-- SET_ENDPOINT_ID: completion code, status, EID in force and pool size (log 28: the MCTP control layout is PRESUMED). -/
def execSetEndpointId (operation eid : Byte) (s : State) : Host.Outcome State Fault Refusal :=
  done s (
    if !s.mctpLive then s
    else if 1 < operation.toNat ∨ eid = 0 ∨ eid = 0xFF then s.mctpAnswer 0 1 [2, 0, s.link.eid, 0]
    else { s with link := { s.link with eid := eid } }.mctpAnswer 0 1 [0, 0, eid, 0])

/-- GET_ENDPOINT_ID. -/
def execGetEndpointId (s : State) : Host.Outcome State Fault Refusal := done s (s.mctpAnswer 0 2 [0, s.link.eid, 0, 0])

/-- GET_MCTP_VERSION_SUPPORT: one version entry for a supported type; the version numbers are free values. -/
def execGetMctpVersionSupport (msgType : Byte) (s : State) : Host.Outcome State Fault Refusal :=
  done s (
    if msgType = 0 ∨ msgType = 0x7E ∨ msgType = 0xFF then
      let (v, s1) := s.draw
      s1.mctpAnswer 0 4 ([0, 1] ++ le 4 v)
    else s.mctpAnswer 0 4 [0x80])

/-- GET_MESSAGE_TYPE_SUPPORT: MCTP control and vendor defined PCI. -/
def execGetMessageTypeSupport (s : State) : Host.Outcome State Fault Refusal := done s (s.mctpAnswer 0 5 [0, 2, 0x00, 0x7E])

/-- GET_HEALTH: device state, Tj, VCORE, discipline state. -/
def execGetHealth (s : State) : Host.Outcome State Fault Refusal :=
  done s (s.mctpAnswer 0x7E 1 (s.telemetry
    (le 1 s.devState.code ++ le 2 (unsigned 16 s.pace.tjHalf) ++ le 2 s.pace.vcore ++ le 1 s.time.disc.code)))

/-- GET_ECC: corrected and uncorrectable counts of Sward and LPDDR5. -/
def execGetEcc (s : State) : Host.Outcome State Fault Refusal :=
  done s (s.mctpAnswer 0x7E 2 (s.telemetry (le 8 s.mem.swCorr ++ le 8 s.mem.swUe ++ le 8 s.mem.lpCorr ++ le 8 s.mem.lpUe)))

/-- GET_FAULTS: Verge's last 8 fault records (16 R337). -/
def execGetFaults (s : State) : Host.Outcome State Fault Refusal := done s (s.mctpAnswer 0x7E 3 (s.telemetry s.faultRing))

/-- MCTP_OTHER_MESSAGE: dropped silently (04 R74). -/
def execMctpOtherMessage (_msgType : Byte) (s : State) : Host.Outcome State Fault Refusal := done s s

/-! ### The LPDDR5 window (04 R72, R81; 08 R168, R172; 12 R242) -/

/-- Function `f` reaches LPDDR5 offset `u` through BAR4: PF0 all below usable capacity; a VF the shares of its contexts, but
for pool regions. Larza's memory answers from SELFTEST onward. -/
def State.reaches (s : State) (f u : Nat) : Bool :=
  decide (3 ≤ s.devState.code) && decide (u < s.usable) &&
    (f == 0 || ((s.ctxs.any fun c => c.fn == f && decide (c.lpBase ≤ u) && decide (u < c.lpBase + c.lpSize))
      && !s.pools.any fun p => decide (p.at ≤ u) && decide (u < p.at + p.bytes)))

/-- The runs of bytes within `n` bytes from offset `u` that a function reaches: offset and length. -/
def State.reachRuns (s : State) (f u n : Nat) : List (Nat × Nat) := joinRuns ((rangeFrom u n).filter (s.reaches f))

/-- What AE metadata of a pool an LPDDR5 offset belongs to: the node or header of a block, or a sequence record. -/
inductive PoolPart where
  | node (i : Nat)
  | seq (m n : Nat)
  | other
  deriving DecidableEq, Repr

/-- The metadata at offset `u` of a pool's region (log 20). -/
def Pool.partAt (p : Pool) (u : Nat) : PoolPart :=
  let bb := blockBytes p.layers p.dl p.format
  let k := (u - p.seqAt 0 0) / p.seqBytes
  if u < p.nodeAt 0 ∨ p.at + p.bytes ≤ u then .other
  else if u < p.blockAt 0 then .node ((u - p.nodeAt 0) / 64)
  else if u < p.seqAt 0 0 then (if (u - p.blockAt 0) % bb < 64 then .node ((u - p.blockAt 0) / bb) else .other)
  else .seq (k / p.seqs) (k % p.seqs)

/-- What a block's node and header then say, from a free value. -/
def PoolBlock.scrambled (nBlocks v : Nat) : PoolBlock :=
  let w := v / 2 ^ 3
  { used := v.testBit 0, tree := v.testBit 1, parent := if v.testBit 2 then some (w % nBlocks) else none,
    hash := BitVec.ofNat 64 (w / 2 ^ 32), refs := w / 2 ^ 96 % 2 ^ 16, lastUse := w / 2 ^ 112 % 2 ^ 64 }

/-- What a sequence record then says, from a free value. -/
def PoolSeq.scrambled (nBlocks maxb v : Nat) : PoolSeq :=
  let tokens := v % (64 * maxb + 1)
  { tokens := tokens, blocks := (List.range ((tokens + 63) / 64)).map fun k => v / 2 ^ (16 + 32 * k) % nBlocks }

/-- A host write over a piece of AE metadata leaves it a free value, as the manual gives its layout no bits (log 20). -/
def State.scramble (p : Pool) (x : PoolPart) (s : State) : State :=
  let (v, s1) := s.draw
  let put := fun (f : Pool → Pool) => { s1 with pools := s1.pools.map fun q => if q.key = p.key then f q else q }
  match x with
  | .node i => put fun q => { q with blk := q.blk.set PoolBlock.init i (PoolBlock.scrambled p.nBlocks v) }
  | .seq m n => put fun q =>
    { q with seq := q.seq.set PoolSeq.init ((s.members p).getD m 0 * 256 + n) (PoolSeq.scrambled p.nBlocks p.maxb v) }
  | .other => s

/-- A host write of `n` bytes within one line reaches the metadata of the registered pools it touches. -/
def State.poolWritten (u n : Nat) (s : State) : State :=
  s.pools.foldl (fun (t : State) p =>
    [p.partAt u, p.partAt (u + n - 1)].eraseDups.foldl (fun (t : State) x => t.scramble p x) t) s

/-- Words of an LPDDR5 range that are uncorrectable or poisoned. -/
def State.badIn (s : State) (a n : Nat) : List Nat :=
  (s.markedIn .lp a n).filter fun w => s.mem.lpddr.marks.get Ecc.clean w != .corr

/-- A host write of bytes within one line, as one access: MEM_UE_PARTIAL for each word written in part that was
uncorrectable or poisoned (08 R168). -/
def State.hostWriteLp (a : Nat) (data : List Byte) (s : State) : State :=
  let s1 := s.touch .lp a data.length
  let bad := (s1.badIn a data.length).filter fun w => (partialWords a data.length).contains w
  (bad.foldl (fun (t : State) w => t.post 0x0303 (lineOf .lp (w * 8)) (t.shareOwner true (w * 8)))
    (s1.writeMem .lp none false a data).2).poolWritten a data.length

/-- A host write of bytes that cross lines; a FENCED channel takes nothing (01 R23, log 44). -/
def State.hostWriteRun (a : Nat) (data : List Byte) (s : State) : State :=
  (lineCuts (data.length / 64 + 2) a data).foldl (fun (t : State) p => if t.lpShut p.1 then t else t.hostWriteLp p.1 p.2) s

/-- BAR4_WRITE: each byte in the caller's reach is written; elsewhere there is no effect (04 R72, 00 R390). -/
def execBar4Write (fn : Fin 16) (off : BitVec 64) (data : List Byte) (s : State) : Host.Outcome State Fault Refusal :=
  done s (
    let a := off.toNat
    if !s.link.up ∨ !s.fnExists fn then s
    else (s.reachRuns fn a data.length).foldl (fun (t : State) r =>
      t.hostWriteRun r.1 ((data.drop (r.1 - a)).take r.2)) s)

/-- Bytes put over a list from position `i`. -/
def overlay (i : Nat) (bs l : List Byte) : List Byte := l.take i ++ bs ++ l.drop (i + bs.length)

/-- A host read of bytes, line by line; what a FENCED channel gives is a free value (log 44). Answers whether a word was
poisoned or uncorrectable. -/
def State.hostReadRun (a n : Nat) (s : State) : List Byte × Bool × State :=
  (lineCuts (n / 64 + 2) a (List.replicate n 0)).foldl (fun (acc : List Byte × Bool × State) p =>
    let (bs, ep, t) := acc
    let k := p.2.length
    if t.lpShut p.1 then
      let (v, t1) := t.draw
      (bs ++ le k v, ep, t1)
    else
      let (x, seen, t1) := t.readMem .lp none p.1 k
      (bs ++ x, ep || !seen.ok, t1)) ([], false, s)

/-- BAR4_READ: the bytes in the caller's reach, with EP for a poisoned or uncorrectable word, and zeros elsewhere (04 R72,
08 R172). -/
def execBar4Read (fn : Fin 16) (off : BitVec 64) (len : Nat) (s : State) : Host.Outcome State Fault Refusal :=
  done s (
    let a := off.toNat
    if !s.link.up ∨ !s.fnExists fn then s
    else
      let (bs, ep, s1) := (s.reachRuns fn a len).foldl (fun (acc : List Byte × Bool × State) r =>
        let (x, e, t) := acc.2.2.hostReadRun r.1 r.2
        (overlay (r.1 - a) x acc.1, acc.2.1 || e, t)) (List.replicate len 0, false, s)
      s1.emit (.read bs ep))

/-! ### QSPI (04 section 4.2) -/

/-- One bit of CRC-16, polynomial 0x1021. -/
def crc16Bit (c : Nat) : Nat := if c.testBit 15 then (c * 2 % 65536) ^^^ 0x1021 else c * 2

/-- CRC-16 of bytes, initial value 0xFFFF (04 Table 4.8). -/
def crc16 (l : List Byte) : Nat :=
  l.foldl (fun c b => (List.range 8).foldl (fun x _ => crc16Bit x) (c ^^^ (b.toNat * 256))) 0xFFFF

/-- Where a frame's words lie. -/
inductive QspiPlace where
  | bar0 (off : Nat)
  | lpddr (off : Nat)
  | nowhere
  deriving DecidableEq, Repr

/-- A word of BAR0 that 04 Table 4.4 gives a content, not Reserved. -/
def bar0Word (o : Nat) : Bool :=
  [(0, 8), (0x100, 0x108), (0x200, 0x204), (0x1000, 0x6400), (0x7000, 0x7088), (0x8000, 0xA100)].any fun r =>
    decide (r.1 ≤ o) && decide (o < r.2)

/-- The target of `n` bytes at ADDR; a frame one of whose words lies at a Reserved offset has none (04 Table 4.8, Table
4.10, R81; log 49). -/
def State.qspiPlace (s : State) (addr n : Nat) : QspiPlace :=
  let a := addr - 2 ^ 31
  if addr % 4 ≠ 0 then .nowhere
  else if addr + n ≤ 0x10000 then
    (if (List.range (n / 4)).all fun k => bar0Word (addr + 4 * k) then .bar0 addr else .nowhere)
  else if 2 ^ 31 ≤ addr ∧ a + n ≤ 2 ^ 31 ∧ a + n ≤ s.usable ∧ 3 ≤ s.devState.code then .lpddr a
  else .nowhere

/-- STAT ends the frame; a CRC failure also sets CRC_SEEN (04 Tables 4.9, 4.10). -/
def State.qspiEnd (stat : Nat) (s : State) : State :=
  (if stat = 1 then s.qspiSet 8#4 else s).emit (.qspiStat (BitVec.ofNat 8 stat))

/-- The header of a WRITE or READ frame after its OPCODE: ADDR, words, LEN reserved bits set, HCRC checks. -/
def qspiHeader (op : Byte) (f : List Byte) : Nat × Nat × Bool × Bool :=
  (fieldAt f 0 4, byteAt f 4 + 1, byteAt f 5 != 0, crc16 (op :: f.take 6) == fieldAt f 6 2)

/-- The words of a WRITE frame take effect in ascending order. -/
def State.qspiStore : Nat → List Byte → Nat → State → State
  | 0, _, _, s => s
  | n + 1, d, o, s => State.qspiStore n (d.drop 4) (o + 4) (s.writeBar0 .qspi o (d.take 4))

/-- The words of a WRITE frame to the LPDDR5 window, each an access of its own, in ascending order (08 R168). -/
def State.qspiStoreLp : Nat → List Byte → Nat → State → State
  | 0, _, _, s => s
  | n + 1, d, a, s => State.qspiStoreLp n (d.drop 4) (a + 4) (s.hostWriteLp a (d.take 4))

/-- A WRITE frame rings the Signpost doorbell. -/
def ringsDoorbell (o : Nat) (d : List Byte) : Bool :=
  decide (o ≤ 0x1200) && decide (0x1200 < o + d.length) && (byteAt d (0x1200 - o)).testBit 0

/-- A WRITE frame whose CRCs check (04 R79; Table 4.10). -/
def State.qspiWriteTake (addr : Nat) (d : List Byte) (s : State) : State :=
  match s.qspiPlace addr d.length with
  | .nowhere => s.qspiEnd 3
  | .bar0 o =>
    let refused := ringsDoorbell o d && s.link.hostPort == some .pcie
    (State.qspiStore (d.length / 4) d o s).qspiEnd (if refused then 5 else 0)
  | .lpddr a => if s.lpFenced a d.length then s.qspiEnd 2 else (State.qspiStoreLp (d.length / 4) d a s).qspiEnd 0

/-- QSPI_WRITE: a frame after its OPCODE. A frame cut short has no effect; a CRC failure or reserved LEN bits leave only
STAT (04 R79, Tables 4.8, 4.10). -/
def execQspiWrite (frame : List Byte) (s : State) : Host.Outcome State Fault Refusal :=
  done s (
    let (addr, words, rsv, hcrc) := qspiHeader 0x02#8 frame
    let d := (frame.drop 8).take (4 * words)
    if s.devState = .off ∨ frame.length < 10 + 4 * words then s
    else if !hcrc ∨ crc16 d ≠ fieldAt frame (8 + 4 * words) 2 then s.qspiEnd 1
    else if rsv then s.qspiEnd 4
    else s.qspiWriteTake addr d)

/-- The words of a READ from BAR0, in ascending order with what each read does. -/
def State.qspiLoad : Nat → Nat → State → List Byte × State
  | 0, _, s => ([], s)
  | n + 1, o, s =>
    let (v, s1) := s.readReg .qspi o
    let (rest, s2) := State.qspiLoad n (o + 4) s1
    (le 4 v ++ rest, s2)

/-- A READ from the LPDDR5 window: zeros for a word that the read finds poisoned or uncorrectable, and MEM_POISON_READ
for it (08 R172). -/
def State.qspiLoadLp (a n : Nat) (s : State) : List Byte × State :=
  let bad := (s.touch .lp a n).badIn a n
  let (bs, _, s1) := s.readMem .lp none a n
  let s2 := bad.foldl (fun (t : State) w => t.post 0x0304 (lineOf .lp (w * 8)) (t.shareOwner true (w * 8))) s1
  (bs.mapIdx fun i b => if bad.contains ((a + i) / 8) then 0 else b, s2)

/-- DATA, DCRC and STAT of a READ. -/
def State.qspiReply (r : List Byte × State) : State := (r.2.emit (.read (r.1 ++ le 2 (crc16 r.1)) false)).qspiEnd 0

/-- A READ frame whose HCRC checks. -/
def State.qspiReadTake (addr n : Nat) (s : State) : State :=
  match s.qspiPlace addr n with
  | .nowhere => s.qspiEnd 3
  | .bar0 o => State.qspiReply (State.qspiLoad (n / 4) o s)
  | .lpddr a =>
    if s.lpFenced a n then s.qspiEnd 2
    else State.qspiReply (s.qspiLoadLp a n)

/-- QSPI_READ: a frame after its OPCODE (04 Tables 4.8, 4.10, R81). -/
def execQspiRead (frame : List Byte) (s : State) : Host.Outcome State Fault Refusal :=
  done s (
    let (addr, words, rsv, hcrc) := qspiHeader 0x0B#8 frame
    if s.devState = .off ∨ frame.length < 8 then s
    else if !hcrc then s.qspiEnd 1
    else if rsv then s.qspiEnd 4
    else s.qspiReadTake addr (4 * words))

/-- QSPI_STATUS: a frame that carries only its OPCODE. 0x05 gives the low byte of QSPI_STAT; an OPCODE that is none of the
three gives STAT 0x04 (04 Tables 4.8, 4.10). -/
def execQspiStatus (opcode : Byte) (s : State) : Host.Outcome State Fault Refusal :=
  done s (
    if s.devState = .off ∨ opcode = 0x02#8 ∨ opcode = 0x0B#8 then s
    else if opcode = 0x05#8 then (s.emit (.read [s.link.qspiStat.setWidth 8] false)).qspiEnd 0
    else s.qspiEnd 4)

/-! ### Ethernet (04 section 4.3) -/

/-- The MAC works: it has an ETH record and is not FENCED (04 R83). -/
def State.macLive (s : State) (m : Nat) : Bool := (s.recN 0x60 m).isSome && !s.isFenced (0x20 + m)

/-- A received frame is dropped and counted (04 R84). -/
def State.macDrop (m : Nat) (s : State) : State :=
  { s with link := { s.link with macDropped := s.link.macDropped.set 0 m (s.link.macDropped.get 0 m + 1) } }

/-- The station address of a MAC: MAC_ADDR, first byte most significant (04 Table 4.13). -/
def State.stationMac (s : State) (m : Nat) : Nat :=
  ((s.recN 0x60 m).map fun r => (List.range 6).foldl (fun a k => a * 256 + r.u (0x10 + k) 1) 0).getD 0

/-- The MAC address that RFC 1112 maps from an IPv4 multicast group: 01-00-5E and its low 23 bits. -/
def groupMac (ip : Nat) : Nat := 0x01005E000000 + ip % 2 ^ 23

/-- An IPv4 multicast group. -/
def isGroup (ip : Nat) : Bool := decide (0xE0000000 ≤ ip) && decide (ip < 0xF0000000)

/-- A MAC takes frames sent to its station address, or to the multicast address of a group that an RTP record names for it
(04 R83, R85). -/
def State.macAccepts (s : State) (m dst : Nat) : Bool :=
  dst == s.stationMac m || (s.recs 0x61).any fun r => r.u 8 1 == m && isGroup (r.u 0xC 4) && groupMac (r.u 0xC 4) == dst

/-- An RTP record names the frame's destination address and port on its MAC (04 R85). -/
def rtpNames (r : Rec) (m dstIp dstPort : Nat) : Bool := r.u 8 1 == m && r.u 0xC 4 == dstIp && r.u 0xA 2 == dstPort

/-- ETH_FRAME_RECEIVE: PTP goes to the MC and RTP to the IE, by rows of their own; all else is dropped and counted (04
Table 4.12, R84). -/
def execEthFrameReceive (mac : Fin 2) (f : EthFrame) (s : State) : Host.Outcome State Fault Refusal :=
  done s (
    if !s.macLive mac then s
    else if f.etherType = 0x88F7#16 ∨ (f.udp4 ∧ (f.dstPort = 319#16 ∨ f.dstPort = 320#16))
        ∨ (f.udp4 ∧ s.macAccepts mac f.dstMac.toNat
          ∧ (s.recs 0x61).any fun r => rtpNames r mac f.dstIp.toNat f.dstPort.toNat) then s
    else s.macDrop mac)

/-- The open unit closes; one that misses a packet is incomplete (04 R86, 13 R268). -/
def Stream.closeRtp (x : Stream) : Stream :=
  let y := x.bump 0 (b2n (!x.rtpLost))
  { y with units := x.units ++ [(x.openUnit, x.rtpStamp.getD 0, x.rtpLost)], openUnit := [], rtpStamp := none, rtpLost := false }

/-- A NAL unit in the byte stream of an access unit, behind its start code (log 39). -/
def annexB (nal : List Byte) : List Byte := [0, 0, 0, 1] ++ nal

/-- The NAL units of an aggregation packet, each behind its 16-bit size; `n` bounds them (RFC 6184 5.7.1, RFC 7798 4.4.2). -/
def aggregated : Nat → List Byte → List Byte
  | n + 1, a :: b :: r => annexB (r.take (a.toNat * 256 + b.toNat)) ++ aggregated n (r.drop (a.toNat * 256 + b.toNat))
  | _, _ => []

/-- What an H.264 payload adds to its access unit: a single NAL unit, a STAP-A or a piece of an FU-A; none of the others,
which are those of interleaved mode (04 R84, RFC 6184). -/
def h264Payload : List Byte → Option (List Byte)
  | [] => none
  | b :: r =>
    let t := b.toNat % 32
    if 1 ≤ t ∧ t ≤ 23 then some (annexB (b :: r))
    else if t = 24 then some (aggregated r.length r)
    else if t = 28 then
      match r with
      | [] => none
      | h :: d => some (if h.getLsbD 7 then annexB (((b &&& 0xE0#8) ||| (h &&& 0x1F#8)) :: d) else d)
    else none

/-- What an H.265 payload adds to its access unit: a single NAL unit, an aggregation packet or a piece of a fragmentation
unit (04 R84, RFC 7798). -/
def h265Payload : List Byte → Option (List Byte)
  | b :: c :: r =>
    let t := b.toNat / 2 % 64
    if t < 48 then some (annexB (b :: c :: r))
    else if t = 48 then some (aggregated r.length r)
    else if t = 49 then
      match r with
      | [] => none
      | h :: d => some (if h.getLsbD 7 then annexB (((b &&& 0x81#8) ||| ((h &&& 0x3F#8) <<< 1)) :: c :: d) else d)
    else none
  | _ => none

/-- The bytes of a payload, by the stream's CODEC. -/
def Stream.payloadBytes (x : Stream) (payload : List Byte) : Option (List Byte) :=
  if x.codec = 0 then h264Payload payload else h265Payload payload

/-- The next packet in order joins its access unit: a new RTP timestamp opens another, the marker closes it, and bytes that
the buffer or the unit cannot hold leave the unit incomplete (13 Table 13.5), as does a payload of another packetisation
mode (log 39). -/
def Stream.rtpTake (p : Nat × Nat × Nat × Bool × List Byte) (x : Stream) : Stream :=
  let (seq, ts, stamp, last, payload) := p
  let x1 := if x.rtpStamp.isSome && x.rtpTime != ts then x.closeRtp else x
  let data := (x.payloadBytes payload).getD []
  let full := decide (x1.capacity < x1.buffered + data.length) || decide (x1.unitLimit < x1.openUnit.length + data.length)
  let x2 := { x1.bump 1 payload.length with
    rtpNext := some ((seq + 1) % 65536), rtpTime := ts, rtpStamp := some (x1.rtpStamp.getD stamp),
    rtpLost := x1.rtpLost || full || (x.payloadBytes payload).isNone, openUnit := if full then x1.openUnit else x1.openUnit ++ data }
  if last then x2.closeRtp else x2

/-- Packets leave the window in order; the first `forced` sequence numbers leave it whether or not their packets came (04
R86). -/
def Stream.rtpDrain : Nat → Nat → Stream → Stream
  | 0, _, x => x
  | fuel + 1, forced, x =>
    let next := x.rtpNext.getD 0
    match x.rtpBuf with
    | [] => if forced = 0 then x else { x with rtpNext := some ((next + forced) % 65536), rtpLost := true }
    | p :: rest =>
      let gap := (p.1 + 65536 - next) % 65536
      if gap = 0 then Stream.rtpDrain fuel (forced - 1) ({ x with rtpBuf := rest }.rtpTake p)
      else if gap ≤ forced then Stream.rtpDrain fuel (forced - gap) { x with rtpNext := some p.1, rtpLost := true }
      else if forced = 0 then x
      else { x with rtpNext := some ((next + forced) % 65536), rtpLost := true }

/-- A packet put into the window, in sequence order from `next`. -/
def rtpInsert (next : Nat) (p : Nat × Nat × Nat × Bool × List Byte) : List (Nat × Nat × Nat × Bool × List Byte) →
    List (Nat × Nat × Nat × Bool × List Byte)
  | [] => [p]
  | q :: r => if (p.1 + 65536 - next) % 65536 < (q.1 + 65536 - next) % 65536 then p :: q :: r else q :: rtpInsert next p r

/-- A packet of a stream: late or repeated ones are ignored; one ahead of the window moves it on (04 R86). -/
def Stream.rtpArrive (now : Nat) (k : RtpPacket) (x : Stream) : Stream :=
  let q := k.seq.toNat
  let next := x.rtpNext.getD q
  let d := (q + 65536 - next) % 65536
  if 32768 ≤ d ∨ x.rtpBuf.any fun p => p.1 == q then x
  else
    let y := { x with rtpNext := some next,
                      rtpBuf := rtpInsert next (q, k.timestamp.toNat, now, k.lastOfUnit, k.payload) x.rtpBuf }
    y.rtpDrain (2 * y.rtpBuf.length + 2) (d - 31)

/-- The open stream of an RTP record. -/
def State.rtpStream (s : State) (k : Nat) : Option (Nat × Stream) :=
  s.intake.streams.findSome? fun p => p.2.bind fun x => if x.kind = 0 ∧ x.source = k then some (p.1, x) else none

/-- The RTP record that a packet matches (04 R85). -/
def State.rtpMatch (s : State) (m : Nat) (k : RtpPacket) : Option Nat :=
  (s.recs 0x61).findIdx? fun r => rtpNames r m k.dstIp.toNat k.dstPort.toNat
    && (r.u 9 1 == 0xFF || r.u 9 1 == k.payloadType.toNat) && (r.u 0x10 4 == 0 || r.u 0x10 4 == k.srcIp.toNat)
    && (r.u 0x14 4 == 0 || r.u 0x14 4 == k.ssrc.toNat)

/-- RTP_PACKET_RECEIVE: a packet that matches a record with an open stream joins its reorder window; every other is dropped
and counted (04 R84 to R86, 13 R264). -/
def execRtpPacketReceive (mac : Fin 2) (pkt : RtpPacket) (s : State) : Host.Outcome State Fault Refusal :=
  done s (
    if !s.macLive mac then s
    else match (if s.macAccepts mac pkt.dstMac.toNat then (s.rtpMatch mac pkt).bind s.rtpStream else none) with
      | none => s.macDrop mac
      | some (key, x) =>
        if s.stationFenced 18 then s.macDrop mac
        else { s with intake := { s.intake with streams := s.intake.streams.set none key (some (x.rtpArrive s.now pkt)) } })

end Sys2Proof.Machine
end

