-- ==== Sys2Proof/Machine/Requests.lean ====
section
/-! DEFINITION. The Signpost commands as host software issues them (06 Tables 6.7, 6.8): each row writes its request into
SP_CMD and rings the doorbell. -/

namespace Sys2Proof.Machine

/-- The bytes of a request: its header with the row's OPCODE, then the payload (06 Table 6.5). -/
def requestBytes (op : Nat) (r : SpReq) : List Byte :=
  le 2 op ++ [r.tag, r.reserved] ++ le 2 r.len.toNat ++ le 2 r.ctx.toNat ++ fit 248 0 r.payload

/-- A request is written into SP_CMD and the doorbell rung (06 Table 6.7 steps 1 and 2). In OFF nothing answers. -/
def State.submit (p : Requester) (op : Nat) (r : SpReq) (s : State) : State :=
  if s.devState = .off then s
  else (s.modFn (fnOf p) fun x => { x with spCmd := x.spCmd.store 0 (requestBytes op r) }).writeDoorbell p 1

/-- A BLOCK_CONTROL request with the row's ACTION (06 Table 6.10). -/
def withAction (act : Nat) (r : SpReq) : SpReq := { r with payload := (fit 248 0 r.payload).set 2 (BitVec.ofNat 8 act) }

/-- FW_LOAD. -/
def execFwLoad (p : Requester) (r : SpReq) (s : State) : Host.Outcome State Fault Refusal :=
  checked (.fwLoad p r) "FW_LOAD" s (s.submit p 0x0002 r)

/-- FW_COMMIT. -/
def execFwCommit (p : Requester) (r : SpReq) (s : State) : Host.Outcome State Fault Refusal :=
  checked (.fwCommit p r) "FW_COMMIT" s (s.submit p 0x0003 r)

/-- GET_INFO. -/
def execGetInfo (p : Requester) (r : SpReq) (s : State) : Host.Outcome State Fault Refusal :=
  checked (.getInfo p r) "GET_INFO" s (s.submit p 0x0001 r)

/-- SELFTEST_REPORT. -/
def execSelftestReport (p : Requester) (r : SpReq) (s : State) : Host.Outcome State Fault Refusal :=
  checked (.selftestReport p r) "SELFTEST_REPORT" s (s.submit p 0x0004 r)

/-- ROUTE_COMMIT. -/
def execRouteCommit (p : Requester) (r : SpReq) (s : State) : Host.Outcome State Fault Refusal :=
  checked (.routeCommit p r) "ROUTE_COMMIT" s (s.submit p 0x0005 r)

/-- ROUTE_REPORT. -/
def execRouteReport (p : Requester) (r : SpReq) (s : State) : Host.Outcome State Fault Refusal :=
  checked (.routeReport p r) "ROUTE_REPORT" s (s.submit p 0x0006 r)

/-- SET_MILESTONE. -/
def execSetMilestone (p : Requester) (r : SpReq) (s : State) : Host.Outcome State Fault Refusal :=
  checked (.setMilestone p r) "SET_MILESTONE" s (s.submit p 0x0007 r)

/-- START. -/
def execStart (p : Requester) (r : SpReq) (s : State) : Host.Outcome State Fault Refusal :=
  checked (.start p r) "START" s (s.submit p 0x0008 r)

/-- CLEAR_FAULT. -/
def execClearFault (p : Requester) (r : SpReq) (s : State) : Host.Outcome State Fault Refusal :=
  checked (.clearFault p r) "CLEAR_FAULT" s (s.submit p 0x0009 r)

/-- RESET_DEVICE. -/
def execResetDevice (p : Requester) (r : SpReq) (s : State) : Host.Outcome State Fault Refusal :=
  checked (.resetDevice p r) "RESET_DEVICE" s (s.submit p 0x000a r)

/-- PACE_SET. -/
def execPaceSet (p : Requester) (r : SpReq) (s : State) : Host.Outcome State Fault Refusal :=
  checked (.paceSet p r) "PACE_SET" s (s.submit p 0x0101 r)

/-- PI_RESET. -/
def execPiReset (p : Requester) (r : SpReq) (s : State) : Host.Outcome State Fault Refusal :=
  checked (.piReset p r) "PI_RESET" s (s.submit p 0x0102 r)

/-- EVENT_RING_SET. -/
def execEventRingSet (p : Requester) (r : SpReq) (s : State) : Host.Outcome State Fault Refusal :=
  checked (.eventRingSet p r) "EVENT_RING_SET" s (s.submit p 0x0104 r)

/-- TIME_STATUS. -/
def execTimeStatus (p : Requester) (r : SpReq) (s : State) : Host.Outcome State Fault Refusal :=
  checked (.timeStatus p r) "TIME_STATUS" s (s.submit p 0x0105 r)

/-- FAULT_READ. -/
def execFaultRead (p : Requester) (r : SpReq) (s : State) : Host.Outcome State Fault Refusal :=
  checked (.faultRead p r) "FAULT_READ" s (s.submit p 0x0106 r)

/-- QUEUE_STATE. -/
def execQueueState (p : Requester) (r : SpReq) (s : State) : Host.Outcome State Fault Refusal :=
  checked (.queueState p r) "QUEUE_STATE" s (s.submit p 0x0201 r)

/-- QUEUE_RESTART. -/
def execQueueRestart (p : Requester) (r : SpReq) (s : State) : Host.Outcome State Fault Refusal :=
  checked (.queueRestart p r) "QUEUE_RESTART" s (s.submit p 0x0202 r)

/-- CONTEXT_INFO. -/
def execContextInfo (p : Requester) (r : SpReq) (s : State) : Host.Outcome State Fault Refusal :=
  checked (.contextInfo p r) "CONTEXT_INFO" s (s.submit p 0x0203 r)

/-- COUNTERS_READ. -/
def execCountersRead (p : Requester) (r : SpReq) (s : State) : Host.Outcome State Fault Refusal :=
  checked (.countersRead p r) "COUNTERS_READ" s (s.submit p 0x0204 r)

/-- ECC_COUNTERS. -/
def execEccCounters (p : Requester) (r : SpReq) (s : State) : Host.Outcome State Fault Refusal :=
  checked (.eccCounters p r) "ECC_COUNTERS" s (s.submit p 0x0301 r)

/-- LOOP_MODE. -/
def execLoopMode (p : Requester) (r : SpReq) (s : State) : Host.Outcome State Fault Refusal :=
  checked (.loopMode p r) "LOOP_MODE" s (s.submit p 0x0901 r)

/-- LOOP_TABLE_WRITE. -/
def execLoopTableWrite (p : Requester) (r : SpReq) (s : State) : Host.Outcome State Fault Refusal :=
  checked (.loopTableWrite p r) "LOOP_TABLE_WRITE" s (s.submit p 0x0902 r)

/-- LOOP_STATUS. -/
def execLoopStatus (p : Requester) (r : SpReq) (s : State) : Host.Outcome State Fault Refusal :=
  checked (.loopStatus p r) "LOOP_STATUS" s (s.submit p 0x0903 r)

/-- TWIN_REARM. -/
def execTwinRearm (p : Requester) (r : SpReq) (s : State) : Host.Outcome State Fault Refusal :=
  checked (.twinRearm p r) "TWIN_REARM" s (s.submit p 0x0a01 r)

/-- ANN_CLEAR. -/
def execAnnClear (p : Requester) (r : SpReq) (s : State) : Host.Outcome State Fault Refusal :=
  checked (.annClear p r) "ANN_CLEAR" s (s.submit p 0x0c01 r)

/-- SPUR_SEARCH. -/
def execSpurSearch (p : Requester) (r : SpReq) (s : State) : Host.Outcome State Fault Refusal :=
  checked (.spurSearch p r) "SPUR_SEARCH" s (s.submit p 0x0c02 r)

/-- SPUR_READ. -/
def execSpurRead (p : Requester) (r : SpReq) (s : State) : Host.Outcome State Fault Refusal :=
  checked (.spurRead p r) "SPUR_READ" s (s.submit p 0x0c03 r)

/-- BLOCK_RESET: BLOCK_CONTROL with ACTION 0. -/
def execBlockReset (p : Requester) (r : SpReq) (s : State) : Host.Outcome State Fault Refusal :=
  checked (.blockReset p r) "BLOCK_RESET" s (s.submit p 0x0103 (withAction 0 r))

/-- BLOCK_POWER_DOWN: BLOCK_CONTROL with ACTION 1. -/
def execBlockPowerDown (p : Requester) (r : SpReq) (s : State) : Host.Outcome State Fault Refusal :=
  checked (.blockPowerDown p r) "BLOCK_POWER_DOWN" s (s.submit p 0x0103 (withAction 1 r))

/-- BLOCK_POWER_UP: BLOCK_CONTROL with ACTION 2. -/
def execBlockPowerUp (p : Requester) (r : SpReq) (s : State) : Host.Outcome State Fault Refusal :=
  checked (.blockPowerUp p r) "BLOCK_POWER_UP" s (s.submit p 0x0103 (withAction 2 r))

/-- BLOCK_RELOAD: BLOCK_CONTROL with ACTION 3. -/
def execBlockReload (p : Requester) (r : SpReq) (s : State) : Host.Outcome State Fault Refusal :=
  checked (.blockReload p r) "BLOCK_RELOAD" s (s.submit p 0x0103 (withAction 3 r))

end Sys2Proof.Machine
end

