-- ==== Sys2Proof/Machine/Dispatch.lean ====
section
/-! DEFINITION. The effect of each command, one arm per constructor of `Instr`, in the table's order. -/

namespace Sys2Proof.Machine

/-- The command's effect on everything but the queue. -/
def exec (i : Instr) (s : State) : Host.Outcome State Fault Refusal :=
  match i with
  | .registerWrite p off data => Sys2Proof.Machine.execRegisterWrite p off data s
  | .porstNLow => Sys2Proof.Machine.execPorstNLow s
  | .porstNRelease => Sys2Proof.Machine.execPorstNRelease s
  | .supplyLoss rail => Sys2Proof.Machine.execSupplyLoss rail s
  | .fenceExit block => Sys2Proof.Machine.execFenceExit block s
  | .waymarkCommit e => Sys2Proof.Machine.execWaymarkCommit e s
  | .msLoRead p size => Sys2Proof.Machine.execMsLoRead p size s
  | .ringTokenArrive => Sys2Proof.Machine.execRingTokenArrive s
  | .ringTokenMiss => Sys2Proof.Machine.execRingTokenMiss s
  | .paceGovernorPeriod tjHalf rateMilli => Sys2Proof.Machine.execPaceGovernorPeriod tjHalf rateMilli s
  | .avsbusReadBack mV alert => Sys2Proof.Machine.execAvsbusReadBack mV alert s
  | .avsbusResponseMiss cause => Sys2Proof.Machine.execAvsbusResponseMiss s cause
  | .vcoreWindowMiss mV forNs => Sys2Proof.Machine.execVcoreWindowMiss s mV forNs
  | .mcHeartbeat => Sys2Proof.Machine.execMcHeartbeat s
  | .mcHeartbeatMiss => Sys2Proof.Machine.execMcHeartbeatMiss s
  | .oscillatorWatchdogWindow count => Sys2Proof.Machine.execOscillatorWatchdogWindow count s
  | .ptpSyncReceive mac offset logInterval => Sys2Proof.Machine.execPtpSyncReceive mac offset logInterval s
  | .ptpSyncTimeout => Sys2Proof.Machine.execPtpSyncTimeout s
  | .ptpMasterSync => Sys2Proof.Machine.execPtpMasterSync s
  | .ptpDelayReqReceive mac seq => Sys2Proof.Machine.execPtpDelayReqReceive mac seq s
  | .ptpPpsRise => Sys2Proof.Machine.execPtpPpsRise s
  | .ptpPpsFall => Sys2Proof.Machine.execPtpPpsFall s
  | .configRequest fn req => Sys2Proof.Machine.execConfigRequest fn req s
  | .msixUnmask fn vector => Sys2Proof.Machine.execMsixUnmask fn vector s
  | .linkDown cause => Sys2Proof.Machine.execLinkDown cause s
  | .linkUp width rate => Sys2Proof.Machine.execLinkUp width rate s
  | .vfFlr vf => Sys2Proof.Machine.execVfFlr vf s
  | .flrDone vf => Sys2Proof.Machine.execFlrDone vf s
  | .setEndpointId operation eid => Sys2Proof.Machine.execSetEndpointId operation eid s
  | .getEndpointId => Sys2Proof.Machine.execGetEndpointId s
  | .getMctpVersionSupport msgType => Sys2Proof.Machine.execGetMctpVersionSupport msgType s
  | .getMessageTypeSupport => Sys2Proof.Machine.execGetMessageTypeSupport s
  | .getHealth => Sys2Proof.Machine.execGetHealth s
  | .getEcc => Sys2Proof.Machine.execGetEcc s
  | .getFaults => Sys2Proof.Machine.execGetFaults s
  | .mctpOtherMessage msgType => Sys2Proof.Machine.execMctpOtherMessage msgType s
  | .bar4Write fn off data => Sys2Proof.Machine.execBar4Write fn off data s
  | .bar4Read fn off len => Sys2Proof.Machine.execBar4Read fn off len s
  | .qspiWrite frame => Sys2Proof.Machine.execQspiWrite frame s
  | .qspiRead frame => Sys2Proof.Machine.execQspiRead frame s
  | .qspiStatus opcode => Sys2Proof.Machine.execQspiStatus opcode s
  | .ethFrameReceive mac f => Sys2Proof.Machine.execEthFrameReceive mac f s
  | .rtpPacketReceive mac pkt => Sys2Proof.Machine.execRtpPacketReceive mac pkt s
  | .fwLoad p r => Sys2Proof.Machine.execFwLoad p r s
  | .fwCommit p r => Sys2Proof.Machine.execFwCommit p r s
  | .fwVerifyEnd => Sys2Proof.Machine.execFwVerifyEnd s
  | .selftestEnd obs => Sys2Proof.Machine.execSelftestEnd obs s
  | .getInfo p r => Sys2Proof.Machine.execGetInfo p r s
  | .selftestReport p r => Sys2Proof.Machine.execSelftestReport p r s
  | .routeCommit p r => Sys2Proof.Machine.execRouteCommit p r s
  | .validateEnd applyFault => Sys2Proof.Machine.execValidateEnd applyFault s
  | .routeReport p r => Sys2Proof.Machine.execRouteReport p r s
  | .setMilestone p r => Sys2Proof.Machine.execSetMilestone p r s
  | .start p r => Sys2Proof.Machine.execStart p r s
  | .clearFault p r => Sys2Proof.Machine.execClearFault p r s
  | .clearFaultRetestEnd obs => Sys2Proof.Machine.execClearFaultRetestEnd obs s
  | .resetDevice p r => Sys2Proof.Machine.execResetDevice p r s
  | .paceSet p r => Sys2Proof.Machine.execPaceSet p r s
  | .piReset p r => Sys2Proof.Machine.execPiReset p r s
  | .blockReset p r => Sys2Proof.Machine.execBlockReset p r s
  | .blockPowerDown p r => Sys2Proof.Machine.execBlockPowerDown p r s
  | .blockPowerUp p r => Sys2Proof.Machine.execBlockPowerUp p r s
  | .blockReload p r => Sys2Proof.Machine.execBlockReload p r s
  | .eventRingSet p r => Sys2Proof.Machine.execEventRingSet p r s
  | .timeStatus p r => Sys2Proof.Machine.execTimeStatus p r s
  | .faultRead p r => Sys2Proof.Machine.execFaultRead p r s
  | .queueState p r => Sys2Proof.Machine.execQueueState p r s
  | .queueRestart p r => Sys2Proof.Machine.execQueueRestart p r s
  | .contextInfo p r => Sys2Proof.Machine.execContextInfo p r s
  | .countersRead p r => Sys2Proof.Machine.execCountersRead p r s
  | .eccCounters p r => Sys2Proof.Machine.execEccCounters p r s
  | .loopMode p r => Sys2Proof.Machine.execLoopMode p r s
  | .loopTableWrite p r => Sys2Proof.Machine.execLoopTableWrite p r s
  | .loopStatus p r => Sys2Proof.Machine.execLoopStatus p r s
  | .twinRearm p r => Sys2Proof.Machine.execTwinRearm p r s
  | .annClear p r => Sys2Proof.Machine.execAnnClear p r s
  | .spurSearch p r => Sys2Proof.Machine.execSpurSearch p r s
  | .spurRead p r => Sys2Proof.Machine.execSpurRead p r s
  | .evHeadWrite p value => Sys2Proof.Machine.execEvHeadWrite p value s
  | .eventWrite fn => Sys2Proof.Machine.execEventWrite fn s
  | .sqTailWrite fn ctx q value => Sys2Proof.Machine.execSqTailWrite fn ctx q value s
  | .cqHeadWrite fn ctx q value => Sys2Proof.Machine.execCqHeadWrite fn ctx q value s
  | .waybillFetch ctx q stores => Sys2Proof.Machine.execWaybillFetch ctx q stores s
  | .engineDispatch e => Sys2Proof.Machine.execEngineDispatch e s
  | .backgroundZeroing => Sys2Proof.Machine.execBackgroundZeroing s
  | .patrolScrub mem => Sys2Proof.Machine.execPatrolScrub mem s
  | .nop e => Sys2Proof.Machine.execNop e s
  | .planAdmit e => Sys2Proof.Machine.execPlanAdmit e s
  | .matmul e residue => Sys2Proof.Machine.execMatmul e residue s
  | .conv2d e residue => Sys2Proof.Machine.execConv2d e residue s
  | .add e => Sys2Proof.Machine.execAdd e s
  | .sub e => Sys2Proof.Machine.execSub e s
  | .mul e => Sys2Proof.Machine.execMul e s
  | .max e => Sys2Proof.Machine.execMax e s
  | .min e => Sys2Proof.Machine.execMin e s
  | .act e => Sys2Proof.Machine.execAct e s
  | .softmax e => Sys2Proof.Machine.execSoftmax e s
  | .layernorm e => Sys2Proof.Machine.execLayernorm e s
  | .rmsnorm e => Sys2Proof.Machine.execRmsnorm e s
  | .reduceSum e => Sys2Proof.Machine.execReduceSum e s
  | .reduceMax e => Sys2Proof.Machine.execReduceMax e s
  | .convert e => Sys2Proof.Machine.execConvert e s
  | .maxpool e => Sys2Proof.Machine.execMaxpool e s
  | .avgpool e => Sys2Proof.Machine.execAvgpool e s
  | .maxabs e => Sys2Proof.Machine.execMaxabs e s
  | .copy e stores => Sys2Proof.Machine.execCopy e stores s
  | .fill e => Sys2Proof.Machine.execFill e s
  | .poolInit e => Sys2Proof.Machine.execPoolInit e s
  | .seqReset e => Sys2Proof.Machine.execSeqReset e s
  | .prefixLookup e => Sys2Proof.Machine.execPrefixLookup e s
  | .kvAppend e => Sys2Proof.Machine.execKvAppend e s
  | .attend e => Sys2Proof.Machine.execAttend e s
  | .streamOpen e => Sys2Proof.Machine.execStreamOpen e s
  | .streamClose e => Sys2Proof.Machine.execStreamClose e s
  | .feed e => Sys2Proof.Machine.execFeed e s
  | .augSet e => Sys2Proof.Machine.execAugSet e s
  | .decode e => Sys2Proof.Machine.execDecode e s
  | .pictureDecoded ctx n upsets => Sys2Proof.Machine.execPictureDecoded ctx n upsets s
  | .dictLoad e => Sys2Proof.Machine.execDictLoad e s
  | .dictSeal e => Sys2Proof.Machine.execDictSeal e s
  | .tokenise e => Sys2Proof.Machine.execTokenise e s
  | .packEmit e => Sys2Proof.Machine.execPackEmit e s
  | .streamStats e => Sys2Proof.Machine.execStreamStats e s
  | .csiFrameStart rx vc hdr frameNumber => Sys2Proof.Machine.execCsiFrameStart rx vc hdr frameNumber s
  | .csiLinePacket rx vc dt hdr crcOk overrun codes => Sys2Proof.Machine.execCsiLinePacket rx vc dt hdr crcOk overrun codes s
  | .csiFrameEnd rx vc hdr => Sys2Proof.Machine.execCsiFrameEnd rx vc hdr s
  | .csiPacketDiscard rx vc dt hdr => Sys2Proof.Machine.execCsiPacketDiscard rx vc dt hdr s
  | .frameEndTimeout cam => Sys2Proof.Machine.execFrameEndTimeout cam s
  | .frameRecordWrite cam => Sys2Proof.Machine.execFrameRecordWrite cam s
  | .triggerPulse cam => Sys2Proof.Machine.execTriggerPulse cam s
  | .triggerPulseEnd cam => Sys2Proof.Machine.execTriggerPulseEnd cam s
  | .camLost cam => Sys2Proof.Machine.execCamLost cam s
  | .loopSampleInstant l => Sys2Proof.Machine.execLoopSampleInstant l s
  | .sampleMarkEnd pin => Sys2Proof.Machine.execSampleMarkEnd pin s
  | .encoderPositionReady ch sample => Sys2Proof.Machine.execEncoderPositionReady ch sample s
  | .encoderFreeSample ch sample => Sys2Proof.Machine.execEncoderFreeSample ch sample s
  | .encZEdge z => Sys2Proof.Machine.execEncZEdge z s
  | .loopEvaluation outcome => Sys2Proof.Machine.execLoopEvaluation outcome s
  | .diagnosticEvaluation diverged flagged forced => Sys2Proof.Machine.execDiagnosticEvaluation diverged flagged forced s
  | .loopActuation l => Sys2Proof.Machine.execLoopActuation l s
  | .ciScrub outcome => Sys2Proof.Machine.execCiScrub outcome s
  | .vergeHalfMismatch => Sys2Proof.Machine.execVergeHalfMismatch s
  | .ciCheckerTest outcome => Sys2Proof.Machine.execCiCheckerTest outcome s
  | .piCheckerTest outcome => Sys2Proof.Machine.execPiCheckerTest outcome s
  | .stopTimeout => Sys2Proof.Machine.execStopTimeout s
  | .stoRelease => Sys2Proof.Machine.execStoRelease s
  | .stoFeedbackDiscrepancy chanB => Sys2Proof.Machine.execStoFeedbackDiscrepancy chanB s
  | .annOpenLoad => Sys2Proof.Machine.execAnnOpenLoad s
  | .annRestored => Sys2Proof.Machine.execAnnRestored s
  | .twinFrameTransmit => Sys2Proof.Machine.execTwinFrameTransmit s
  | .twinFrameReceive lane bits => Sys2Proof.Machine.execTwinFrameReceive lane bits s
  | .twinMissWindow => Sys2Proof.Machine.execTwinMissWindow s
  | .canReq p c cmd => Sys2Proof.Machine.execCanReq p c cmd s
  | .canAbort p c cmd => Sys2Proof.Machine.execCanAbort p c cmd s
  | .canPush p c cmd => Sys2Proof.Machine.execCanPush p c cmd s
  | .canTxbWrite p c txb off data => Sys2Proof.Machine.execCanTxbWrite p c txb off data s
  | .canRecover p c value => Sys2Proof.Machine.execCanRecover p c value s
  | .canArbitration c => Sys2Proof.Machine.execCanArbitration c s
  | .canTxEnd c outcome => Sys2Proof.Machine.execCanTxEnd c outcome s
  | .canBusOn c => Sys2Proof.Machine.execCanBusOn c s
  | .canFrameReceive c rx => Sys2Proof.Machine.execCanFrameReceive c rx s
  | .canRxHeadWrite p c ring value => Sys2Proof.Machine.execCanRxHeadWrite p c ring value s
  | .canReferenceInstant c => Sys2Proof.Machine.execCanReferenceInstant c s
  | .spiScriptTrigger m script => Sys2Proof.Machine.execSpiScriptTrigger m script s
  | .spiTransferEnd m rx => Sys2Proof.Machine.execSpiTransferEnd m rx s
  | .spiCmd p m value => Sys2Proof.Machine.execSpiCmd p m value s
  | .spiRingHeadWrite p m value => Sys2Proof.Machine.execSpiRingHeadWrite p m value s
  | .uartCharacterReceive u bits => Sys2Proof.Machine.execUartCharacterReceive u bits s
  | .uartRearm u => Sys2Proof.Machine.execUartRearm u s
  | .uartTxdata p u value => Sys2Proof.Machine.execUartTxdata p u value s
  | .uartRxdataRead p u size => Sys2Proof.Machine.execUartRxdataRead p u size s
  | .uartTxCharacterEnd u => Sys2Proof.Machine.execUartTxCharacterEnd u s
  | .spurSearchEnd passes busLow => Sys2Proof.Machine.execSpurSearchEnd passes busLow s
  | .spurAnnounce => Sys2Proof.Machine.execSpurAnnounce s
  | .annToneWrite p value => Sys2Proof.Machine.execAnnToneWrite p value s
  | .annTrip => Sys2Proof.Machine.execAnnTrip s
  | .annRetry => Sys2Proof.Machine.execAnnRetry s
  | .pwmPeriodStart n => Sys2Proof.Machine.execPwmPeriodStart n s
  | .pwmDutyWrite p n value => Sys2Proof.Machine.execPwmDutyWrite p n value s
  | .gpioEdge pin rising => Sys2Proof.Machine.execGpioEdge pin rising s
  | .gpioSetWrite p value => Sys2Proof.Machine.execGpioSetWrite p value s
  | .gpioClrWrite p value => Sys2Proof.Machine.execGpioClrWrite p value s
  | .supplyRestore rail => Sys2Proof.Machine.execSupplyRestore rail s
  | .spDoorbell p value => Sys2Proof.Machine.execSpDoorbell p value s
  | .encAbEdge edge a b => Sys2Proof.Machine.execEncAbEdge edge a b s
  | .canJoinBus c => Sys2Proof.Machine.execCanJoinBus c s
  | .schedulerFault => Sys2Proof.Machine.execSchedulerFault s

end Sys2Proof.Machine
end

