-- ==== Sys2Proof/Safety.lean ====
section
/-! DEFINITION. What counts as a safe run, in the terms the statements use: reaching a next state, changing only some
parts of the state, and the invariants that every step keeps. -/

namespace Sys2Proof.Machine

/-- The outcome is a next state, and that state satisfies `P`. -/
def Goes (o : Host.Outcome State Fault Refusal) (P : State → Prop) : Prop :=
  ∃ t, o = .next t ∧ P t

/-- What a function's posted events and signalled vectors are kept in. -/
def FnState.events (x : FnState) : List EvRecord × Nat × Nat × Map Bool :=
  (x.posted, x.evLost, x.evLostSince, x.msixPending)

/-- The rest of a function's registers. -/
def FnState.regs (x : FnState) : FnState := { x with posted := [], evLost := 0, evLostSince := 0, msixPending := [] }

/-- The parts of the state: its fields but for the queue of waiting commands; apart from the rest of their field stand
the posted events and signalled vectors (`events`), QSPI_STAT (`irq`) and Verge's fault records (`records`). -/
inductive Part where
  | devState | porst | lostRails | reachedRun | outputsUp | fns | waymarks
  | fences | time | pace | mc | link | fw | queues
  | counters | sched | mem | piReset | pools | intake | cams
  | rxDiscards | loops | verge | cans | ports | free | out
  | events | irq | records
  deriving DecidableEq, Repr

/-- Two states agree in a part. -/
def State.agrees (s t : State) : Part → Prop
  | .devState => t.devState = s.devState
  | .porst => t.porst = s.porst
  | .lostRails => t.lostRails = s.lostRails
  | .reachedRun => t.reachedRun = s.reachedRun
  | .outputsUp => t.outputsUp = s.outputsUp
  | .fns => ∀ f, (t.fn f).regs = (s.fn f).regs
  | .waymarks => t.waymarks = s.waymarks
  | .fences => t.fences = s.fences
  | .time => t.time = s.time
  | .pace => t.pace = s.pace
  | .mc => t.mc = s.mc
  | .link => { t.link with qspiStat := 0 } = { s.link with qspiStat := 0 }
  | .fw => t.fw = s.fw
  | .queues => t.queues = s.queues
  | .counters => t.counters = s.counters
  | .sched => t.sched = s.sched
  | .mem => t.mem = s.mem
  | .piReset => t.piReset = s.piReset
  | .pools => t.pools = s.pools
  | .intake => t.intake = s.intake
  | .cams => t.cams = s.cams
  | .rxDiscards => t.rxDiscards = s.rxDiscards
  | .loops => t.loops = s.loops
  | .verge => { t.verge with records := [] } = { s.verge with records := [] }
  | .cans => t.cans = s.cans
  | .ports => t.ports = s.ports
  | .free => t.free = s.free
  | .out => t.out = s.out
  | .events => ∀ f, (t.fn f).events = (s.fn f).events
  | .irq => t.link.qspiStat = s.link.qspiStat
  | .records => t.verge.records = s.verge.records

/-- From `s` to `t` at most the named parts change; the queue of waiting commands stays. -/
def Only (ps : List Part) (s t : State) : Prop :=
  t.pending = s.pending ∧ ∀ p : Part, p ∉ ps → s.agrees t p

/-- A memory of words with check bits is in canonical form. -/
def MemSpace.canonical (p : MemSpace) : Bool := Memory.wf p.cells && Map.wf Ecc.clean p.marks && Map.wf 0 p.hard

/-- Sward, LPDDR5, the epoch tags, the picture store and host memory are in canonical form, so that equal memories are
equal data. -/
def MemSt.canonical (m : MemSt) : Bool :=
  m.sward.canonical && m.lpddr.canonical && m.tag.canonical && m.pic.canonical && Memory.wf m.host
    && Map.wf false m.hostBad && Map.wf 0 m.picCorr

/-- Every map of the state that is kept by unit (memory, functions, fences, queues, loops and the rest) is in canonical
form: no unit is listed twice, and none that stands at its reset value. -/
def State.canonical (s : State) : Bool :=
  s.mem.canonical && Map.wf FnState.init s.fns && Map.wf WmSlot.init s.waymarks && Map.wf ({} : Fence) s.fences
    && Map.wf QueueSt.init s.queues && Map.wf 0 s.counters && Map.wf CamSt.init s.cams && Map.wf 0 s.rxDiscards
    && Map.wf LoopSt.init s.loops && Map.wf CanSt.init s.cans && Map.wf EncSt.init s.ports.enc
    && Map.wf SpiSt.init s.ports.spi && Map.wf UartSt.init s.ports.uart && Map.wf PwmSt.init s.ports.pwm
    && Map.wf 0 s.sched.outcomes && Map.wf 0 s.sched.lastWriter && Map.wf 0 s.sched.credits
    && Map.wf 0 s.sched.pointers && Map.wf 0 s.sched.stationTick && Map.wf none s.intake.streams
    && Map.wf none s.intake.dicts && s.fns.all (fun p => Memory.wf p.2.spCmd)

/-- What an access to a memory with check bits may change: the memory, the counts and reports of what it meets. -/
def memParts : List Part := [.mem, .free, .counters, .records, .events, .irq, .out]

/-- What a completion may change. -/
def doneParts : List Part := [.mem, .free, .counters, .records, .events, .irq, .out, .queues, .sched, .pools]

/-- What a fence may change. -/
def fenceParts : List Part :=
  [.mem, .free, .counters, .records, .events, .irq, .out, .queues, .sched, .pools, .fences, .cams, .devState]

/-- What asserting STO may change. -/
def stoParts : List Part := [.verge, .ports, .events, .irq, .out]

/-- What a stop may change. -/
def stopParts : List Part := [.verge, .ports, .events, .irq, .out, .loops]

/-- What a detected fault may change, with any reaction. -/
def raiseParts : List Part :=
  [.mem, .free, .counters, .records, .events, .irq, .out, .queues, .sched, .pools, .fences, .cams, .devState, .fw, .ports,
   .loops, .verge]

/-- The Perception Island has been fenced: it is FENCED now, RUN became FENCED, and when it was not fenced before,
every block of it is FENCED too. -/
def IslandLost (s t : State) : Prop :=
  t.isFenced 0x60 = true ∧
  (s.isFenced 0x60 = false → (∀ b ∈ piBlocks, t.isFenced b = true) ∧ (s.devState = .run → t.devState = .fenced))

/-- The device has gone to OFF: every part is at its reset value but PORST_N, the rails, the memories (which hold nothing;
host memory is outside) and the model's own record, where every STO channel, trigger, camera clock and PWM output that
was high has fallen. -/
def OffFrom (s t : State) : Prop :=
  Only [.porst, .lostRails, .mem, .free, .out] { State.reset with pending := s.pending } t ∧
  t.mem.sward.cells = [] ∧ t.mem.lpddr.cells = [] ∧ t.mem.tag.cells = [] ∧ t.mem.pic.cells = [] ∧
  t.mem.host = s.mem.host ∧ t.free = s.free ∧
  (s.verge.stoA = true → Out.sto 0 false ∈ t.out) ∧ (s.verge.stoB = true → Out.sto 1 false ∈ t.out) ∧
  (s.canonical = true →
    (∀ k < 4, ((s.cam k).trigPin = true → Out.trig k false ∈ t.out) ∧ ((s.cam k).mclk ≠ 0 → Out.mclk k 0 ∈ t.out)) ∧
    ∀ n < 8, (s.pwm n).high ≠ 0 → Out.pwm n 0 ∈ t.out)

/-- VCORE has been commanded over AVSBus, or the command waits behind an unconfirmed one. -/
def VcoreAsked (mV : Nat) (s t : State) : Prop :=
  (s.pace.unconfirmed = true → t.pace = { s.pace with pending := some mV }) ∧
  (s.pace.unconfirmed = false → t.pace = { s.pace with vcore := mV, unconfirmed := true, cmdAt := s.now } ∧
    t.out.getLast? = some (.avs (s.recField 3 8 1) mV))

/-- The requester may ring its Signpost, which is not BUSY and whose MC answers (06 R109, R113; 04 R80). -/
def MayRing (p : Requester) (s : State) : Prop :=
  s.devState ≠ .off ∧ s.mc.lost = false ∧ (s.fn (fnOf p)).spState ≠ .busy ∧ Memory.wf (s.fn (fnOf p)).spCmd = true ∧
  (p = .pcie 0 → s.link.hostPort ≠ some .qspi) ∧ (p = .qspi → s.link.hostPort ≠ some .pcie)

/-- The host port that a ring of PF0's Signpost settles (04 R80). -/
def State.withPort (p : Requester) (s : State) : State :=
  match p with
  | .pcie 0 => { s with link := { s.link with hostPort := some .pcie } }
  | .qspi => { s with link := { s.link with hostPort := some .qspi } }
  | .pcie _ => s

/-- A request is in SP_CMD and its doorbell has been taken: the Signpost is BUSY with the request's TAG. -/
def State.taken (p : Requester) (op : Nat) (r : SpReq) (s : State) : State :=
  ((s.modFn (fnOf p) fun x => { x with spCmd := x.spCmd.store 0 (requestBytes op r) }).withPort p).modFn (fnOf p) fun x =>
    { x with spState := .busy, spTag := r.tag }

/-- The request is well formed, may be rung, and passes checks 1 to 7 of 06 Table 6.9. -/
def Accepted (p : Requester) (op : Nat) (r : SpReq) (s : State) : Prop :=
  r.wellFormed = true ∧ MayRing p s ∧ (s.taken p op r).requestStatus (fnOf p) (requestBytes op r) = 0

/-- Station `e` runs waybill `w` of context `c`, of this class and opcode, and no block that it needs is FENCED. -/
def Runs (e cls op : Nat) (w : Waybill) (c : CtxInfo) (s : State) : Prop :=
  s.runningOn e cls op = some w ∧ s.ctx w.ctx = some c ∧ s.cutOff w = false

/-- After the effects that led to `u`, waybill `w` has completed with a status and DETAIL, and has left the Scoreboard. -/
def Ends (w : Waybill) (status detail : Nat) (u t : State) : Prop :=
  (∃ f, t = u.complete w status detail f) ∧ ∀ v ∈ t.sched.flight, v.id ≠ w.id

end Sys2Proof.Machine
end

