-- ==== Sys2Proof/Certificates/Slice0/Obligations.lean ====
section
/-! DEFINITION. The statements for the provers: what each command does, what it leaves alone, and what every step keeps. -/

open Sys2Proof Sys2Proof.Machine

/-! ### The step, reset and time -/

/-- A step runs the command at the front of the queue with the queue's rest; on an empty queue a clock of the
Milestone counter passes (the second clause is the model's choice, log 1). -/
def Obligations.StepRunsFrontCommand : Prop :=
  (∀ (c : Instr) (rest : List Instr) (s : State), s.pending = c :: rest →
    step s = exec c { s with pending := rest }) ∧
  ∀ s : State, s.pending = [] → step s = .next s.tickClock

/-- On each clock the increment, a count of 2^-32 ns, is added to Milestone, and nothing else changes (02 section 2.4;
that an idle step is one clock is the model's choice, log 1). A 32-bit or a 64-bit read of BAR0 offset 0x100 returns
the low bytes of one Milestone value and latches its high half for the requester alone, who then reads it at MS_HI:
each function and the QSPI port has its own latch (R40). -/
def Obligations.MilestoneCountsAndLatches : Prop :=
  (∀ s : State, s.pending = [] → Goes (step s) fun t =>
    Only [.time] s t ∧
    (s.time.running = true →
      t.time.ms * 2 ^ 32 + t.time.frac = s.time.ms * 2 ^ 32 + s.time.frac + s.time.inc ∧ t.time.frac < 2 ^ 32 ∧
      t.time.inc = s.time.inc) ∧
    (s.time.running = false → t = s)) ∧
  (∀ (size : Nat) (s : State), size = 4 ∨ size = 8 →
    (∀ f : Fin 16, Goes (exec (.msLoRead (.pcie f) size) s) fun t =>
      t.out = s.out ++ [.read (le size s.time.ms) false] ∧
      t.fns = s.fns.set FnState.init f { s.fn f with msHi := BitVec.ofNat 32 (s.time.ms / 2 ^ 32) } ∧
      Only [.fns, .events, .out] s t) ∧
    Goes (exec (.msLoRead .qspi size) s) fun t =>
      t.out = s.out ++ [.read (le size s.time.ms) false] ∧
      t.link = { s.link with qspiMsHi := BitVec.ofNat 32 (s.time.ms / 2 ^ 32) } ∧
      Only [.link, .out] s t) ∧
  ∀ (p q : Requester) (size : Nat) (s t : State), s.canonical = true → size = 4 ∨ size = 8 →
    exec (.msLoRead p size) s = .next t →
    t.readReg p 0x104 = (s.time.ms / 2 ^ 32 % 2 ^ 32, t) ∧ (q ≠ p → (t.readReg q 0x104).1 = (s.readReg q 0x104).1)

/-- The token: a station with a direct-address waybill that is to end at the token's tick holds it; without one it
passes to the next of the 19 stations, and the tick number goes up as the token comes to TE0 (where the number goes up
is the model's choice, log 7). A fenced station never holds it (R34, R36). -/
def Obligations.RingTokenPassesOn : Prop :=
  (∀ s : State, s.holders s.sched.tokenAt = [] → Goes (exec .ringTokenArrive s) fun t =>
    t.sched.tokenAt = (s.sched.tokenAt + 1) % 19 ∧
    t.sched.tick = (if t.sched.tokenAt = 0 then s.sched.tick + 1 else s.sched.tick) ∧
    t.sched.stationTick = s.sched.stationTick.set 0 t.sched.tokenAt t.sched.tick.toNat ∧
    t.sched.flight = s.sched.flight ∧ Only [.sched] s t) ∧
  (∀ s : State, s.holders s.sched.tokenAt ≠ [] → exec .ringTokenArrive s = .next s) ∧
  ∀ (s : State) (e : Nat), s.stationFenced e = true → s.holders e = []

/-- A ring token miss, an AVSBus response miss, a VCORE window miss and a loss of VCORE, with the firmware running,
fence the whole Perception Island and command VCORE to 0.60 V; RUN becomes FENCED (R44, R29). While a write is
unconfirmed the new command waits as the pending one (R50). VCORE within 25 mV of the command, for less than 10 µs
outside it or within 200 µs of the last command is no miss, and neither is a write confirmed in time (02 Table 2.7;
that a bad CRC counts at once is the model's reading, log 47). -/
def Obligations.PerceptionLossFencesIsland : Prop :=
  ∀ s : State, 3 ≤ s.devState.code →
    (s.sched.lastCircuit + 2000000 ≤ s.now → (∃ e < 19, s.stationFenced e = false) →
      Goes (exec .ringTokenMiss s) fun t => IslandLost s t ∧ VcoreAsked 600 s t ∧ Only (.pace :: fenceParts) s t) ∧
    (∀ mV forNs : Nat,
      (s.pace.vcore + 25 < mV ∨ mV + 25 < s.pace.vcore → 10000 ≤ forNs → s.pace.cmdAt + 200000 ≤ s.now →
        Goes (exec (.vcoreWindowMiss mV forNs) s) fun t =>
          IslandLost s t ∧ VcoreAsked 600 s t ∧ Only (.pace :: fenceParts) s t) ∧
      ((mV ≤ s.pace.vcore + 25 ∧ s.pace.vcore ≤ mV + 25) ∨ forNs < 10000 ∨ s.now < s.pace.cmdAt + 200000 →
        exec (.vcoreWindowMiss mV forNs) s = .next s)) ∧
    (∀ cause : AvsMiss, s.pace.unconfirmed = true → cause = .badCrc ∨ (s.pace.cmdAt + 200000 ≤ s.now ∧
        (cause = .noAck ∨ ∃ mV, cause = .readBack mV ∧ (s.pace.vcore + 15 < mV ∨ mV + 15 < s.pace.vcore))) →
      Goes (exec (.avsbusResponseMiss cause) s) fun t =>
        IslandLost s t ∧ t.pace = { s.pace with vcore := 600, unconfirmed := true, pending := none, cmdAt := s.now } ∧
        t.out.getLast? = some (.avs (s.recField 3 8 1) 600) ∧ Only (.pace :: fenceParts) s t) ∧
    (∀ cause : AvsMiss, s.pace.unconfirmed = false ∨ (cause ≠ .badCrc ∧ s.now < s.pace.cmdAt + 200000) →
      exec (.avsbusResponseMiss cause) s = .next s) ∧
    (Rail.vcore ∉ s.lostRails → Goes (exec (.supplyLoss .vcore) s) fun t =>
      IslandLost s t ∧ VcoreAsked 600 s t ∧ t.lostRails = s.lostRails ++ [.vcore] ∧
      Only (.lostRails :: .pace :: fenceParts) s t)

/-- The governor's law: under the thermal override the next command is 10 mV down, never below 0.65 V, whatever the
host floor; without it the host ceiling holds over what the target asks for (R47, for the CEILING and FLOOR that R45
admits, FLOOR at most CEILING). -/
def Obligations.HostCeilingAndThermalOverrideWin : Prop :=
  ∀ (p : PaceSt) (tjHalf : Int) (rateMilli : Nat), p.floor ≤ p.ceiling →
    ((paceLaw p tjHalf rateMilli).1 = true →
      (paceLaw p tjHalf rateMilli).2.1 = max (p.vcore - 10) 650 ∧ 650 ≤ (paceLaw p tjHalf rateMilli).2.1) ∧
    ((paceLaw p tjHalf rateMilli).1 = false →
      p.floor ≤ (paceLaw p tjHalf rateMilli).2.1 ∧ (paceLaw p tjHalf rateMilli).2.1 ≤ p.ceiling)

/-- One governor period. In RUN, below 110 °C, the law's command replaces VCORE when it differs, and a conflict that
was not there before posts PACE_CONFLICT; at 110 °C the island is fenced, VCORE goes to 0.60 V, THERMAL_FENCE is
posted and the fence waits for a reset that the host asks for (R48, R49). Outside RUN, as while the island is FENCED,
only the temperature is read; that a conflict stands on meanwhile is the model's choice (log 8). A read-back within 15
mV of the command confirms it, and a command that waited is sent; any other read-back leaves it unconfirmed. A status
alert posts AVS_STATUS (R50, 02 Table 2.8). -/
def Obligations.PaceGovernorActs : Prop :=
  (∀ (tj : Int) (rate : Nat) (s : State), s.mcRuns = true →
    (tj < 220 → s.devState = .run → Goes (exec (.paceGovernorPeriod tj rate) s) fun t =>
      t.pace.tjHalf = tj ∧ t.pace.thermal = (paceLaw s.pace tj rate).1 ∧ t.pace.conflict = (paceLaw s.pace tj rate).2.2 ∧
      ((paceLaw s.pace tj rate).2.1 = s.pace.vcore → t.pace.vcore = s.pace.vcore ∧ t.pace.pending = s.pace.pending) ∧
      ((paceLaw s.pace tj rate).2.1 ≠ s.pace.vcore → s.pace.unconfirmed = true →
        t.pace.vcore = s.pace.vcore ∧ t.pace.pending = some (paceLaw s.pace tj rate).2.1) ∧
      ((paceLaw s.pace tj rate).2.1 ≠ s.pace.vcore → s.pace.unconfirmed = false →
        t.pace.vcore = (paceLaw s.pace tj rate).2.1 ∧ t.pace.unconfirmed = true ∧ t.pace.cmdAt = s.now ∧
        Out.avs (s.recField 3 8 1) (paceLaw s.pace tj rate).2.1 ∈ t.out) ∧
      (∀ side, (paceLaw s.pace tj rate).2.2 = some side → s.pace.conflict ≠ some side → ∃ u : State,
        t = u.post 0x0008 ((if side = .hostFloor then 1 else 0) + (paceLaw s.pace tj rate).2.1 * 65536) none) ∧
      Only [.pace, .events, .irq, .out] s t) ∧
    (tj < 220 → s.devState ≠ .run → exec (.paceGovernorPeriod tj rate) s =
      .next { s with pace := { s.pace with tjHalf := tj } }) ∧
    (220 ≤ tj → s.pace.thermalFence = false → Goes (exec (.paceGovernorPeriod tj rate) s) fun t =>
      IslandLost s t ∧ t.pace.thermalFence = true ∧ t.pace.hostReset = false ∧
      (s.pace.unconfirmed = false → t.pace.vcore = 600) ∧ (s.pace.unconfirmed = true → t.pace.pending = some 600) ∧
      (∃ u : State, t = u.post 0x0009 (unsigned 16 tj) none) ∧ Only (.pace :: fenceParts) s t)) ∧
  (∀ (mV : Nat) (s : State), s.pace.unconfirmed = true →
    (mV ≤ s.pace.vcore + 15 → s.pace.vcore ≤ mV + 15 → s.pace.pending = none →
      exec (.avsbusReadBack mV none) s = .next { s with pace := { s.pace with unconfirmed := false } }) ∧
    (∀ v, mV ≤ s.pace.vcore + 15 → s.pace.vcore ≤ mV + 15 → s.pace.pending = some v →
      exec (.avsbusReadBack mV none) s = .next { s with
        pace := { s.pace with vcore := v, unconfirmed := true, pending := none, cmdAt := s.now },
        out := s.out ++ [.avs (s.recField 3 8 1) v] }) ∧
    (s.pace.vcore + 15 < mV ∨ mV + 15 < s.pace.vcore → exec (.avsbusReadBack mV none) s = .next s) ∧
    ∀ a : BitVec 16, s.pace.vcore + 15 < mV ∨ mV + 15 < s.pace.vcore →
      exec (.avsbusReadBack mV (some a)) s = .next (s.post 0x000A a.toNat none))

/-- The MC heartbeat restarts its 3 ms; a miss ends every command that is BUSY with 0x8001, which sets QSPI_STAT bit 0
where QSPI is the host port, and is a controlled-stop demand (02 Table 2.7, 06 R113, Table 6.7). Crystal cycles
between 1,238 and 1,262 in a window are good; a second bad window in a row is an immediate stop (02 Table 2.7, 16
Table 16.3). -/
def Obligations.MonitorsStopTheDevice : Prop :=
  ∀ s : State, s.devState ≠ .off →
    (s.mc.lost = false → exec .mcHeartbeat s = .next { s with mc := { s.mc with lastBeat := s.now } }) ∧
    (s.mc.lost = false → s.mc.lastBeat + 3000000 ≤ s.now → Goes (exec .mcHeartbeatMiss s) fun t => ∃ u : State,
      u.mc = { s.mc with lost := true } ∧ Only [.mc, .fns, .events, .irq, .out] s u ∧
      (∀ f < 16, (s.fn f).spState = .busy → (u.fn f).spState = .done ∧ (u.fn f).spStatus = 0x8001#16) ∧
      u.link.qspiStat = (if (s.fn 0).spState = .busy ∧ s.link.hostPort = some .qspi then s.link.qspiStat ||| 1#4
        else s.link.qspiStat) ∧
      t = u.raise 0x8A0F 0xFF .controlled 0) ∧
    (∀ count, 1238 ≤ count → count ≤ 1262 →
      exec (.oscillatorWatchdogWindow count) s = .next { s with mc := { s.mc with badWindows := 0 } }) ∧
    (∀ count, count < 1238 ∨ 1262 < count → s.mc.badWindows = 0 →
      exec (.oscillatorWatchdogWindow count) s = .next { s with mc := { s.mc with badWindows := 1 } }) ∧
    (∀ count, count < 1238 ∨ 1262 < count → s.mc.badWindows = 1 →
      exec (.oscillatorWatchdogWindow count) s =
        .next (State.raise 0x8A03 0xFF .immediate 0 { s with mc := { s.mc with badWindows := 2 } }))

/-- A detected fault and its reaction: hardware faults and stop demands take RUN and FENCED to FAULT; an immediate
stop asserts STO on both channels; a controlled stop is ordered unless a stop is in force already; the Perception
Island or one Tensor Engine is fenced; a report or REDUCED leaves the newest fault record (R328, 16 Tables 16.3 and
16.4). -/
def Obligations.FaultReactions : Prop :=
  ∀ (code unit detail : Nat) (s : State),
    (∀ r : Reaction, Only raiseParts s (s.raise code unit r detail) ∧
      (demandsFault code = true → s.active = true → (s.raise code unit r detail).devState = .fault)) ∧
    (s.active = true ∨ s.devState = .fault →
      (s.raise code unit .immediate detail).verge.stop = .immediate ∧
      (s.raise code unit .immediate detail).verge.stoA = false ∧
      (s.raise code unit .immediate detail).verge.stoB = false ∧
      (s.raise code unit .controlled detail).verge.stop =
        (if s.verge.stop = .none then .controlled else s.verge.stop) ∧
      (s.verge.stop = .none → (s.raise code unit .controlled detail).verge.stopSince = s.now)) ∧
    (demandsFault code = false → IslandLost s (s.raise code unit .fencePi detail)) ∧
    (s.raise code unit .fenceTe detail).isFenced unit = true ∧
    (demandsFault code = false → ∀ r : Reaction, r = .report ∨ r = .reduced →
      (s.raise code unit r detail).verge.records.head? = some (FaultRec.mk s.now (BitVec.ofNat 16 code)
        (BitVec.ofNat 8 unit) r.code s.devState.code (BitVec.ofNat 32 detail)))

/-- A Sync on the time-source MAC. Within 1 ms of the master the time state follows 02 Table 2.6; outside RUN a
Milestone that is more than 1 ms behind is stepped forward by the offset at once, and one that is more than 1 ms ahead
is never stepped back; FREE is ACQUIRING from then on, and LOCKED and HOLDOVER are HOLDOVER, in which the servo takes
over; in RUN an offset beyond 1 ms leaves the count and the increment and leads to HOLDOVER (R41, R38). A Sync of
another MAC has no effect. Four Sync intervals without a Sync: ACQUIRING falls back to FREE at the nominal increment,
LOCKED to HOLDOVER with the increment it has; FREE and HOLDOVER stay (02 Table 2.6). -/
def Obligations.PtpDisciplinesMilestone : Prop :=
  (∀ (mac : Fin 2) (offset logInterval : Int) (s : State) (r : Rec), s.timeRec = some r →
    (r.u 8 1 ≠ mac → exec (.ptpSyncReceive mac offset logInterval) s = .next s) ∧
    (r.u 8 1 = mac → s.isFenced (0x20 + mac) = false → s.mcRuns = true →
    Goes (exec (.ptpSyncReceive mac offset logInterval) s) fun t =>
      t.time.lastOff = offset ∧ t.time.logSync = logInterval ∧
      (-1000000 ≤ offset → offset ≤ 1000000 → t.time.ms = s.time.ms ∧
        (s.time.disc = .free → t.time.disc = .acquiring) ∧
        (s.time.disc = .acquiring → t.time.disc =
          if -1000 < offset ∧ offset < 1000 ∧ 8 ≤ s.time.good + 1 then .locked else .acquiring) ∧
        (s.time.disc = .locked → t.time.disc = if offset < -10000 ∨ 10000 < offset then .holdover else .locked) ∧
        (s.time.disc = .holdover → t.time.disc =
          if -1000 < offset ∧ offset < 1000 ∧ 8 ≤ s.time.good + 1 then .locked else .holdover) ∧
        (s.time.disc = .holdover → s.time.takeOver = false → t.time.disc = .holdover → t.time.inc = s.time.inc)) ∧
      (offset < -1000000 → s.devState ≠ .run → t.time.ms = s.time.ms + offset.natAbs) ∧
      (1000000 < offset → s.devState ≠ .run → t.time.ms = s.time.ms ∧ t.time.catchUp = true) ∧
      (offset < -1000000 ∨ 1000000 < offset → s.devState ≠ .run →
        (s.time.disc = .free ∨ s.time.disc = .acquiring → t.time.disc = .acquiring) ∧
        (s.time.disc = .locked ∨ s.time.disc = .holdover → t.time.disc = .holdover ∧ t.time.takeOver = true)) ∧
      (offset < -1000000 ∨ 1000000 < offset → s.devState = .run →
        t.time.ms = s.time.ms ∧ t.time.inc = s.time.inc ∧ t.time.disc = .holdover) ∧
      Only [.time, .mc, .pace, .sched, .verge, .ports, .events, .irq, .out] s t)) ∧
  (∀ s : State, s.time.lastSync + 4 * syncInterval s.time.logSync ≤ s.now → Goes (exec .ptpSyncTimeout s) fun t =>
    (s.time.disc = .acquiring → t.time.disc = .free ∧ t.time.inc = 5 * 2 ^ 32) ∧
    (s.time.disc = .locked → t.time.disc = .holdover ∧ t.time.inc = s.time.inc) ∧
    (s.time.disc = .free ∨ s.time.disc = .holdover → t = s) ∧
    t.time.ms = s.time.ms ∧ Only [.time, .events, .irq, .out] s t)

/-- The master port: a Sync each interval, one-step with the Milestone of its timestamp point, else followed by a
Follow_Up that carries it; a Delay_Req is answered with its receive stamp (04 section 4.3.1, R87). Each message
carries the MAC_ADDR of its MAC, and over UDP/IPv4 its IPV4 as source, a one-step Sync with UDP checksum 0 (R83, R87).
PTP_PPS is high from each whole second of Milestone for 1 ms, whatever the discipline state (R88): it rises in the
first millisecond of a second and falls after it. -/
def Obligations.PtpMasterAndPulse : Prop :=
  (∀ (m : Nat) (r e : Rec) (s : State), s.masterMac = some (m, r) → s.recN 0x60 m = some e → s.mcRuns = true →
    let udp := r.u 0xA 1 == 1
    let msg := fun (ty seq stamp : Nat) (oneStep : Bool) => Out.ptp (PtpOut.mk m ty seq stamp ((e.bytes.drop 0x10).take 6)
      udp (if udp then e.u 0xC 4 else 0) (udp && oneStep))
    let q := s.time.masterSeq.toNat
    (s.time.lastMasterSync = none ∨ (∃ u, s.time.lastMasterSync = some u ∧ u + syncInterval (r.i 0xD 1) ≤ s.now) →
      exec .ptpMasterSync s = .next { s with
        time := { s.time with masterSeq := s.time.masterSeq + 1, lastMasterSync := some s.now },
        out := s.out ++ (if (r.u 0xB 1).testBit 0 then [msg 0 q s.now true]
          else [msg 0 q 0 false, msg 8 q s.now false]) }) ∧
    (∀ u, s.time.lastMasterSync = some u → s.now < u + syncInterval (r.i 0xD 1) → exec .ptpMasterSync s = .next s) ∧
    ∀ (mac : Fin 2) (seq : BitVec 16),
      (m = mac → exec (.ptpDelayReqReceive mac seq) s = .next { s with out := s.out ++ [msg 9 seq.toNat s.now false] }) ∧
      (m ≠ mac → exec (.ptpDelayReqReceive mac seq) s = .next s)) ∧
  (∀ s : State,
    (s.time.running = true → s.time.pps = false → s.now % 1000000000 < 1000000 →
      exec .ptpPpsRise s = .next { s with time := { s.time with pps := true }, out := s.out ++ [.pps true] }) ∧
    (s.time.pps = true → 1000000 ≤ s.now % 1000000000 →
      exec .ptpPpsFall s = .next { s with time := { s.time with pps := false }, out := s.out ++ [.pps false] }))


/-! ### Reset, supplies, fences and the PCIe link -/

/-- Right after reset the device is in OFF with its outputs in their reset state, Milestone at 0, no firmware and no
Route Book, nothing in flight, every map in canonical form and no command waiting (05 Table 5.2, 03 Table 3.7, R60).
-/
def Obligations.ResetLeavesOff : Prop :=
  State.reset.devState = .off ∧ State.reset.time.ms = 0 ∧ State.reset.time.running = false ∧
  State.reset.verge.stoA = false ∧ State.reset.verge.stoB = false ∧ State.reset.outputsUp = false ∧
  State.reset.fw.bookAccepted = false ∧ State.reset.fw.version = 0#32 ∧ State.reset.sched.flight = [] ∧
  State.reset.canonical = true ∧ State.reset.pending = []

/-- PORST_N low, and the loss of VCTL or VIO18, reset the whole device: every part is at its reset value but the
rails, host memory with what lies outside the block, and the model's own record; Sward, LPDDR5, the tags and the
picture store hold nothing. Every output that was high falls (R9, R60, R58). PORST_N rising takes OFF to ROM_WAIT with
Milestone starting at 0 when VCTL and VIO18 are in range, whatever the field supplies do (R54, 03 section 3.8), and so
does the restoring of the last rail while PORST_N is high (R60, 05 Table 5.2). -/
def Obligations.WholeDeviceResetAndRelease : Prop :=
  ((∀ s : State, Goes (exec .porstNLow s) fun t => OffFrom s t ∧ t.porst = false ∧ t.lostRails = s.lostRails) ∧
  (∀ (r : Rail) (s : State), r = .vctl ∨ r = .vio18 → r ∉ s.lostRails → s.devState ≠ .off →
    Goes (exec (.supplyLoss r) s) fun t => OffFrom s t ∧ t.porst = s.porst ∧ t.lostRails = s.lostRails ++ [r]) ∧
  ∀ (r : Rail) (s : State), r ∉ s.lostRails → s.devState = .off →
    exec (.supplyLoss r) s = .next { s with lostRails := s.lostRails ++ [r] }) ∧
  ((∀ s : State, s.devState = .off → s.lostRails = [] → exec .porstNRelease s =
    .next (State.enter .romWait 0 { s with porst := true, time := { TimeSt.init with running := true }, mc := McSt.init })) ∧
  (∀ s : State, s.devState = .off → Rail.vctl ∉ s.lostRails → Rail.vio18 ∉ s.lostRails →
    Goes (exec .porstNRelease s) fun t => t.devState = .romWait ∧ t.porst = true ∧ t.lostRails = s.lostRails ∧
      t.time = { TimeSt.init with running := true } ∧
      (Rail.vfield ∈ s.lostRails ∨ Rail.vio33 ∈ s.lostRails → t.outputsUp = false ∧ t.fieldPower = false)) ∧
  (∀ s : State, s.devState ≠ .off ∨ Rail.vctl ∈ s.lostRails ∨ Rail.vio18 ∈ s.lostRails →
    exec .porstNRelease s = .next { s with porst := true }) ∧
  (∀ (r : Rail) (s : State), s.devState = .off → s.porst = true → s.lostRails = [r] → exec (.supplyRestore r) s =
    .next (State.enter .romWait 0 { s with lostRails := [], time := { TimeSt.init with running := true }, mc := McSt.init })) ∧
  (∀ (r : Rail) (s : State), r ∉ s.lostRails → exec (.supplyRestore r) s = .next s) ∧
  ∀ s : State, s.devState ≠ .off → Rail.vcore ∈ s.lostRails → s.isFenced 0x60 = true → s.pace.thermalFence = false →
    exec (.supplyRestore .vcore) s = .next { s with lostRails := s.lostRails.filter (· ≠ .vcore), piReset := true })

/-- The loss of a supply outside OFF: VIO33 and VFIELD stop everything at once and leave every output in its reset
state; VDDQ and VDD2H fence the four LPDDR5 channels, whose content is gone; VPHY_HS takes the link down and fences
the endpoint and both MACs, VPHY_MIPI fences the four receivers (R57, 03 section 3.2, Table 3.4). A word with more
than two stuck bits may read anything (08 R396). -/
def Obligations.SupplyLossFences : Prop :=
  ∀ (r : Rail) (s : State), r ∉ s.lostRails → s.devState ≠ .off → Goes (exec (.supplyLoss r) s) fun t =>
    (r = .vio33 ∨ r = .vfield → t = (State.raise 0x8A07 (railIndex r) .immediate 0
        { s with lostRails := s.lostRails ++ [r] }).outputsDown ∧ t.outputsUp = false ∧ t.verge.stoA = false ∧
      t.verge.stoB = false ∧ t.verge.twin.on = false ∧ t.ports.gpio.drive = 0) ∧
    (r = .vddq ∨ r = .vdd2h → (∀ b, 0x54 ≤ b → b < 0x58 → t.isFenced b = true) ∧
      (s.canonical = true → (∀ w, Map.get 0 s.mem.lpddr.hard w ≤ 2) →
        ∀ a < s.usable, Map.get 0 t.mem.lpddr.cells a = 0) ∧ Only (.lostRails :: fenceParts) s t) ∧
    (r = .vphyHs → t.isFenced 0x50 = true ∧ t.isFenced 0x20 = true ∧ t.isFenced 0x21 = true ∧ t.link.up = false ∧
      Only (.lostRails :: .link :: .fns :: fenceParts) s t) ∧
    (r = .vphyMipi → (∀ b, 0x22 ≤ b → b < 0x26 → t.isFenced b = true) ∧ Only (.lostRails :: fenceParts) s t)

/-- The end of a Perception Island reset: every Sward line and its tag is zeroed before the island leaves FENCED,
pools are unregistered, streams and dictionaries closed; the island and each block of it that is not powered down
leave FENCED, and the device state FENCED becomes RUN (R10, R29, R22). After a thermal fence only a reset that the
host has asked for ends so (R49), and an island fenced at a FAULT waits for START (R108). A word with more than two
stuck bits may read anything (R396). -/
def Obligations.IslandResetZeroesSward : Prop :=
  (∀ s : State, s.canonical = true → s.isFenced 0x60 = true → (s.fenceOf 0x60).poweredDown = false →
    Rail.vcore ∉ s.lostRails → s.piReset = true → s.fw.piHeld = false →
    s.pace.thermalFence = false ∨ s.pace.hostReset = true → Goes (exec (.fenceExit 0x60) s) fun t =>
      ((∀ w, Map.get 0 s.mem.sward.hard w ≤ 2) → ∀ a < swardSize, Map.get 0 t.mem.sward.cells a = 0) ∧
      ((∀ w, Map.get 0 s.mem.tag.hard w ≤ 2) → ∀ l < swardSize / 64, Map.get 0 t.mem.tag.cells l = 0) ∧ t.pools = [] ∧
      t.intake = { streams := [], dicts := [] } ∧ t.piReset = false ∧
      (∀ b, b = 0x60 ∨ b ∈ piBlocks → (s.fenceOf b).poweredDown = false → t.isFenced b = false) ∧
      (∀ b, b ≠ 0x60 → b ∉ piBlocks → t.isFenced b = s.isFenced b) ∧
      t.devState = (if s.devState = .fenced then .run else s.devState) ∧
      Only [.devState, .mem, .free, .counters, .records, .events, .irq, .out, .pools, .intake, .piReset, .pace, .fw,
        .fences, .sched] s t) ∧
  ∀ s : State, s.piReset = false ∨ s.fw.piHeld = true ∨ (s.pace.thermalFence = true ∧ s.pace.hostReset = false) →
    exec (.fenceExit 0x60) s = .next s

/-- A block enters FENCED: its line stands with the next generation, no other line changes, and a waybill that runs on
it completes and leaves the Scoreboard; a block that is FENCED already is left alone (R22 to R24, 01 section 1.6). A
block that has been reinitialised leaves FENCED and FENCE_EXIT carries its generation; when it is the first station of
the ring to do so, the ring's monitor counts from then on (02 Table 2.7). The endpoint waits for LINK_UP, a block
powered down for POWER_UP, a block whose supply is lost for its supply, a block of a fenced Perception Island for the
island (R22, 01 Table 1.8, R29). -/
def Obligations.FencesAbortAndLift : Prop :=
  ((∀ (b c : Nat) (s : State), (s.enterFence b).isFenced c = (c == b || s.isFenced c)) ∧
  (∀ (b : Nat) (s : State), s.isFenced b = true → s.enterFence b = s) ∧
  ∀ (b : Nat) (s : State), s.isFenced b = false →
    ((s.enterFence b).fenceOf b).gen = (s.fenceOf b).gen + 1 ∧
    (∀ w ∈ s.sched.flight, w.engine = some b → ∀ v ∈ (s.enterFence b).sched.flight, v.id ≠ w.id) ∧
    Only fenceParts s (s.enterFence b)) ∧
  ((∀ (b : BitVec 8) (s : State), s.canonical = true → s.isFenced b.toNat = true → b.toNat ≠ 0x50 →
    (s.fenceOf b.toNat).poweredDown = false → (∀ r ∈ railsOf b.toNat, r ∉ s.lostRails) → b.toNat ≠ 0x60 →
    (b.toNat ∈ piBlocks → s.isFenced 0x60 = false) →
    let t := (s.modFence b.toNat fun f => { f with fenced := false }).postFence 0x0005 b.toNat
    t.isFenced b.toNat = false ∧ (∀ c, c ≠ b.toNat → t.isFenced c = s.isFenced c) ∧
    ((∃ e < 19, s.stationFenced e = false) ∨ 19 ≤ b.toNat → exec (.fenceExit b) s = .next t) ∧
    ((∀ e < 19, s.stationFenced e = true) → b.toNat < 19 →
      exec (.fenceExit b) s = .next { t with sched := { t.sched with lastCircuit := s.now } })) ∧
  ∀ (b : BitVec 8) (s : State), s.isFenced b.toNat = false ∨ b.toNat = 0x50 ∨ (s.fenceOf b.toNat).poweredDown = true ∨
    (∃ r ∈ railsOf b.toNat, r ∈ s.lostRails) ∨ (b.toNat ∈ piBlocks ∧ s.isFenced 0x60 = true) →
    exec (.fenceExit b) s = .next s)

/-- The link goes down: every queue with a ring in host memory is HALTED, the events of every function are held, and
the endpoint enters FENCED; a PF FLR also removes PF0's event ring and clears the counters of its contexts, entry to
D3hot sets PowerState. It comes up again: configuration registers are at reset, the endpoint leaves FENCED, and
LINK_UP, held like the events before it, carries width and rate; a function none of whose queues is HALTED holds no
further (R75, 04 Table 4.7, 06 R133, 07 R147; the last is the model's choice, log 43). -/
def Obligations.LinkDownHaltsAndFences : Prop :=
  (∀ (cause : LinkDownCause) (s : State), s.link.up = true →
    Goes (exec (.linkDown cause) s) fun t =>
      t.link.up = false ∧ t.isFenced 0x50 = true ∧ (∀ f < 16, (t.fn f).evHold = true) ∧
      (∀ i ∈ s.queueInfos, hostBase ≤ i.sqBase ∨ hostBase ≤ i.cqBase → (t.queue i.ctx i.queue).halted = true) ∧
      (cause = .pfFlr → (t.fn 0).evSet = false ∧ ∀ c k, k < 32 → s.ctxFn c = some 0 → t.counter c k = 0) ∧
      (cause = .d3hot → (t.fn 0).cfg.d3hot = true) ∧ t.devState = s.devState ∧ t.time = s.time ∧ t.loops = s.loops ∧
      t.ports = s.ports ∧ t.cans = s.cans ∧ t.verge.stop = s.verge.stop) ∧
  ∀ (width rate : BitVec 4) (s : State), s.canonical = true → s.link.up = false → s.devState ≠ .off →
    Rail.vphyHs ∉ s.lostRails → Goes (exec (.linkUp width rate) s) fun t =>
      t.link.up = true ∧ t.isFenced 0x50 = false ∧ t.link.vfEnable = false ∧ t.link.numVfs = 0 ∧
      (∀ f < 16, (t.fn f).msixEnable = false ∧ (t.fn f).bar0 = 0 ∧ (t.fn f).bar2 = 0 ∧ (t.fn f).bar4 = 0 ∧
        (t.fn f).cfg = CfgSt.init ∧
        (t.fn f).evHold = (if ∃ i ∈ s.queueInfos, (s.queue i.ctx i.queue).halted = true ∧ (f = 0 ∨ s.ctxFn i.ctx = some f)
          then (s.fn f).evHold else false)) ∧
      (∃ u : State, t = (u.post 0x0D01 (width.toNat + rate.toNat * 16) none).holdEvents false s.nothingHalted ∧
        ∀ f < 16, (u.fn f).evHold = (s.fn f).evHold) ∧
      Only [.link, .fns, .events, .irq, .fences, .out] s t

/-! ### The host links -/

/-- A host write to BAR0, of at most the 512 bytes that a request carries (04 Table 4.2): outside OFF the bytes of a
write that lie in SP_CMD each take effect as written, wherever the write starts; a write into SP_RSP has none; a write
to a register takes effect only when whole and aligned, shown here by QSPI_STAT, whose bits a 1 clears (R390, 04 Table
4.9). In OFF nothing is taken. -/
def Obligations.RegisterWritesWholeOrNothing : Prop :=
  ∀ (p : Requester) (off : BitVec 16) (data : List Byte) (s : State), data.length ≤ 512 →
    (s.devState = .off → exec (.registerWrite p off data) s = .next s) ∧
    (s.devState ≠ .off → 0x1000 ≤ off.toNat → off.toNat < 0x1100 → data ≠ [] → exec (.registerWrite p off data) s =
      .next (s.modFn (fnOf p) fun x =>
        { x with spCmd := x.spCmd.store (off.toNat - 0x1000) (data.take (0x1100 - off.toNat)) })) ∧
    (s.devState ≠ .off → off.toNat < 0x1000 → 0x1000 < off.toNat + data.length → exec (.registerWrite p off data) s =
      .next (s.modFn (fnOf p) fun x =>
        { x with spCmd := x.spCmd.store 0 ((data.drop (0x1000 - off.toNat)).take 0x100) })) ∧
    (0x1100 ≤ off.toNat → off.toNat < 0x1200 → exec (.registerWrite p off data) s = .next s) ∧
    ((off.toNat < 0x1000 ∧ off.toNat + data.length ≤ 0x1000) ∨ (0x1200 ≤ off.toNat ∧ off.toNat < 0x2000) →
      data.length ≠ 4 ∨ off.toNat % 4 ≠ 0 → exec (.registerWrite p off data) s = .next s) ∧
    (s.devState ≠ .off → fnOf p = 0 → off = 0x200#16 → data.length = 4 → exec (.registerWrite p off data) s =
      .next { s with link := { s.link with qspiStat := s.link.qspiStat &&& ~~~BitVec.ofNat 4 (unle data) } })

/-- A configuration request to a function that exists is answered from ROM_WAIT onward while the link is up, or while
PF0 is in D3hot, which it leaves by such a request (log 42); the identities are those of 04 Table 4.3, a BAR base is
held to its size, and the VFs' BARs lie in PF0 alone. PF0's entry to D3hot takes the link down (04 section 4.1.4). A
function that does not exist gives no answer (R71). Unmasking an MSI-X vector sends what was left pending (04 section
4.1.2, 06 R127). -/
def Obligations.ConfigurationAnswers : Prop :=
  (∀ (fn : Fin 16) (s : State), s.devState ≠ .off → s.link.up = true ∨ (s.fn 0).cfg.d3hot = true → s.fnExists fn = true →
    (∀ r : CfgReg, exec (.configRequest fn (.read r)) s = .next { s with out := s.out ++ [.config (s.configValue fn r)] }) ∧
    (∀ v : BitVec 64, fn = 0 → exec (.configRequest fn (.write .bar4 v)) s =
      .next (s.modFn 0 fun x => { x with bar4 := BitVec.ofNat 64 (v.toNat / 2 ^ 35 * 2 ^ 35) })) ∧
    (∀ v : BitVec 64, fn ≠ 0 → exec (.configRequest fn (.write .bar4 v)) s = .next s) ∧
    (∀ v : BitVec 64, fn = 0 → exec (.configRequest fn (.write .vfBar4 v)) s =
      .next { s with link := { s.link with vfBar4 := BitVec.ofNat 64 (v.toNat / 2 ^ 35 * 2 ^ 35) } }) ∧
    (∀ v : BitVec 64, fn = 0 → v.toNat % 4 = 3 → Goes (exec (.configRequest fn (.write .powerState v)) s) fun t =>
      (t.fn 0).cfg.d3hot = true ∧ t.link.up = false ∧ t.isFenced 0x50 = true) ∧
    (∀ v : BitVec 64, exec (.configRequest fn (.write .vendorId v)) s = .next s)) ∧
  (∀ s : State, s.configValue 0 .vendorId = 0x1E6C ∧ s.configValue 0 .deviceId = 0x0080 ∧
    s.configValue 0 .totalVfs = 15 ∧ s.configValue 0 .classCode = 0x120000) ∧
  (∀ (fn : Fin 16) (req : CfgReq) (s : State), s.devState = .off ∨
      (s.link.up = false ∧ (s.fn 0).cfg.d3hot = false) ∨ s.fnExists fn = false →
    exec (.configRequest fn req) s = .next s) ∧
  ∀ (fn : Fin 16) (v : Fin 1088) (s : State), (s.fn fn).msixEnable = true → (s.fn fn).msixFnMask = false →
    s.link.up = true → Map.get false (s.fn fn).msixPending v = true → (v = 1024 → (s.fn fn).spState = .done) →
    ∃ t : State, exec (.msixUnmask fn (some v)) s = .next t ∧ t.out = s.out ++ [.msix fn v] ∧
      Only [.fns, .events, .out] s t

/-- The reset of a VF: its waybills leave without records, its queues and counters start anew, its registers go to
their reset values; then FLR_DONE names the VF and how many waybills were aborted (R78). -/
def Obligations.VfResetEmptiesItsContexts : Prop :=
  (∀ (vf : Fin 16) (s : State), vf ≠ 0 → s.devState ≠ .off → s.link.up = true → s.fnExists vf = true →
    s.link.flrBusy.get 0 vf = 0 → ∃ u v : State, exec (.vfFlr vf) s = .next u.settleAll ∧
      u = v.modFn vf FnState.afterFlr ∧
      (∀ w ∈ u.sched.flight, s.ctxFn w.ctx ≠ some vf.val) ∧ (∀ e ∈ u.queues, s.ctxFn (e.1 / 4) ≠ some vf.val) ∧
      (∀ e ∈ u.counters, s.ctxFn (e.1 / 32) ≠ some vf.val) ∧
      u.link.flrBusy.get 0 vf ≠ 0 ∧ Only [.fns, .events, .irq, .sched, .queues, .counters, .pools, .intake, .link, .mem,
        .free, .records, .out] s u ∧
      u.mem.sward = s.mem.sward ∧ u.mem.lpddr = s.mem.lpddr) ∧
  ∀ (vf : Fin 16) (s : State), s.link.flrBusy.get 0 vf ≠ 0 → exec (.flrDone vf) s =
    .next (State.post 0x0D02 (vf + min 0xFFFF (s.link.flrBusy.get 0 vf - 1) * 65536) none
      { s with link := { s.link with flrBusy := s.link.flrBusy.set 0 vf 0 } })

/-- MCTP from ROM_WAIT onward: each message of 04 Table 4.6 is answered with what it asks for, telemetry reads 0 until
RUN has been reached, and every other message is dropped silently (R74). The byte layouts of the control messages are
the model's, presumed from MCTP (log 28), and the version numbers are free. -/
def Obligations.MctpAnswers : Prop :=
  ∀ s : State, s.mctpLive = true →
    (∀ op eid : Byte, op.toNat ≤ 1 → eid ≠ 0 → eid ≠ 0xFF → exec (.setEndpointId op eid) s =
      .next { s with link := { s.link with eid := eid }, out := s.out ++ [.mctp 0 1 [0, 0, eid, 0]] }) ∧
    exec .getEndpointId s = .next { s with out := s.out ++ [.mctp 0 2 [0, s.link.eid, 0, 0]] } ∧
    (∀ ty : Byte, ty = 0 ∨ ty = 0x7E ∨ ty = 0xFF → ∃ v : Nat, exec (.getMctpVersionSupport ty) s =
      .next { s with free := s.free + 1, out := s.out ++ [.mctp 0 4 ([0, 1] ++ le 4 v)] }) ∧
    exec .getMessageTypeSupport s = .next { s with out := s.out ++ [.mctp 0 5 [0, 2, 0x00, 0x7E]] } ∧
    (s.reachedRun = true → exec .getHealth s = .next { s with out := s.out ++ [.mctp 0x7E 1 (le 1 s.devState.code
      ++ le 2 (unsigned 16 s.pace.tjHalf) ++ le 2 s.pace.vcore ++ le 1 s.time.disc.code)] }) ∧
    (s.reachedRun = false → exec .getHealth s = .next { s with out := s.out ++ [.mctp 0x7E 1 [0, 0, 0, 0, 0, 0]] }) ∧
    (s.reachedRun = true → exec .getEcc s = .next { s with out := s.out ++ [.mctp 0x7E 2 (le 8 s.mem.swCorr
      ++ le 8 s.mem.swUe ++ le 8 s.mem.lpCorr ++ le 8 s.mem.lpUe)] }) ∧
    (s.reachedRun = true → exec .getFaults s = .next { s with out := s.out ++ [.mctp 0x7E 3 s.faultRing] }) ∧
    ∀ ty : Byte, exec (.mctpOtherMessage ty) s = .next s

/-- A write of bytes into a memory with check bits as one access changes exactly those bytes, and a read gives the
bytes that are held; while no granule is pending and no word has two stuck bits or more, whose data may be a free
value (R160, R164, R396, 08 section 8.6). -/
def Obligations.MemoryWriteStoresItsBytes : Prop :=
  ∀ (m : Mem) (who : Option Nat) (poison : Bool) (a : Nat) (bs : List Byte) (s : State),
    s.mem.canonical = true → s.mem.pendGran = [] → (∀ w, Map.get 0 (s.space m).hard w ≤ 1) →
    (∀ j, Map.get 0 ((s.writeMem m who poison a bs).2.space m).cells j =
      if a ≤ j ∧ j < a + bs.length then bs.getD (j - a) 0 else Map.get 0 (s.space m).cells j) ∧
    (∀ n, (s.readMem m who a n).1 = (s.space m).cells.bytes a n ∧
      ((s.readMem m who a n).2.2.space m).cells = (s.space m).cells) ∧
    (s.writeMem m who poison a bs).2.mem.host = s.mem.host ∧ Only memParts s (s.writeMem m who poison a bs).2

/-- BAR4: each byte of a write that lies in the caller's reach, on a channel that is not FENCED, is stored and no
other byte changes; a write within one line is one access (08 R167, R168). A read gives the bytes in reach and zeros
elsewhere, marked EP exactly when a byte in reach lies in a word that is poisoned or uncorrectable, and leaves the
bytes as they are (04 R72, 00 R390, 08 R168, R172); while no granule is pending and no word has two stuck bits (08
R160, R396). What a FENCED channel takes and gives is the model's choice (log 44). -/
def Obligations.Bar4ReachesOwnShares : Prop :=
  ∀ (fn : Fin 16) (off : BitVec 64) (s : State),
    (s.link.up = false ∨ s.fnExists fn = false → ∀ data len,
      exec (.bar4Write fn off data) s = .next s ∧ exec (.bar4Read fn off len) s = .next s) ∧
    (s.canonical = true → s.link.up = true → s.fnExists fn = true → s.mem.pendGran = [] →
      (∀ w, Map.get 0 s.mem.lpddr.hard w ≤ 1) →
      (∀ data : List Byte, Goes (exec (.bar4Write fn off data) s) fun t =>
        (∀ a, Map.get 0 t.mem.lpddr.cells a =
          if off.toNat ≤ a ∧ a < off.toNat + data.length ∧ s.reaches fn a = true ∧ s.lpShut a = false
          then data.getD (a - off.toNat) 0 else Map.get 0 s.mem.lpddr.cells a) ∧
        ((∀ i < data.length, s.reaches fn (off.toNat + i) = false) → t = s) ∧
        (data ≠ [] → off.toNat % 64 + data.length ≤ 64 → s.lpShut off.toNat = false →
          (∀ i < data.length, s.reaches fn (off.toNat + i) = true) → t = s.hostWriteLp off.toNat data) ∧
        Only (.pools :: memParts) s t) ∧
      ∀ len : Nat, (∀ i < len, s.reaches fn (off.toNat + i) = true → s.lpShut (off.toNat + i) = false) →
        Goes (exec (.bar4Read fn off len) s) fun t =>
          (∃ bs ep, t.out.getLast? = some (.read bs ep) ∧ bs.length = len ∧
            (∀ i < len, bs.getD i 0 = if s.reaches fn (off.toNat + i) = true
              then Map.get 0 s.mem.lpddr.cells (off.toNat + i) else 0) ∧
            (ep = true ↔ ∃ i < len, s.reaches fn (off.toNat + i) = true ∧
              (s.mem.lpddr.marks.get Ecc.clean ((off.toNat + i) / 8) = .ue ∨
                s.mem.lpddr.marks.get Ecc.clean ((off.toNat + i) / 8) = .poison))) ∧
          t.mem.lpddr.cells = s.mem.lpddr.cells ∧ Only memParts s t)

/-- QSPI frames, outside OFF. A frame cut short has no effect. A WRITE takes effect only when both CRCs check, a READ
when its HCRC does: else STAT 0x01 and CRC_SEEN; reserved LEN bits then give STAT 0x04, a place that is none STAT
0x03, a FENCED LPDDR5 channel STAT 0x02. A WRITE of n words to BAR0 writes them in ascending order, STAT 0x05 when it
rings a Signpost that PCIe owns; one to the LPDDR5 window stores their bytes, each word an access of its own. A READ
answers with the words it reads, zeros for LPDDR5 words that are poisoned or uncorrectable, their CRC and STAT 0x00; a
STATUS with QSPI_STAT (R79, R81, 04 Tables 4.8 to 4.10, 08 R168, R172). The clauses on the LPDDR5 window hold while no
granule is pending and no word has two stuck bits (08 R160, R396). -/
def Obligations.QspiFramesCheckCrc : Prop :=
  (∀ s : State, s.devState = .off → ∀ (frame : List Byte) (op : Byte),
    exec (.qspiWrite frame) s = .next s ∧ exec (.qspiRead frame) s = .next s ∧ exec (.qspiStatus op) s = .next s) ∧
  ∀ s : State, s.devState ≠ .off →
    (∀ (frame : List Byte) (n : Nat), n = byteAt frame 4 + 1 →
      (frame.length < 10 + 4 * n → exec (.qspiWrite frame) s = .next s) ∧
      (10 + 4 * n ≤ frame.length → (qspiHeader 0x02#8 frame).2.2.2 = false ∨
          crc16 ((frame.drop 8).take (4 * n)) ≠ fieldAt frame (8 + 4 * n) 2 →
        exec (.qspiWrite frame) s = .next { s with
          link := { s.link with qspiStat := s.link.qspiStat ||| 8#4 }, out := s.out ++ [.qspiStat 1#8] }) ∧
      (10 + 4 * n ≤ frame.length → (qspiHeader 0x02#8 frame).2.2.2 = true →
          crc16 ((frame.drop 8).take (4 * n)) = fieldAt frame (8 + 4 * n) 2 →
        (byteAt frame 5 ≠ 0 → exec (.qspiWrite frame) s = .next { s with out := s.out ++ [.qspiStat 4#8] }) ∧
        (byteAt frame 5 = 0 → s.qspiPlace (fieldAt frame 0 4) (4 * n) = .nowhere →
          exec (.qspiWrite frame) s = .next { s with out := s.out ++ [.qspiStat 3#8] }) ∧
        (∀ o, byteAt frame 5 = 0 → s.qspiPlace (fieldAt frame 0 4) (4 * n) = .bar0 o →
          ∃ u : State, u = (List.range n).foldl
              (fun (v : State) k => v.writeBar0 .qspi (o + 4 * k) ((frame.drop (8 + 4 * k)).take 4)) s ∧
            exec (.qspiWrite frame) s = .next { u with pending := s.pending, out := u.out ++ [.qspiStat
              (if o ≤ 0x1200 ∧ 0x1200 < o + 4 * n ∧ (byteAt frame (8 + (0x1200 - o))).testBit 0 = true ∧
                s.link.hostPort = some .pcie then 5#8 else 0#8)] }) ∧
        (∀ a, byteAt frame 5 = 0 → s.qspiPlace (fieldAt frame 0 4) (4 * n) = .lpddr a →
          (s.lpFenced a (4 * n) = true → exec (.qspiWrite frame) s = .next { s with out := s.out ++ [.qspiStat 2#8] }) ∧
          (s.lpFenced a (4 * n) = false → s.canonical = true → s.mem.pendGran = [] →
              (∀ w, Map.get 0 s.mem.lpddr.hard w ≤ 1) → Goes (exec (.qspiWrite frame) s) fun t =>
            (∀ j, Map.get 0 t.mem.lpddr.cells j = if a ≤ j ∧ j < a + 4 * n then frame.getD (8 + (j - a)) 0
              else Map.get 0 s.mem.lpddr.cells j) ∧
            (n = 1 → t = (s.hostWriteLp a ((frame.drop 8).take 4)).emit (.qspiStat 0#8)) ∧
            t.out.getLast? = some (.qspiStat 0#8) ∧ Only (.pools :: memParts) s t)))) ∧
    (∀ (frame : List Byte) (n : Nat), n = byteAt frame 4 + 1 →
      (frame.length < 8 → exec (.qspiRead frame) s = .next s) ∧
      (8 ≤ frame.length → (qspiHeader 0x0B#8 frame).2.2.2 = false → exec (.qspiRead frame) s = .next { s with
        link := { s.link with qspiStat := s.link.qspiStat ||| 8#4 }, out := s.out ++ [.qspiStat 1#8] }) ∧
      (8 ≤ frame.length → (qspiHeader 0x0B#8 frame).2.2.2 = true →
        (byteAt frame 5 ≠ 0 → exec (.qspiRead frame) s = .next { s with out := s.out ++ [.qspiStat 4#8] }) ∧
        (byteAt frame 5 = 0 → s.qspiPlace (fieldAt frame 0 4) (4 * n) = .nowhere →
          exec (.qspiRead frame) s = .next { s with out := s.out ++ [.qspiStat 3#8] }) ∧
        (∀ o, byteAt frame 5 = 0 → s.qspiPlace (fieldAt frame 0 4) (4 * n) = .bar0 o →
          ∃ x : List Byte × State, x = (List.range n).foldl (fun (y : List Byte × State) k =>
              (y.1 ++ le 4 (y.2.readReg .qspi (o + 4 * k)).1, (y.2.readReg .qspi (o + 4 * k)).2)) ([], s) ∧
            exec (.qspiRead frame) s = .next { x.2 with
              out := x.2.out ++ [.read (x.1 ++ le 2 (crc16 x.1)) false, .qspiStat 0#8] }) ∧
        (∀ a, byteAt frame 5 = 0 → s.qspiPlace (fieldAt frame 0 4) (4 * n) = .lpddr a →
          (s.lpFenced a (4 * n) = true → exec (.qspiRead frame) s = .next { s with out := s.out ++ [.qspiStat 2#8] }) ∧
          (s.lpFenced a (4 * n) = false → s.canonical = true → s.mem.pendGran = [] →
              (∀ w, Map.get 0 s.mem.lpddr.hard w ≤ 1) → Goes (exec (.qspiRead frame) s) fun t =>
            (∃ (l : List Out) (bs : List Byte), bs.length = 4 * n ∧
              t.out = l ++ [.read (bs ++ le 2 (crc16 bs)) false, .qspiStat 0#8] ∧
              ∀ i < 4 * n, bs.getD i 0 = match s.mem.lpddr.marks.get Ecc.clean ((a + i) / 8) with
                | .ue | .poison => 0
                | _ => Map.get 0 s.mem.lpddr.cells (a + i)) ∧
            t.mem.lpddr.cells = s.mem.lpddr.cells ∧ Only memParts s t)))) ∧
    exec (.qspiStatus 0x05#8) s = .next { s with
      out := s.out ++ [.read [s.link.qspiStat.setWidth 8] false, .qspiStat 0#8] } ∧
    (∀ op : Byte, op ≠ 0x02#8 → op ≠ 0x0B#8 → op ≠ 0x05#8 →
      exec (.qspiStatus op) s = .next { s with out := s.out ++ [.qspiStat 4#8] }) ∧
    ∀ op : Byte, op = 0x02#8 ∨ op = 0x0B#8 → exec (.qspiStatus op) s = .next s

/-- A MAC without a record, or FENCED, takes nothing. A working MAC passes PTP on, over Ethernet and over UDP/IPv4,
and the UDP/IPv4 frames of its RTP records that are sent to its station address or to the group address of such a
record; it drops and counts every other frame (R83 to R85). An RTP packet that no open stream takes is dropped and
counted, as is every one while the IE is FENCED; one that ends its unit in order hands the unit on, unpacked, with the
stamp of its first packet, and a payload of another packetisation mode leaves the unit incomplete (R84 to R86, log
39). -/
def Obligations.EthernetDropsAllElse : Prop :=
  ∀ (mac : Fin 2) (s : State),
    (s.macLive mac = false → (∀ f, exec (.ethFrameReceive mac f) s = .next s) ∧
      ∀ pkt, exec (.rtpPacketReceive mac pkt) s = .next s) ∧
    (s.macLive mac = true →
      (∀ f : EthFrame, f.etherType ≠ 0x88F7#16 → f.udp4 = false ∨ (f.dstPort ≠ 319#16 ∧ f.dstPort ≠ 320#16 ∧
          (s.macAccepts mac f.dstMac.toNat = false ∨
            ∀ r ∈ s.recs 0x61, r.u 8 1 ≠ mac ∨ r.u 0xC 4 ≠ f.dstIp.toNat ∨ r.u 0xA 2 ≠ f.dstPort.toNat)) →
        exec (.ethFrameReceive mac f) s = .next { s with
          link := { s.link with macDropped := s.link.macDropped.set 0 mac (s.link.macDropped.get 0 mac + 1) } }) ∧
      (∀ f : EthFrame, f.etherType = 0x88F7#16 ∨ (f.udp4 = true ∧ (f.dstPort = 319#16 ∨ f.dstPort = 320#16)) ∨
          (f.udp4 = true ∧ s.macAccepts mac f.dstMac.toNat = true ∧
            ∃ r ∈ s.recs 0x61, r.u 8 1 = mac ∧ r.u 0xC 4 = f.dstIp.toNat ∧ r.u 0xA 2 = f.dstPort.toNat) →
        exec (.ethFrameReceive mac f) s = .next s) ∧
      (∀ pkt : RtpPacket, s.macAccepts mac pkt.dstMac.toNat = false ∨ (s.rtpMatch mac pkt).bind s.rtpStream = none ∨
          s.stationFenced 18 = true → exec (.rtpPacketReceive mac pkt) s = .next { s with
        link := { s.link with macDropped := s.link.macDropped.set 0 mac (s.link.macDropped.get 0 mac + 1) } }) ∧
      ∀ (pkt : RtpPacket) (key : Nat) (x : Stream), s.macAccepts mac pkt.dstMac.toNat = true →
        (s.rtpMatch mac pkt).bind s.rtpStream = some (key, x) → s.stationFenced 18 = false →
        x.rtpNext = some pkt.seq.toNat → x.rtpBuf = [] → x.rtpStamp = none → x.rtpLost = false → x.openUnit = [] →
        pkt.lastOfUnit = true → Goes (exec (.rtpPacketReceive mac pkt) s) fun t =>
          (∃ y, t.intake.streams = s.intake.streams.set none key (some y) ∧ y.openUnit = [] ∧
            y.rtpNext = some ((pkt.seq.toNat + 1) % 65536) ∧
            (∀ data, x.payloadBytes pkt.payload = some data → x.buffered + data.length ≤ x.capacity →
              data.length ≤ x.unitLimit → y.units = x.units ++ [(data, s.time.ms, false)]) ∧
            (x.payloadBytes pkt.payload = none → y.units = x.units ++ [([], s.time.ms, true)])) ∧
          Only [.intake] s t)

/-! ### The Signpost -/

/-- Each Signpost command, issued where its requester may ring, is taken and served: SP_CMD is copied at the doorbell,
the TAG taken, and the answer is that of the copied request (R109, R110, 06 Table 6.7). A BLOCK_CONTROL row fixes its
ACTION. -/
def Obligations.SignpostTakesRequest : Prop :=
  ∀ (p : Requester) (r : SpReq) (s : State), r.wellFormed = true → MayRing p s →
    ∀ (c : Instr) (op : Nat) (q : SpReq), (c, op, q) ∈ [(Instr.fwLoad p r, 0x0002, r), (.fwCommit p r, 0x0003, r),
      (.getInfo p r, 0x0001, r), (.selftestReport p r, 0x0004, r), (.routeCommit p r, 0x0005, r),
      (.routeReport p r, 0x0006, r), (.setMilestone p r, 0x0007, r), (.start p r, 0x0008, r), (.clearFault p r, 0x0009, r),
      (.resetDevice p r, 0x000A, r), (.paceSet p r, 0x0101, r), (.piReset p r, 0x0102, r),
      (.blockReset p r, 0x0103, withAction 0 r), (.blockPowerDown p r, 0x0103, withAction 1 r),
      (.blockPowerUp p r, 0x0103, withAction 2 r), (.blockReload p r, 0x0103, withAction 3 r),
      (.eventRingSet p r, 0x0104, r), (.timeStatus p r, 0x0105, r), (.faultRead p r, 0x0106, r),
      (.queueState p r, 0x0201, r), (.queueRestart p r, 0x0202, r), (.contextInfo p r, 0x0203, r),
      (.countersRead p r, 0x0204, r), (.eccCounters p r, 0x0301, r), (.loopMode p r, 0x0901, r),
      (.loopTableWrite p r, 0x0902, r), (.loopStatus p r, 0x0903, r), (.twinRearm p r, 0x0A01, r),
      (.annClear p r, 0x0C01, r), (.spurSearch p r, 0x0C02, r), (.spurRead p r, 0x0C03, r)] →
      exec c s = .next { (s.taken p op q).serve (fnOf p) (requestBytes op q) with pending := s.pending }

/-- The checks 1 to 7 of 06 Table 6.9 come in order, and the first that fails answers with its status; a request
refused by them has no other effect (R115). An answer: the response with status, TAG, DETAIL and length stands in
SP_RSP, STATUS is set and STATE is DONE; a refusal carries no payload; vector 1,024 is signalled, and on the QSPI host
port QSPI_STAT bit 0 is set (R111, 06 Tables 6.4, 6.6, 6.7). -/
def Obligations.SignpostJudgesAndAnswers : Prop :=
  (∀ (f : Nat) (b : List Byte) (s : State),
    (commandRow (fieldAt b 0 2) = none → s.requestStatus f b = 0x2001) ∧
    (∀ k, commandRow (fieldAt b 0 2) = some k →
      (k.lenOk b (fieldAt b 4 2) = false → s.requestStatus f b = 0x2003) ∧
      (k.lenOk b (fieldAt b 4 2) = true →
        ((byteAt b 3 ≠ 0 ∨ ∃ x ∈ k.reserved, byteAt b x.1 &&& x.2 ≠ 0) → s.requestStatus f b = 0x2004) ∧
        (byteAt b 3 = 0 → (∀ x ∈ k.reserved, byteAt b x.1 &&& x.2 = 0) →
          (f ≠ 0 → k.vf = false → s.requestStatus f b = 0x2002) ∧
          (f ≠ 0 → k.vf = true → s.reachedRun = false → s.requestStatus f b = 0x2007) ∧
          ((f = 0 ∨ (k.vf = true ∧ s.reachedRun = true)) → k.states s.devState = false → s.requestStatus f b = 0x2011) ∧
          ((f = 0 ∨ (k.vf = true ∧ s.reachedRun = true)) → k.states s.devState = true → k.ofCtx = false →
            s.requestStatus f b = if fieldAt b 6 2 = 0xFFFF then 0 else 0x2005) ∧
          ((f = 0 ∨ (k.vf = true ∧ s.reachedRun = true)) → k.states s.devState = true → k.ofCtx = true →
            s.requestStatus f b = if s.ownsCtx f (fieldAt b 6 2) then 0 else 0x2005)))) ∧
    (s.requestStatus f b ≠ 0 → s.serve f b = s.respond f (fieldAt b 0 2) (s.requestStatus f b) 0 [])) ∧
  (∀ (f op status detail : Nat) (payload : List Byte) (s : State), status < 65536 → op < 65536 → payload.length ≤ 248 →
    (let t := s.respond f op status detail payload
     let body := if status < 0x2000 then payload else []
     (t.fn f).spState = .done ∧ (t.fn f).spStatus = BitVec.ofNat 16 status ∧
     (t.fn f).spRsp.bytes 0 (8 + body.length) =
       le 2 status ++ [(s.fn f).spTag, BitVec.ofNat 8 detail] ++ le 2 body.length ++ le 2 op ++ body ∧
     (f = 0 → s.link.hostPort = some .qspi → t.link.qspiStat = s.link.qspiStat ||| 1#4) ∧
     Only [.fns, .events, .irq, .out] s t) ∧
    ((s.fn f).msixEnable = true → (s.fn f).msixFnMask = false → Map.get false (s.fn f).msixOpen 1024 = true →
      s.link.up = true → (s.respond f op status detail payload).out = s.out ++ [.msix f 1024]))

/-- The commands that only report: each answers 0x0000 with the payload of 06 Table 6.10 and changes nothing but its
own Signpost (R117, R123). LOOP_STATUS reports the output clamped to its loop's OUT_REDUCED while REDUCED is in force
(16 R333), and with CLEAR also clears WRAP. While the self-test runs, how far it has come is a free value (log 2). A
queue that the book does not give the context, and a LOOP above 31, are refused with 0x2006 (06 Tables 6.9, 6.10). -/
def Obligations.ReportCommandsAnswer : Prop :=
  ∀ (p : Requester) (r : SpReq) (s : State),
    (Accepted p 0x0001 r s → exec (.getInfo p r) s = .next ((s.taken p 0x0001 r).respond (fnOf p) 0x0001 0 0
      (le 4 s.fw.version.toNat ++ le 2 s.fw.rbFormat.toNat ++ le 1 0x10 ++ le 1 (fnOf p) ++ le 1 s.devState.code
        ++ le 1 (b2n s.fw.testPassed + 2 * b2n s.fw.bookAccepted
            + 4 * b2n ((s.taken p 0x0001 r).link.hostPort == some .qspi))
        ++ le 1 s.mem.fittedGiB ++ le 5 0 ++ le 8 s.fw.bookId.toNat ++ ((List.range 32).map fun k => le 1
            (((List.range 8).map fun j => b2n (s.ownsCtx (fnOf p) (8 * k + j)) * 2 ^ j).sum)).flatten))) ∧
    (Accepted p 0x0004 r s → s.devState ≠ .selftest → exec (.selftestReport p r) s =
      .next ((s.taken p 0x0004 r).respond 0 0x0004 0 0
        ((s.fw.testResult.map fun x => le 1 x).flatten ++ le 2 s.fw.testStatus.toNat ++ le 6 0))) ∧
    (Accepted p 0x0004 r s → s.devState = .selftest → ∃ k, 1 ≤ k ∧ k ≤ 8 ∧ exec (.selftestReport p r) s =
      .next (State.respond 0 0x0004 0 0 (((List.range 8).map fun j => if j + 1 < k then 1 else if j + 1 = k then 3 else 0)
        ++ le 8 0) { s.taken p 0x0004 r with free := s.free + 1 })) ∧
    (Accepted p 0x0006 r s → exec (.routeReport p r) s = .next ((s.taken p 0x0006 r).respond 0 0x0006 0 0
      (reportBytes s.fw.report ++ le 8 s.fw.bookId.toNat))) ∧
    (Accepted p 0x0105 r s → exec (.timeStatus p r) s = .next ((s.taken p 0x0105 r).respond (fnOf p) 0x0105 0 0
      (le 8 s.time.ms ++ le 1 s.time.disc.code ++ le 3 0 ++ le 4 s.time.inc ++ le 8 (unsigned 64 s.time.lastOff)))) ∧
    (Accepted p 0x0106 r s → exec (.faultRead p r) s = .next ((s.taken p 0x0106 r).respond 0 0x0106 0 0
      ((fit 8 FaultRec.init s.verge.records).flatMap faultBytes))) ∧
    (Accepted p 0x0301 r s → exec (.eccCounters p r) s = .next ((s.taken p 0x0301 r).respond 0 0x0301 0 0
      (le 8 s.mem.swCorr ++ le 8 s.mem.swUe ++ le 8 s.mem.lpCorr ++ le 8 s.mem.lpUe ++ le 8 s.mem.passes))) ∧
    (∀ i, Accepted p 0x0201 r s → s.queueInfo r.ctx.toNat (byteAt r.payload 0) = some i →
      exec (.queueState p r) s = .next ((s.taken p 0x0201 r).respond (fnOf p) 0x0201 0 0
        (le 1 (b2n (s.queue i.ctx i.queue).halted) ++ le 1 0 ++ le 2 i.depth ++ le 2 (s.queue i.ctx i.queue).fetched.toNat
          ++ le 2 (s.queue i.ctx i.queue).sqTail.toNat
          ++ le 2 (s.sched.flight.countP fun w => w.ctx == i.ctx && w.queue == i.queue)
          ++ le 2 (s.queue i.ctx i.queue).held.length ++ le 4 0))) ∧
    (Accepted p 0x0201 r s → s.queueInfo r.ctx.toNat (byteAt r.payload 0) = none → exec (.queueState p r) s =
      .next ((s.taken p 0x0201 r).respond (fnOf p) 0x0201 0x2006 8 [])) ∧
    (∀ c, Accepted p 0x0203 r s → s.ctx r.ctx.toNat = some c → exec (.contextInfo p r) s =
      .next ((s.taken p 0x0203 r).respond (fnOf p) 0x0203 0 0 (le 4 c.swBase ++ le 4 c.swSize ++ le 8 c.lpBase
        ++ le 8 c.lpSize ++ le 2 c.weight ++ le 2 c.group ++ le 1 (b2n c.isChecked) ++ le 1 c.fn ++ le 2 0))) ∧
    (Accepted p 0x0204 r s → exec (.countersRead p r) s = .next ((s.taken p 0x0204 r).respond (fnOf p) 0x0204 0 0
      ((List.range 30).map fun i => le 8 (s.counter r.ctx.toNat i)).flatten)) ∧
    (Accepted p 0x0903 r s → byteAt r.payload 0 ≤ 31 → exec (.loopStatus p r) s = .next (State.respond 0 0x0903 0 0
      (le 1 (b2n (s.loop (byteAt r.payload 0)).manual)
        ++ le 1 (b2n (s.loop (byteAt r.payload 0)).wrap + 2 * b2n (s.loop (byteAt r.payload 0)).lastLate
          + 4 * b2n ((s.loop (byteAt r.payload 0)).reads.any fun e => e.2.stale)
          + 8 * b2n (s.loop (byteAt r.payload 0)).commitTbl.isSome)
        ++ le 2 0 ++ le 4 (s.loop (byteAt r.payload 0)).wrapCount ++ le 4 (s.loop (byteAt r.payload 0)).lateCount
        ++ le 4 (unsigned 24 (s.output (byteAt r.payload 0))) ++ le 8 (s.loop (byteAt r.payload 0)).lastSample)
      (if (byteAt r.payload 1).testBit 0 then
        (s.taken p 0x0903 r).modLoop (byteAt r.payload 0) fun y => { y with wrap := false }
       else s.taken p 0x0903 r))) ∧
    (∀ l, s.output l = (if s.verge.reduced = true then
        clampTo (-(s.recField 0xA0 (0x14 + 8 * l) 4 % 2 ^ 23 : Int)) (s.recField 0xA0 (0x14 + 8 * l) 4 % 2 ^ 23 : Int) (s.loop l).out
      else (s.loop l).out)) ∧
    (Accepted p 0x0903 r s → 31 < byteAt r.payload 0 → exec (.loopStatus p r) s =
      .next ((s.taken p 0x0903 r).respond 0 0x0903 0x2006 8 [])) ∧
    (Accepted p 0x0C03 r s → exec (.spurRead p r) s = .next ((s.taken p 0x0C03 r).respond 0 0x0C03 0 0
      (le 1 s.ports.spur.ids.length ++ le 1 (b2n s.ports.spur.changed + 2 * b2n s.ports.spur.running) ++ le 6 0
        ++ s.ports.spur.ids.flatMap fun i => le 8 i.toNat)))

/-- Loading firmware and a Route Book: FW_LOAD stores its bytes in the staging store and FW_COMMIT enters FW_VERIFY
with its answer owed; ROUTE_COMMIT copies the named bytes, drops any earlier book and enters VALIDATE (R93, R101,
R118). SET_MILESTONE moves the count forward and refuses a lower value (R92, R38). -/
def Obligations.LoadingCommandsStage : Prop :=
  ∀ (p : Requester) (r : SpReq) (s : State),
    (Accepted p 0x0002 r s → fieldAt r.payload 0 4 % 4 = 0 → fieldAt r.payload 0 4 + (r.len.toNat - 8) ≤ 1573472 →
      Goes (exec (.fwLoad p r) s) fun t =>
        t.fw.stage = s.fw.stage.store (fieldAt r.payload 0 4) ((fit 248 0 r.payload).drop 8 |>.take (r.len.toNat - 8)) ∧
        t.devState = s.devState ∧ (t.fn 0).spState = .done ∧ (t.fn 0).spStatus = 0#16 ∧
        Only [.fns, .link, .irq, .events, .out, .fw] s t) ∧
    (Accepted p 0x0003 r s → Goes (exec (.fwCommit p r) s) fun t =>
      t.devState = .fwVerify ∧ t.fw = { s.fw with commitLen := fieldAt r.payload 0 4 } ∧ (t.fn 0).spState = .busy ∧
      (t.fn 0).spOwed = some 0x0003#16 ∧ Only [.devState, .fns, .link, .irq, .events, .out, .fw] s t) ∧
    (Accepted p 0x0005 r s → fieldAt r.payload 0 8 % 8 = 0 → fieldAt r.payload 8 4 % 8 = 0 → 72 ≤ fieldAt r.payload 8 4 →
      fieldAt r.payload 8 4 ≤ 4194304 → fieldAt r.payload 0 8 + fieldAt r.payload 8 4 ≤ s.usable →
      Goes (exec (.routeCommit p r) s) fun t =>
        t.devState = .validate ∧ t.fw.bookRaw = ((s.taken p 0x0005 r).copyBook (fieldAt r.payload 0 8) (fieldAt r.payload 8 4)).1 ∧
        t.fw.bookLen = fieldAt r.payload 8 4 ∧ t.fw.bookCommitted = true ∧ t.fw.bookAccepted = false ∧ t.fw.book = [] ∧
        (t.fn 0).spState = .done ∧ (t.fn 0).spStatus = 0#16 ∧
        Only (.devState :: .fns :: .link :: .fw :: memParts) s t) ∧
    (Accepted p 0x0007 r s → s.time.ms ≤ fieldAt r.payload 0 8 → Goes (exec (.setMilestone p r) s) fun t =>
      t.time.ms = fieldAt r.payload 0 8 ∧ t.time.inc = s.time.inc ∧ t.time.disc = s.time.disc ∧
      (t.fn 0).spState = .done ∧ (t.fn 0).spStatus = 0#16 ∧
      Only [.time, .mc, .pace, .sched, .verge, .ports, .fns, .link, .irq, .events, .out] s t) ∧
    (Accepted p 0x0007 r s → fieldAt r.payload 0 8 < s.time.ms → exec (.setMilestone p r) s =
      .next ((s.taken p 0x0007 r).respond 0 0x0007 0x2016 0 []))

/-- START: in HELD with self-test passed and the book accepted it enters RUN, or FENCED while the Perception Island is
fenced, with every queue and counter gone and the Scoreboard empty but for what still runs, which gets its record when
it ends (09 R197); the outputs come up when the field supplies are in range (03 R58, R64). In AWAIT_ROUTE it leads to
HELD with 0x2109; the other refusals of R106 come in their order (R106 to R108). -/
def Obligations.StartEntersRun : Prop :=
  ∀ (p : Requester) (r : SpReq) (s : State), s.canonical = true → Accepted p 0x0008 r s →
    (s.devState = .held → s.fw.testPassed = true → s.fw.bookCommitted = true → s.fw.bookAccepted = true →
      Goes (exec (.start p r) s) fun t =>
        t.devState = (if s.isFenced 0x60 then .fenced else .run) ∧ t.reachedRun = true ∧ t.queues = [] ∧
        t.sched.flight = s.sched.flight.filter (·.running) ∧ t.counters = [] ∧ t.pools = [] ∧
        t.intake = { streams := [], dicts := [] } ∧ t.outputsUp = s.fieldPower ∧ t.fw.piHeld = false ∧
        (∀ k < 64, ∀ h, h = (t.waymarks.get WmSlot.init k).half0 ∨ h = (t.waymarks.get WmSlot.init k).half1 →
          h.seq = 0 ∧ h.writer = 0 ∧ h.length = 0 ∧ h.stamp = 0) ∧
        (t.fn 0).spState = .done ∧ (t.fn 0).spStatus = 0#16 ∧ t.fw.book = s.fw.book ∧ t.time.ms = s.time.ms) ∧
    (s.devState = .awaitRoute → Goes (exec (.start p r) s) fun t =>
      t.devState = .held ∧ t.fw.report = { Report.init with status := 0x2109#16 } ∧ (t.fn 0).spState = .done ∧
      (t.fn 0).spStatus = 0x2109#16 ∧ Only [.devState, .fw, .fns, .link, .irq, .events, .out] s t) ∧
    (s.devState = .held → s.fw.testPassed = false → exec (.start p r) s =
      .next ((s.taken p 0x0008 r).respond 0 0x0008 0x2018 0 [])) ∧
    (s.devState = .held → s.fw.testPassed = true → s.fw.bookCommitted = false → exec (.start p r) s =
      .next ((s.taken p 0x0008 r).respond 0 0x0008 0x2109 0 [])) ∧
    (s.devState = .held → s.fw.testPassed = true → s.fw.bookCommitted = true → s.fw.bookAccepted = false →
      exec (.start p r) s = .next ((s.taken p 0x0008 r).respond 0 0x0008 0x210A 0 []))

/-- CLEAR_FAULT is refused for a lockstep miscompare, an oscillator fault or a Verge fault, and while a cause that the
state shows persists (a lost MC or supply, LATE samples, a stale STOP read, a Twin mismatch; log 34); else the retest
starts with its answer owed and STO low, and the events that it causes wait for that answer (R108, R126). RESET_DEVICE
answers and leaves for OFF (R90, R118). A cause that no state shows persists or not as a free value decides (log 2).
-/
def Obligations.FaultAndResetCommands : Prop :=
  ∀ (p : Requester) (r : SpReq) (s : State),
    let starts := fun (t : State) =>
      t.devState = s.devState ∧ (t.fn 0).spState = .busy ∧ (t.fn 0).spOwed = some 0x0009#16 ∧
      t.verge.stoA = false ∧ t.verge.stoB = false ∧
      (∀ f < 16, ∀ e ∈ (t.fn f).posted.drop (s.fn f).posted.length, e.owed = true) ∧
      Only [.fns, .link, .irq, .events, .out, .verge, .ports, .free] s t
    (Accepted p 0x0009 r s → s.fw.faultCause = 0x8A01#16 ∨ s.fw.faultCause = 0x8A02#16 ∨ s.fw.faultCause = 0x8A03#16 →
      exec (.clearFault p r) s = .next ((s.taken p 0x0009 r).respond 0 0x0009 0x2018 0 [])) ∧
    (Accepted p 0x0009 r s → s.fw.faultCause ≠ 0x8A01#16 → s.fw.faultCause ≠ 0x8A02#16 → s.fw.faultCause ≠ 0x8A03#16 →
      (s.faultPersists = true → exec (.clearFault p r) s = .next ((s.taken p 0x0009 r).respond 0 0x0009 0x2017 0 [])) ∧
      (s.faultPersists = false → s.hiddenCause = false → Goes (exec (.clearFault p r) s) starts) ∧
      (s.faultPersists = false → s.hiddenCause = true → Goes (exec (.clearFault p r) s) starts ∨
        exec (.clearFault p r) s =
          .next (State.respond 0 0x0009 0x2017 0 [] { s.taken p 0x0009 r with free := s.free + 1 }))) ∧
    (s.faultPersists = true ↔ s.mc.lost = true ∨ s.fieldPower = false ∨
      (s.fw.faultCause = 0x8A0C#16 ∧ s.lateStands = true) ∨ (s.fw.faultCause = 0x8A0D#16 ∧ s.stopReadStands = true) ∨
      (s.fw.faultCause = 0x8A0E#16 ∧ s.verge.twin.mismatch = 4)) ∧
    (Accepted p 0x000A r s → fieldAt r.payload 0 4 = confirmWord → exec (.resetDevice p r) s =
      .next { ((s.taken p 0x000A r).respond 0 0x000A 0 0 []).toOff with pending := s.pending }) ∧
    (Accepted p 0x000A r s → fieldAt r.payload 0 4 ≠ confirmWord → exec (.resetDevice p r) s =
      .next ((s.taken p 0x000A r).respond 0 0x000A 0x2006 8 []))

/-- The device commands: PACE_SET puts its three values in force; PI_RESET fences the island and starts its reset,
which a reset that runs already and a Tj above 100 °C after a thermal fence refuse (R119, R120, 02 R49).
BLOCK_CONTROL's actions fence a block, keep it FENCED powered down, release a powered-down block, or restart it, and
answer with its generation; a loop's claim refuses them all with 0x2008, and an action that BLOCK does not support is
0x2006 (R120, 01 R28, 06 Table 6.11). EVENT_RING_SET starts a ring at 0, and ENTRIES 0 removes it (R124, R128);
QUEUE_RESTART makes a HALTED queue ACTIVE, writes its held records and lets the held events of its function and of PF0
go (07 R142, 04 Table 4.7). -/
def Obligations.DeviceCommandsAct : Prop :=
  ∀ (p : Requester) (r : SpReq) (s : State),
    (Accepted p 0x0101 r s → (∀ o, o = 0 ∨ o = 2 → fieldAt r.payload o 2 % 5 = 0 ∧ 650 ≤ fieldAt r.payload o 2 ∧
        fieldAt r.payload o 2 ≤ 850) → fieldAt r.payload 2 2 ≤ fieldAt r.payload 0 2 → fieldAt r.payload 4 2 ≤ 200 →
      exec (.paceSet p r) s = .next (State.respond 0 0x0101 0 0 [] { s.taken p 0x0101 r with
        pace := { s.pace with ceiling := fieldAt r.payload 0 2, floor := fieldAt r.payload 2 2,
                              target := fieldAt r.payload 4 2 } })) ∧
    (Accepted p 0x0102 r s → ∃ u : State,
      u = { s.taken p 0x0102 r with pace := { s.pace with hostReset := s.pace.thermalFence } } ∧
      (s.pace.thermalFence = true → 200 < s.pace.tjHalf →
        exec (.piReset p r) s = .next ((s.taken p 0x0102 r).respond 0 0x0102 0x2009 1 [])) ∧
      (s.pace.thermalFence = false ∨ s.pace.tjHalf ≤ 200 →
        (s.piReset = true → exec (.piReset p r) s = .next (u.respond 0 0x0102 0x1001 0 [])) ∧
        (s.piReset = false → exec (.piReset p r) s =
          .next (State.respond 0 0x0102 0 0 [] { u.fencePi with piReset := true })))) ∧
    (∀ (act : Nat) (c : Instr), (act, c) ∈ [(0, Instr.blockReset p r), (1, .blockPowerDown p r), (2, .blockPowerUp p r),
        (3, .blockReload p r)] → Accepted p 0x0103 (withAction act r) s → ∀ blk, blk = fieldAt r.payload 0 2 →
      (act ∉ blockActions blk → exec c s =
        .next ((s.taken p 0x0103 (withAction act r)).respond 0 0x0103 0x2006 8 [])) ∧
      (act ∈ blockActions blk → s.loopClaims blk = true → exec c s =
        .next ((s.taken p 0x0103 (withAction act r)).respond 0 0x0103 0x2008 0 [])) ∧
      (act ∈ blockActions blk → s.loopClaims blk = false → ∃ u : State, ∃ x : Nat × State,
        u = s.taken p 0x0103 (withAction act r) ∧
        exec c s = .next (x.2.respond 0 0x0103 x.1 0 (le 1 (x.2.fenceOf blk).gen.toNat ++ le 7 0)) ∧
        (act = 1 → x = (0, (u.enterFence blk).modFence blk fun y => { y with poweredDown := true }) ∧
          x.2.isFenced blk = true ∧ (x.2.fenceOf blk).poweredDown = true) ∧
        (act = 2 → (s.fenceOf blk).poweredDown = false → x = (0x1001, u)) ∧
        (act = 2 → (s.fenceOf blk).poweredDown = true → x = (0, u.modFence blk fun y => { y with poweredDown := false }) ∧
          (s.canonical = true → x.2.isFenced blk = s.isFenced blk ∧ (x.2.fenceOf blk).poweredDown = false)) ∧
        (act = 0 ∨ act = 3 → s.isFenced blk = true → x = (0x1001, u)) ∧
        (act = 0 ∨ act = 3 → s.isFenced blk = false →
          x = (0, if blk = 0x12 then (u.enterFence blk).closeIntake fun _ => true else (u.enterFence blk).resetPort blk) ∧
          x.2.isFenced blk = true))) ∧
    (Accepted p 0x0104 r s → fieldAt r.payload 0 8 % 4096 = 0 →
      (fieldAt r.payload 8 4 = 0 → exec (.eventRingSet p r) s = .next (State.respond (fnOf p) 0x0104 0 0 []
        ((s.taken p 0x0104 r).modFn (fnOf p) fun x => { x with
          evSet := false, evBase := 0, evEntries := 0, evTail := 0, evHead := 0, evLost := 0, evPhase := true }))) ∧
      (ringSizeOk (fieldAt r.payload 8 4) = true →
        s.ringPlaceOk (fnOf p) (fieldAt r.payload 0 8) (16 * fieldAt r.payload 8 4) = true →
        exec (.eventRingSet p r) s = .next (State.respond (fnOf p) 0x0104 0 0 []
          ((s.taken p 0x0104 r).modFn (fnOf p) fun x =>
            { x with evSet := true, evBase := fieldAt r.payload 0 8, evEntries := fieldAt r.payload 8 4, evTail := 0,
                     evHead := 0, evLost := 0, evPhase := true })))) ∧
    (Accepted p 0x0104 r s → fieldAt r.payload 0 8 % 4096 ≠ 0 → exec (.eventRingSet p r) s =
      .next ((s.taken p 0x0104 r).respond (fnOf p) 0x0104 0x2006 8 [])) ∧
    (Accepted p 0x0202 r s → s.queueInfo r.ctx.toNat (byteAt r.payload 0) = none → exec (.queueRestart p r) s =
      .next ((s.taken p 0x0202 r).respond (fnOf p) 0x0202 0x2006 8 [])) ∧
    ∀ i, Accepted p 0x0202 r s → s.queueInfo r.ctx.toNat (byteAt r.payload 0) = some i →
      ((s.queue i.ctx i.queue).halted = false ∨ s.isFenced 0x50 = true → exec (.queueRestart p r) s =
        .next ((s.taken p 0x0202 r).respond (fnOf p) 0x0202 0 0 (le 8 0))) ∧
      ((s.queue i.ctx i.queue).halted = true → s.isFenced 0x50 = false → exec (.queueRestart p r) s =
        .next (State.respond (fnOf p) 0x0202 0 0 (le 2 (s.queue i.ctx i.queue).held.length ++ le 6 0)
          (((s.queue i.ctx i.queue).held.foldl (fun (t : State) bs => t.writeRecord i bs)
            ((s.taken p 0x0202 r).modQueue i.ctx i.queue fun x => { x with halted := false, held := [] })).holdEvents false
              [0, (s.ctxFn i.ctx).getD 0])))

/-- The control and port commands: LOOP_MODE and a LOOP_TABLE_WRITE with COMMIT wait for a sample instant at least 50
µs later, and a write while one waits is refused; TWIN_REARM works only with the link up and a partner stop in force;
ANN_CLEAR clears a latched trip alone; SPUR_SEARCH starts one search at a time, which ends at once on a FENCED Tool
Spur (R121, R122, 06 Table 6.9 checks 8 and 10, 15 R322, 18 R377, R380). -/
def Obligations.ControlCommandsAct : Prop :=
  ∀ (p : Requester) (r : SpReq) (s : State),
    (Accepted p 0x0901 r s → byteAt r.payload 0 ≤ 31 → byteAt r.payload 1 ≤ 1 → exec (.loopMode p r) s =
      .next (State.respond 0 0x0901 0 0 [] ((s.taken p 0x0901 r).modLoop (byteAt r.payload 0) fun x =>
        { x with modeReq := some (byteAt r.payload 1 == 1, signed 24 (fieldAt r.payload 4 3), s.time.ms + 50000) }))) ∧
    (Accepted p 0x0901 r s → 31 < byteAt r.payload 0 ∨ 1 < byteAt r.payload 1 → exec (.loopMode p r) s =
      .next ((s.taken p 0x0901 r).respond 0 0x0901 0x2006 (if 31 < byteAt r.payload 0 then 8 else 9) [])) ∧
    (∀ l k n x, l = byteAt r.payload 0 → k = byteAt r.payload 1 → n = fieldAt r.payload 6 2 →
      x = (s.loop l).shadow.put k (fieldAt r.payload 4 2) n ((fit 248 0 r.payload).drop 8) → Accepted p 0x0902 r s →
      l ≤ 31 → k ≤ 2 → fieldAt r.payload 4 2 + n ≤ tableSize k →
      ((byteAt r.payload 2).testBit 0 = true → s.breaksOk l x = false →
        exec (.loopTableWrite p r) s = .next ((s.taken p 0x0902 r).respond 0 0x0902 0x2006 10 [])) ∧
      (((byteAt r.payload 2).testBit 0 = true → s.breaksOk l x = true) →
        ((s.loop l).commitTbl ≠ none → exec (.loopTableWrite p r) s =
          .next ((s.taken p 0x0902 r).respond 0 0x0902 0x2009 3 [])) ∧
        ((s.loop l).commitTbl = none → exec (.loopTableWrite p r) s =
          .next (State.respond 0 0x0902 0 0 [] ((s.taken p 0x0902 r).modLoop l fun y => { y with
            shadow := x
            commitTbl := if (byteAt r.payload 2).testBit 0 then some (k, s.time.ms + 50000) else none }))))) ∧
    (Accepted p 0x0A01 r s →
      (s.verge.twin.up = true → s.verge.partnerStop = true → exec (.twinRearm p r) s =
        .next ((s.taken p 0x0A01 r).rearm.respond 0 0x0A01 0 0 [])) ∧
      (s.verge.twin.up = true → s.verge.partnerStop = false → exec (.twinRearm p r) s =
        .next ((s.taken p 0x0A01 r).respond 0 0x0A01 0x2009 4 [])) ∧
      (s.verge.twin.up = false → exec (.twinRearm p r) s =
        .next ((s.taken p 0x0A01 r).respond 0 0x0A01 0x2009 2 []))) ∧
    (Accepted p 0x0C01 r s → s.ports.ann.state = 3 → exec (.annClear p r) s =
      .next (State.respond 0 0x0C01 0 0 [] ((s.taken p 0x0C01 r).modAnn fun a => { a with state := 0, trips := 0, status := 0 }))) ∧
    (Accepted p 0x0C01 r s → s.ports.ann.state ≠ 3 → exec (.annClear p r) s =
      .next ((s.taken p 0x0C01 r).respond 0 0x0C01 0 0 [])) ∧
    (Accepted p 0x0C02 r s → s.ports.spur.running = false → ∃ u : State,
      u = { s.taken p 0x0C02 r with
        ports := { s.ports with spur := { s.ports.spur with running := true, changed := false } } } ∧
      (s.isFenced 0x4C = false → exec (.spurSearch p r) s = .next (u.respond 0 0x0C02 0 0 [])) ∧
      (s.isFenced 0x4C = true → exec (.spurSearch p r) s = .next ((u.spurEnd 0x4C04 []).respond 0 0x0C02 0 0 []))) ∧
    (Accepted p 0x0C02 r s → s.ports.spur.running = true → exec (.spurSearch p r) s =
      .next ((s.taken p 0x0C02 r).respond 0 0x0C02 0x1001 0 []))

/-- The ends of what bring-up commands start. A failed image check returns to ROM_WAIT with the image discarded and
its status as FW_COMMIT's answer, a good one enters SELFTEST; the first failing self-test step leads to HELD with its
report, a pass to AWAIT_ROUTE; a refused book leaves no book, an accepted one is kept, and without a time source
Milestone is FREE at the nominal increment; the retest ends in HELD either way, with the outputs down and the answer
to CLEAR_FAULT (R94, R96, R103 to R105, R108, 02 R42). -/
def Obligations.BringUpStagesEnd : Prop :=
  ∀ s : State, s.mc.lost = false →
    (s.devState = .fwVerify → Goes (exec .fwVerifyEnd s) fun t =>
      (t.fn 0).spState = .done ∧ (t.fn 0).spStatus = BitVec.ofNat 16 s.imageStatus ∧
      if s.imageStatus = 0 then t.devState = .selftest ∧ t.fw.version = BitVec.ofNat 32 (s.imageField 0xC 4)
      else t.devState = .romWait ∧ t.fw.stage = [] ∧ t.fw.version = s.fw.version) ∧
    (∀ obs e, s.devState = .selftest → s.firstFail obs = some e → Goes (exec (.selftestEnd obs) s) fun t =>
      t.devState = .held ∧ t.fw.report = e.report ∧ t.fw.testResult = e.results ∧ t.fw.testPassed = false ∧
      Only [.devState, .fw, .free, .out, .events, .irq] s t) ∧
    (∀ obs, s.devState = .selftest → s.firstFail obs = none → Goes (exec (.selftestEnd obs) s) fun t =>
      t.devState = .awaitRoute ∧ t.fw.testPassed = true ∧ t.fw.testResult = List.replicate 8 1 ∧ t.fw.scrubbing = true ∧
      Only (.devState :: .fw :: .pace :: memParts) s t) ∧
    (∀ fault e, s.devState = .validate → s.judgeBook fault = .error e → Goes (exec (.validateEnd fault) s) fun t =>
      t.devState = .held ∧ t.fw.book = [] ∧ t.fw.bookAccepted = false ∧ t.fw.report = e ∧ t.time.disc = .free ∧
      t.time.inc = 5 * 2 ^ 32 ∧ t.time.ms = s.time.ms ∧ Only [.devState, .fw, .time, .out, .events, .irq] s t) ∧
    (∀ fault recs, s.devState = .validate → s.judgeBook fault = .ok recs → Goes (exec (.validateEnd fault) s) fun t =>
      t.devState = .held ∧ t.fw.book = recs ∧ t.fw.bookAccepted = true ∧ t.fw.report = Report.init ∧ t.pools = [] ∧
      ((∀ r, t.timeRec = some r → 2 ≤ r.u 8 1) → t.time.disc = .free ∧ t.time.inc = 5 * 2 ^ 32) ∧ t.time.ms = s.time.ms ∧
      Only (.devState :: .fw :: .time :: .pools :: .loops :: .verge :: memParts) s t) ∧
    ∀ obs, s.devState = .fault → (s.fn 0).spOwed = some 0x0009#16 → Goes (exec (.clearFaultRetestEnd obs) s) fun t =>
      t.devState = .held ∧ (t.fn 0).spState = .done ∧ t.outputsUp = false ∧ t.verge.stoA = false ∧ t.verge.stoB = false ∧
      (s.retestFail obs = none → (t.fn 0).spStatus = 0#16 ∧ t.fw = s.fw) ∧
      (∀ e, s.retestFail obs = some e → (t.fn 0).spStatus = BitVec.ofNat 16 e.status ∧ t.fw.report = e.report ∧
        t.fw.testPassed = false) ∧
      Only [.devState, .fw, .fns, .events, .irq, .out, .outputsUp, .verge, .cams, .ports] s t

/-- The doorbell: the first port to ring PF0's Signpost becomes the host port, and the other port's doorbell is not
taken and leaves it reading 0x2D01 at SP_STATUS (R80); a ring while BUSY only sets OVERRUN, on PF0's Signpost from
either port and on a VF's; a ring while the MC is lost is answered 0x8001, but for a valid RESET_DEVICE (R109, R113);
bit 0 clear rings nothing. -/
def Obligations.DoorbellHasOneHostPort : Prop :=
  (∀ (s : State) (v : BitVec 32), s.devState ≠ .off → v.toNat % 2 = 1 →
    (s.link.hostPort = some .pcie → Goes (exec (.spDoorbell .qspi v) s) fun t =>
      t = { s with link := { s.link with qspiRefused := true } } ∧ (t.readReg .qspi 0x1204).1 = 0x2D01 ∧
      ((t.readReg (.pcie 0) 0x1204).1 = (s.readReg (.pcie 0) 0x1204).1)) ∧
    (s.link.hostPort = some .qspi → Goes (exec (.spDoorbell (.pcie 0) v) s) fun t =>
      t = { s with link := { s.link with pcieRefused := true } } ∧ (t.readReg (.pcie 0) 0x1204).1 = 0x2D01 ∧
      ((t.readReg .qspi 0x1204).1 = (s.readReg .qspi 0x1204).1)) ∧
    ∀ p : Requester, (p = .pcie 0 → s.link.hostPort ≠ some .qspi) → (p = .qspi → s.link.hostPort ≠ some .pcie) →
      ((s.fn (fnOf p)).spState = .busy → exec (.spDoorbell p v) s =
        .next ((s.withPort p).modFn (fnOf p) fun x => { x with spOverrun := true })) ∧
      ((s.fn (fnOf p)).spState ≠ .busy → ∃ (u : State) (b : List Byte), b = s.request (fnOf p) ∧
        u = ((s.withPort p).modFn (fnOf p) fun x => { x with spState := .busy, spTag := BitVec.ofNat 8 (byteAt b 2) }) ∧
        (s.mc.lost = false → exec (.spDoorbell p v) s = .next { u.serve (fnOf p) b with pending := s.pending }) ∧
        (s.mc.lost = true → fnOf p = 0 → fieldAt b 0 2 = 0x000A → fieldAt b 4 2 = 8 → fieldAt b 8 4 = confirmWord →
          exec (.spDoorbell p v) s = .next { (u.respond 0 0x000A 0 0 []).toOff with pending := s.pending }) ∧
        (s.mc.lost = true → fnOf p ≠ 0 ∨ fieldAt b 0 2 ≠ 0x000A ∨ fieldAt b 4 2 ≠ 8 ∨ fieldAt b 8 4 ≠ confirmWord →
          Goes (exec (.spDoorbell p v) s) fun t => (t.fn (fnOf p)).spState = .done ∧
            (t.fn (fnOf p)).spStatus = 0x8001#16 ∧ Only [.link, .irq, .fns, .events, .out] s t))) ∧
  ∀ (s : State) (p : Requester) (w : BitVec 32), s.devState = .off ∨ w.toNat % 2 = 0 → exec (.spDoorbell p w) s = .next s

/-- An event goes to PF0 and, when it belongs to one of a VF's contexts or is DEV_STATE, FENCE_ENTER or FENCE_EXIT, to
that VF; it joins the function's posted events with Milestone as its stamp (R129, R132). While a function's events are
held, for want of a ring or a link, those beyond the 512 of the hold are counted lost (R133; that each function's copy
takes a place is the model's choice, log 43), and no record is written; an event that an unanswered CLEAR_FAULT caused
waits for the answer (R126). A record goes to the ring in posting order, and TAIL moves past it; a full ring writes
nothing and counts it; where events were lost EVENT_LOST with their number comes first when there is room, also alone
(R129, R130, R133). EV_HEAD takes a value within the written records, and none beyond them (R131). -/
def Obligations.EventsReachRings : Prop :=
  (∀ (e : EvRecord) (f : Nat) (s : State),
    (s.held f = false ∨ s.holdCount < 512 → s.postTo e f = s.modFn f fun x => { x with posted := x.posted ++ [e] }) ∧
    (s.held f = true → 512 ≤ s.holdCount → s.postTo e f = s.modFn f fun x => { x with
      evLost := satAdd 0xFFFFFFFF x.evLost 1, evLostSince := satAdd 0xFFFFFFFF x.evLostSince 1 })) ∧
  (∀ (code payload : Nat) (ctx : Option Nat) (s : State) (f : Nat), f ∈ s.receivers code ctx →
    (s.held f = false ∨ s.holdCount + 16 ≤ 512 →
      EvRecord.mk (BitVec.ofNat 16 code) (BitVec.ofNat 32 payload) s.now ctx false ∈
        ((s.post code payload ctx).fn f).posted) ∧
    (s.held f = true → 512 ≤ s.holdCount → ((s.post code payload ctx).fn f).posted = (s.fn f).posted ∧
      ((s.post code payload ctx).fn f).evLostSince = satAdd 0xFFFFFFFF (s.fn f).evLostSince 1)) ∧
  (∀ (code : Nat) (ctx : Option Nat) (s : State), 0 ∈ s.receivers code ctx ∧
    ∀ f ∈ s.receivers code ctx, f = 0 ∨ code = 0x0001 ∨ code = 0x0004 ∨ code = 0x0005 ∨ ∃ c, ctx = some c ∧ s.ctxFn c = some f) ∧
  (∀ (f : Nat) (s : State),
    ((s.fn f).evLostSince = 0 ∨ (s.fn f).ringFull = true ∨ s.held f = true → s.ringLost f = s) ∧
    ((s.fn f).evLostSince ≠ 0 → (s.fn f).ringFull = false → s.held f = false → s.ringLost f =
      (s.ringWrite f (EvRecord.mk 0x0003#16 (BitVec.ofNat 32 (s.fn f).evLostSince) s.now none false)).modFn f
        fun y => { y with evLostSince := 0 })) ∧
  (∀ (fn : Fin 16) (s : State), (s.fn fn).posted = [] → exec (.eventWrite fn) s = .next (s.ringLost fn)) ∧
  (∀ (fn : Fin 16) (e : EvRecord) (rest : List EvRecord) (s : State), (s.fn fn).posted = e :: rest →
    (s.held fn = true ∨ (e.owed = true ∧ ∃ op, (s.fn 0).spOwed = some op) → exec (.eventWrite fn) s = .next s) ∧
    (s.held fn = false → e.owed = false ∨ (s.fn 0).spOwed = none →
      ((s.fn fn).ringFull = true → exec (.eventWrite fn) s = .next (s.modFn fn fun x => { x with
        posted := rest, evLost := satAdd 0xFFFFFFFF x.evLost 1, evLostSince := satAdd 0xFFFFFFFF x.evLostSince 1 })) ∧
      ((s.fn fn).ringFull = false → (s.fn fn).evLostSince = 0 → Goes (exec (.eventWrite fn) s) fun t =>
        t = (s.modFn fn fun x => { x with posted := rest }).ringWrite fn e ∧
        (t.fn fn).evTail = ((s.fn fn).evTail + 1) % (s.fn fn).evEntries ∧ Only (.fns :: memParts) s t) ∧
      ((s.fn fn).ringFull = false → (s.fn fn).evLostSince ≠ 0 → Goes (exec (.eventWrite fn) s) fun t =>
        (((s.ringLost fn).fn fn).ringFull = true → t = s.ringLost fn) ∧
        (((s.ringLost fn).fn fn).ringFull = false →
          t = ((s.ringLost fn).modFn fn fun x => { x with posted := x.posted.drop 1 }).ringWrite fn e) ∧
        (t.fn fn).evLostSince = 0 ∧ Only (.fns :: memParts) s t))) ∧
  (∀ (p : Requester) (v : BitVec 32) (s : State), (s.fn (fnOf p)).evEntries ≤ v.toNat % 65536 →
    exec (.evHeadWrite p v) s = .next s) ∧
  ∀ (p : Requester) (v : BitVec 32) (s : State) (n : Nat), n = (s.fn (fnOf p)).evEntries → v.toNat < n → v.toNat < 65536 →
    ((v.toNat + n - (s.fn (fnOf p)).evHead) % n ≤ ((s.fn (fnOf p)).evTail + n - (s.fn (fnOf p)).evHead) % n →
      exec (.evHeadWrite p v) s = .next (State.ringLost (fnOf p) (if v.toNat = (s.fn (fnOf p)).evTail then
          s.modFn (fnOf p) fun y => { y with evHead := v.toNat }
        else (s.modFn (fnOf p) fun y => { y with evHead := v.toNat }).signal (fnOf p) 1025))) ∧
    (((s.fn (fnOf p)).evTail + n - (s.fn (fnOf p)).evHead) % n < (v.toNat + n - (s.fn (fnOf p)).evHead) % n →
      exec (.evHeadWrite p v) s = .next s)

/-! ### Queues, the Scheduler and memory -/

/-- A write to SQ_TAIL or CQ_HEAD of a live queue is judged in the order of the rules, is taken whole or refused
whole, and leaves its status in DB_RESULT; a page that the book does not define ignores it (R140, R141, 04 R72). -/
def Obligations.DoorbellWritesTakenWhole : Prop :=
  ∀ (f : Fin 16) (c : Fin 256) (q : Fin 4) (v : BitVec 32) (s : State), Map.wf QueueSt.init s.queues = true →
    (s.liveQueue f c q = none →
      exec (.sqTailWrite f c q v) s = .next s ∧ exec (.cqHeadWrite f c q v) s = .next s) ∧
    ∀ i : QueueInfo, s.liveQueue f c q = some i →
      let x := s.queue c q
      let n : BitVec 16 := v.setWidth 16
      let added := (n - x.sqTail).toNat
      let st := if s.active = false then 0x2204 else if x.halted = true then 0x2203 else if i.depth < added then 0x2202
        else if i.depth < (x.sqTail - x.cqHead).toNat + added then 0x2201 else 0
      let st2 := if s.active = false ∧ s.devState ≠ .fault then 0x2204
        else if (x.cqTail - x.cqHead).toNat < (n - x.cqHead).toNat then 0x2205 else 0
      Goes (exec (.sqTailWrite f c q v) s) (fun t =>
        t.queue c q = { x with
          sqTail := if st = 0 then n else x.sqTail, dbStatus := BitVec.ofNat 16 st, dbValue := if st = 0 then 0 else n } ∧
        (∀ c2 < 256, ∀ q2 < 4, c2 ≠ c.val ∨ q2 ≠ q.val → t.queue c2 q2 = s.queue c2 q2) ∧
        Only [.queues, .counters] s t) ∧
      Goes (exec (.cqHeadWrite f c q v) s) (fun t =>
        t.queue c q = { x with
          cqHead := if st2 = 0 then n else x.cqHead, dbStatus := BitVec.ofNat 16 st2,
          dbValue := if st2 = 0 then 0 else n } ∧
        (∀ c2 < 256, ∀ q2 < 4, c2 ≠ c.val ∨ q2 ≠ q.val → t.queue c2 q2 = s.queue c2 q2) ∧
        (st2 = 0 → n ≠ x.cqTail →
          ∃ u : State, t = u.signal ((s.ctxFn c).getD 0) (c * 4 + q) ∧ Only [.queues, .counters] s u) ∧
        Only [.queues, .counters, .events, .out] s t)

/-- Fetching. The Scheduler fetches nothing from a queue that is HALTED, empty or unreadable, or while the Scoreboard
has no room (R143). Else a single entry is read and judged: it takes its place on the Scoreboard, or completes as
refused; and when one entry of a schedule is refused, none of the schedule stays in flight (R184, R189). -/
def Obligations.FetchTakesOneUnit : Prop :=
  ∀ (k : Fin 256) (q : Fin 4) (stores : List HostStore) (s u : State) (c : CtxInfo) (i : QueueInfo),
    u = s.hostStores stores → u.ctx k = some c → u.queueInfo k q = some i → Map.wf QueueSt.init s.queues = true →
    let x := u.queue k q
    let head := x.fetched.toNat
    (u.active = false ∨ x.halted = true ∨ u.ringReadable i = false ∨ x.sqTail = x.fetched →
      exec (.waybillFetch k q stores) s = .next u) ∧
    (u.active = true → x.halted = false → u.ringReadable i = true →
      (∀ b d, u.nextUnit i head (x.sqTail - x.fetched).toNat = some ⟨[b], d⟩ →
        (u.room [(u.peekEntry i head).1.wclass] = false → exec (.waybillFetch k q stores) s = .next u) ∧
        (u.room [(u.peekEntry i head).1.wclass] = true → Goes (exec (.waybillFetch k q stores) s) fun t =>
          ∃ (w : Waybill) (f : Option (Nat × Nat)) (v : State), u.fetchOne c i b = (w, f, v) ∧
            (v.queue k q).fetched = x.fetched + 1 ∧ w.seen = u.now ∧ w.slot = head % i.depth ∧
            (f = none → ∃ a : BitVec 32, a = v.lastIssued + 2 ∧ t = (v.accept c { w with
              startTick := a + BitVec.ofNat 32 (bits (fieldAt w.bytes 8 8) 15 0),
              endTick := a + BitVec.ofNat 32 (bits (fieldAt w.bytes 8 8) 31 16) }).settleAll) ∧
            (∀ g, f = some g → t = (v.refuse w g).settleAll ∧ ∀ y ∈ t.sched.flight, y.id ≠ w.id) ∧
            Only doneParts s t)) ∧
      ∀ bs, u.nextUnit i head (x.sqTail - x.fetched).toNat = some ⟨bs, true⟩ →
        u.room ((List.range bs.length).map fun j => (u.peekEntry i (head + j)).1.wclass) = true →
        (u.fetchAll c i bs).1.any (fun p => p.2.isSome) = true →
        Goes (exec (.waybillFetch k q stores) s) fun t =>
          (∀ p ∈ (u.fetchAll c i bs).1, ∀ y ∈ t.sched.flight, y.id ≠ p.1.id) ∧ Only doneParts s t)

/-- Dispatch. The lowest-numbered engine of its class that is free and unfenced starts the waybill for which the token
is held, else the arbiter's choice, and the engine takes at that moment what the IE needs of it (13 R262); a waybill
that starts on it is of its class, was not running, and was ready or held the token; outside RUN and FENCED, on a
fenced or busy engine, and where a lower one of its class is free, nothing starts (R144, R146, R192; 01 R26). -/
def Obligations.DispatchStartsReadyWork : Prop :=
  ∀ (e : Fin 19) (s : State),
    let isFree := fun (d : Nat) => s.stationFenced d = false ∧ ∀ w ∈ s.sched.flight, w.engine ≠ some d
    (s.active = false ∨ ¬ isFree e ∨ (∃ d < e.val, classOf d = classOf e ∧ isFree d) →
      exec (.engineDispatch e) s = .next s) ∧
    (s.active = true → isFree e → (∀ d < e.val, classOf d = classOf e → ¬ isFree d) →
      (∀ w, s.urgent (classOf e) = some w → Goes (exec (.engineDispatch e) s) fun t =>
        t = s.startOn e w ∧ w ∈ s.holders s.sched.tokenAt ∧ Only [.sched, .intake, .mem] s t) ∧
      (∀ w u, s.urgent (classOf e) = none → s.arbitrate (classOf e) = some (w, u) →
        Goes (exec (.engineDispatch e) s) fun t =>
          t = u.startOn e w ∧ s.startable w = true ∧ u.sched.pointers = s.sched.pointers.set 0 (classOf e) (w.ctx + 1) ∧
          Only [.sched, .intake, .mem] s t) ∧
      (s.urgent (classOf e) = none → s.arbitrate (classOf e) = none → exec (.engineDispatch e) s = .next s) ∧
      Goes (exec (.engineDispatch e) s) fun t =>
        t.sched.flight.map (·.id) = s.sched.flight.map (·.id) ∧
        (∀ v ∈ t.sched.flight, v.engine = some e.val → v.started = s.now ∧ ∃ w ∈ s.sched.flight, w.id = v.id ∧
          w.wclass = classOf e ∧ w.running = false ∧ (s.startable w = true ∨ w ∈ s.holders s.sched.tokenAt)) ∧
        (e ≠ 18 → Only [.sched] s t))

/-- A word that is read, in Sward, LPDDR5, the epoch tags or the picture store: a corrected word is rewritten clean
and counted, an uncorrectable one is rewritten with the poison syndrome and reported, in the first three also counted
and recorded by Verge, and a poisoned one stays (R163, R165, 09 R196, 13 R268). One stuck bit leaves a rewritten word
to be corrected again (08 R164). Background work. Zeroing takes the lowest pending granule and leaves it reading zero
with every other byte as it was (R160); from the end of self-test on the scrubber passes over a line of clean words
and changes only its own place and pass count (R166); on a lost Scheduler Verge fences and resets the Perception
Island (01 Table 1.3). -/
def Obligations.MemoryIsCorrectedAndZeroed : Prop :=
  (∀ (m : Mem) (who : Option Nat) (w : Nat) (s : State), Map.wf Ecc.clean (s.space m).marks = true →
    (s.space m).hard.get 0 w ≤ 1 →
    let u := (s.readWord m who w).2
    let a := m.reported (w * 8)
    ((s.space m).marks.get Ecc.clean w = .corr →
      (u.space m).marks.get Ecc.clean w = (if (s.space m).hard.get 0 w = 0 then .clean else .corr) ∧
      (u.space m).cells = (s.space m).cells ∧
      (m = .sw ∨ m = .tag → u.mem.swCorr = add64 s.mem.swCorr 1) ∧ (m = .lp → u.mem.lpCorr = add64 s.mem.lpCorr 1) ∧
      (m = .pic → u.counters = s.counters ∧ u.mem.picCorr = s.mem.picCorr.set 0 (w * 8 / storeSpan)
        (add64 (s.mem.picCorr.get 0 (w * 8 / storeSpan)) 1)) ∧
      (∀ c, m ≠ .pic → who = some c → u.counters = s.counters.set 0 (c * 32 + 22) (add64 (s.counter c 22) 1)) ∧
      Only [.mem, .counters] s u) ∧
    ((s.space m).marks.get Ecc.clean w = .ue →
      (u.space m).marks.get Ecc.clean w = .poison ∧ (u.space m).cells = (s.space m).cells ∧
      (m = .sw ∨ m = .tag → u.mem.swUe = add64 s.mem.swUe 1) ∧ (m = .lp → u.mem.lpUe = add64 s.mem.lpUe 1) ∧
      (s.held 0 = false → ∃ x ∈ (u.fn 0).posted, x.code = 0x0302#16 ∧ x.stamp = s.now ∧
        x.ctx = (if m = .pic then some (w * 8 / storeSpan / 16) else s.shareOwner (m == .lp) a)) ∧
      (m ≠ .pic → u.verge.records.head? = some (FaultRec.mk s.now 0x8305
          (BitVec.ofNat 8 (if m = .lp then lpChannel a else a / 2 ^ 24)) 0 s.devState.code (BitVec.ofNat 32 a)) ∧
        Only [.mem, .records, .events, .irq, .out] s u) ∧
      (m = .pic → Only [.mem, .free, .events, .irq, .out] s u)) ∧
    ((s.space m).marks.get Ecc.clean w = .clean ∨ (s.space m).marks.get Ecc.clean w = .poison → u = s)) ∧
  ((∀ (s : State) (g : Nat) (r : List Nat), s.canonical = true → s.mem.pendGran = g :: r →
    (∀ b, 0x54 ≤ b → b < 0x58 → s.isFenced b = false) → (∀ p ∈ s.mem.lpddr.hard, p.2 ≤ 2) →
    Goes (exec .backgroundZeroing s) fun t =>
      (∀ a, g * granule ≤ a → a < (g + 1) * granule → t.mem.lpddr.cells.get 0 a = 0) ∧
      (∀ a, a < g * granule ∨ (g + 1) * granule ≤ a → t.mem.lpddr.cells.get 0 a = s.mem.lpddr.cells.get 0 a) ∧
      t.mem.pendGran = r.filter (· != g) ∧ t.mem.sward = s.mem.sward ∧ t.mem.host = s.mem.host ∧ Only memParts s t) ∧
  (∀ s : State, s.mem.pendGran = [] ∨ (∃ b, 0x54 ≤ b ∧ b < 0x58 ∧ s.isFenced b = true) →
    exec .backgroundZeroing s = .next s) ∧
  (∀ s : State,
    (s.fw.scrubbing = false → ∀ m, exec (.patrolScrub m) s = .next s) ∧
    (s.fw.scrubbing = true →
      (s.isFenced 0x60 = false → s.isFenced (0x58 + s.mem.scrubSw / 2 ^ 18) = false →
        s.markedIn .sw (s.mem.scrubSw * 64) 64 = [] → s.mem.tag.marks.get Ecc.clean (s.mem.scrubSw / 8) = .clean →
        exec (.patrolScrub .sward) s = .next { s with mem :=
          if s.mem.scrubSw + 1 = swardSize / 64 then { s.mem with scrubSw := 0, passes := add64 s.mem.passes 1 }
          else { s.mem with scrubSw := s.mem.scrubSw + 1 } }) ∧
      (s.isFenced (0x54 + lpChannel (s.mem.scrubLp * 64)) = false → s.markedIn .lp (s.mem.scrubLp * 64) 64 = [] →
        exec (.patrolScrub .lpddr) s = .next { s with mem :=
          { s.mem with scrubLp := if s.usable / 64 ≤ s.mem.scrubLp + 1 then 0 else s.mem.scrubLp + 1 } }) ∧
      Goes (exec (.patrolScrub .sward) s) (Only memParts s) ∧ Goes (exec (.patrolScrub .lpddr) s) (Only memParts s))) ∧
  ∀ s : State, 3 ≤ s.devState.code → Goes (exec .schedulerFault s) fun t =>
    IslandLost s t ∧ t.piReset = true ∧ Only (.piReset :: fenceParts) s t)


/-! ### What engines do with the waybill that they run -/

/-- The Tensor Engines. MATMUL and CONV2D run the number of steps of 11 R226 and R230 over the reduction chunk of
their product pair and complete; a residue mismatch that repeats in a step group that ran fences the engine (R238),
and an FP32 × FP32 product runs without the check (R237). A DIRECT-mode waybill of a CHECKED context may stop at a
stale line. -/
def Obligations.TensorEnginesRun : Prop :=
  ∀ (e : Fin 19) (s : State) (w : Waybill) (c : CtxInfo),
    let u := s.touchSpans c w
    let a := u.operand c w 0
    let o := u.operand c w 2
    let runs := fun (i : List ResidueEvent → Instr) (op : Nat) (plan : TePair × List EngStep × Stats) (steps : Nat) =>
      plan.2.1.length = steps ∧
      (Runs e 0 op w c s →
        (Goes (exec (i []) s) fun t => ∃ (st d n : Nat) (v : State), Ends w st d (v.count c.ctx 12 n) t ∧ n ≤ steps ∧
          ((c.isChecked && w.direct) = false → n = steps) ∧ Only memParts s v ∧ Only doneParts s t) ∧
        (∀ ev, plan.1.covered = false → exec (i ev) s = exec (i []) s) ∧
        ∀ ev, Goes (exec (i ev) s) fun t => (∀ x ∈ t.sched.flight, x.id ≠ w.id) ∧ Only fenceParts s t ∧
          (plan.1.covered = true → (c.isChecked && w.direct) = false → (∃ r ∈ ev, r.repeats = true ∧ r.group * 16 < steps) →
            t.isFenced e = true))
    runs (.matmul e) 0x101 (u.matmulPlan c w)
      (a.dim 1 * a.dim 2 * a.dim 3 * (((u.operand c w 1).dim 1 + 63) / 64 *
        ((a.dim 0 + (u.matmulPlan c w).1.chunk - 1) / (u.matmulPlan c w).1.chunk))) ∧
    runs (.conv2d e) 0x102 (u.convPlan c w)
      (o.rows * ((o.dim 0 + 63) / 64 * ((a.dim 2 / max 1 w.window.groups * w.window.kh * w.window.kw +
        (u.convPlan c w).1.chunk - 1) / (u.convPlan c w).1.chunk)))

/-- The Vector Engines. A VE waybill runs rows × ceil(n / 64) × cost steps and a pool runs batch × C × Hout ×
ceil(Wout / 64) × KH × KW steps, and completes (R235). A DIRECT-mode waybill of a CHECKED context may stop earlier, at
a stale line (09 R195). -/
def Obligations.VectorEnginesRun : Prop :=
  ∀ (e : Fin 19) (s : State) (w : Waybill) (c : CtxInfo),
    let u := s.touchSpans c w
    let i := u.operand c w 0
    let o := u.operand c w 1
    let rowCost := i.rows * ((i.dim 0 + 63) / 64)
    let pool := o.dim 3 * o.dim 2 * o.dim 1 * ((o.dim 0 + 63) / 64) * w.window.kh * w.window.kw
    ∀ p ∈ [(Instr.add e, 0x201, rowCost), (.sub e, 0x202, rowCost), (.mul e, 0x203, rowCost), (.max e, 0x204, rowCost),
        (.min e, 0x205, rowCost), (.act e, 0x210, rowCost * if byteAt w.bytes 56 < 3 then 1 else 4),
        (.softmax e, 0x220, rowCost * 6), (.layernorm e, 0x221, rowCost * 6), (.rmsnorm e, 0x222, rowCost * 3),
        (.reduceSum e, 0x230, rowCost), (.reduceMax e, 0x231, rowCost), (.convert e, 0x240, rowCost),
        (.maxabs e, 0x260, rowCost), (.maxpool e, 0x250, pool), (.avgpool e, 0x251, pool)],
      Runs e 1 p.2.1 w c s → Goes (exec p.1 s) fun t => ∃ (st d n : Nat) (v : State),
        Ends w st d (v.count c.ctx 13 n) t ∧ n ≤ p.2.2 ∧ ((c.isChecked && w.direct) = false → n = p.2.2) ∧
        Only memParts s v ∧ Only doneParts s t

/-- ADD to MIN on integers without quantisation are exact and saturate to the output format (R231). ZP-SUM with true
SUM fields forms the same integer P as ZP-SUB, which takes the zero points off the codes first (R213; exact integers).
-/
def Obligations.IntegerResultsAreExact : Prop :=
  (∀ (s : State) (c : CtxInfo) (w : Waybill) (row i : Nat),
    let a := s.operand c w 0
    let o := s.operand c w 1
    let b := s.operand c w 2
    let r := broadcast a b row i
    let v := intOp w.opcode (codeInt a.fmt (s.codeAt a row i)) (codeInt b.fmt (s.codeAt b r.1 r.2))
    isIntFmt a.fmt = true → a.qmode = 0 → isIntFmt b.fmt = true → b.qmode = 0 → isIntFmt o.fmt = true → o.qmode = 0 →
    i < a.dim 0 →
    ((s.binaryRow c w row).all[i]?.map fun q => q.code) =
      some (unsigned (formatBits o.fmt) (max (intRange o.fmt).1 (min (intRange o.fmt).2 v))) ∧
    ((s.binaryRow c w row).all[i]?.map fun q => q.sat) =
      some (decide (v < (intRange o.fmt).1 ∨ (intRange o.fmt).2 < v))) ∧
  (∀ (fa fb : Nat) (a b : TeRow), isIntFmt fa = true → a.codes.length = b.codes.length →
    a.sum = (a.codes.map (codeInt fa)).foldl (· + ·) 0 → b.sum = (b.codes.map (codeInt fb)).foldl (· + ·) 0 →
    (teElement ⟨fa, 5, fb, 5⟩ a b).p = (teElement ⟨fa, 4, fb, 4⟩ a b).p ∧
    (teElement ⟨fa, 4, fb, 4⟩ a b).p =
      some (((a.codes.zip b.codes).map fun x => (codeInt fa x.1 - a.zp) * (codeInt fb x.2 - b.zp)).foldl (· + ·) 0))

/-- A Waymark commit whose payload was read clean takes the idle half and makes it active in the same step, with SEQ
one up (R13); one whose STAMP is not greater is discarded and counted, and still completes 0x0000 (R15); one that read
a poisoned or uncorrectable word leaves the slot as it was (08 R171). -/
def Obligations.WaymarkCommitsAreWhole : Prop :=
  ∀ (e : Fin 19) (s : State) (w : Waybill) (c : CtxInfo), Runs e (classOf e) 1 w c s → s.mem.pendGran = [] →
    Map.wf WmSlot.init s.waymarks = true →
    let o := s.operand c w 0
    let slot := byteAt w.bytes 60
    let len := byteAt w.bytes 61
    let stamp := fieldAt w.bytes 52 8
    let x := s.waymark slot
    let addr := fun (i : Nat) => o.addr (i / max 1 o.rowBytes) (i % max 1 o.rowBytes)
    (o.mem = .sward ∨ o.mem = .lpddr → (s.space o.mem.mem).marks = [] → (c.isChecked && w.direct) = false →
      Goes (exec (.waymarkCommit e) s) fun t => (∃ v, Ends w 0 0 v t) ∧
        (stamp ≤ x.activeHalf.stamp → t.waymark slot = { x with stale := x.stale + 1 }) ∧
        (x.activeHalf.stamp < stamp → Memory.wf x.idleHalf.payload = true →
          (t.waymark slot).activeHalf.seq = x.activeHalf.seq + 1 ∧ (t.waymark slot).activeHalf.stamp = stamp ∧
          (t.waymark slot).activeHalf.length = BitVec.ofNat 8 len ∧
          (t.waymark slot).activeHalf.writer = BitVec.ofNat 8 w.ctx ∧
          (∀ i < len, ((t.waymark slot).activeHalf.payload.get 0 i).toNat = s.rawByte o.mem (addr i)) ∧
          (t.waymark slot).idleHalf = x.activeHalf ∧ (t.waymark slot).stale = x.stale) ∧
        (∀ n, n ≠ slot → t.waymark n = s.waymark n) ∧ Only (.waymarks :: doneParts) s t) ∧
    (o.mem = .sward ∨ o.mem = .lpddr → Map.wf Ecc.clean (s.space o.mem.mem).marks = true →
      (∃ i < len, (s.space o.mem.mem).marks.get Ecc.clean (addr i / 8) = .ue ∨
        (s.space o.mem.mem).marks.get Ecc.clean (addr i / 8) = .poison) →
      Goes (exec (.waymarkCommit e) s) fun t => t.waymarks = s.waymarks ∧
        (∃ st d v, st ≠ 0 ∧ Ends w st d v t) ∧ Only doneParts s t)

/-- NOP completes GOOD; PLAN_ADMIT compares the plan's upper bounds with the context's shares, writes the two deficits
whatever the outcome, and completes with the status that the first non-zero one gives (R175, Table 8.8; its words with
at most two stuck bits each, beyond which their content is open, 08 R396). COPY and FILL write each destination byte
with the value that the source or the pattern gives it, leave every other byte of the three memories alone but for the
SUM fields of a ZP_SUM destination, which take the sum of the row's codes (10 R214; that the Transfer Engines write
them is the model's reading, log 50), and take one step per destination line (R236). Words with more than one stuck
bit, which may be open once they are poisoned, are ruled out there. -/
def Obligations.TransferEnginesRun : Prop :=
  (∀ (e : Fin 19) (s : State) (w : Waybill) (c : CtxInfo),
    (Runs e (classOf e) 0 w c s → Goes (exec (.nop e) s) fun t =>
      Ends w 0 0 (s.touchSpans c w) t ∧ Only doneParts s t) ∧
    (Runs e 3 2 w c s → s.canonical = true → (∀ p ∈ s.mem.sward.hard, p.2 ≤ 2) → (∀ p ∈ s.mem.lpddr.hard, p.2 ≤ 2) →
      let sw := fieldAt w.bytes 20 4 - c.swSize
      let lp := fieldAt w.bytes 32 8 - (c.lpBase + c.lpSize + 0x1000000000)
      let dst := s.locate c w.result
      Goes (exec (.planAdmit e) s) fun t => ∃ v : State,
        Ends w (if sw ≠ 0 then 0x2302 else if lp ≠ 0 then 0x2303 else 0) 0 v t ∧
        (dst.1 ≠ .none → ∀ k < 16, v.rawByte dst.1 (dst.2 + k) = ((le 8 sw ++ le 8 lp).getD k 0).toNat) ∧
        Only memParts s v ∧ Only doneParts s t)) ∧
  (∀ (e : Fin 19) (stores : List HostStore) (s u : State) (w : Waybill) (c : CtxInfo), u = s.hostStores stores →
    u.canonical = true → (∀ p ∈ u.mem.sward.hard, p.2 ≤ 1) → (∀ p ∈ u.mem.lpddr.hard, p.2 ≤ 1) → u.mem.pendGran = [] →
    (c.isChecked && w.direct) = false →
    let o := u.operand c w 1
    let i := u.operand c w 0
    let sumAt := fun (m : OpMem) (x : Nat) => o.qmode = 5 ∧ m = o.scaleMem ∧
      ∃ r < o.rows, o.scaleAddr r + 8 ≤ x ∧ x < o.scaleAddr r + 12
    let writes := fun (bytes : List XeByte) (codes : Nat → List Nat) (t : State) => ∃ (st d : Nat) (v : State),
      Ends w st d (v.count c.ctx 15 (cutLines bytes).length) t ∧
      (∀ x ∈ bytes, ¬ sumAt o.mem x.dst → (∀ y ∈ bytes, y.dst = x.dst → y.val = x.val) →
        v.rawByte o.mem x.dst = x.val.toNat) ∧
      (∀ m a, ¬ sumAt m a → m ≠ o.mem ∨ (∀ x ∈ bytes, x.dst ≠ a) → v.rawByte m a = u.rawByte m a) ∧
      (o.qmode = 5 → o.scaleMem ≠ .none →
        (∀ r1 r2, r1 < r2 → r2 < o.rows → o.scaleAddr r1 + 12 ≤ o.scaleAddr r2) → ∀ r < o.rows, ∀ k < 4,
          v.rawByte o.scaleMem (o.scaleAddr r + 8 + k) =
            ((le 4 (unsigned 32 ((codes r).map (codeInt o.fmt)).sum)).getD k 0).toNat) ∧
      Only memParts s v ∧ Only doneParts s t
    o.mem ≠ .none →
    (Runs e 3 0x401 w c u → Goes (exec (.copy e stores) s)
      (writes (u.copyBytes i o) fun r => (List.range (i.dim 0)).map (u.codeAt i r))) ∧
    (stores = [] → Runs e 3 0x402 w c u → Goes (exec (.fill e) s) (writes (fillBytes w o) fun _ => fillCodes w o)))

/-- The Attention Engines. POOL_INIT leaves every block free and every sequence empty (R246); SEQ_RESET empties a
sequence and takes one step per block, at least one (R248); KV_APPEND refuses what does not fit and else extends its
sequence (R249); PREFIX_LOOKUP leaves a sequence that does not end at a whole block of the tree, one that ends in a
part of a block and one whose last block is private, and matches nothing there (R252); ATTEND refuses more keys than
the sequence has (R257) and changes no pool. Whatever the outcome, the waybill completes. -/
def Obligations.AttentionEnginesRun : Prop :=
  ∀ (e : Fin 19) (s : State) (w : Waybill) (c : CtxInfo),
    let u := s.touchSpans c w
    let n := byteAt w.bytes 52
    (∀ p ∈ [(Instr.poolInit e, 0x301), (.seqReset e, 0x302), (.prefixLookup e, 0x303), (.kvAppend e, 0x304),
        (.attend e, 0x305)],
      Runs e 2 p.2 w c s → u.poolOf w.ctx = none → Goes (exec p.1 s) fun t => Ends w 0x4402 0 u t ∧ Only doneParts s t) ∧
    ∀ p : Pool, u.poolOf w.ctx = some p → Map.wf PoolBlock.init p.blk = true → Map.wf PoolSeq.init p.seq = true →
      let q := p.seqOf w.ctx n
      let len := (u.operand c w 1).dim 0
      (Runs e 2 0x301 w c s → Goes (exec (.poolInit e) s) fun t => ∃ v : State,
        Ends w 0 0 (v.count c.ctx 14
          ((4096 + u.memberCount c * p.seqs * (64 + 4 * p.maxb) + 64 * p.nBlocks) / 64)) t ∧
        v.poolOf w.ctx = some { p with ready := true, blk := [], seq := [] } ∧ Only doneParts s t) ∧
      (Runs e 2 0x302 w c s → Goes (exec (.seqReset e) s) fun t => ∃ (v : State) (r : Pool),
        Ends w 0 0 (v.count c.ctx 14 (max 1 q.blocks.length)) t ∧ v.poolOf w.ctx = some r ∧
        r.seqOf w.ctx n = PoolSeq.init ∧
        (q.blocks.Nodup → ∀ i, r.block i = if i ∈ q.blocks then
          (if (p.block i).tree then { p.block i with refs := (p.block i).refs - 1 } else PoolBlock.init) else p.block i) ∧
        Only doneParts s t) ∧
      (Runs e 2 0x303 w c s → Goes (exec (.prefixLookup e) s) fun t => ∃ (st d k : Nat) (v : State) (r : Pool),
        Ends w st d (v.count c.ctx 14 k) t ∧ 1 ≤ k ∧ v.poolOf w.ctx = some r ∧
        (q.tokens % 64 ≠ 0 ∨ (∃ i, q.blocks.getLast? = some i ∧ (p.block i).tree = false) →
          r.seqOf w.ctx n = q ∧ r.blk = p.blk ∧ k = 1 ∧ v.counter c.ctx 26 = s.counter c.ctx 26 ∧
          v.counter c.ctx 27 = s.counter c.ctx 27) ∧ q.tokens ≤ (r.seqOf w.ctx n).tokens ∧
        q.blocks <+: (r.seqOf w.ctx n).blocks ∧ Only doneParts s t) ∧
      (Runs e 2 0x304 w c s → Goes (exec (.kvAppend e) s) fun t => Only doneParts s t ∧
        (64 * p.maxb < q.tokens + len → Ends w 0x4602 0 u t) ∧
        (q.tokens + len ≤ 64 * p.maxb → p.takeBlocks ((q.tokens + len + 63) / 64 - q.blocks.length) = none →
          Ends w 0x4601 0 u t) ∧
        ∀ l p1, q.tokens + len ≤ 64 * p.maxb → p.takeBlocks ((q.tokens + len + 63) / 64 - q.blocks.length) = some (l, p1) →
          ∃ (st d k : Nat) (v : State) (r : Pool), Ends w st d (v.count c.ctx 14 k) t ∧ v.poolOf w.ctx = some r ∧
            r.seqOf w.ctx n = { blocks := q.blocks ++ l, tokens := q.tokens + len }) ∧
      (Runs e 2 0x305 w c s → Goes (exec (.attend e) s) fun t => Only doneParts s t ∧
        (q.tokens < (u.attnShape c w).nk → Ends w 0x4603 0 u t) ∧
        ((u.attnShape c w).nk ≤ q.tokens → ∃ (st d : Nat) (v : State),
          Ends w st d (v.count c.ctx 14 (u.attnSteps (u.attnShape c w) (u.operand c w 2) p.dl)) t ∧
          v.pools = s.pools ∧ Only memParts s v))

/-- The Intake Engine's stream operators: one that names a stream that is not open completes 0x4701 (R262). When a
STREAM_OPEN starts, it opens its stream, or takes 0x4702 where its number, a place, its source or picture store is
lacking, and completes so (R262, R266); STREAM_CLOSE closes (R266); FEED takes its bytes whole or none (R272); AUG_SET
takes a recipe of the stream's kind only. When a DECODE starts, it takes the head of the delivery queue, or the record
of the pictures skipped; having taken nothing it completes 0x1702, and it keeps nothing of what it took (R269, R270).
-/
def Obligations.StreamOperatorsAct : Prop :=
  ∀ (e : Fin 19) (s : State) (w : Waybill) (c : CtxInfo), Map.wf none s.intake.streams = true →
    let u := s.touchSpans c w
    let n := byteAt w.bytes 16
    let m := byteAt w.bytes 52
    let len := byteAt w.bytes 17
    let data := (w.bytes.drop 20).take len
    let used := (s.intake.streams.map fun p => (p.2.map (·.reserve)).getD 0).sum
    let lacks := (s.stream w.ctx n).isSome = true ∨ 16 ≤ s.intake.streams.length ∨
      s.sourceFree w.ctx len (byteAt w.bytes 18) = false ∨ 50331648 < used + s.reserveFor w
    (∀ p ∈ [(Instr.streamClose e, 0x502, n), (.feed e, 0x503, n), (.augSet e, 0x504, n), (.decode e, 0x505, m),
        (.tokenise e, 0x508, m), (.packEmit e, 0x509, m), (.streamStats e, 0x50A, m)],
      Runs e 4 p.2.1 w c s → Goes (exec p.1 s) fun t => (∃ st d v, Ends w st d v t) ∧ Only (.intake :: doneParts) s t ∧
        (s.stream w.ctx p.2.2 = none → Ends w 0x4701 0 u t)) ∧
    (w.wclass = 4 → w.opcode = 0x501 → (lacks → s.ieTake w = (0x4702, s)) ∧
      (¬ lacks → (s.ieTake w).1 = 0 ∧ (s.ieTake w).2.stream w.ctx n = some (s.openedStream w) ∧
        (s.openedStream w).counters = [] ∧ Only [.intake, .mem] s (s.ieTake w).2)) ∧
    (Runs e 4 0x501 w c s → Goes (exec (.streamOpen e) s) fun t => (∃ v : State, Ends w w.intake 0 v t) ∧
      t.intake = s.intake ∧ Only doneParts s t) ∧
    ∀ x : Stream,
      (s.stream w.ctx n = some x → Runs e 4 0x502 w c s → Goes (exec (.streamClose e) s) fun t =>
        (∃ v, Ends w 0 0 v t) ∧ t.stream w.ctx n = none) ∧
      (s.stream w.ctx n = some x → Runs e 4 0x503 w c s → Goes (exec (.feed e) s) fun t =>
        (x.kind = 0 ∨ x.kind = 2 → Ends w 0x4708 0 u t) ∧
        (x.kind = 1 ∨ x.kind = 3 →
          (x.capacity < x.buffered + len → (∃ v, Ends w 0x1703 0 v t) ∧ t.stream w.ctx n = some (x.bump 15 1)) ∧
          (x.buffered + len ≤ x.capacity → x.unitLimit < x.openUnit.length + len →
            (∃ v, Ends w 0x4707 0 v t) ∧ (t.stream w.ctx n).map (·.openUnit) = some []) ∧
          (x.buffered + len ≤ x.capacity → x.openUnit.length + len ≤ x.unitLimit → (∃ v, Ends w 0 0 v t) ∧
            ((byteAt w.bytes 18).testBit 0 = false →
              (t.stream w.ctx n).map (fun y => (y.openUnit, y.units)) = some (x.openUnit ++ data, x.units)) ∧
            ((byteAt w.bytes 18).testBit 0 = true →
              (t.stream w.ctx n).map (fun y => (y.openUnit, y.units.map (·.1))) =
                some ([], x.units.map (·.1) ++ [x.openUnit ++ data]))))) ∧
      (s.stream w.ctx n = some x → Runs e 4 0x504 w c s → Goes (exec (.augSet e) s) fun t =>
        let ents := (List.range len).map fun k => (w.bytes.drop (32 + 8 * k)).take 8
        ((∃ r ∈ ents, (byteAt r 2 == 5) ≠ (x.kind == 3)) → Ends w 0x4708 0 u t) ∧
        ((∀ r ∈ ents, (byteAt r 2 == 5) = (x.kind == 3)) → (∃ v, Ends w 0 0 v t) ∧
          (t.stream w.ctx n).map (fun y => (y.recipe, y.seed)) = some (ents, BitVec.ofNat 64 (fieldAt w.bytes 24 8)))) ∧
      (s.stream w.ctx m = some x → w.wclass = 4 → w.opcode = 0x505 → x.taking = none → x.latest = false →
        s.ieTake w = (0, s.setStream w.ctx m (some { x with
          taking := some { pic := if x.skipReason = 0 then x.pics.head? else none, skip := x.skipReason, dropped := x.dropped }
          pics := if x.skipReason = 0 then x.pics.drop 1 else x.pics, skipReason := 0, dropped := 0 }))) ∧
      (s.stream w.ctx m = some x → Runs e 4 0x505 w c s → Goes (exec (.decode e) s) fun t =>
        (x.kind = 3 ∨ (x.kind = 2 ∧ byteAt w.bytes 53 = 1) → ∃ v, Ends w 0x4708 0 v t) ∧
        (x.kind < 2 → (∀ k, x.taking = some k → k.skip = 0 ∧ k.pic = none) → ∃ v, Ends w 0x1702 0 v t) ∧
        (t.stream w.ctx m).map (·.taking) = some none)

/-- Background decode, dictionaries, tokens and packing. PICTURE_DECODED consumes the oldest unit; the picture is what
the decoder makes of the stream's units so far (R277), and joins the delivery queue only when it is not corrupt, a
full queue dropping its oldest; a picture whose reference is not held is corrupt (R268, R269). A bit upset in a frame
store makes its word correctable, a double one uncorrectable (R268; that upsets come with this command is the model's
choice, log 21). DICT_LOAD takes all its records or none, and 0x4702 where no dictionary was left at its start (R262,
R273); DICT_SEAL seals (R274); TOKENISE and PACK_EMIT refuse a stream that is not text, and complete 0x1702 without a
unit or a row (R276, R279); STREAM_STATS with CLEAR leaves zeroed counters (R281). -/
def Obligations.TextOperatorsAct : Prop :=
  (∀ (k : Fin 256) (j : Fin 16) (ups : List StoreUpset) (s : State) (x : Stream), Map.wf none s.intake.streams = true →
    s.stream k j = some x →
    (x.units = [] ∨ 2 ≤ x.kind ∨ s.stationFenced 18 = true ∨ s.active = false →
      exec (.pictureDecoded k j ups) s = .next (ups.foldl (fun (t : State) a => t.upset (k * 16 + j) a) s)) ∧
    ∀ unit rest, x.units = unit :: rest → x.kind < 2 → s.stationFenced 18 = false → s.active = true →
      let c := Config.decodePicture x.codec (x.history ++ [unit.1])
      let r := x.verdict unit.2.2 true c
      Goes (exec (.pictureDecoded k j ups) s) fun t => ∃ y : Stream, t.stream k j = some y ∧ y.units = rest ∧
        y.history = x.history ++ [unit.1] ∧ y.ordinal = x.ordinal + 1 ∧ Only (.intake :: memParts) s t ∧
        (c.uses = [] → r ≠ 0 → y.pics = x.pics ∧ y.broken = true ∧ y.skipReason = r) ∧
        (c.uses = [] → r = 0 → y.broken = false ∧ ∃ p : Picture,
          y.pics = (if x.outQ ≤ x.pics.length then x.pics.drop 1 else x.pics) ++ [p] ∧
          (p.width, p.height) = codedSize c ∧ p.ordinal = x.ordinal + 1 ∧ p.stamp = unit.2.1) ∧
        ((∃ b ∈ c.uses, c.refresh = true ∨ ∀ p ∈ x.refPics, p.ordinal + b ≠ x.ordinal + 1) →
          y.broken = true ∧ y.skipReason ≠ 0)) ∧
  (∀ (key : Nat) (a : StoreUpset) (s : State),
    let w := key * (storeSpan / 8) + a.word % (storeSpan / 8)
    (s.mem.pic.marks.get Ecc.clean w = .clean →
      (s.upset key a).mem.pic.marks.get Ecc.clean w = (if a.double then .ue else .corr)) ∧
    (s.mem.pic.marks.get Ecc.clean w = .corr → (s.upset key a).mem.pic.marks.get Ecc.clean w = .ue) ∧
    (s.upset key a).mem.pic.cells = s.mem.pic.cells) ∧
  ∀ (e : Fin 19) (s : State) (w : Waybill) (c : CtxInfo), Map.wf none s.intake.streams = true →
    Map.wf none s.intake.dicts = true →
    let u := s.touchSpans c w
    let n := byteAt w.bytes 16
    let m := byteAt w.bytes 52
    (w.wclass = 4 → w.opcode = 0x506 → s.dict w.ctx n = none → s.ieTake w =
      if 4 ≤ s.intake.dicts.length then (0x4702, s) else (1, s.setDict w.ctx n (some Dict.init))) ∧
    (Runs e 4 0x506 w c s → Goes (exec (.dictLoad e) s) fun t => Only (.intake :: doneParts) s t ∧
      (w.intake = 0x4702 → Ends w 0x4702 0 u t ∧ t.intake = s.intake) ∧
      ∀ d all, d = (if (byteAt w.bytes 18).testBit 0 then Dict.init else (s.dict w.ctx n).getD Dict.init) →
        all = d.entries ++ (dictRecords w (byteAt w.bytes 17) 20).1 → w.intake ≠ 0x4702 →
        (d.isSealed = true → Ends w 0x4704 0 u t ∧ t.intake = s.intake) ∧
        (d.isSealed = false → 262144 < all.length ∨ 2097152 < (all.map fun p => p.1.length).sum →
          (∃ v, Ends w 0x4706 0 v t) ∧ t.dict w.ctx n = (if w.intake = 1 then none else s.dict w.ctx n)) ∧
        (d.isSealed = false → all.length ≤ 262144 → (all.map fun p => p.1.length).sum ≤ 2097152 →
          (∃ v, Ends w 0 0 v t) ∧ t.dict w.ctx n = some { d with entries := all })) ∧
    (Runs e 4 0x507 w c s → Goes (exec (.dictSeal e) s) fun t => Only (.intake :: doneParts) s t ∧
      (s.dict w.ctx n = none → Ends w 0x4704 0 u t) ∧
      ∀ d, s.dict w.ctx n = some d →
        (d.isSealed = true → Ends w 0x4704 0 u t) ∧
        (∀ i, d.isSealed = false → firstDuplicate d.entries = some i →
          (∃ v, Ends w 0x4705 i v t) ∧ t.intake = s.intake) ∧
        (d.isSealed = false → (d.entries.map (·.1)).Nodup → (∃ v, Ends w 0 0 v t) ∧
          t.dict w.ctx n = some { d with
            isSealed := true, byteBase := fieldAt w.bytes 20 3, padId := fieldAt w.bytes 24 3 })) ∧
    ∀ x : Stream, s.stream w.ctx m = some x →
      (Runs e 4 0x508 w c s → Goes (exec (.tokenise e) s) fun t =>
        (x.kind ≠ 3 → Ends w 0x4708 0 u t) ∧
        (∀ d, x.kind = 3 → s.dict w.ctx (byteAt w.bytes 53) = some d → d.isSealed = true →
          (byteAt w.bytes 54).testBit 1 = false →
          (x.units = [] → Ends w 0x1702 0 u t) ∧
          ∀ unit rest, x.units = unit :: rest → (t.stream w.ctx m).map (·.units) = some rest)) ∧
      (Runs e 4 0x509 w c s → Goes (exec (.packEmit e) s) fun t =>
        (x.kind ≠ 3 → Ends w 0x4708 0 u t) ∧ (x.kind = 3 → x.row = [] → Ends w 0x1702 0 u t) ∧
        (x.kind = 3 → x.row ≠ [] → (u.operand c w 1).dim 0 = x.rowLen → (u.operand c w 2).dim 0 = x.rowLen →
          (t.stream w.ctx m).map (fun y => (y.row, y.segs)) = some ([], 0))) ∧
      (Runs e 4 0x50A w c s → Goes (exec (.streamStats e) s) fun t =>
        (∃ st d v, Ends w st d v t) ∧
        t.stream w.ctx m = some (if (byteAt w.bytes 53).testBit 0 then { x with counters := [] } else x) ∧
        (Map.wf 0 s.mem.picCorr = true → (byteAt w.bytes 53).testBit 0 = true →
          t.mem.picCorr.get 0 (w.ctx * 16 + m) = 0))

/-! ### Cameras -/

/-- Camera packets and timing. An uncorrectable header discards its packet (R284); an accepted frame start opens a
frame and sets the EFN, one up in FREE mode and the pulse count in TRIGGER mode, whose frame carries the exposure of
the pulse EXPOSURE_DELAY before it (R285, R293); a TRIGGER-mode start without a new pulse is counted and opens none,
and a start whose ISP is fenced keeps the EFN going and opens none (R298); a line joins its frame; a frame end closes
it; anything else is counted. A pulse rises at its instant for its exposure, on a pin whose outputs are up (R292),
CAM_LOST is posted once (R297), and a finished frame's delivery count goes up unless its status is 0x1803 (R290,
R296); a fenced ISP finishes none (R298). -/
def Obligations.CameraCommandsAct : Prop :=
  (∀ (rx vc k : Fin 4) (s : State) (r : Rec), s.canonical = true → s.rxLive rx = true →
    s.camerasOf rx vc = [k.val] → s.sensor k = some r →
    let x := s.cam k
    (∀ (fn : BitVec 16) (dt : Byte) (crcOk overrun : Bool) (codes : List Nat), allBelow 16 codes = true →
      ∀ c ∈ [Instr.csiFrameStart rx vc .uncorrectable fn, .csiLinePacket rx vc dt .uncorrectable crcOk overrun codes,
          .csiFrameEnd rx vc .uncorrectable, .csiPacketDiscard rx vc dt .uncorrectable],
        exec c s = .next (s.modCam k (CamSt.bump 6 1))) ∧
    (∀ fn : BitVec 16, r.u 0x10 1 ≠ 1 → s.isFenced (0x13 + k) = false →
      Goes (exec (.csiFrameStart rx vc .ok fn) s) fun t => (t.cam k).efn = x.efn + 1 ∧ (t.cam k).lastStart = s.now ∧
        (t.cam k).resync = false ∧ (∃ f, (t.cam k).frame = some f ∧ f.stamp = s.now ∧ f.sensorFn = fn ∧
          f.efn = x.efn + 1 ∧ f.lines = [] ∧ f.flags = 0) ∧ Only (.cams :: memParts) s t) ∧
    (∀ fn : BitVec 16, r.u 0x10 1 = 1 → x.pulses ≠ x.pulsesAtFrame → s.isFenced (0x13 + k) = false →
      Goes (exec (.csiFrameStart rx vc .ok fn) s) fun t => (t.cam k).efn = BitVec.ofNat 32 x.pulses ∧
        (t.cam k).pulsesAtFrame = x.pulses ∧ (t.cam k).lastStart = s.now ∧ (t.cam k).resync = false ∧
        (∃ f, (t.cam k).frame = some f ∧ f.stamp = s.now ∧ f.sensorFn = fn ∧ f.efn = BitVec.ofNat 32 x.pulses ∧
          f.exposure = x.pulseExp.get (r.u 0x34 4) (x.pulses - r.u 0x1C 1) ∧ f.lines = [] ∧ f.flags = 0) ∧
        Only (.cams :: memParts) s t) ∧
    (∀ fn : BitVec 16, r.u 0x10 1 ≠ 1 → s.isFenced (0x13 + k) = true →
      Goes (exec (.csiFrameStart rx vc .ok fn) s) fun t => (t.cam k).efn = x.efn + 1 ∧ (t.cam k).frame = none ∧
        (t.cam k).resync = true ∧ (t.cam k).lastStart = s.now ∧ Only (.cams :: memParts) s t) ∧
    (∀ fn : BitVec 16, r.u 0x10 1 = 1 → x.pulses = x.pulsesAtFrame →
      exec (.csiFrameStart rx vc .ok fn) s = .next (s.modCam k fun y => { y.bump 7 1 with resync := true })) ∧
    (∀ (dt : Byte) (crcOk : Bool) (codes : List Nat) (f : CamFrame), allBelow 16 codes = true → x.frame = some f →
      x.resync = false → camDt r = dt.toNat → f.lines.length < camHeight r →
      Goes (exec (.csiLinePacket rx vc dt .ok crcOk false codes) s) fun t => Only [.cams] s t ∧
        (t.cam k).frame.map (fun g => (g.lines, g.bad)) = some (if crcOk
          then (f.lines ++ [some ((linePixels r codes).take (camWidth r))], f.bad) else (f.lines ++ [none], f.bad + 1))) ∧
    (∀ (dt : Byte) (crcOk overrun : Bool) (codes : List Nat), allBelow 16 codes = true →
      x.frame = none ∨ x.resync = true ∨ camDt r ≠ dt.toNat →
      exec (.csiLinePacket rx vc dt .ok crcOk overrun codes) s = .next (s.modCam k (CamSt.bump 6 1))) ∧
    (∀ f : CamFrame, x.frame = some f → x.resync = false → Goes (exec (.csiFrameEnd rx vc .ok) s) fun t =>
      (t.cam k).frame = none ∧ (∃ g, (t.cam k).done = x.done ++ [g] ∧ g.lines = f.lines ∧ g.ended = some s.now) ∧
      Only [.cams] s t) ∧
    ∀ dt : Byte, exec (.csiPacketDiscard rx vc dt .ok) s =
      .next (if (dt = 2 ∨ dt = 3) ∧ x.resync = false ∧ s.isFenced (0x13 + k) = false then s
        else s.modCam k (CamSt.bump 6 1))) ∧
  ∀ (k : Fin 4) (s : State) (r : Rec), s.canonical = true → s.camerasLive = true → s.sensor k = some r →
    let x := s.cam k
    let driven := fun (level : Bool) (t : State) =>
      (s.outputsUp = true → (t.cam k).trigPin = level ∧
        t.out = s.out ++ (if x.trigPin = level then [] else [.trig k level])) ∧
      (s.outputsUp = false → (t.cam k).trigPin = x.trigPin ∧ t.out = s.out)
    (∀ f : CamFrame, x.frame = some f →
      let limit := if r.u 0x10 1 = 1 then r.u 0x14 4 else r.u 0x28 4
      (f.stamp + limit ≤ s.now → Goes (exec (.frameEndTimeout k) s) fun t => (t.cam k).frame = none ∧
        (∃ g, (t.cam k).done = x.done ++ [g] ∧ g.lines = f.lines ∧ g.flags.getLsbD 4 = true) ∧ Only [.cams] s t) ∧
      (s.now < f.stamp + limit → exec (.frameEndTimeout k) s = .next s)) ∧
    (∀ (f : CamFrame) (rest : List CamFrame), x.done = f :: rest →
      (s.isFenced (0x13 + k) = true ∨ s.isFenced 0x60 = true → exec (.frameRecordWrite k) s = .next s) ∧
      (s.isFenced (0x13 + k) = false → s.isFenced 0x60 = false → Map.wf 0 x.delivery = true → Map.wf 0 x.dropCount = true →
        Goes (exec (.frameRecordWrite k) s) fun t => (t.cam k).done = rest ∧ Only (.cams :: .intake :: memParts) s t ∧
          ∀ b ∈ s.branches k, b.u 0xB 1 = 0 → let n := b.u 9 1
            if frameStatus r f = 0x1803 then (t.cam k).delivery.get 0 n = x.delivery.get 0 n ∧
              (t.cam k).dropCount.get 0 n = min 0xFFFF (x.dropCount.get 0 n + 1)
            else (t.cam k).delivery.get 0 n = x.delivery.get 0 n + 1 ∧ (t.cam k).dropCount.get 0 n = 0)) ∧
    (∀ p : Nat, r.u 0x10 1 = 1 → x.nextPulse = some p →
      (s.now < p → exec (.triggerPulse k) s = .next s) ∧
      (p ≤ s.now → x.decided = none → Goes (exec (.triggerPulse k) s) fun t =>
        (t.cam k).pulses = x.pulses + 1 ∧ (t.cam k).trig = true ∧ (t.cam k).trigFall = p + x.exposureNow ∧
        (t.cam k).nextPulse = some (p + r.u 0x14 4) ∧ driven (r.u 0x11 1 == 0) t ∧ Only [.cams, .out] s t)) ∧
    (x.trig = true → x.trigFall ≤ s.now → Goes (exec (.triggerPulseEnd k) s) fun t =>
      (t.cam k).trig = false ∧ (t.cam k).pulses = x.pulses ∧ (t.cam k).nextPulse = x.nextPulse ∧
      driven (r.u 0x11 1 != 0) t ∧ Only [.cams, .out] s t) ∧
    (x.lossArmed = true → x.lostPosted = false → x.lastStart + r.u 0x28 4 ≤ s.now →
      Goes (exec (.camLost k) s) fun t => (t.cam k).lostPosted = true ∧ (∃ u : State, t = u.post 0x0803 k none) ∧
        Only [.cams, .events, .irq, .out] s t) ∧
    (x.lossArmed = false ∨ x.lostPosted = true ∨ s.now < x.lastStart + r.u 0x28 4 → exec (.camLost k) s = .next s)

/-! ### Encoders and loops -/

/-- Encoder channels. Of the bits that N clock cycles read, the first is dropped and code, status and CRC follow,
highest bit first (R367). An invalid SSI sample keeps position and previous code, counts and names its cause (R368,
R369); the first valid code gives the position outright, and an unchanged code leaves it (R369); an ABZ sample scales
the latched count, and an illegal transition makes it invalid (R370); each loop that waits on the channel gets the
position. A channel without a loop clocks its encoder once a millisecond. The input filter drops a level held for less
than 20 ns (R370); CAPTURE and HOME act at a Z edge (R371). One A or B edge moves the count by one, back again for the
way back, and an illegal one moves nothing (R370); which way is forward is a free value (log 23). The levels are
followed whatever the device state is. -/
def Obligations.EncoderCommandsAct : Prop :=
  (∀ (ch : Fin 16) (s : State) (r : Rec), s.canonical = true → s.encRec ch = some r → s.islandLive = true →
    let x := s.enc ch
    let delivered := fun (t : State) => ∀ l ∈ s.encLoops ch, (s.loop l).sample.isSome = true →
      (s.loop l).inReady = false → (t.loop l).inReady = true ∧ (t.loop l).inPos = (t.enc ch).pos ∧
        (t.loop l).inValid = !(t.enc ch).invalid
    (∀ (low : Bool) (bits : List Bool),
      let w := r.u 0xE 1
      let c := (ssiParts r bits).1 % 2 ^ w
      let lsb : Int := 2 ^ (24 - r.u 0xF 1)
      let cause := ssiCause r low bits
      (bits.length = ssiCycles r → ssiParts r bits = (bitsNat ((bits.drop 1).take w),
        bitsNat ((bits.drop (1 + w)).take (r.u 0x10 1)), bitsNat (bits.drop (1 + w + r.u 0x10 1)))) ∧
      (encAbz r = false → x.busy = true → x.readyAt ≤ s.now →
      Goes (exec (.encoderPositionReady ch (.ssi low bits)) s) fun t => let y := t.enc ch
        y.busy = false ∧ delivered t ∧ Only [.ports, .loops] s t ∧
        (cause ≠ 0 → y.pos = x.pos ∧ y.codePrev = x.codePrev ∧ y.invalid = true ∧ y.cause = cause ∧
          y.errCount = min 0xFFFFFFFF (x.errCount + 1)) ∧
        (cause = 0 → y.invalid = false ∧ y.errCount = x.errCount) ∧
        (cause = 0 → r.u 0xD 1 ≠ 1 → y.codePrev = some c ∧
          (x.codePrev = none → y.pos = wrapTo 48 (c * lsb + r.i 0x28 8)) ∧
          (x.codePrev = some c → y.pos = wrapTo 48 x.pos)))) ∧
    (encAbz r = true → x.busy = true → x.readyAt ≤ s.now →
      Goes (exec (.encoderPositionReady ch .abz) s) fun t => let y := t.enc ch
        y.busy = false ∧ delivered t ∧ Only [.ports, .loops] s t ∧
        (x.latchedBad = true → y.pos = x.pos ∧ y.invalid = true ∧ y.cause = 5) ∧
        (x.latchedBad = false → y.invalid = false ∧
          y.pos = wrapTo 48 (rneInt (x.latched * 2 ^ 24) (r.u 0x1C 4) + r.i 0x28 8))) ∧
    (∀ o : EncSample, x.busy = false ∨ s.now < x.readyAt ∨ sampleFits r o = false →
      exec (.encoderPositionReady ch o) s = .next s) ∧
    (∀ o : EncSample, s.encLoops ch = [] → sampleFits r o = true →
      (x.readyAt / 1000000 < s.now / 1000000 → Goes (exec (.encoderFreeSample ch o) s) fun t =>
        (t.enc ch).busy = false ∧ (t.enc ch).readyAt = s.now ∧ Only [.ports, .out] s t ∧
        t.out = s.out ++ (if s.outputsUp = true ∧ encAbz r = false then [.encClock ch (ssiCycles r)] else [])) ∧
      (s.now / 1000000 ≤ x.readyAt / 1000000 → exec (.encoderFreeSample ch o) s = .next s)) ∧
    (∀ z : EncEdge, z.ch = ch → encAbz r = true → 20 ≤ z.heldNs → Goes (exec (.encZEdge z) s) fun t =>
      let y := t.enc ch
      y.zSeen = true ∧ Only [.ports] s t ∧
      (r.u 0x20 1 = 1 → y.zCap = x.count ∧ y.zStamp = s.now ∧ y.count = x.count) ∧
      (r.u 0x20 1 = 2 → y.homed = true ∧ y.count = if x.homed then x.count else 0)) ∧
    (∀ z : EncEdge, z.ch = ch → encAbz r = false → exec (.encZEdge z) s = .next s) ∧
    (∀ (e : EncEdge) (a b : Bool), e.ch = ch → encAbz r = true → 20 ≤ e.heldNs → Goes (exec (.encAbEdge e a b) s) fun t =>
      let y := t.enc ch
      y.levA = a ∧ y.levB = b ∧ Only [.ports] s t ∧
      (x.levA ≠ a → x.levB ≠ b → y.illegal = true ∧ y.count = x.count) ∧
      (x.levA = a → x.levB = b → y.count = x.count ∧ y.illegal = x.illegal) ∧
      ((x.levA ≠ a) ≠ (x.levB ≠ b) → y.illegal = x.illegal ∧
        (y.count = wrapTo 48 (x.count + 1) ∨ y.count = wrapTo 48 (x.count - 1))))) ∧
  (∀ (s : State) (e : EncEdge) (a b : Bool),
    (e.heldNs < 20 → exec (.encZEdge e) s = .next s ∧ exec (.encAbEdge e a b) s = .next s) ∧
    (20 ≤ e.heldNs → (s.encRec e.ch).any encAbz = false → Goes (exec (.encAbEdge e a b) s) fun t =>
      (t.enc e.ch).levA = a ∧ (t.enc e.ch).levB = b ∧ (t.enc e.ch).count = (s.enc e.ch).count ∧
      (t.enc e.ch).illegal = (s.enc e.ch).illegal ∧ Only [.ports] s t)) ∧
  ∀ a0 b0 a b : Bool, (a0 ≠ a) ≠ (b0 ≠ b) → abStep a0 b0 a b + abStep a b a0 b0 = 0

/-- Sampling and the choice of the loop. At a sample instant the sample begins, its actuation instant is noted, and a
due mode change and a due table commit take effect (R303, R315, R322); the Control Engine takes the ready loop with
the earliest actuation instant, the lower number among equals (R304); a mark falls 1 µs after it rose (18 R384). -/
def Obligations.SamplesAreTakenInOrder : Prop :=
  (∀ (l : Fin 32) (s : State) (r : Rec) (p : Nat), s.canonical = true → s.loopRec l = some r →
    (s.loop l).nextSample = some p → s.islandLive = true →
    let x := s.loop l
    (s.now < p → exec (.loopSampleInstant l) s = .next s) ∧
    (p ≤ s.now → Goes (exec (.loopSampleInstant l) s) fun t => let y := t.loop l
      y.sample = some p ∧ y.nextSample = some (p + loopPeriod r) ∧ y.actPend = x.actPend ++ [(p + loopDelay r, false)] ∧
      (x.reinitAt = none → y.out = x.out ∧ y.integ = x.integ ∧ y.posPrev = x.posPrev) ∧
      (∀ m out q, x.reinitAt = none → x.modeReq = some (m, out, q) → q ≤ p → y.manual = m ∧ y.modeReq = none) ∧
      (∀ q, x.reinitAt = none → x.commitTbl = some (0, q) → q ≤ p →
        y.tables = { x.tables with gain := x.shadow.gain } ∧ y.commitTbl = none) ∧
      Only [.loops, .ports, .out] s t)) ∧
  (∀ (s : State) (l : Nat), s.nextLoop = some l → ∃ a, s.readyAt l = some a ∧
    ∀ m < 32, ∀ b, s.readyAt m = some b → a < b ∨ (a = b ∧ l ≤ m)) ∧
  ∀ (k : Fin 16) (s : State), s.canonical = true → Map.wf 0 s.ports.gpio.marks = true →
    let p := s.ports.gpio.marks.get 0 k
    (p = 0 ∨ s.now < p → exec (.sampleMarkEnd k) s = .next s) ∧
    (p ≠ 0 → p ≤ s.now → Goes (exec (.sampleMarkEnd k) s) fun t =>
      t.ports.gpio.marks.get 0 k = 0 ∧ t.out = s.out ++ [.mark k false] ∧ Only [.ports, .out] s t)

/-- Evaluation and actuation, of loops of every KIND. An evaluation that agrees commits an output between OUT_MIN and
OUT_MAX while its actuation instant is ahead, the manual output in MANUAL; a late one and one that diverges commit
nothing (R317, R320); a Waymark-feedback loop that has no FB value is input-invalid and keeps its output, integrator
and previous values (R311, R318); a divergence is a lockstep fault at every evaluation (R320); a STOP fallback that
requests its stop raises its fault before LOOP_FALLBACK is posted (R311, 19 R389); an uncorrectable CI word is a CI
memory fault (R321). At A a sample without a compared commit counts LATE, and K of them in a row make the loop's stop
demand (R317, R332). A diagnostic divergence that nothing forced is a lockstep fault, and a forced one that is not
flagged an internal fault (R326, R327). -/
def Obligations.EvaluationsCommitOnlyInTime : Prop :=
  (∀ (s : State) (l p : Nat) (r : Rec), s.canonical = true → s.islandLive = true → s.nextLoop = some l →
    s.loopRec l = some r → (s.loop l).sample = some p →
    let x := s.loop l
    let due := p + loopDelay r
    let reads := s.readAll r x p
    let fed := r.u 9 1 ≤ 1 ∨ (valueOf reads 2).isSome = true
    exec (.loopEvaluation .memoryUe) s =
      .next ((s.modLoop l fun y => { y with sample := none }).raise 0x8A04 0xFF .immediate 0) ∧
    Goes (exec (.loopEvaluation .agree) s) (fun t => let y := t.loop l
      y.sample = none ∧ Only (.loops :: raiseParts) s t ∧
      (∃ u : State, t = State.postFallbacks l x reads
        (if stopRequested x reads = true then u.raise 0x8A0D l (s.stopCat l) 0 else u)) ∧
      (¬ fed → y.out = x.out ∧ y.integ = x.integ ∧ y.posPrev = x.posPrev ∧ y.lastSample = x.lastSample ∧
        y.actPend = x.actPend ∧ y.lateRun = x.lateRun) ∧
      (fed → y.lastSample = p) ∧
      (fed → s.now < due → (r.i 0x4C 4 ≤ r.i 0x50 4 → r.i 0x4C 4 ≤ y.out ∧ y.out ≤ r.i 0x50 4) ∧ y.lateRun = 0 ∧
        y.lastLate = false ∧ (x.manual = true → y.out = clampTo (r.i 0x4C 4) (r.i 0x50 4) x.manualOut) ∧
        y.actPend = x.actPend.map fun q => if q.1 = due then (q.1, true) else q) ∧
      (fed → due ≤ s.now → y.out = x.out ∧ y.actPend = x.actPend ∧ y.lateRun = x.lateRun)) ∧
    Goes (exec (.loopEvaluation .diverge) s) fun t =>
      (t.loop l).out = x.out ∧ (t.loop l).actPend = x.actPend ∧ (∃ u : State, t = u.raise 0x8A01 0xFF .immediate 0) ∧
      t.verge.stop = .immediate ∧ t.verge.stoA = false ∧ t.verge.stoB = false) ∧
  (∀ (l : Fin 32) (s : State) (r : Rec) (a : Nat) (ok : Bool) (rest : List (Nat × Bool)), s.canonical = true →
    s.loopRec l = some r → (s.loop l).actPend = (a, ok) :: rest → s.islandLive = true →
    let x := s.loop l
    (s.now < a → exec (.loopActuation l) s = .next s) ∧
    (a ≤ s.now → Goes (exec (.loopActuation l) s) fun t => let y := t.loop l
      y.actPend = rest ∧ y.out = x.out ∧ Only (.cans :: raiseParts) s t ∧
      (ok = true → y.lateCount = x.lateCount ∧ y.lateRun = x.lateRun ∧
        (r.u 0x19 1 = 2 → (t.pwm (r.u 0x1A 1)).cmd = s.output l ∧ (t.pwm (r.u 0x1A 1)).nextPeriod = some a)) ∧
      (ok = false → y.lateCount = min 0xFFFFFFFF (x.lateCount + 1) ∧ y.lastLate = true ∧ y.lateRun = x.lateRun + 1 ∧
        (x.lateRun + 1 = s.lateLimit l → ∃ u : State, t = u.raise 0x8A0C l (s.stopCat l) (x.lateRun + 1))))) ∧
  ∀ (diverged flagged forced : Bool) (s : State), s.devState ≠ .off →
    exec (.diagnosticEvaluation diverged flagged forced) s = .next (
      if forced = true ∧ flagged = false then s.raise 0x8A02 0xFF .immediate 0
      else if forced = false ∧ diverged = true ∧ flagged = true then s.raise 0x8A01 0xFF .immediate 0 else s)

/-! ### Verge and the Twin Link -/

/-- The faults that Verge detects, and its stops. Each detection is raised with the code, the unit and the reaction of
16 Table 16.3, and a test that passes changes nothing (R323, R327, R335, 15 R321); a controlled stop that has lasted
its longest time ends in STO (R330); STO is released on both channels at once, and only in RUN or FENCED with the
outputs enabled (03 R58), no stop in force, no partner stop, and every driving loop committed (R334). -/
def Obligations.VergeCommandsAct : Prop :=
  (∀ (s : State) (unit row : Nat) (te : Fin 8) (b : Bool), s.devState ≠ .off →
    (∀ p ∈ [(Instr.vergeHalfMismatch, 0x8A02, 0xFF, Reaction.immediate, 0),
        (.ciScrub (.bad unit row), 0x8A04, unit, .immediate, row),
        (.ciCheckerTest (.bad unit row), 0x8A05, unit, .immediate, row),
        (.piCheckerTest (.swardTract unit row), 0x8A08, unit, .fencePi, row),
        (.piCheckerTest (.lpddrChannel unit row), 0x8A08, unit, .fencePi, row),
        (.piCheckerTest (.residue te), 0x8A09, te.val, .fenceTe, 0)],
      exec p.1 s = .next (s.raise p.2.1 p.2.2.1 p.2.2.2.1 p.2.2.2.2)) ∧
    (s.devState ≠ .selftest → exec (.stoFeedbackDiscrepancy b) s = .next (s.raise 0x8A06 (b2n b) .immediate 0))) ∧
  (∀ s : State, ∀ c ∈ [Instr.ciScrub .good, .ciScrub .corrected, .ciCheckerTest .good, .ciCheckerTest .corrected,
    .piCheckerTest .good], exec c s = .next s) ∧
  (∀ s : State, s.stopping = true →
    (s.now < s.verge.stopSince + s.recField 0xA0 8 4 * 1000 → exec .stopTimeout s = .next s) ∧
    (s.verge.stopSince + s.recField 0xA0 8 4 * 1000 ≤ s.now → Goes (exec .stopTimeout s) fun t =>
      t.verge.stoA = false ∧ t.verge.stoB = false ∧ t.verge.stoByStop = true ∧ Only stoParts s t)) ∧
  ∀ s : State,
    let may := s.outputsUp = true ∧ s.active = true ∧ s.verge.stop = .none ∧ s.verge.partnerStop = false ∧ s.partnerOk = true ∧
      s.verge.stoA = false ∧ s.verge.stoB = false ∧
      ∀ l < 32, ∀ r, s.loopRec l = some r → r.u 0x19 1 ≠ 0 → (s.loop l).committed = true
    (may → Goes (exec .stoRelease s) fun t => t.verge.stoA = true ∧ t.verge.stoB = true ∧
      t.out = s.out ++ [.sto 0 true, .sto 1 true] ∧ (∃ u : State, t = u.post 0x0A04 0 none) ∧
      Only [.verge, .events, .irq, .out] s t) ∧
    (¬ may → exec .stoRelease s = .next s)

/-- The Twin Link. The descrambler undoes the scrambler (R339); a transmission is 40 frames that each begin with SYNC
in clear (R338); a valid TWIN frame clears the misses and brings the link up (R341, R342), and in CROSS_CHECK a STOP
field that is not 0 and not that of the frame before makes a partner stop (R343, log 27); a locked lane that misses
SYNC the fourth time is lost (R340); the fourth window without a valid frame loses the partner (R342, R343). -/
def Obligations.TwinLinkActs : Prop :=
  (∀ n d h : Nat, (descramble n (scramble n d h).1 h).1 = d % 2 ^ n) ∧
  ∀ (s : State) (r : Rec), s.twinRec = some r →
    let w := s.verge.twin
    (w.on = false → exec .twinFrameTransmit s = .next s) ∧
    (w.on = true → Goes (exec .twinFrameTransmit s) fun t => ∃ l : List (BitVec 256),
      t.out = s.out ++ [.twin l] ∧ l.length = 40 ∧ (∀ f ∈ l, f.toNat / 2 ^ 240 = 0xF2C0) ∧
      t.verge.twin.txSeq = w.txSeq + 1 ∧ Only [.verge, .out] s t) ∧
    (∀ (lane : Fin 2) (chunk : BitVec 256) (o : Nat), (w.lane lane).locked = some o →
      let raw := frameAt (w.lane lane).prev chunk o
      let d := (descramble 240 raw (w.lane lane).descr.toNat).1
      let f := twinFields d
      (raw / 2 ^ 240 = 0xF2C0 → crc32 (beBytes 26 (d / 2 ^ 32)) = d % 2 ^ 32 → f.typ = 1 →
        w.rxSeq ≠ some (BitVec.ofNat 16 f.seq) → f.unit ≠ r.u 8 1 → f.mode = r.u 9 1 →
        Goes (exec (.twinFrameReceive lane chunk) s) fun t =>
          t.verge.twin.up = true ∧ t.verge.twin.misses = 0 ∧ t.verge.twin.winStart = s.now ∧
          t.verge.twin.rxSeq = some (BitVec.ofNat 16 f.seq) ∧ t.verge.twin.partnerReady = f.ready ∧
          (t.verge.twin.lane lane).locked = some o ∧
          (twinCross r = true → f.stop ≠ 0 → f.stop ≠ w.lastStop → s.active = true → t.verge.partnerStop = true) ∧
          Only raiseParts s t) ∧
      (raw / 2 ^ 240 ≠ 0xF2C0 → (w.lane lane).misses = 3 → Goes (exec (.twinFrameReceive lane chunk) s) fun t =>
        (t.verge.twin.lane lane).locked = none ∧ (∃ u : State, t = u.post 0x0A06 lane none) ∧
        Only [.verge, .events, .irq, .out] s t)) ∧
    (∀ (lane : Fin 2) (chunk : BitVec 256), (w.lane lane).locked = none →
      Goes (exec (.twinFrameReceive lane chunk) s) fun t => (t.verge.twin.lane lane).prev = chunk ∧
        (∀ o, (t.verge.twin.lane lane).locked = some o → o < 256 ∧ frameAt (w.lane lane).prev chunk o / 2 ^ 240 = 0xF2C0) ∧
        Only [.verge, .events, .irq, .out] s t) ∧
    (s.now < w.winStart + 8250 → exec .twinMissWindow s = .next s) ∧
    (w.winStart + 8250 ≤ s.now → Goes (exec .twinMissWindow s) fun t =>
      t.verge.twin.up = false ∧ t.verge.twin.misses = min 4 (w.misses + 1) ∧
      t.verge.twin.winStart = w.winStart + 8250 ∧ (w.misses ≠ 3 → Only [.verge] s t) ∧
      (w.misses = 3 → twinCross r = true → s.active = true → t.verge.partnerStop = true) ∧
      (w.misses = 3 → twinCross r = false → ∃ u : State, t = u.post 0x0A08 0 none) ∧
      Only stopParts s t)

/-! ### CAN -/

/-- Sending. TX_CMD is taken whole or refused whole with its status in TX_RESULT, in VFs it is ignored (R353); a
request makes its buffer pending, an abort fails one that waits with CAUSE 3 (R355), a push queues the staged frame; a
TXB that is pending keeps its bytes, and a FENCED controller takes none (01 R23). Arbitration takes the reference slot
first, with BY_ID the lowest arbitration value (R352), and begins no frame while CAN_TX stands in its reset state (03
R64); a correct end sets DONE (R354); an FD frame whose measured delay is above 127 units ends as a bit error under
TDC (R351); INT_LOOPBACK sends and receives every frame whatever the bus does, and EXT_LOOPBACK takes a missing
acknowledge for one (R358); an error adds to TEC what ISO 11898-1 says (log 24), and at 256 the controller is bus-off
(R359). -/
def Obligations.CanSendingActs : Prop :=
  (∀ (p : Requester) (c : Fin 4) (v : BitVec 32) (s : State), s.canonical = true →
    let x := s.can c
    let st := s.txCheck c v.toNat
    ∀ i ∈ [Instr.canReq p c v, .canAbort p c v, .canPush p c v],
      (fnOf p ≠ 0 → exec i s = .next s) ∧
      (fnOf p = 0 → Goes (exec i s) fun t => (t.can c).txResult = BitVec.ofNat 16 st ∧ Only [.cans] s t ∧
        (∀ d < 4, d ≠ c.val → t.can d = s.can d) ∧
        (st ≠ 0 → t.can c = { x with txResult := BitVec.ofNat 16 st }) ∧
        (st = 0 → x.pend.length = 3 → x.failed.length = 3 → x.cause.length = 3 →
          (∀ n < 3, v.toNat.testBit n = true → (t.can c).pend[n]? = some true) ∧
          (∀ n < 3, v.toNat.testBit (4 + n) = true → x.pend[n]? = some true → x.onBus ≠ some (.txb n) →
            (t.can c).pend[n]? = some false ∧ (t.can c).failed[n]? = some true ∧ (t.can c).cause[n]? = some 3) ∧
          (t.can c).txq = (if v.toNat.testBit 8 then x.txq ++ [frameOfBytes (x.buffer 0x180)] else x.txq) ∧
          (t.can c).area = x.area))) ∧
  (∀ (p : Requester) (c : Fin 4) (n : Fin 3) (off : Fin 72) (data : List Byte) (s : State) (r : Rec),
    s.canonical = true → s.canRec c = some r →
    let x := s.can c
    (fnOf p ≠ 0 ∨ s.isFenced (0x28 + c) = true → exec (.canTxbWrite p c n off data) s = .next s) ∧
    (fnOf p = 0 → s.isFenced (0x28 + c) = false →
    Goes (exec (.canTxbWrite p c n off data) s) fun t => Only [.cans] s t ∧
      (x.pend.getD n false = true → t.can c = { x with txResult := 0x2B03 }) ∧
      (x.pend.getD n false = false → canHostTxb r n = false → t.can c = { x with txResult := 0x2B04 }) ∧
      (x.pend.getD n false = false → canHostTxb r n = true → Memory.wf x.area = true → (t.can c).txResult = 0 ∧
        ∀ a, (t.can c).area.get 0 a = if 0x80 * n.val + off.val ≤ a ∧ a < 0x80 * n.val + min 72 (off.val + data.length)
          then data.getD (a - (0x80 * n.val + off.val)) 0 else x.area.get 0 a))) ∧
  (∀ (c : Fin 4) (s : State) (r : Rec), s.canonical = true → s.canRec c = some r → s.canLive c = true →
    let x := s.can c
    (canMode r = 1 ∨ s.canDrives r = false ∨ x.onBus.isSome = true ∨ x.select r s.now = none → exec (.canArbitration c) s = .next s) ∧
    (∀ src f, canMode r ≠ 1 → s.canDrives r = true → x.onBus = none → x.select r s.now = some (src, f) →
      (x.refPending = true → src = .ref) ∧
      (x.refPending = false → canFlag r 2 = true → ∀ q ∈ x.sources, arbValue f ≤ arbValue q.2) ∧
      Goes (exec (.canArbitration c) s) fun t => t.can c = { x with onBus := some src, busFrame := f, sof := s.now } ∧
        t.out = s.out ++ (if canMode r = 2 then []
          else [.canFrame c f.id f.ide f.rtr f.fdf f.brs f.dlc (f.data.take (dlcLen f.fdf f.dlc.toNat))]) ∧
        Only [.cans, .out] s t) ∧
    (∀ (n : Fin 3) (d : Nat), x.onBus = some (.txb n) → canMode r < 2 → n ≠ 0 ∨ s.leadLoop c = none → x.tec < 256 →
      canFlag r 3 = false ∨ x.busFrame.fdf = false ∨ d ≤ 127 →
      Goes (exec (.canTxEnd c (.sent d)) s) fun t => (t.can c).onBus = none ∧ (t.can c).pend = x.pend.set n false ∧
        (t.can c).done = x.done.set n true ∧ (t.can c).tec = x.tec - 1 ∧ Only [.cans, .events, .irq, .out] s t) ∧
    (∀ d : Nat, canMode r ≠ 2 → canFlag r 3 = true → x.busFrame.fdf = true → 127 < d →
      exec (.canTxEnd c (.sent d)) s = exec (.canTxEnd c (.error
        { kind := 5, dataPhase := false, inOverload := false, more := 0 } false false)) s) ∧
    (∀ (n : Fin 3) (o : CanTxEnd), x.onBus = some (.txb n) → n ≠ 0 ∨ s.leadLoop c = none → x.tec < 256 →
      canMode r = 2 ∨ (canMode r = 3 ∧ ∃ e a b, o = .error e a b ∧ e.kind = 3) → Map.wf 0 x.counters = true →
      Goes (exec (.canTxEnd c o) s) fun t => (t.can c).onBus = none ∧ (t.can c).pend = x.pend.set n false ∧
        (t.can c).done = x.done.set n true ∧ (t.can c).tec = x.tec - 1 ∧
        (t.can c).counters.get 0 0 = add64 (x.counters.get 0 0) 1 ∧
        (t.can c).counters.get 0 1 = add64 (x.counters.get 0 1) 1 ∧ Only (.cans :: memParts) s t) ∧
    (∀ n : Fin 3, x.onBus = some (.txb n) → canMode r ≠ 2 → n ≠ 0 ∨ s.leadLoop c = none →
      x.abortReq.getD n false = false →
      (canFlag r 1 = false → exec (.canTxEnd c .lost) s = .next (s.modCan c fun y => { y with onBus := none })) ∧
      (canFlag r 1 = true → Goes (exec (.canTxEnd c .lost) s) fun t => (t.can c).onBus = none ∧
        (t.can c).pend = x.pend.set n false ∧ (t.can c).failed = x.failed.set n true ∧
        (t.can c).cause = x.cause.set n 1 ∧ Only [.cans] s t)) ∧
    ∀ (e : CanErr) (stuff dominant : Bool), x.onBus.isSome = true → canMode r ≠ 2 → ¬ (canMode r = 3 ∧ e.kind = 3) →
      let n := txErrorCount (x.state == 1) e stuff dominant
      Goes (exec (.canTxEnd c (.error e stuff dominant)) s) fun t => (t.can c).tec = min 256 (x.tec + n) ∧
        (t.can c).onBus = none ∧ (t.can c).lastErr = e.kind ∧ (t.can c).errData = e.dataPhase ∧
        Only [.cans, .events, .irq, .out] s t ∧
        (e.more = 0 → e.kind ≠ 1 → e.kind ≠ 3 → n = 8) ∧
        (s.outputsUp = true → canMode r = 0 → ∃ l, t.out = s.out ++ .canFlag c (x.state == 0) :: l) ∧
        (256 ≤ x.tec + n → (2 ≤ (t.can c).state ∧ (t.can c).txq = [] ∧ ∃ u : State, t = u.post 0x0B04 (t.canPayload c) none)))

/-- Receiving, bus-off and the reference message. A frame received in NORMAL mode is acknowledged, and an error draws
a flag (R358, R359). A rejected frame is counted; a kept one is written to its ring before TAIL advances, or dropped
and counted on a full ring (R356, R357); HEAD moves only within the written records (R364); a FENCED controller takes
neither (01 R23); RECOVER and 128 idle sequences end bus-off with both counts at 0 (R359); 11 recessive bits join the
bus (R358); at a reference instant a message takes the slot, replacing one that still waits (R361). -/
def Obligations.CanReceivingActs : Prop :=
  ∀ (p : Requester) (c : Fin 4) (s : State) (r : Rec), s.canonical = true → s.canRec c = some r →
    Map.wf 0 (s.can c).counters = true →
    let x := s.can c
    (∀ f : CanWire, f.data.length ≤ 64 → s.canLive c = true → canMode r ≠ 2 → x.onBus = none →
      Goes (exec (.canFrameReceive c (.frame f)) s) fun t => Only (.cans :: memParts) s t ∧
        (t.can c).counters.get 0 1 = add64 (x.counters.get 0 1) 1 ∧
        (s.outputsUp = true → canMode r = 0 → ∃ l, t.out = s.out ++ .canAck c :: l) ∧
        (filterFate r f = none → (t.can c).counters.get 0 2 = add64 (x.counters.get 0 2) 1 ∧
          (t.can c).rxTail = x.rxTail ∧ t.mem = s.mem) ∧
        ∀ ring k, filterFate r f = some (ring, k) → ring < 2 → x.rxTail.length = 2 →
          let n := r.u (0x28 + 2 * ring) 2
          let head := x.rxHead.getD ring 0
          let tail := x.rxTail.getD ring 0
          let full := n = 0 ∨ (tail + n - head) % n = n - 1
          (full → (t.can c).rxTail = x.rxTail ∧
            (t.can c).counters.get 0 (3 + ring) = add64 (x.counters.get 0 (3 + ring)) 1 ∧ t.mem = s.mem) ∧
          (¬ full → s.isFenced 0x50 = false → (t.can c).rxTail.getD ring 0 = (tail + 1) % n)) ∧
    (∀ (e : CanErr) (after : Bool), s.canLive c = true → canMode r = 0 → x.onBus = none →
      Goes (exec (.canFrameReceive c (.error e after)) s) fun t => (t.can c).lastErr = e.kind ∧
        (t.can c).recCnt = min 255 (x.recCnt + rxErrorCount e after) ∧
        (e.inOverload = false → e.more = 0 → after = false → rxErrorCount e after = 1) ∧
        (s.outputsUp = true → ∃ l, t.out = s.out ++ .canFlag c (x.state == 0) :: l) ∧
        Only [.cans, .events, .irq, .out] s t) ∧
    (∀ (ring : Fin 2) (v : BitVec 32),
      let n := r.u (0x28 + 2 * ring) 2
      let head := x.rxHead.getD ring 0
      let tail := x.rxTail.getD ring 0
      let w := v.toNat % 4096
      (fnOf p ≠ 0 ∨ s.isFenced (0x28 + c) = true ∨ n ≤ w ∨ (tail + n - head) % n < (w + n - head) % n →
        exec (.canRxHeadWrite p c ring v) s = .next s) ∧
      (fnOf p = 0 → s.isFenced (0x28 + c) = false → w < n → (w + n - head) % n ≤ (tail + n - head) % n →
        exec (.canRxHeadWrite p c ring v) s = .next (s.modCan c fun y => { y with rxHead := y.rxHead.set ring w }))) ∧
    (∀ v : BitVec 32, exec (.canRecover p c v) s =
      .next (if fnOf p = 0 ∧ v.toNat.testBit 0 = true ∧ x.state = 2 ∧ s.isFenced (0x28 + c) = false then s.modCan c fun y => { y with state := 3 } else s)) ∧
    (s.islandLive = true → s.isFenced (0x28 + c) = false →
      (x.state = 3 → Goes (exec (.canBusOn c) s) fun t => (t.can c).state = 0 ∧ (t.can c).tec = 0 ∧
        (t.can c).recCnt = 0 ∧ (∃ u : State, t = u.post 0x0B05 c none) ∧ Only [.cans, .events, .irq, .out] s t) ∧
      (x.state ≠ 3 → exec (.canBusOn c) s = .next s) ∧
      exec (.canJoinBus c) s = .next (s.modCan c fun y => { y with joined := true })) ∧
    ∀ q : Nat, x.refNext = some q → canFlag r 5 = true → s.islandLive = true →
      (s.now < q → exec (.canReferenceInstant c) s = .next s) ∧
      (q ≤ s.now → Goes (exec (.canReferenceInstant c) s) fun t => (t.can c).refPending = true ∧
        (t.can c).refCount = x.refCount + 1 ∧ (t.can c).refReplaced = x.refReplaced + b2n x.refPending ∧
        (t.can c).refNext = some (q + r.u 0x2C 4) ∧ Only [.cans, .events, .irq, .out] s t)

/-! ### Small ports -/

/-- SPI and UART. A due trigger starts its script on an idle master, waits on a busy one, and is skipped where it
waits already (R372); SPI_CMD starts a host transfer or is refused (R373); a transfer's end fills RXBUF or writes the
script's record (R372, R373). A character is stored with its flags, or dropped on a full FIFO (R374, R375); a full TX
FIFO drops a TXDATA write (R375); an RXDATA read takes the oldest character (18 Table 18.7). -/
def Obligations.SerialPortsAct : Prop :=
  (∀ (p : Requester) (m k : Fin 2) (s : State) (r : Rec), s.canonical = true → s.spiRec m = some r →
    let x := s.spi m
    let job := scriptJob r k
    (s.islandLive = true → scriptEnabled r k = true → x.nextTrig.get 0 k ≠ 0 → x.nextTrig.get 0 k ≤ s.now + 1 →
      Goes (exec (.spiScriptTrigger m k) s) fun t => Only [.ports, .out] s t ∧
        (x.busy = none → x.waiting = [] → (t.spi m).busy = some job ∧ (t.spi m).jobStamp = s.now ∧
          t.out = s.out ++ (if s.outputsUp then [.spi m job.cs (x.script.bytes (64 * k) job.len)] else [])) ∧
        (x.busy.isSome = true → k.val ∉ x.waiting → (t.spi m).waiting = x.waiting ++ [k.val] ∧ (t.spi m).busy = x.busy) ∧
        (x.busy.isSome = true → k.val ∈ x.waiting → (t.spi m).skipCount = x.skipCount + 1 ∧
          (t.spi m).waiting = x.waiting ∧ (t.spi m).busy = x.busy)) ∧
    (x.nextTrig.get 0 k = 0 ∨ s.now + 1 < x.nextTrig.get 0 k → exec (.spiScriptTrigger m k) s = .next s) ∧
    (∀ (rx : List Byte) (j : SpiJob), rx.length ≤ 64 → x.busy = some j → x.waiting = [] →
      Goes (exec (.spiTransferEnd m rx) s) fun t => (t.spi m).busy = none ∧ Only (.ports :: memParts) s t ∧
        (j.script = none → Memory.wf x.rxBuf = true → Only [.ports] s t ∧
          ∀ i < j.len, (t.spi m).rxBuf.get 0 i = rx.getD i 0) ∧
        (∀ n, j.script = some n → (t.spi m).rxBuf = x.rxBuf ∧
          ((t.spi m).ringDrops = x.ringDrops + 1 ∧ (t.spi m).ringTail = x.ringTail ∨
           (t.spi m).ringDrops = x.ringDrops ∧ (t.spi m).ringTail = (x.ringTail + 1) % r.u 0xE 2))) ∧
    (∀ v : BitVec 32, fnOf p = 0 →
      (v.toNat.testBit 31 = false → exec (.spiCmd p m v) s = .next s) ∧
      (v.toNat.testBit 31 = true → x.busy.isSome = true ∨ x.waiting ≠ [] →
        exec (.spiCmd p m v) s = .next (s.modSpi m fun y => { y with result := 0x2C02#16 })) ∧
      (v.toNat.testBit 31 = true → x.busy = none → x.waiting = [] → Goes (exec (.spiCmd p m v) s) fun t =>
        (t.spi m).busy = some { script := none, len := v.toNat % 64 + 1, cs := v.toNat / 256 % 4 } ∧
        (t.spi m).result = 0 ∧ Only [.ports, .out] s t)) ∧
    ∀ v : BitVec 32, let n := r.u 0xE 2
      let w := v.toNat % 4096
      (n ≤ w ∨ (x.ringTail + n - x.ringHead) % n < (w + n - x.ringHead) % n →
        exec (.spiRingHeadWrite p m v) s = .next s) ∧
      (fnOf p = 0 → w < n → (w + n - x.ringHead) % n ≤ (x.ringTail + n - x.ringHead) % n →
        exec (.spiRingHeadWrite p m v) s = .next (s.modSpi m fun y => { y with ringHead := w }))) ∧
  ∀ (p : Requester) (u : Fin 2) (s : State) (r : Rec), s.canonical = true → s.uartRec u = some r →
    let x := s.uart u
    (∀ votes : List Vote, 9 ≤ votes.length → votes.length ≤ 12 → s.islandLive = true →
      (x.armed = false → exec (.uartCharacterReceive u votes) s = .next s) ∧
      (x.armed = true → 256 ≤ x.rx.length → Goes (exec (.uartCharacterReceive u votes) s) fun t =>
        (t.uart u).rx = x.rx ∧ (t.uart u).ovr = true ∧ Only [.ports] s t) ∧
      (x.armed = true → x.rx.length < 256 → Goes (exec (.uartCharacterReceive u votes) s) fun t =>
        (t.uart u).rx = x.rx ++ [BitVec.ofNat 16 (rxWord (uartFrame r) votes x.ovr)] ∧ (t.uart u).ovr = false ∧
        (t.uart u).armed = !(rxWord (uartFrame r) votes x.ovr).testBit 8 ∧
        (x.rx = [] → ∃ v : State, t = v.post 0x0C04 u none) ∧ Only [.ports, .events, .irq, .out] s t)) ∧
    exec (.uartRearm u) s = .next (s.modUart u fun y => { y with armed := true }) ∧
    (∀ v : BitVec 32, fnOf p = 0 →
      (64 ≤ x.tx.length → exec (.uartTxdata p u v) s = .next (s.modUart u fun y => { y with result := 0x2C03#16 })) ∧
      (x.tx.length < 64 → Goes (exec (.uartTxdata p u v) s) fun t =>
        (t.uart u).txBusy.toList ++ (t.uart u).tx = x.txBusy.toList ++ x.tx ++ [v.setWidth 8] ∧ Only [.ports, .out] s t)) ∧
    (fnOf p = 0 → ∀ w rest, x.rx = w :: rest → Goes (exec (.uartRxdataRead p u 4) s) fun t =>
      (t.uart u).rx = rest ∧ t.out = s.out ++ [.read (le 4 w.toNat) false] ∧ Only [.ports, .out] s t) ∧
    (x.rx = [] → exec (.uartRxdataRead p u 4) s = .next (s.emit (.read (le 4 0) false))) ∧
    (∀ n, n ≠ 4 → exec (.uartRxdataRead p u n) s = .next (s.emit (.read (List.replicate n 0) false))) ∧
    (∀ b, x.txBusy = some b → Goes (exec (.uartTxCharacterEnd u) s) fun t => Only [.ports, .out] s t ∧
      (x.tx = [] → (t.uart u).txBusy = none) ∧
      ∀ d rest, x.tx = d :: rest → s.outputsUp = true →
        (t.uart u).txBusy = some d ∧ (t.uart u).tx = rest ∧ t.out = s.out ++ [.uart u d])

/-- Tool Spur, annunciator, PWM and GPIO. A search ends with its status and IDs, what it drove on the bus goes out,
and SPUR_DONE is posted (R378, R379); a low on the idle bus posts one announce (R377). The fourth trip latches (R380);
100 ms after an earlier one the tone may sound again; a lost warning channel is recorded, and where the SAFETY record
says so REDUCED comes into force until the channel is restored (16 R333, R336). A PWM period starts with its high
time, low while STO is asserted (R381, R382); DUTY of a loop output is refused (R381). GPIO writes move used output
pins alone, and a pin that changes goes out; the level of a pin that Larza does not drive is seen in every state, and
an enabled edge is stamped and flagged (R383). -/
def Obligations.PlainPortsAct : Prop :=
  (∀ (passes : List SpurPass) (busLow : Bool) (s : State), passes.all SpurPass.wellFormed = true →
    (s.ports.spur.running = false → exec (.spurSearchEnd passes busLow) s = .next s) ∧
    (s.ports.spur.running = true → Goes (exec (.spurSearchEnd passes busLow) s) fun t =>
      let found := spurSearch passes [] 0 none 0
      let z := if busLow then (0x4C03, []) else (found.1, found.2.1)
      (∃ l, t.out = s.out ++ (if s.outputsUp then found.2.2 else []) ++ l) ∧
      t.ports.spur.running = false ∧ t.ports.spur.ids = z.2.map (BitVec.ofNat 64) ∧
      (∃ u : State, t = u.post 0x0C02 (z.1 + z.2.length * 65536) none) ∧ z.2.length ≤ 16 ∧
      Only [.ports, .events, .irq, .out] s t)) ∧
  (∀ s : State, s.islandLive = true → s.ports.spur.running = false → (s.portRec 4 0 0x4C).isSome = true →
    Goes (exec .spurAnnounce s) fun t => t.ports.spur.changed = true ∧ t.ports.spur.announced = true ∧
      (s.ports.spur.announced = false → ∃ u : State, t = u.post 0x0C01 0 none) ∧ Only [.ports, .events, .irq, .out] s t) ∧
  (∀ (p : Requester) (v : BitVec 32) (s : State), fnOf p = 0 → s.annRec.isSome = true →
    exec (.annToneWrite p v) s = .next (s.modAnn fun a => { a with
      freq := v.setWidth 14, level := (v >>> 16).setWidth 8, on := v.getLsbD 31 })) ∧
  (∀ s : State,
    let n := s.ports.ann.trips + 1
    let reduces := (s.recField 0xA0 0xC 1).testBit 0
    (s.annState ≠ 1 → exec .annTrip s = .next s ∧ exec .annOpenLoad s = .next s ∧ exec .annRestored s = .next s) ∧
    (s.annState = 1 →
      Goes (exec .annTrip s) (fun t => t.ports.ann.trips = n ∧ t.verge.warnLost = true ∧
        (n < 4 → t.ports.ann.state = 2 ∧ t.ports.ann.retryAt = s.now + 100000000) ∧
        (4 ≤ n → t.ports.ann.state = 3 ∧ t.ports.ann.status = 0x8C01#16 ∧
          ∃ u : State, t = u.post 0x0C03 n none) ∧
        Only [.ports, .verge, .records, .events, .irq, .out] s t) ∧
      Goes (exec .annOpenLoad s) (fun t => t.verge.warnLost = true ∧
        (s.verge.warnLost = false → t.verge.reduced = (reduces || s.verge.reduced) ∧
          t.verge.records.head? = some (FaultRec.mk s.now 0x8A0B 0xFF (if reduces then 1 else 0) s.devState.code 0)) ∧
        (s.verge.warnLost = true → t = s) ∧ Only [.verge, .records, .events, .irq, .out] s t) ∧
      Goes (exec .annRestored s) fun t => t.verge.warnLost = false ∧
        (s.verge.warnLost = true → t.verge.reduced = false ∧
          (s.verge.reduced = true → ∃ u : State, t = u.post 0x0A03 0x8A0B none)) ∧
        Only [.verge, .events, .irq, .out] s t) ∧
    (s.ports.ann.state = 2 → s.ports.ann.retryAt ≤ s.now →
      exec .annRetry s = .next (s.modAnn fun a => { a with state := 0 })) ∧
    (s.ports.ann.state ≠ 2 ∨ s.now < s.ports.ann.retryAt → exec .annRetry s = .next s)) ∧
  (∀ (p : Requester) (n : Fin 8) (v : BitVec 32) (s : State) (r : Rec), s.canonical = true → s.pwmRec n = some r →
    (∀ q, (s.pwm n).nextPeriod = some q → s.islandLive = true → s.outputsUp = true →
      (s.now < q → exec (.pwmPeriodStart n) s = .next s) ∧
      (q ≤ s.now → Goes (exec (.pwmPeriodStart n) s) fun t => (t.pwm n).nextPeriod = some (q + r.u 0xC 4) ∧
        t.out = s.out ++ [.pwm n (t.pwm n).high] ∧ Only [.ports, .out] s t ∧
        (s.verge.stoA = false ∨ s.verge.stoB = false → (t.pwm n).high = 0) ∧
        (s.verge.stoA = true → s.verge.stoB = true → s.pwmLoop n = none →
          (t.pwm n).high = min (s.pwm n).duty.toNat (r.u 0xC 4 / 5)) ∧
        (∀ l, s.verge.stoA = true → s.verge.stoB = true → s.pwmLoop n = some l → (s.pwm n).cmd ≤ 0 →
          (t.pwm n).high = 0) ∧
        (∀ l, s.verge.stoA = true → s.verge.stoB = true → s.pwmLoop n = some l → (s.pwm n).cmd = 8388607 →
          (t.pwm n).high = r.u 0xC 4 / 5))) ∧
    (fnOf p = 0 → exec (.pwmDutyWrite p n v) s = .next (s.modPwm n fun x =>
      if (s.pwmLoop n).isSome then { x with result := 0x2C01#16 } else { x with duty := v.setWidth 25 }))) ∧
  (∀ (p : Requester) (v : BitVec 32) (s : State) (r : Rec), s.gpioRec = some r →
    let g := s.ports.gpio
    let drove := fun (t : State) => t.ports.gpio.drive = g.drive ∧ Only [.ports, .out] s t ∧ t.out = s.out ++
      (if g.out &&& g.drive = t.ports.gpio.out &&& g.drive then [] else [.gpio g.drive (t.ports.gpio.out &&& g.drive)])
    (fnOf p ≠ 0 → exec (.gpioSetWrite p v) s = .next s ∧ exec (.gpioClrWrite p v) s = .next s) ∧
    (fnOf p = 0 → ∀ i : Fin 16,
      let drives := (r.u 0xC 2).testBit i && (r.u 0xE 2).testBit i
      Goes (exec (.gpioSetWrite p v) s) (fun t => drove t ∧
        t.ports.gpio.out.getLsbD i = (g.out.getLsbD i || (drives && v.getLsbD i))) ∧
      Goes (exec (.gpioClrWrite p v) s) fun t => drove t ∧
        t.ports.gpio.out.getLsbD i = (g.out.getLsbD i && !(drives && v.getLsbD i)))) ∧
  ∀ (s : State) (k : Fin 16) (rising : Bool),
    let g := s.ports.gpio
    let enabled := ∃ r, s.gpioRec = some r ∧ (r.u 0xC 2).testBit k = true ∧ (r.u 0xE 2).testBit k = false ∧
      (r.u (if rising then 0x12 else 0x14) 2).testBit k = true
    (g.drive.getLsbD k = true → exec (.gpioEdge k rising) s = .next s) ∧
    (g.drive.getLsbD k = false → Goes (exec (.gpioEdge k rising) s) fun t => t.ports.gpio.level.getLsbD k = rising ∧
      Only [.ports, .events, .irq, .out] s t ∧
      (¬ enabled → t.ports.gpio.flags = g.flags ∧ t.ports.gpio.stamps = g.stamps ∧ Only [.ports] s t) ∧
      (enabled → t.ports.gpio.flags.getLsbD k = true ∧
        (Map.wf 0 g.stamps = true → t.ports.gpio.stamps.get 0 k = s.now) ∧
        (g.flags = 0 → ∃ u : State, t = u.post 0x0C05 (2 ^ k.val) none)))

/-! ### What every step keeps -/

/-- Every step keeps every map of the state in its canonical form: memory, its check bits, functions, fences, queues,
loops, cameras, ports and the Scheduler's tables. -/
def Obligations.EveryStepKeepsCanonical : Prop :=
  ∀ s t : State, s.canonical = true → step s = .next t → t.canonical = true

/-- Milestone never decreases while the device stays out of OFF; in RUN no command changes it, only the passing of a
clock; and its increment never leaves ±200 ppm of the nominal 5 ns (R38). -/
def Obligations.MilestoneNeverDecreases : Prop :=
  ∀ s t : State, step s = .next t →
    (s.devState ≠ .off → t.devState ≠ .off → s.time.ms ≤ t.time.ms) ∧
    (s.devState = .run → t.devState ≠ .off → s.pending ≠ [] → t.time.ms = s.time.ms ∧ t.time.frac = s.time.frac) ∧
    (nominalInc * 999800 ≤ s.time.inc * 1000000 ∧ s.time.inc * 1000000 ≤ nominalInc * 1000200 →
      nominalInc * 999800 ≤ t.time.inc * 1000000 ∧ t.time.inc * 1000000 ≤ nominalInc * 1000200)

/-- An STO channel goes high only by STO_RELEASE, and only in RUN or FENCED, with no stop and no partner stop in
force, the partner ready where it is cross-checked, and a committed sample of every loop that drives an output (R334):
no other command and no clock releases it. -/
def Obligations.StoRisesOnlyByRelease : Prop :=
  ∀ s t : State, step s = .next t → (s.verge.stoA = false ∧ t.verge.stoA = true) ∨ (s.verge.stoB = false ∧ t.verge.stoB = true) →
    s.pending.head? = some .stoRelease ∧ s.active = true ∧ s.verge.stop = .none ∧ s.verge.partnerStop = false ∧
    s.partnerOk = true ∧ (∀ l < 32, ∀ r, s.loopRec l = some r → r.u 0x19 1 ≠ 0 → (s.loop l).committed = true) ∧
    t.verge.stoA = true ∧ t.verge.stoB = true
end

