-- ==== Sys2Proof/Laws/Map.lean ====
section
/-! SUPPORT. The canonical maps: what a read finds after a write, and that every operation keeps the canonical form. -/

namespace Sys2Proof.Machine

variable {α : Type}

/-- A read at the key just written finds what was written, whatever the form of the map, but for an entry that is
removed. -/
theorem Map.get_set_self [DecidableEq α] (d : α) (m : Map α) (k : Nat) (v : α) (h : v ≠ d) :
    Map.get d (Map.set d m k v) k = v := by
  induction m with
  | nil => simp [Map.set, h, Map.get]
  | cons p r ih =>
    obtain ⟨k', v'⟩ := p
    simp only [Map.set, h, if_false]
    split
    · simp [Map.get]
    · split
      · simp [Map.get]
      · have : ¬ k' = k := fun e => ‹¬ k = k'› e.symm
        simp [Map.get, this, ih]
        omega

/-- A write of anything but the default leaves what other keys read, whatever the form of the map. -/
theorem Map.get_set_ne [DecidableEq α] (d : α) (m : Map α) (k j : Nat) (v : α) (h : v ≠ d) (hj : j ≠ k) :
    Map.get d (Map.set d m k v) j = Map.get d m j := by
  induction m with
  | nil => simp only [Map.set, h, if_false, Map.get]; split <;> first | omega | split <;> rfl
  | cons p r ih =>
    obtain ⟨k', v'⟩ := p
    simp only [Map.set, h, if_false]
    split
    · simp only [Map.get]
      repeat' split
      all_goals first | rfl | omega
    · split
      · simp only [Map.get]
        repeat' split
        all_goals first | rfl | omega
      · simp only [Map.get, ih]

theorem Map.rising_mono {a b : Nat} (m : Map α) (h : a ≤ b) (w : Map.rising b m = true) : Map.rising a m = true := by
  cases m with
  | nil => rfl
  | cons p r => simp only [Map.rising, Bool.and_eq_true, decide_eq_true_eq] at w ⊢; exact ⟨by omega, w.2⟩

theorem Map.get_of_rising (d : α) (m : Map α) (lo k : Nat) (w : Map.rising lo m = true) (h : k < lo) :
    Map.get d m k = d := by
  cases m with
  | nil => rfl
  | cons p r =>
    simp only [Map.rising, Bool.and_eq_true, decide_eq_true_eq] at w
    simp only [Map.get]
    repeat' split
    all_goals first | rfl | omega

theorem Map.rising_set [DecidableEq α] (d : α) (m : Map α) :
    ∀ lo k v, lo ≤ k → Map.rising lo m = true → Map.rising lo (Map.set d m k v) = true := by
  induction m with
  | nil => intro lo k v h _; simp only [Map.set]; split <;> simp [Map.rising, h]
  | cons p r ih =>
    obtain ⟨k', v'⟩ := p
    intro lo k v h w
    have w' := w
    simp only [Map.rising, Bool.and_eq_true, decide_eq_true_eq] at w'
    simp only [Map.set]
    split
    · split
      · exact w
      · simp only [Map.rising, Bool.and_eq_true, decide_eq_true_eq]; exact ⟨h, by omega, w'.2⟩
    · split
      · split
        · exact Map.rising_mono r (by omega) w'.2
        · simp only [Map.rising, Bool.and_eq_true, decide_eq_true_eq]
          exact ⟨h, by subst_vars; exact w'.2⟩
      · simp only [Map.rising, Bool.and_eq_true, decide_eq_true_eq]
        exact ⟨w'.1, ih _ _ _ (by omega) w'.2⟩

theorem Map.all_set [DecidableEq α] (d : α) (m : Map α) (k : Nat) (v : α)
    (w : (m.all fun p => decide (p.2 ≠ d)) = true) : ((Map.set d m k v).all fun p => decide (p.2 ≠ d)) = true := by
  induction m with
  | nil => simp only [Map.set]; split <;> simp_all
  | cons p r ih =>
    obtain ⟨k', v'⟩ := p
    simp only [List.all_cons, Bool.and_eq_true, decide_eq_true_eq] at w
    simp only [Map.set]
    repeat' split
    all_goals try simp only [List.all_cons, Bool.and_eq_true, decide_eq_true_eq]
    · exact w
    · exact ⟨‹_›, w⟩
    · exact w.2
    · exact ⟨‹_›, w.2⟩
    · exact ⟨w.1, ih w.2⟩

/-- A write keeps the canonical form. -/
theorem Map.wf_set [DecidableEq α] (d : α) (m : Map α) (k : Nat) (v : α) (w : Map.wf d m = true) :
    Map.wf d (Map.set d m k v) = true := by
  simp only [Map.wf, Bool.and_eq_true] at w ⊢
  exact ⟨Map.rising_set d m 0 k v (Nat.zero_le k) w.1, Map.all_set d m k v w.2⟩

theorem Map.wf_nil [DecidableEq α] (d : α) : Map.wf d ([] : Map α) = true := rfl

theorem Map.rising_filter (f : Nat × α → Bool) (m : Map α) :
    ∀ lo, Map.rising lo m = true → Map.rising lo (m.filter f) = true := by
  induction m with
  | nil => exact fun _ _ => rfl
  | cons p r ih =>
    intro lo w
    simp only [Map.rising, Bool.and_eq_true, decide_eq_true_eq] at w
    simp only [List.filter_cons]
    split
    · simp only [Map.rising, Bool.and_eq_true, decide_eq_true_eq]; exact ⟨w.1, ih _ w.2⟩
    · exact Map.rising_mono _ (by omega) (ih _ w.2)

/-- Entries taken out leave the canonical form. -/
theorem Map.wf_filter [DecidableEq α] (d : α) (f : Nat × α → Bool) (m : Map α) (w : Map.wf d m = true) :
    Map.wf d (m.filter f) = true := by
  simp only [Map.wf, Bool.and_eq_true] at w ⊢
  refine ⟨Map.rising_filter f m 0 w.1, ?_⟩
  have := w.2
  simp only [List.all_eq_true, List.mem_filter] at this ⊢
  exact fun x h => this x h.1

theorem Map.wf_clear [DecidableEq α] (d : α) (m : Map α) (lo n : Nat) (w : Map.wf d m = true) :
    Map.wf d (m.clear lo n) = true := Map.wf_filter d _ m w

/-- Stored bytes keep the canonical form of a memory. -/
theorem Map.wf_store (bs : List Byte) : ∀ (m : Map Byte) (a : Nat), Memory.wf m = true → Memory.wf (m.store a bs) = true := by
  induction bs with
  | nil => exact fun _ _ w => w
  | cons b r ih => exact fun m a w => ih _ _ (Map.wf_set 0 m a b w)

theorem Map.get_set_rising [DecidableEq α] (d : α) (m : Map α) :
    ∀ lo k j v, Map.rising lo m = true → Map.get d (Map.set d m k v) j = if j = k then v else Map.get d m j := by
  induction m with
  | nil =>
    intro lo k j v _
    by_cases h : v = d
    · simp [Map.set, h, Map.get]
    · simp only [Map.set, h, if_false, Map.get]
      repeat' split
      all_goals first | rfl | omega
  | cons p r ih =>
    obtain ⟨k', v'⟩ := p
    intro lo k j v w
    simp only [Map.rising, Bool.and_eq_true, decide_eq_true_eq] at w
    simp only [Map.set]
    by_cases h : k < k'
    · simp only [h, if_true]
      by_cases e : v = d
      · simp only [e, if_true, Map.get]
        repeat' split
        all_goals first | rfl | omega
      · simp only [e, if_false, Map.get]
        repeat' split
        all_goals first | rfl | omega
    · simp only [h, if_false]
      by_cases e : k = k'
      · simp only [e, if_true]
        by_cases g : v = d
        · simp only [g, if_true, Map.get]
          by_cases jk : j = k'
          · subst jk; simp [Map.get_of_rising d r _ _ w.2 (Nat.lt_succ_self _)]
          · by_cases lt : j < k'
            · have := Map.get_of_rising d r _ j w.2 (by omega)
              have ne : ¬ k' = j := fun x => jk x.symm
              simp [jk, ne, lt, this]
            · have : ¬ k' = j := fun x => jk x.symm
              simp [jk, lt, this]
        · simp only [g, if_false, Map.get]
          repeat' split
          all_goals first | rfl | omega
      · simp only [e, if_false, Map.get, ih _ k j v w.2]
        repeat' split
        all_goals first | rfl | omega

/-- A read after a write, on a canonical map: the value written at its key, what was there before elsewhere. -/
theorem Map.get_set [DecidableEq α] (d : α) (m : Map α) (k j : Nat) (v : α) (w : Map.wf d m = true) :
    Map.get d (Map.set d m k v) j = if j = k then v else Map.get d m j := by
  simp only [Map.wf, Bool.and_eq_true] at w
  exact Map.get_set_rising d m 0 k j v w.1

/-- A read after stored bytes: the byte stored there, else what was there before. -/
theorem Map.get_store (bs : List Byte) : ∀ (m : Map Byte) (a j : Nat), Memory.wf m = true →
    Map.get 0 (m.store a bs) j = if a ≤ j ∧ j < a + bs.length then bs.getD (j - a) 0 else Map.get 0 m j := by
  induction bs with
  | nil => intro m a j _; simp [Map.store]
  | cons b r ih =>
    intro m a j w
    rw [Map.store, ih _ _ _ (Map.wf_set 0 m a b w), Map.get_set 0 m a j b w]
    by_cases e : j = a
    · subst e; simp
    · by_cases l : a ≤ j
      · have h1 : j - a = (j - (a + 1)) + 1 := by omega
        have h2 : (a + 1 ≤ j ∧ j < a + 1 + r.length) ↔ (a ≤ j ∧ j < a + (b :: r).length) := by
          simp only [List.length_cons]; omega
        simp only [h2, e, if_false, h1, List.getD_cons_succ]
      · have h1 : ¬ (a + 1 ≤ j ∧ j < a + 1 + r.length) := by omega
        have h2 : ¬ (a ≤ j ∧ j < a + (b :: r).length) := by omega
        simp only [h1, h2, e, if_false]

end Sys2Proof.Machine
end

