-- ==== Sys2Proof/Laws/Frame.lean ====
section
/-! SUPPORT. Frames: how `Only` composes, and what each shared operation may change. -/

namespace Sys2Proof.Machine

theorem Only.refl (ps : List Part) (s : State) : Only ps s s :=
  ⟨rfl, fun p _ => by cases p <;> first | rfl | exact fun _ => rfl⟩

theorem Only.trans {ps : List Part} {s t u : State} (h : Only ps s t) (k : Only ps t u) : Only ps s u :=
  ⟨k.1.trans h.1, fun p hp => by
    have a := h.2 p hp
    have b := k.2 p hp
    cases p <;> first | exact Eq.trans b a | exact fun f => (b f).trans (a f)⟩

theorem Only.mono {ps qs : List Part} {s t : State} (h : Only ps s t) (sub : ∀ p ∈ ps, p ∈ qs) : Only qs s t :=
  ⟨h.1, fun p hp => h.2 p fun k => hp (sub p k)⟩

/-- A fold whose every step keeps a frame keeps it. -/
theorem Only.foldl {α : Type} {ps : List Part} (f : State → α → State) (h : ∀ s a, Only ps s (f s a)) (l : List α) :
    ∀ s, Only ps s (l.foldl f s) := by
  induction l with
  | nil => exact fun s => Only.refl ps s
  | cons a r ih => exact fun s => (h s a).trans (ih (f s a))

/-- Reading one part through a frame. -/
theorem Only.get {ps : List Part} {s t : State} (h : Only ps s t) (p : Part) (hp : p ∉ ps := by decide) :
    s.agrees t p := h.2 p hp

theorem Only.emit (o : Out) (s : State) : Only [.out] s (s.emit o) :=
  ⟨rfl, fun p hp => by cases p <;> first | rfl | exact fun _ => rfl | exact absurd (by decide) hp⟩

theorem Only.modFn (f : Nat) (g : FnState → FnState) (s : State) : Only [.fns, .events] s (s.modFn f g) :=
  ⟨rfl, fun p hp => by cases p <;> first | rfl | exact fun _ => rfl | exact absurd (by decide) hp⟩

/-- A change to a function's events alone, where it leaves an event or a vector behind. -/
theorem Only.modEvents (f : Nat) (g : FnState → FnState) (s : State) (h : ∀ x, (g x).regs = x.regs)
    (k : g (Map.get FnState.init s.fns f) ≠ FnState.init) : Only [.events] s (s.modFn f g) := by
  refine ⟨rfl, fun p hp => ?_⟩
  cases p with
  | fns =>
    intro j
    simp only [State.fn, State.modFn]
    by_cases e : j = f
    · subst e; rw [Map.get_set_self _ _ _ _ k]; exact h _
    · rw [Map.get_set_ne _ _ _ _ _ k e]
  | events => exact absurd (List.mem_singleton.2 rfl) hp
  | _ => rfl

theorem Only.signal (f v : Nat) (s : State) : Only [.events, .out] s (s.signal f v) := by
  unfold State.signal
  dsimp only
  split
  · exact (Only.emit _ s).mono (by decide)
  · refine Only.mono (ps := [.events]) (Only.modEvents f _ s (fun _ => rfl) fun e => ?_) (by decide)
    have e' : Map.get false (Map.set false (Map.get FnState.init s.fns f).msixPending v true) v = false := by
      have := congrArg FnState.msixPending e
      simp only at this
      rw [this]; rfl
    rw [Map.get_set_self _ _ _ _ (by decide)] at e'
    exact absurd e' (by decide)

theorem Only.postTo (e : EvRecord) (f : Nat) (s : State) : Only [.events] s (s.postTo e f) := by
  unfold State.postTo
  split
  · refine Only.modEvents f _ s (fun _ => rfl) fun h => ?_
    have := congrArg FnState.evLost h
    simp only [satAdd, FnState.init] at this
    omega
  · refine Only.modEvents f _ s (fun _ => rfl) fun h => ?_
    have := congrArg FnState.posted h
    simp [FnState.init] at this

theorem Only.qspiSet (b : BitVec 4) (s : State) : Only [.irq] s (s.qspiSet b) :=
  ⟨rfl, fun p hp => by cases p <;> first | rfl | exact fun _ => rfl | exact absurd (by decide) hp⟩

/-- Posting an event touches the functions' registers, the outputs and QSPI_STAT. -/
theorem Only.post (code payload : Nat) (ctx : Option Nat) (s : State) :
    Only [.events, .irq, .out] s (s.post code payload ctx) := by
  unfold State.post
  have h := Only.foldl (ps := [.events, .irq, .out]) (fun (t : State) f => t.postTo
    { code := BitVec.ofNat 16 code, payload := BitVec.ofNat 32 payload, stamp := s.now, ctx := ctx } f)
    (fun t f => (Only.postTo _ f t).mono (by decide)) (s.receivers code ctx) s
  split
  · exact h.trans (((Only.signal 0 1026 _).mono (by decide)).trans ((Only.qspiSet 4#4 _).mono (by decide)))
  · exact h

/-- One of two ways on, each within the frame. -/
theorem Only.ite {ps : List Part} {c : Prop} [Decidable c] {s t u : State} (h : c → Only ps s t) (k : ¬ c → Only ps s u) :
    Only ps s (if c then t else u) := by
  split
  · exact h ‹_›
  · exact k ‹_›

/-- A further step, taken or not, within the frame. -/
theorem Only.when {ps : List Part} {c : Prop} [Decidable c] {s t : State} {f : State → State} (h : Only ps s t)
    (k : ∀ x, Only ps x (f x)) : Only ps s (if c then f t else t) :=
  Only.ite (fun _ => h.trans (k t)) fun _ => h

/-- A fold after a first step. -/
theorem Only.thenFoldl {α : Type} {ps : List Part} {s t : State} {f : State → α → State} (h : Only ps s t)
    (k : ∀ x a, Only ps x (f x a)) (l : List α) : Only ps s (l.foldl f t) :=
  h.trans (Only.foldl f k l t)

theorem Only.draw (s : State) : Only [.free] s s.draw.2 :=
  ⟨rfl, fun p hp => by cases p <;> first | rfl | exact fun _ => rfl | exact absurd (by decide) hp⟩

theorem Only.setSpace (m : Mem) (x : MemSpace) (s : State) : Only [.mem] s (s.setSpace m x) := by
  cases m <;> exact ⟨rfl, fun p hp => by cases p <;> first | rfl | exact fun _ => rfl | exact absurd (by decide) hp⟩

theorem Only.setMark (m : Mem) (w : Nat) (e : Ecc) (s : State) : Only [.mem] s (s.setMark m w e) :=
  Only.setSpace m _ s

theorem Only.setWord (m : Mem) (w v : Nat) (s : State) : Only [.mem] s (s.setWord m w v) :=
  Only.setSpace m _ s

theorem Only.reMark (m : Mem) (w : Nat) (b : Bool) (s : State) : Only [.mem, .free] s (s.reMark m w b) := by
  unfold State.reMark
  refine Only.ite (fun _ => (Only.setMark m w _ s).mono (by decide)) fun _ => ?_
  refine Only.ite (fun _ => (Only.setMark m w _ s).mono (by decide)) fun _ => ?_
  have d : ∀ t : State, Only [.mem, .free] t t.draw.2 := fun t => (Only.draw t).mono (by decide)
  have k : ∀ (t : State) (e : Ecc), Only [.mem, .free] t (t.setMark m w e) :=
    fun t e => (Only.setMark m w e t).mono (by decide)
  refine Only.ite (fun _ => (d s).trans (k _ _)) fun _ => ?_
  refine Only.ite (fun _ => ?_) fun _ => (d s).trans (k _ _)
  exact (((d s).trans (k _ _)).trans (d _)).trans ((Only.setWord m w _ _).mono (by decide))

theorem Only.record (code unit reaction detail : Nat) (s : State) :
    Only [.records] s (s.record code unit reaction detail) :=
  ⟨rfl, fun p hp => by cases p <;> first | rfl | exact fun _ => rfl | exact absurd (by decide) hp⟩

theorem Only.count (c i n : Nat) (s : State) : Only [.counters] s (s.count c i n) := by
  unfold State.count
  refine Only.ite (fun _ => Only.refl _ s) fun _ => ?_
  exact ⟨rfl, fun p hp => by cases p <;> first | rfl | exact fun _ => rfl | exact absurd (by decide) hp⟩

theorem Only.countMax (c i v : Nat) (s : State) : Only [.counters] s (s.countMax c i v) :=
  ⟨rfl, fun p hp => by cases p <;> first | rfl | exact fun _ => rfl | exact absurd (by decide) hp⟩

theorem Only.ofMem (s : State) (m : MemSt) : Only [.mem] s { s with mem := m } :=
  ⟨rfl, fun p hp => by cases p <;> first | rfl | exact fun _ => rfl | exact absurd (by decide) hp⟩

theorem Only.ofSched (s : State) (m : SchedSt) : Only [.sched] s { s with sched := m } :=
  ⟨rfl, fun p hp => by cases p <;> first | rfl | exact fun _ => rfl | exact absurd (by decide) hp⟩

theorem Only.ofVerge (s : State) (m : VergeSt) : Only [.verge, .records] s { s with verge := m } :=
  ⟨rfl, fun p hp => by cases p <;> first | rfl | exact fun _ => rfl | exact absurd (by decide) hp⟩

/-- A change of Verge's state that leaves the fault records. -/
theorem Only.ofVergeKeep (s : State) (m : VergeSt) (h : m.records = s.verge.records) : Only [.verge] s { s with verge := m } :=
  ⟨rfl, fun p hp => by cases p <;> first | rfl | exact fun _ => rfl | exact absurd (by decide) hp | exact h⟩

/-- A change of the host links that leaves QSPI_STAT. -/
theorem Only.ofLinkKeep (s : State) (m : LinkSt) (h : m.qspiStat = s.link.qspiStat) : Only [.link] s { s with link := m } :=
  ⟨rfl, fun p hp => by cases p <;> first | rfl | exact fun _ => rfl | exact absurd (by decide) hp | exact h⟩

theorem Only.ofPools (s : State) (m : List Pool) : Only [.pools] s { s with pools := m } :=
  ⟨rfl, fun p hp => by cases p <;> first | rfl | exact fun _ => rfl | exact absurd (by decide) hp⟩

theorem Only.ofPace (s : State) (m : PaceSt) : Only [.pace] s { s with pace := m } :=
  ⟨rfl, fun p hp => by cases p <;> first | rfl | exact fun _ => rfl | exact absurd (by decide) hp⟩

theorem Only.ofTime (s : State) (m : TimeSt) : Only [.time] s { s with time := m } :=
  ⟨rfl, fun p hp => by cases p <;> first | rfl | exact fun _ => rfl | exact absurd (by decide) hp⟩

theorem Only.ofMc (s : State) (m : McSt) : Only [.mc] s { s with mc := m } :=
  ⟨rfl, fun p hp => by cases p <;> first | rfl | exact fun _ => rfl | exact absurd (by decide) hp⟩

theorem Only.ofLink (s : State) (m : LinkSt) : Only [.link, .irq] s { s with link := m } :=
  ⟨rfl, fun p hp => by cases p <;> first | rfl | exact fun _ => rfl | exact absurd (by decide) hp⟩

theorem Only.ofFw (s : State) (m : FwSt) : Only [.fw] s { s with fw := m } :=
  ⟨rfl, fun p hp => by cases p <;> first | rfl | exact fun _ => rfl | exact absurd (by decide) hp⟩

theorem Only.ofPorts (s : State) (m : PortsSt) : Only [.ports] s { s with ports := m } :=
  ⟨rfl, fun p hp => by cases p <;> first | rfl | exact fun _ => rfl | exact absurd (by decide) hp⟩

theorem Only.ofFences (s : State) (m : Map Fence) : Only [.fences] s { s with fences := m } :=
  ⟨rfl, fun p hp => by cases p <;> first | rfl | exact fun _ => rfl | exact absurd (by decide) hp⟩

theorem Only.ofDevState (s : State) (m : DevState) : Only [.devState] s { s with devState := m } :=
  ⟨rfl, fun p hp => by cases p <;> first | rfl | exact fun _ => rfl | exact absurd (by decide) hp⟩

theorem Only.modQueue (c q : Nat) (g : QueueSt → QueueSt) (s : State) : Only [.queues] s (s.modQueue c q g) :=
  ⟨rfl, fun p hp => by cases p <;> first | rfl | exact fun _ => rfl | exact absurd (by decide) hp⟩

theorem Only.modCam (k : Nat) (g : CamSt → CamSt) (s : State) : Only [.cams] s (s.modCam k g) :=
  ⟨rfl, fun p hp => by cases p <;> first | rfl | exact fun _ => rfl | exact absurd (by decide) hp⟩

theorem Only.modLoop (k : Nat) (g : LoopSt → LoopSt) (s : State) : Only [.loops] s (s.modLoop k g) :=
  ⟨rfl, fun p hp => by cases p <;> first | rfl | exact fun _ => rfl | exact absurd (by decide) hp⟩

theorem Only.modCan (k : Nat) (g : CanSt → CanSt) (s : State) : Only [.cans] s (s.modCan k g) :=
  ⟨rfl, fun p hp => by cases p <;> first | rfl | exact fun _ => rfl | exact absurd (by decide) hp⟩

theorem Only.modPwm (k : Nat) (g : PwmSt → PwmSt) (s : State) : Only [.ports] s (s.modPwm k g) :=
  ⟨rfl, fun p hp => by cases p <;> first | rfl | exact fun _ => rfl | exact absurd (by decide) hp⟩

theorem Only.modFence (b : Nat) (g : Fence → Fence) (s : State) : Only [.fences] s (s.modFence b g) :=
  ⟨rfl, fun p hp => by cases p <;> first | rfl | exact fun _ => rfl | exact absurd (by decide) hp⟩

theorem Only.storeUe (a : Nat) (s : State) : Only memParts s (s.storeUe a) :=
  ((Only.draw s).mono (by decide)).trans ((Only.post _ _ _ _).mono (by decide))

theorem Only.memUe (m : Mem) (a : Nat) (s : State) : Only memParts s (s.memUe m a) := by
  unfold State.memUe
  refine Only.ite (fun _ => Only.storeUe a s) fun _ => ?_
  refine Only.trans ?_ ((Only.post _ _ _ _).mono (by decide))
  refine Only.trans ?_ ((Only.record _ _ _ _ _).mono (by decide))
  exact Only.ite (fun _ => (Only.ofMem s _).mono (by decide)) fun _ => (Only.ofMem s _).mono (by decide)

theorem Only.memCorr (m : Mem) (who : Option Nat) (a : Nat) (s : State) : Only memParts s (s.memCorr m who a) := by
  unfold State.memCorr
  refine Only.ite (fun _ => (Only.ofMem s _).mono (by decide)) fun _ => ?_
  have h : Only memParts s (if m = .lp then { s with mem := { s.mem with lpCorr := add64 s.mem.lpCorr 1 } }
      else { s with mem := { s.mem with swCorr := add64 s.mem.swCorr 1 } }) :=
    Only.ite (fun _ => (Only.ofMem s _).mono (by decide)) fun _ => (Only.ofMem s _).mono (by decide)
  cases who
  · exact h
  · exact h.trans ((Only.count _ _ _ _).mono (by decide))

theorem Only.readWord (m : Mem) (who : Option Nat) (w : Nat) (s : State) : Only memParts s (s.readWord m who w).2 := by
  unfold State.readWord
  dsimp only
  split
  · exact Only.refl _ s
  · exact ((Only.reMark m w false s).mono (by decide)).trans (Only.memCorr m who _ _)
  · exact ((Only.reMark m w true s).mono (by decide)).trans (Only.memUe m _ _)
  · exact Only.refl _ s

theorem Only.readWords (m : Mem) (who : Option Nat) (l : List Nat) :
    ∀ s x, Only memParts s (State.readWords m who l s x).2 := by
  induction l with
  | nil => exact fun s _ => Only.refl _ s
  | cons w r ih => exact fun s x => (Only.readWord m who w s).trans (ih _ _)

theorem Only.cleanRange (m : Mem) (a n : Nat) (s : State) : Only memParts s (s.cleanRange m a n) :=
  ((Only.setSpace m _ s).mono (by decide)).trans
    (Only.foldl _ (fun t (h : Nat × Nat) => (Only.reMark m h.1 false t).mono (by decide)) _ _)

theorem Only.zeroRange (m : Mem) (a n : Nat) (s : State) : Only memParts s (s.zeroRange m a n) :=
  ((Only.setSpace m _ s).mono (by decide)).trans (Only.cleanRange m a n _)

theorem Only.zeroDone (s : State) : Only memParts s s.zeroDone := by
  unfold State.zeroDone
  exact Only.ite (fun _ => ((Only.ofMem s _).mono (by decide)).trans ((Only.post _ _ _ _).mono (by decide)))
    fun _ => Only.refl _ s

theorem Only.markPending (gs : List Nat) (s : State) : Only memParts s (s.markPending gs) :=
  ((Only.ofMem s _).mono (by decide)).trans (Only.zeroDone _)

theorem Only.zeroGranule (g : Nat) (s : State) : Only memParts s (s.zeroGranule g) :=
  ((Only.zeroRange .lp _ _ s).trans ((Only.ofMem _ _).mono (by decide))).trans (Only.zeroDone _)

theorem Only.touch (m : Mem) (a n : Nat) (s : State) : Only memParts s (s.touch m a n) := by
  unfold State.touch
  exact Only.ite (fun _ => Only.refl _ s) fun _ => Only.foldl _ (fun t g => Only.zeroGranule g t) _ _

theorem Only.readMem (m : Mem) (who : Option Nat) (a n : Nat) (s : State) : Only memParts s (s.readMem m who a n).2.2 :=
  (Only.touch m a n s).trans (Only.readWords m who _ _ _)

theorem Only.partialWord (m : Mem) (who : Option Nat) (b : Bool) (w : Nat) (s : State) :
    Only memParts s (s.partialWord m who b w).2 := by
  unfold State.partialWord
  split
  · exact Only.ite (fun _ => (Only.reMark m w true s).mono (by decide)) fun _ => Only.refl _ s
  · exact ((Only.reMark m w b s).mono (by decide)).trans (Only.memCorr m who _ _)
  · exact ((Only.reMark m w true s).mono (by decide)).trans (Only.memUe m _ _)
  · exact Only.refl _ s

/-- A fold over a state carried in the second place of a pair. -/
theorem Only.foldl_snd {α β : Type} {ps : List Part} (f : α × State → β → α × State)
    (h : ∀ x b, Only ps x.2 (f x b).2) (l : List β) : ∀ x, Only ps x.2 (l.foldl f x).2 := by
  induction l with
  | nil => exact fun x => Only.refl ps x.2
  | cons b r ih => exact fun x => (h x b).trans (ih (f x b))

theorem Only.writeMem (m : Mem) (who : Option Nat) (b : Bool) (a : Nat) (bs : List Byte) (s : State) :
    Only memParts s (s.writeMem m who b a bs).2 := by
  have h := Only.foldl_snd (ps := memParts) (fun (acc : Option Nat × State) w =>
    let (b', t) := acc.2.partialWord m who b w
    (acc.1.or (if b' then some (w * 8) else none), t)) (fun x w => Only.partialWord m who b w x.2)
    (partialWords a bs.length) (none, s.touch m a bs.length)
  have k : ∀ (x : MemSpace) (t : State), Only memParts t ((t.setSpace m x).cleanRange m a bs.length) :=
    fun x t => ((Only.setSpace m x t).mono (by decide)).trans (Only.cleanRange m a bs.length _)
  have g := fun x => ((Only.touch m a bs.length s).trans h).trans (k x _)
  unfold State.writeMem
  exact Only.ite (fun _ => Only.thenFoldl (g _) (fun t w => (Only.reMark m w true t).mono (by decide)) _) fun _ => g _

theorem Only.writeHost (ep : Bool) (a : Nat) (bs : List Byte) (s : State) : Only [.mem] s (s.writeHost ep a bs) :=
  Only.ofMem s _

theorem Only.writeDev (who : Option Nat) (a : Nat) (bs : List Byte) (s : State) :
    Only memParts s (s.writeDev who a bs) := by
  unfold State.writeDev
  split
  · exact Only.foldl _ (fun t (p : Nat × List Byte) => Only.ite (fun _ => Only.refl _ t) fun _ =>
      Only.writeMem .lp who false p.1 p.2 t) _ s
  · exact (Only.writeHost false _ bs s).mono (by decide)
  · exact Only.refl _ s

theorem Only.writeRecord (i : QueueInfo) (bs : List Byte) (s : State) : Only doneParts s (s.writeRecord i bs) := by
  unfold State.writeRecord
  have h := ((Only.writeDev (some i.ctx) (i.cqBase + (s.queue i.ctx i.queue).cqTail.toNat % i.depth * 32) bs s).mono
    (qs := doneParts) (by decide)).trans (((Only.count i.ctx 1 1 _).mono (by decide)).trans
    (((Only.count i.ctx (if hostBase ≤ i.cqBase + (s.queue i.ctx i.queue).cqTail.toNat % i.depth * 32 then 21 else 20)
      32 _).mono (by decide)).trans ((Only.modQueue i.ctx i.queue (fun x => { x with cqTail := x.cqTail + 1 }) _).mono
      (by decide))))
  exact Only.ite (fun _ => h.trans ((Only.signal _ _ _).mono (by decide))) fun _ => h

theorem Only.deliver (c q : Nat) (bs : List Byte) (s : State) : Only doneParts s (s.deliver c q bs) := by
  unfold State.deliver
  split
  · exact Only.refl _ s
  · exact Only.ite (fun _ => (Only.modQueue _ _ _ s).mono (by decide)) fun _ => Only.writeRecord _ bs s

theorem Only.countDone (c status a b d : Nat) (s : State) : Only [.counters] s (s.countDone c status a b d) := by
  unfold State.countDone
  refine Only.trans ?_ (Only.count _ _ _ _)
  refine Only.trans ?_ (Only.countMax _ _ _ _)
  refine Only.trans ?_ (Only.count _ _ _ _)
  have h : Only [.counters] s (if status = 0 then s.count c 2 1 else if status / 4096 = 2 then s.count c 3 1
      else if status / 4096 = 4 then s.count c 4 1 else if status / 4096 = 8 then s.count c 5 1 else s) :=
    Only.ite (fun _ => Only.count _ _ _ _) fun _ => Only.ite (fun _ => Only.count _ _ _ _) fun _ =>
      Only.ite (fun _ => Only.count _ _ _ _) fun _ => Only.ite (fun _ => Only.count _ _ _ _) fun _ => Only.refl _ s
  exact Only.ite (fun _ => h.trans (Only.count _ _ _ _)) fun _ => h

theorem Only.setOutcomes (w : Waybill) (o : Nat → Option Nat) (s : State) : Only [.sched] s (s.setOutcomes w o) := by
  unfold State.setOutcomes
  refine Only.trans (Only.foldl _ (fun t k => ?_) _ _) (Only.ofSched _ _)
  dsimp only
  split
  · exact Only.ite (fun _ => Only.ofSched t _) fun _ => Only.refl _ t
  · exact Only.refl _ t

theorem Only.unregister (f : Pool → Bool) (s : State) : Only (.pools :: memParts) s (s.unregister f) :=
  ((Only.ofPools s _).mono (by decide)).trans
    (Only.foldl _ (fun t (p : Pool) => (Only.markPending p.granules t).mono (by decide)) _ _)

theorem Only.poolFailed (w : Waybill) (status : Nat) (s : State) : Only doneParts s (s.poolFailed w status) := by
  unfold State.poolFailed
  split
  · exact Only.refl _ s
  · exact Only.ite (fun _ => ((Only.unregister _ s).mono (by decide)).trans ((Only.ofSched _ _).mono (by decide))) fun _ => Only.refl _ s

theorem Only.finish (w : Waybill) (status detail : Nat) (f : DoneFlags) (b : Bool) (s : State) :
    Only doneParts s (s.finish w status detail f b) :=
  (Only.poolFailed w status s).trans (((Only.setOutcomes w _ _).mono (by decide)).trans
    (((Only.ofSched _ _).mono (by decide)).trans (((Only.countDone _ _ _ _ _ _).mono (by decide)).trans
      (Only.deliver _ _ _ _))))

theorem Only.settle (n : Nat) : ∀ s, Only doneParts s (s.settle n) := by
  induction n with
  | zero => exact fun s => Only.refl _ s
  | succ n ih =>
    intro s
    unfold State.settle
    split
    · exact Only.refl _ s
    · exact Only.ite (fun _ => (Only.finish _ _ _ _ _ s).trans (ih _)) fun _ =>
        Only.ite (fun _ => (Only.finish _ _ _ _ _ s).trans (ih _)) fun _ =>
          ((Only.ofSched s _).mono (by decide)).trans (ih _)

theorem Only.complete (w : Waybill) (status detail : Nat) (f : DoneFlags) (s : State) :
    Only doneParts s (s.complete w status detail f) :=
  (Only.finish w status detail f false s).trans (Only.settle _ _)

theorem Only.abortRunning (f : Waybill → Bool) (s : State) : Only doneParts s (s.abortRunning f) :=
  (Only.foldl _ (fun t w => Only.finish w _ _ _ _ t) _ s).trans (Only.settle _ _)

theorem Only.endFrame (k flags : Nat) (s : State) : Only [.cams] s (s.endFrame k flags) := by
  unfold State.endFrame
  dsimp only
  split
  · exact Only.modCam k _ s
  · exact Only.refl _ s

theorem Only.camFence (b : Nat) (s : State) : Only [.cams] s (s.camFence b) := by
  unfold State.camFence
  refine Only.ite (fun _ => Only.modCam _ _ s) fun _ => Only.ite (fun _ => ?_) fun _ => Only.refl _ s
  refine Only.foldl _ (fun t k => ?_) _ s
  split
  · exact Only.ite (fun _ => Only.endFrame _ _ t) fun _ => Only.refl _ t
  · exact Only.refl _ t

theorem Only.raiseFence (b : Nat) (s : State) : Only [.fences, .cams] s (s.raiseFence b) :=
  ((Only.modFence b _ s).mono (by decide)).trans ((Only.camFence b _).mono (by decide))

theorem Only.postFence (code b : Nat) (s : State) : Only [.events, .irq, .out] s (s.postFence code b) :=
  Only.post _ _ _ s

theorem Only.enter (d : DevState) (cause : Nat) (s : State) : Only [.devState, .events, .irq, .out] s (s.enter d cause) := by
  unfold State.enter
  exact Only.ite (fun _ => Only.refl _ s) fun _ => Only.ite (fun _ => (Only.ofDevState s d).mono (by decide)) fun _ =>
    ((Only.ofDevState s d).mono (by decide)).trans ((Only.post _ _ _ _).mono (by decide))

theorem Only.enterFence (b : Nat) (s : State) : Only fenceParts s (s.enterFence b) := by
  unfold State.enterFence
  refine Only.ite (fun _ => Only.refl _ s) fun _ => ?_
  exact ((Only.raiseFence b s).mono (by decide)).trans (((Only.abortRunning _ _).mono (by decide)).trans
    ((Only.postFence _ b _).mono (by decide)))

theorem Only.fencePi (s : State) : Only fenceParts s s.fencePi := by
  unfold State.fencePi
  refine Only.ite (fun _ => Only.refl _ s) fun _ => ?_
  refine Only.trans ?_ (Only.foldl _ (fun t b => (Only.postFence _ b t).mono (by decide)) _ _)
  refine Only.trans ?_ ((Only.abortRunning _ _).mono (by decide))
  have h : Only fenceParts s ((0x60 :: piBlocks.filter fun b => !s.isFenced b).foldl (fun t b => t.raiseFence b) s) :=
    Only.foldl _ (fun t b => (Only.raiseFence b t).mono (by decide)) _ _
  exact Only.ite (fun _ => h.trans ((Only.enter _ _ _).mono (by decide))) fun _ => h

theorem Only.pwmLow (s : State) : Only [.ports, .out] s s.pwmLow :=
  Only.foldl _ (fun t n => Only.ite (fun _ => Only.refl _ t) fun _ =>
    ((Only.modPwm n _ t).mono (by decide)).trans ((Only.emit _ _).mono (by decide))) _ s

theorem Only.camPinsLow (k : Nat) (s : State) : Only [.cams, .out] s (s.camPinsLow k) := by
  unfold State.camPinsLow
  have e : ∀ (o : Out) (t : State), Only [.cams, .out] t (t.emit o) := fun o t => (Only.emit o t).mono (by decide)
  have h := Only.when (c := (s.cam k).trigPin) ((Only.modCam k (fun y => { y with trig := false, trigPin := false, mclk := 0 }) s).mono
    (qs := [.cams, .out]) (by decide)) (e (.trig k false))
  exact Only.ite (fun _ => h) fun _ => h.trans (e _ _)

theorem Only.gpioInputs (s : State) : Only [.ports, .out] s s.gpioInputs := by
  unfold State.gpioInputs
  refine Only.trans ?_ ((Only.ofPorts _ _).mono (by decide))
  have h : Only [.ports, .out] s ((s.ports.gpio.marks.map (·.1)).foldl (fun (t : State) p => t.emit (.mark p false)) s) :=
    Only.foldl _ (fun t p => (Only.emit _ t).mono (by decide)) _ _
  exact Only.ite (fun _ => h) fun _ => h.trans ((Only.emit _ _).mono (by decide))

theorem Only.ofOutputs (s : State) (b : Bool) (m : VergeSt) (h : m.records = s.verge.records) :
    Only [.outputsUp, .verge] s { s with outputsUp := b, verge := m } :=
  ⟨rfl, fun p hp => by cases p <;> first | rfl | exact fun _ => rfl | exact absurd (by decide) hp | exact h⟩

/-- The outputs going to their reset state change the pins, Verge's outputs and the record of what was sent. -/
theorem Only.outputsDown (s : State) : Only [.outputsUp, .verge, .cams, .ports, .out] s s.outputsDown := by
  have e : ∀ (o : Out) (t : State), Only [.cams, .ports, .out] t (t.emit o) := fun o t => (Only.emit o t).mono (by decide)
  have h := Only.when (c := s.verge.stoB) (Only.when (c := s.verge.stoA) (Only.refl _ s) (e (.sto 0 false))) (e (.sto 1 false))
  have k := (h.trans (Only.foldl State.camPinsLow (fun t k => (Only.camPinsLow k t).mono (by decide)) (List.range 4) _)).trans
    ((Only.gpioInputs _).mono (by decide)) |>.trans ((Only.pwmLow _).mono (by decide))
  unfold State.outputsDown
  refine Only.trans (ps := [.outputsUp, .verge, .cams, .ports, .out]) (k.mono (by decide))
    (Only.mono (ps := [.outputsUp, .verge]) ?_ (by decide))
  exact Only.ofOutputs _ _ _ (k.get .records).symm

theorem Only.assertSto (cause : Nat) (s : State) : Only stoParts s (s.assertSto cause) := by
  unfold State.assertSto
  refine Only.trans ?_ ((Only.pwmLow _).mono (by decide))
  have e : ∀ (o : Out) (t : State), Only stoParts t (t.emit o) := fun o t => (Only.emit o t).mono (by decide)
  have p : ∀ t : State, Only stoParts t (t.post 0x0A05 cause none) := fun t => (Only.post _ _ _ t).mono (by decide)
  have h := (Only.ofVergeKeep s { s.verge with stoA := false, stoB := false, stoByStop := true, stoCause := BitVec.ofNat 16 cause } rfl).mono
    (qs := stoParts) (by decide)
  have h2 := Only.when (c := s.verge.stoA) h (e (.sto 0 false))
  have h3 := Only.when (c := s.verge.stoB) h2 (e (.sto 1 false))
  exact Only.when (c := s.verge.stoA || s.verge.stoB) h3 p

theorem Only.endRamps (s : State) : Only stopParts s s.endRamps := by
  unfold State.endRamps
  exact Only.ite (fun _ => Only.ite (fun _ => (Only.assertSto _ s).mono (by decide)) fun _ => Only.refl _ s)
    fun _ => Only.refl _ s

theorem Only.orderStop (cause : Nat) (s : State) : Only stopParts s (s.orderStop cause) := by
  unfold State.orderStop
  refine Only.ite (fun _ => ?_) fun _ => Only.refl _ s
  refine Only.trans ?_ (Only.endRamps _)
  have v := Only.ofVergeKeep s { s.verge with stop := .controlled, stopSince := s.now, stoCause := BitVec.ofNat 16 cause } rfl
  exact (v.mono (by decide)).trans (Only.foldl _ (fun t l => (Only.modLoop l _ t).mono (by decide)) _ _)

theorem Only.abortQueue (i : QueueInfo) (s : State) : Only doneParts s (s.abortQueue i) := by
  unfold State.abortQueue
  refine Only.trans ?_ ((Only.modQueue _ _ _ _).mono (by decide))
  exact Only.thenFoldl (Only.foldl _ (fun t (w : Waybill) => Only.finish w 0x4201 0 {} false t) _ s)
    (fun t k => ((Only.countDone _ _ _ _ _ t).mono (by decide)).trans (Only.deliver _ _ _ _)) _

theorem Only.abortWork (s : State) : Only doneParts s s.abortWork :=
  Only.foldl _ (fun t i => Only.abortQueue i t) _ s

/-- Noting a fault changes the device state, its cause, and what reporting and abandoning work change. -/
theorem Only.noteFault (code unit : Nat) (r : Reaction) (detail : Nat) (s : State) :
    Only (.devState :: .fw :: doneParts) s (s.noteFault code unit r detail) := by
  unfold State.noteFault
  refine Only.when (f := fun t => (State.enter .fault code { t with fw := { t.fw with faultCause := BitVec.ofNat 16 code, piHeld := t.isFenced 0x60 } }).abortWork)
    (((Only.record code unit r.code detail s).mono (by decide)).trans ((Only.post _ _ none _).mono (by decide))) fun t => ?_
  exact ((Only.ofFw t _).mono (by decide)).trans
    (((Only.enter _ _ _).mono (by decide)).trans ((Only.abortWork _).mono (by decide)))

theorem Only.react (code unit : Nat) (r : Reaction) (live : Bool) (s : State) :
    Only raiseParts s (s.react code unit r live) := by
  cases r
  · exact Only.refl _ s
  · exact Only.refl _ s
  · exact (Only.enterFence unit s).mono (by decide)
  · exact (Only.fencePi s).mono (by decide)
  · exact Only.ite (fun _ => (Only.orderStop code s).mono (by decide)) fun _ => Only.refl _ s
  · have v := Only.ofVergeKeep s { s.verge with stop := .immediate } rfl
    exact Only.ite (fun _ => (v.mono (by decide)).trans ((Only.assertSto code _).mono (by decide)))
      fun _ => Only.refl _ s

theorem Only.raise (code unit : Nat) (r : Reaction) (detail : Nat) (s : State) :
    Only raiseParts s (s.raise code unit r detail) :=
  ((Only.noteFault code unit r detail s).mono (by decide)).trans (Only.react code unit r _ _)

end Sys2Proof.Machine
end

