-- ==== Sys2Proof/Laws/Outcome.lean ====
section
/-! SUPPORT. Outcomes: a command that ends in `done` or `checked` reaches a next state with the queue as it was. -/

namespace Sys2Proof.Machine

/-- Putting back a queue that never changed changes nothing. -/
theorem pending_restored {s t : State} (h : t.pending = s.pending) : { t with pending := s.pending } = t := by
  cases t; cases h; rfl

theorem done_eq {s t : State} (h : t.pending = s.pending) : done s t = .next t := by
  unfold done; rw [pending_restored h]

/-- A command that ends in `done` goes on, and its effect is what was computed when that kept the queue. -/
theorem goes_done {ps : List Part} {s t : State} {P : State → Prop} (f : Only ps s t) (h : P t) : Goes (done s t) P :=
  ⟨t, done_eq f.1, h⟩

theorem goes_done_of {s t : State} {P : State → Prop} (f : t.pending = s.pending) (h : P t) : Goes (done s t) P :=
  ⟨t, done_eq f, h⟩

theorem checked_eq {c : Instr} {m : String} {s t : State} (w : c.wellFormed = true) : checked c m s t = done s t := by
  simp [checked, w]

/-- An ill-formed command stops. -/
theorem checked_ill {c : Instr} {m : String} {s t : State} (w : c.wellFormed = false) :
    checked c m s t = .fault (.illFormed m) := by
  simp [checked, w]

theorem goes_checked {ps : List Part} {c : Instr} {m : String} {s t : State} {P : State → Prop}
    (w : c.wellFormed = true) (f : Only ps s t) (h : P t) : Goes (checked c m s t) P := by
  rw [checked_eq w]; exact goes_done f h

end Sys2Proof.Machine
end

