-- ==== Sys2Proof/Laws/Fences.lean ====
section
/-! SUPPORT. What raising fences and fencing the Perception Island does to the fence lines. -/

namespace Sys2Proof.Machine

/-- A part outside the frame, carried to the fence lines. -/
theorem isFenced_of_only {ps : List Part} {s t : State} (h : Only ps s t) (hp : Part.fences ∉ ps) (b : Nat) :
    t.isFenced b = s.isFenced b := by
  have e : t.fences = s.fences := h.2 .fences hp
  simp [State.isFenced, State.fenceOf, e]

theorem fence_line_ne {f : Fence} (h : f.fenced = true) : f ≠ ({} : Fence) := by
  intro e; rw [e] at h; exact absurd h (by decide)

/-- Raising the line of `b` fences `b` and leaves every other line. -/
theorem isFenced_raiseFence (b c : Nat) (s : State) :
    (s.raiseFence b).isFenced c = if c = b then true else s.isFenced c := by
  unfold State.raiseFence
  rw [isFenced_of_only (Only.camFence b _) (by decide) c]
  simp only [State.isFenced, State.fenceOf, State.modFence]
  by_cases e : c = b
  · subst e
    rw [if_pos rfl, Map.get_set_self]
    exact fence_line_ne rfl
  · rw [if_neg e, Map.get_set_ne _ _ _ _ _ (fence_line_ne rfl) e]

/-- Raising a list of lines fences each block of it and leaves the other lines. -/
theorem isFenced_raiseAll (l : List Nat) : ∀ (s : State) (c : Nat),
    (l.foldl (fun t b => t.raiseFence b) s).isFenced c = (decide (c ∈ l) || s.isFenced c) := by
  induction l with
  | nil => intro s c; simp
  | cons b r ih =>
    intro s c
    rw [List.foldl_cons, ih, isFenced_raiseFence]
    by_cases e : c = b <;> simp [e]

/-- A fence line that stands stays through all that a fence does. -/
theorem isFenced_enterFence (b c : Nat) (s : State) :
    (s.enterFence b).isFenced c = if c = b then true else s.isFenced c := by
  unfold State.enterFence
  by_cases h : s.isFenced b = true
  · simp only [h, if_true]; split
    · subst_vars; exact h
    · rfl
  · simp only [h]
    refine (isFenced_of_only (Only.postFence 4 b _) (by decide) c).trans ?_
    exact (isFenced_of_only (Only.abortRunning _ _) (by decide) c).trans (isFenced_raiseFence b c s)

/-- After the island is fenced it stands FENCED; when it was not before, so does every block of it, and no line that
stood has fallen. -/
theorem isFenced_fencePi (s : State) (c : Nat) :
    s.fencePi.isFenced c = (s.isFenced c || (!s.isFenced 0x60 && (c == 0x60 || decide (c ∈ piBlocks)))) := by
  unfold State.fencePi
  by_cases h : s.isFenced 0x60 = true
  · simp [h]
  · simp only [h, Bool.false_eq_true, if_false]
    rw [isFenced_of_only (Only.foldl (ps := [.events, .irq, .out]) (fun t b => t.postFence 4 b)
      (fun t b => Only.postFence 4 b t) _ _) (by decide) c]
    rw [isFenced_of_only (Only.abortRunning _ _) (by decide) c]
    have e : ∀ t : State, (if t.devState = .run then t.enter .fenced 0 else t).isFenced c = t.isFenced c := by
      intro t
      split
      · exact isFenced_of_only (Only.enter _ _ t) (by decide) c
      · rfl
    rw [e, isFenced_raiseAll]
    by_cases k : s.isFenced c = true <;> by_cases i : c ∈ piBlocks <;> by_cases z : c = 0x60 <;> simp_all

/-- Entering a device state ends in it. -/
theorem devState_enter (d : DevState) (cause : Nat) (s : State) : (s.enter d cause).devState = d := by
  unfold State.enter
  split
  · assumption
  · split
    · rfl
    · exact (Only.post _ _ _ _).get .devState

/-- RUN becomes FENCED as the island is fenced; other device states stay. -/
theorem devState_fencePi (s : State) (h : s.isFenced 0x60 = false) :
    s.fencePi.devState = if s.devState = .run then .fenced else s.devState := by
  unfold State.fencePi
  simp only [h, Bool.false_eq_true, if_false]
  have a := (Only.foldl (ps := [.events, .irq, .out]) (fun t b => t.postFence 4 b)
      (fun t b => Only.postFence 4 b t) (0x60 :: piBlocks.filter fun b => !s.isFenced b)
      (State.abortRunning (fun w => decide (w.engine.getD 31 < 19))
        (if ((0x60 :: piBlocks.filter fun b => !s.isFenced b).foldl (fun t b => t.raiseFence b) s).devState = .run then
          ((0x60 :: piBlocks.filter fun b => !s.isFenced b).foldl (fun t b => t.raiseFence b) s).enter .fenced 0
        else (0x60 :: piBlocks.filter fun b => !s.isFenced b).foldl (fun t b => t.raiseFence b) s))).get .devState
  have b := (Only.abortRunning (fun w => decide (w.engine.getD 31 < 19))
        (if ((0x60 :: piBlocks.filter fun b => !s.isFenced b).foldl (fun t b => t.raiseFence b) s).devState = .run then
          ((0x60 :: piBlocks.filter fun b => !s.isFenced b).foldl (fun t b => t.raiseFence b) s).enter .fenced 0
        else (0x60 :: piBlocks.filter fun b => !s.isFenced b).foldl (fun t b => t.raiseFence b) s)).get .devState
  have d := (Only.foldl (ps := [.fences, .cams]) (fun t b => t.raiseFence b) (fun t b => Only.raiseFence b t)
    (0x60 :: piBlocks.filter fun b => !s.isFenced b) s).get .devState
  simp only [State.agrees] at a b d
  rw [a, b, d]
  split
  · exact devState_enter _ _ _
  · exact d

end Sys2Proof.Machine
end

