-- ==== Sys2Proof/Laws/Faults.lean ====
section
/-! SUPPORT. What a detected fault does: its note, its reaction, and the loss of the Perception Island with VCORE. -/

namespace Sys2Proof.Machine

/-- A fault that is no FAULT cause leaves a record and its event, and nothing else. -/
theorem Only.noteReport (code unit : Nat) (r : Reaction) (detail : Nat) (s : State) (h : demandsFault code = false) :
    Only [.records, .events, .irq, .out] s (s.noteFault code unit r detail) := by
  unfold State.noteFault
  simp only [h, Bool.false_and, Bool.false_eq_true, if_false]
  exact ((Only.record _ _ _ _ s).mono (by decide)).trans ((Only.post _ _ none _).mono (by decide))

/-- What does not touch Verge leaves its stop and its STO channels. -/
theorem stop_of_only {ps : List Part} {s t : State} (h : Only ps s t) (hp : Part.verge ∉ ps) :
    t.verge.stop = s.verge.stop ∧ t.verge.stopSince = s.verge.stopSince ∧ t.verge.stoA = s.verge.stoA ∧
    t.verge.stoB = s.verge.stoB := by
  have e : { t.verge with records := [] } = { s.verge with records := [] } := h.2 .verge hp
  exact ⟨congrArg (·.stop) e, congrArg (·.stopSince) e, congrArg (·.stoA) e, congrArg (·.stoB) e⟩

/-- The accepted book is read the same after what does not touch it. -/
theorem recField_of_only {ps : List Part} {s t : State} (h : Only ps s t) (hp : Part.fw ∉ ps) (a b c : Nat) :
    t.recField a b c = s.recField a b c := by
  have e : t.fw = s.fw := h.2 .fw hp
  simp [State.recField, State.recs, e]

/-- A hardware fault or a stop demand in RUN or FENCED ends its note in FAULT. -/
theorem devState_noteFault (code unit : Nat) (r : Reaction) (detail : Nat) (s : State) (d : demandsFault code = true)
    (a : s.active = true) : (s.noteFault code unit r detail).devState = .fault := by
  unfold State.noteFault
  simp only [d, a, Bool.and_self, if_true]
  exact ((Only.abortWork _).get .devState).trans (devState_enter _ _ _)

/-- A command to VCORE changes the governor and what has been sent. -/
theorem Only.vcoreCommand (mV : Nat) (s : State) : Only [.pace, .out] s (s.vcoreCommand mV) := by
  unfold State.vcoreCommand
  exact Only.ite (fun _ => (Only.ofPace s _).mono (by decide)) fun _ =>
    ((Only.ofPace s _).mono (by decide)).trans ((Only.emit _ _).mono (by decide))

theorem vcoreAsked_command (mV : Nat) (s t : State) (h : t.pace = s.pace) (n : t.time = s.time)
    (f : t.recField 3 8 1 = s.recField 3 8 1) :
    VcoreAsked mV s (t.vcoreCommand mV) := by
  unfold State.vcoreCommand VcoreAsked
  constructor
  · intro u; simp [h, u]
  · intro u; simp [h, u, State.emit, f, State.now, n]

/-- A fault whose reaction fences the Perception Island loses it. -/
theorem islandLost_raise (code unit detail : Nat) (s : State) (d : demandsFault code = false) :
    IslandLost s (s.raise code unit .fencePi detail) ∧ Only fenceParts s (s.raise code unit .fencePi detail) := by
  have n := Only.noteReport code unit .fencePi detail s d
  have e : s.raise code unit .fencePi detail = (s.noteFault code unit .fencePi detail).fencePi := rfl
  rw [e]
  refine ⟨⟨?_, fun h => ⟨fun b hb => ?_, fun r => ?_⟩⟩, (n.mono (by decide)).trans (Only.fencePi _)⟩
  · rw [isFenced_fencePi, isFenced_of_only n (by decide)]; cases s.isFenced 0x60 <;> simp
  · rw [isFenced_fencePi, isFenced_of_only n (by decide), isFenced_of_only n (by decide), h]; simp [hb]
  · have k : (s.noteFault code unit .fencePi detail).devState = s.devState := n.get .devState
    rw [devState_fencePi _ (by rw [isFenced_of_only n (by decide), h]), k, r]; rfl

/-- The loss of the Perception Island with its supply: the island is lost and VCORE commanded to 0.60 V. -/
theorem islandLost_piLoss (s : State) :
    IslandLost s s.piLoss ∧ VcoreAsked 600 s s.piLoss ∧ Only (.pace :: fenceParts) s s.piLoss := by
  obtain ⟨i, o⟩ := islandLost_raise 0x8A0A 0xFF 0 s rfl
  have v := Only.vcoreCommand 600 (s.raise 0x8A0A 0xFF .fencePi 0)
  refine ⟨?_, vcoreAsked_command 600 _ _ (o.get .pace) (o.get .time) (recField_of_only o (by decide) _ _ _),
    (o.mono (by decide)).trans (v.mono (by decide))⟩
  refine ⟨(isFenced_of_only v (by decide) _).trans i.1, fun h => ⟨fun b hb => ?_, fun r => ?_⟩⟩
  · exact (isFenced_of_only v (by decide) _).trans ((i.2 h).1 b hb)
  · exact (v.get .devState).trans ((i.2 h).2 r)

end Sys2Proof.Machine
end

