-- ==== Sys2Proof/Laws/Memory.lean ====
section
/-! SUPPORT. Every memory operation keeps the canonical form of the memories: Sward, LPDDR5, the epoch tags, the
picture store and host memory. -/

namespace Sys2Proof.Machine

/-- When the memories of `s` are in canonical form, so are those of `t`. -/
structure KeepsMem (s t : State) : Prop where
  keeps : s.mem.canonical = true → t.mem.canonical = true

theorem KeepsMem.refl (s : State) : KeepsMem s s := ⟨id⟩

theorem KeepsMem.trans {s t u : State} (h : KeepsMem s t) (k : KeepsMem t u) : KeepsMem s u := ⟨k.1 ∘ h.1⟩

theorem KeepsMem.of_eq {s t : State} (h : t.mem = s.mem) : KeepsMem s t := ⟨fun k => by rw [h]; exact k⟩

/-- What leaves the memories alone keeps their form. -/
theorem KeepsMem.of_only {ps : List Part} {s t : State} (h : Only ps s t) (k : Part.mem ∉ ps) : KeepsMem s t :=
  KeepsMem.of_eq (h.2 .mem k)

theorem KeepsMem.foldl {α : Type} (f : State → α → State) (h : ∀ s a, KeepsMem s (f s a)) (l : List α) :
    ∀ s, KeepsMem s (l.foldl f s) := by
  induction l with
  | nil => exact KeepsMem.refl
  | cons a r ih => exact fun s => (h s a).trans (ih (f s a))

theorem MemSpace.canonical_iff (p : MemSpace) : p.canonical = true ↔
    Memory.wf p.cells = true ∧ Map.wf Ecc.clean p.marks = true ∧ Map.wf 0 p.hard = true := by
  simp [MemSpace.canonical, and_assoc]

theorem MemSt.canonical_iff (m : MemSt) : m.canonical = true ↔
    m.sward.canonical = true ∧ m.lpddr.canonical = true ∧ m.tag.canonical = true ∧ m.pic.canonical = true ∧
    Memory.wf m.host = true ∧ Map.wf false m.hostBad = true ∧ Map.wf 0 m.picCorr = true := by
  simp [MemSt.canonical, and_assoc]

theorem canonical_space {s : State} (h : s.mem.canonical = true) (m : Mem) : (s.space m).canonical = true := by
  rw [MemSt.canonical_iff] at h
  cases m
  · exact h.1
  · exact h.2.1
  · exact h.2.2.1
  · exact h.2.2.2.1

/-- A memory reads what was put into it, and the others as before. -/
theorem space_setSpace (m n : Mem) (p : MemSpace) (s : State) :
    (s.setSpace m p).space n = if n = m then p else s.space n := by
  cases m <;> cases n <;> rfl

/-- New contents of one memory in canonical form keep the whole in it. -/
theorem KeepsMem.setSpace (m : Mem) (p : MemSpace) (s : State) (h : (s.space m).canonical = true → p.canonical = true) :
    KeepsMem s (s.setSpace m p) := by
  constructor
  intro k
  have q := h (canonical_space k m)
  rw [MemSt.canonical_iff] at k ⊢
  cases m
  · exact ⟨q, k.2⟩
  · exact ⟨k.1, q, k.2.2⟩
  · exact ⟨k.1, k.2.1, q, k.2.2.2⟩
  · exact ⟨k.1, k.2.1, k.2.2.1, q, k.2.2.2.2⟩

/-- What keeps the bytes, the check bits and the stuck bits keeps their form, whatever it does to the counts. -/
theorem KeepsMem.ofCounts {s t : State} (h : ∀ m, t.space m = s.space m) (h2 : t.mem.host = s.mem.host)
    (h3 : t.mem.hostBad = s.mem.hostBad) (h4 : Map.wf 0 s.mem.picCorr = true → Map.wf 0 t.mem.picCorr = true) :
    KeepsMem s t := by
  constructor
  intro k
  have a := h .sw
  have b := h .lp
  have c := h .tag
  have d := h .pic
  simp only [State.space] at a b c d
  rw [MemSt.canonical_iff] at k ⊢
  rw [a, b, c, d, h2, h3]
  exact ⟨k.1, k.2.1, k.2.2.1, k.2.2.2.1, k.2.2.2.2.1, k.2.2.2.2.2.1, h4 k.2.2.2.2.2.2⟩

theorem KeepsMem.setMark (m : Mem) (w : Nat) (e : Ecc) (s : State) : KeepsMem s (s.setMark m w e) :=
  KeepsMem.setSpace m _ s fun h => by
    rw [MemSpace.canonical_iff] at h ⊢
    exact ⟨h.1, Map.wf_set _ _ _ _ h.2.1, h.2.2⟩

theorem KeepsMem.setWord (m : Mem) (w v : Nat) (s : State) : KeepsMem s (s.setWord m w v) :=
  KeepsMem.setSpace m _ s fun h => by
    rw [MemSpace.canonical_iff] at h ⊢
    exact ⟨Map.wf_store _ _ _ h.1, h.2⟩

theorem KeepsMem.draw (s : State) : KeepsMem s s.draw.2 := KeepsMem.of_eq rfl

theorem KeepsMem.reMark (m : Mem) (w : Nat) (b : Bool) (s : State) : KeepsMem s (s.reMark m w b) := by
  unfold State.reMark
  dsimp only
  split
  · exact KeepsMem.setMark _ _ _ _
  split
  · exact KeepsMem.setMark _ _ _ _
  refine (KeepsMem.draw s).trans ?_
  split
  · exact KeepsMem.setMark _ _ _ _
  refine (KeepsMem.setMark m w (eccOf s.draw.1) s.draw.2).trans ?_
  split
  · exact (KeepsMem.draw _).trans (KeepsMem.setWord _ _ _ _)
  · exact KeepsMem.refl _

theorem KeepsMem.memUe (m : Mem) (a : Nat) (s : State) : KeepsMem s (s.memUe m a) := by
  unfold State.memUe
  split
  · exact (KeepsMem.draw s).trans (KeepsMem.of_only (Only.post _ _ _ _) (by decide))
  refine KeepsMem.trans ?_ (KeepsMem.of_only (Only.post _ _ _ _) (by decide))
  refine KeepsMem.trans ?_ (KeepsMem.of_only (Only.record _ _ _ _ _) (by decide))
  split <;> exact KeepsMem.ofCounts (fun _ => rfl) rfl rfl id

theorem KeepsMem.memCorr (m : Mem) (who : Option Nat) (a : Nat) (s : State) : KeepsMem s (s.memCorr m who a) := by
  unfold State.memCorr
  split
  · exact KeepsMem.ofCounts (fun _ => rfl) rfl rfl (Map.wf_set _ _ _ _)
  have h : KeepsMem s (if m = .lp then { s with mem := { s.mem with lpCorr := add64 s.mem.lpCorr 1 } }
      else { s with mem := { s.mem with swCorr := add64 s.mem.swCorr 1 } }) := by
    split <;> exact KeepsMem.ofCounts (fun _ => rfl) rfl rfl id
  cases who with
  | none => exact h
  | some c => exact h.trans (KeepsMem.of_only (Only.count c 22 1 _) (by decide))

theorem KeepsMem.readWord (m : Mem) (who : Option Nat) (w : Nat) (s : State) : KeepsMem s (s.readWord m who w).2 := by
  unfold State.readWord
  dsimp only
  split
  · exact KeepsMem.refl s
  · exact (KeepsMem.reMark _ _ _ _).trans (KeepsMem.memCorr _ _ _ _)
  · exact (KeepsMem.reMark _ _ _ _).trans (KeepsMem.memUe _ _ _)
  · exact KeepsMem.refl s

theorem KeepsMem.readWords (m : Mem) (who : Option Nat) (l : List Nat) :
    ∀ (s : State) (x : Seen), KeepsMem s (s.readWords m who l x).2 := by
  induction l with
  | nil => exact fun s _ => KeepsMem.refl s
  | cons w r ih => exact fun s x => (KeepsMem.readWord m who w s).trans (ih _ _)

theorem KeepsMem.cleanRange (m : Mem) (a n : Nat) (s : State) : KeepsMem s (s.cleanRange m a n) := by
  unfold State.cleanRange
  refine KeepsMem.trans (KeepsMem.setSpace m _ s fun h => ?_) (KeepsMem.foldl _ (fun t h => KeepsMem.reMark _ _ _ _) _ _)
  rw [MemSpace.canonical_iff] at h ⊢
  exact ⟨h.1, Map.wf_clear _ _ _ _ h.2.1, h.2.2⟩

theorem KeepsMem.zeroRange (m : Mem) (a n : Nat) (s : State) : KeepsMem s (s.zeroRange m a n) := by
  unfold State.zeroRange
  refine KeepsMem.trans (KeepsMem.setSpace m _ s fun h => ?_) (KeepsMem.cleanRange _ _ _ _)
  rw [MemSpace.canonical_iff] at h ⊢
  exact ⟨Map.wf_clear _ _ _ _ h.1, h.2⟩

theorem KeepsMem.setOwed (b : Bool) (s : State) : KeepsMem s { s with mem := { s.mem with zeroOwed := b } } :=
  KeepsMem.ofCounts (fun _ => rfl) rfl rfl id

theorem KeepsMem.setPend (l : List Nat) (b : Bool) (s : State) :
    KeepsMem s { s with mem := { s.mem with pendGran := l, zeroOwed := b } } :=
  KeepsMem.ofCounts (fun _ => rfl) rfl rfl id

theorem KeepsMem.zeroDone (s : State) : KeepsMem s s.zeroDone := by
  unfold State.zeroDone
  split
  · exact (KeepsMem.setOwed false s).trans (KeepsMem.of_only (Only.post 0x0301 0 none _) (by decide))
  · exact KeepsMem.refl s

theorem KeepsMem.markPending (gs : List Nat) (s : State) : KeepsMem s (s.markPending gs) := by
  unfold State.markPending
  exact (KeepsMem.setPend _ true s).trans (KeepsMem.zeroDone _)

theorem KeepsMem.zeroGranule (g : Nat) (s : State) : KeepsMem s (s.zeroGranule g) := by
  unfold State.zeroGranule
  refine (KeepsMem.zeroRange .lp (g * granule) granule s).trans ?_
  dsimp only
  exact (KeepsMem.setPend _ _ _).trans (KeepsMem.zeroDone _)

theorem KeepsMem.touch (m : Mem) (a n : Nat) (s : State) : KeepsMem s (s.touch m a n) := by
  unfold State.touch
  split
  · exact KeepsMem.refl s
  · exact KeepsMem.foldl _ (fun t g => KeepsMem.zeroGranule g t) _ _

/-- A read keeps the canonical form. -/
theorem KeepsMem.readMem (m : Mem) (who : Option Nat) (a n : Nat) (s : State) : KeepsMem s (s.readMem m who a n).2.2 :=
  (KeepsMem.touch m a n s).trans (KeepsMem.readWords _ _ _ _ _)

theorem KeepsMem.partialWord (m : Mem) (who : Option Nat) (b : Bool) (w : Nat) (s : State) :
    KeepsMem s (s.partialWord m who b w).2 := by
  unfold State.partialWord
  split
  · dsimp only; split
    · exact KeepsMem.reMark _ _ _ _
    · exact KeepsMem.refl s
  · exact (KeepsMem.reMark _ _ _ _).trans (KeepsMem.memCorr _ _ _ _)
  · exact (KeepsMem.reMark _ _ _ _).trans (KeepsMem.memUe _ _ _)
  · exact KeepsMem.refl s

theorem KeepsMem.foldl_snd {α β : Type} (f : α × State → β → α × State) (h : ∀ x b, KeepsMem x.2 (f x b).2) (l : List β) :
    ∀ x, KeepsMem x.2 (l.foldl f x).2 := by
  induction l with
  | nil => exact fun x => KeepsMem.refl x.2
  | cons b r ih => exact fun x => (h x b).trans (ih (f x b))

/-- Stored bytes keep the canonical form. -/
theorem KeepsMem.storeBytes (m : Mem) (a : Nat) (bs : List Byte) (s : State) :
    KeepsMem s (s.setSpace m { s.space m with cells := (s.space m).cells.store a bs }) :=
  KeepsMem.setSpace m _ s fun h => by
    rw [MemSpace.canonical_iff] at h ⊢
    exact ⟨Map.wf_store _ _ _ h.1, h.2⟩

/-- A write keeps the canonical form. -/
theorem KeepsMem.writeMem (m : Mem) (who : Option Nat) (b : Bool) (a : Nat) (bs : List Byte) (s : State) :
    KeepsMem s (s.writeMem m who b a bs).2 := by
  unfold State.writeMem
  dsimp only
  have h := KeepsMem.foldl_snd (fun (acc : Option Nat × State) w =>
      (acc.1.or (if (acc.2.partialWord m who b w).1 then some (w * 8) else none), (acc.2.partialWord m who b w).2))
    (fun x w => KeepsMem.partialWord m who b w x.2) (partialWords a bs.length) (none, s.touch m a bs.length)
  generalize (partialWords a bs.length).foldl _ (none, s.touch m a bs.length) = x at h
  refine ((KeepsMem.touch m a bs.length s).trans h).trans ?_
  refine ((KeepsMem.storeBytes m a bs x.2).trans (KeepsMem.cleanRange m a bs.length _)).trans ?_
  split
  · exact KeepsMem.foldl _ (fun t w => KeepsMem.reMark m w true t) _ _
  · exact KeepsMem.refl _

theorem KeepsMem.setTags (who : Option Nat) (epoch a n : Nat) (s : State) : KeepsMem s (s.setTags who epoch a n) := by
  unfold State.setTags
  split
  · exact KeepsMem.refl s
  · exact KeepsMem.foldl _ (fun t l => KeepsMem.writeMem .tag who false l _ t) _ _

/-- Zeroing Sward keeps the canonical form. -/
theorem KeepsMem.zeroSward (s : State) : KeepsMem s s.zeroSward := by
  unfold State.zeroSward
  exact (KeepsMem.zeroRange .sw 0 swardSize s).trans (KeepsMem.zeroRange .tag 0 _ _)

theorem Map.wf_foldl_set {α : Type} [DecidableEq α] (d v : α) (l : List Nat) :
    ∀ m : Map α, Map.wf d m = true → Map.wf d (l.foldl (fun b w => b.set d w v) m) = true := by
  induction l with
  | nil => exact fun _ w => w
  | cons k r ih => exact fun m w => ih _ (Map.wf_set d m k v w)

/-- A write of host memory keeps the canonical form. -/
theorem KeepsMem.writeHost (ep : Bool) (a : Nat) (bs : List Byte) (s : State) : KeepsMem s (s.writeHost ep a bs) := by
  constructor
  intro k
  rw [MemSt.canonical_iff] at k ⊢
  exact ⟨k.1, k.2.1, k.2.2.1, k.2.2.2.1, Map.wf_store bs _ a k.2.2.2.2.1, Map.wf_foldl_set _ _ _ _ k.2.2.2.2.2.1,
    k.2.2.2.2.2.2⟩

theorem KeepsMem.hostStores (l : List HostStore) (s : State) : KeepsMem s (s.hostStores l) :=
  KeepsMem.foldl _ (fun _ _ => KeepsMem.writeHost _ _ _ _) l s

theorem KeepsMem.writeDev (who : Option Nat) (a : Nat) (bs : List Byte) (s : State) :
    KeepsMem s (s.writeDev who a bs) := by
  unfold State.writeDev
  split
  · refine KeepsMem.foldl _ (fun t p => ?_) _ _
    split
    · exact KeepsMem.refl t
    · exact KeepsMem.writeMem _ _ _ _ _ _
  · exact KeepsMem.writeHost _ _ _ _
  · exact KeepsMem.refl s

/-- The memories right after reset are in canonical form. -/
theorem reset_mem_canonical : State.reset.mem.canonical = true := by decide

end Sys2Proof.Machine
end

