-- ==== Sys2Proof/Laws/State.lean ====
section
/-! SUPPORT. What each shared update of the state leaves alone, one lemma per field, and what a unit reads after a
write of it. -/

namespace Sys2Proof.Machine

variable (s : State)

/-! ### `modFn` -/

@[simp] theorem State.modFn_devState (f : Nat) (g : FnState → FnState) : (s.modFn f g).devState = s.devState := rfl
@[simp] theorem State.modFn_porst (f : Nat) (g : FnState → FnState) : (s.modFn f g).porst = s.porst := rfl
@[simp] theorem State.modFn_lostRails (f : Nat) (g : FnState → FnState) : (s.modFn f g).lostRails = s.lostRails := rfl
@[simp] theorem State.modFn_reachedRun (f : Nat) (g : FnState → FnState) : (s.modFn f g).reachedRun = s.reachedRun := rfl
@[simp] theorem State.modFn_outputsUp (f : Nat) (g : FnState → FnState) : (s.modFn f g).outputsUp = s.outputsUp := rfl
@[simp] theorem State.modFn_waymarks (f : Nat) (g : FnState → FnState) : (s.modFn f g).waymarks = s.waymarks := rfl
@[simp] theorem State.modFn_fences (f : Nat) (g : FnState → FnState) : (s.modFn f g).fences = s.fences := rfl
@[simp] theorem State.modFn_time (f : Nat) (g : FnState → FnState) : (s.modFn f g).time = s.time := rfl
@[simp] theorem State.modFn_pace (f : Nat) (g : FnState → FnState) : (s.modFn f g).pace = s.pace := rfl
@[simp] theorem State.modFn_mc (f : Nat) (g : FnState → FnState) : (s.modFn f g).mc = s.mc := rfl
@[simp] theorem State.modFn_link (f : Nat) (g : FnState → FnState) : (s.modFn f g).link = s.link := rfl
@[simp] theorem State.modFn_fw (f : Nat) (g : FnState → FnState) : (s.modFn f g).fw = s.fw := rfl
@[simp] theorem State.modFn_queues (f : Nat) (g : FnState → FnState) : (s.modFn f g).queues = s.queues := rfl
@[simp] theorem State.modFn_counters (f : Nat) (g : FnState → FnState) : (s.modFn f g).counters = s.counters := rfl
@[simp] theorem State.modFn_sched (f : Nat) (g : FnState → FnState) : (s.modFn f g).sched = s.sched := rfl
@[simp] theorem State.modFn_mem (f : Nat) (g : FnState → FnState) : (s.modFn f g).mem = s.mem := rfl
@[simp] theorem State.modFn_piReset (f : Nat) (g : FnState → FnState) : (s.modFn f g).piReset = s.piReset := rfl
@[simp] theorem State.modFn_pools (f : Nat) (g : FnState → FnState) : (s.modFn f g).pools = s.pools := rfl
@[simp] theorem State.modFn_intake (f : Nat) (g : FnState → FnState) : (s.modFn f g).intake = s.intake := rfl
@[simp] theorem State.modFn_cams (f : Nat) (g : FnState → FnState) : (s.modFn f g).cams = s.cams := rfl
@[simp] theorem State.modFn_rxDiscards (f : Nat) (g : FnState → FnState) : (s.modFn f g).rxDiscards = s.rxDiscards := rfl
@[simp] theorem State.modFn_loops (f : Nat) (g : FnState → FnState) : (s.modFn f g).loops = s.loops := rfl
@[simp] theorem State.modFn_verge (f : Nat) (g : FnState → FnState) : (s.modFn f g).verge = s.verge := rfl
@[simp] theorem State.modFn_cans (f : Nat) (g : FnState → FnState) : (s.modFn f g).cans = s.cans := rfl
@[simp] theorem State.modFn_ports (f : Nat) (g : FnState → FnState) : (s.modFn f g).ports = s.ports := rfl
@[simp] theorem State.modFn_free (f : Nat) (g : FnState → FnState) : (s.modFn f g).free = s.free := rfl
@[simp] theorem State.modFn_out (f : Nat) (g : FnState → FnState) : (s.modFn f g).out = s.out := rfl
@[simp] theorem State.modFn_pending (f : Nat) (g : FnState → FnState) : (s.modFn f g).pending = s.pending := rfl

/-! ### `modQueue` -/

@[simp] theorem State.modQueue_devState (c q : Nat) (g : QueueSt → QueueSt) : (s.modQueue c q g).devState = s.devState := rfl
@[simp] theorem State.modQueue_porst (c q : Nat) (g : QueueSt → QueueSt) : (s.modQueue c q g).porst = s.porst := rfl
@[simp] theorem State.modQueue_lostRails (c q : Nat) (g : QueueSt → QueueSt) : (s.modQueue c q g).lostRails = s.lostRails := rfl
@[simp] theorem State.modQueue_reachedRun (c q : Nat) (g : QueueSt → QueueSt) : (s.modQueue c q g).reachedRun = s.reachedRun := rfl
@[simp] theorem State.modQueue_outputsUp (c q : Nat) (g : QueueSt → QueueSt) : (s.modQueue c q g).outputsUp = s.outputsUp := rfl
@[simp] theorem State.modQueue_fns (c q : Nat) (g : QueueSt → QueueSt) : (s.modQueue c q g).fns = s.fns := rfl
@[simp] theorem State.modQueue_waymarks (c q : Nat) (g : QueueSt → QueueSt) : (s.modQueue c q g).waymarks = s.waymarks := rfl
@[simp] theorem State.modQueue_fences (c q : Nat) (g : QueueSt → QueueSt) : (s.modQueue c q g).fences = s.fences := rfl
@[simp] theorem State.modQueue_time (c q : Nat) (g : QueueSt → QueueSt) : (s.modQueue c q g).time = s.time := rfl
@[simp] theorem State.modQueue_pace (c q : Nat) (g : QueueSt → QueueSt) : (s.modQueue c q g).pace = s.pace := rfl
@[simp] theorem State.modQueue_mc (c q : Nat) (g : QueueSt → QueueSt) : (s.modQueue c q g).mc = s.mc := rfl
@[simp] theorem State.modQueue_link (c q : Nat) (g : QueueSt → QueueSt) : (s.modQueue c q g).link = s.link := rfl
@[simp] theorem State.modQueue_fw (c q : Nat) (g : QueueSt → QueueSt) : (s.modQueue c q g).fw = s.fw := rfl
@[simp] theorem State.modQueue_counters (c q : Nat) (g : QueueSt → QueueSt) : (s.modQueue c q g).counters = s.counters := rfl
@[simp] theorem State.modQueue_sched (c q : Nat) (g : QueueSt → QueueSt) : (s.modQueue c q g).sched = s.sched := rfl
@[simp] theorem State.modQueue_mem (c q : Nat) (g : QueueSt → QueueSt) : (s.modQueue c q g).mem = s.mem := rfl
@[simp] theorem State.modQueue_piReset (c q : Nat) (g : QueueSt → QueueSt) : (s.modQueue c q g).piReset = s.piReset := rfl
@[simp] theorem State.modQueue_pools (c q : Nat) (g : QueueSt → QueueSt) : (s.modQueue c q g).pools = s.pools := rfl
@[simp] theorem State.modQueue_intake (c q : Nat) (g : QueueSt → QueueSt) : (s.modQueue c q g).intake = s.intake := rfl
@[simp] theorem State.modQueue_cams (c q : Nat) (g : QueueSt → QueueSt) : (s.modQueue c q g).cams = s.cams := rfl
@[simp] theorem State.modQueue_rxDiscards (c q : Nat) (g : QueueSt → QueueSt) : (s.modQueue c q g).rxDiscards = s.rxDiscards := rfl
@[simp] theorem State.modQueue_loops (c q : Nat) (g : QueueSt → QueueSt) : (s.modQueue c q g).loops = s.loops := rfl
@[simp] theorem State.modQueue_verge (c q : Nat) (g : QueueSt → QueueSt) : (s.modQueue c q g).verge = s.verge := rfl
@[simp] theorem State.modQueue_cans (c q : Nat) (g : QueueSt → QueueSt) : (s.modQueue c q g).cans = s.cans := rfl
@[simp] theorem State.modQueue_ports (c q : Nat) (g : QueueSt → QueueSt) : (s.modQueue c q g).ports = s.ports := rfl
@[simp] theorem State.modQueue_free (c q : Nat) (g : QueueSt → QueueSt) : (s.modQueue c q g).free = s.free := rfl
@[simp] theorem State.modQueue_out (c q : Nat) (g : QueueSt → QueueSt) : (s.modQueue c q g).out = s.out := rfl
@[simp] theorem State.modQueue_pending (c q : Nat) (g : QueueSt → QueueSt) : (s.modQueue c q g).pending = s.pending := rfl

/-! ### `modLoop` -/

@[simp] theorem State.modLoop_devState (l : Nat) (g : LoopSt → LoopSt) : (s.modLoop l g).devState = s.devState := rfl
@[simp] theorem State.modLoop_porst (l : Nat) (g : LoopSt → LoopSt) : (s.modLoop l g).porst = s.porst := rfl
@[simp] theorem State.modLoop_lostRails (l : Nat) (g : LoopSt → LoopSt) : (s.modLoop l g).lostRails = s.lostRails := rfl
@[simp] theorem State.modLoop_reachedRun (l : Nat) (g : LoopSt → LoopSt) : (s.modLoop l g).reachedRun = s.reachedRun := rfl
@[simp] theorem State.modLoop_outputsUp (l : Nat) (g : LoopSt → LoopSt) : (s.modLoop l g).outputsUp = s.outputsUp := rfl
@[simp] theorem State.modLoop_fns (l : Nat) (g : LoopSt → LoopSt) : (s.modLoop l g).fns = s.fns := rfl
@[simp] theorem State.modLoop_waymarks (l : Nat) (g : LoopSt → LoopSt) : (s.modLoop l g).waymarks = s.waymarks := rfl
@[simp] theorem State.modLoop_fences (l : Nat) (g : LoopSt → LoopSt) : (s.modLoop l g).fences = s.fences := rfl
@[simp] theorem State.modLoop_time (l : Nat) (g : LoopSt → LoopSt) : (s.modLoop l g).time = s.time := rfl
@[simp] theorem State.modLoop_pace (l : Nat) (g : LoopSt → LoopSt) : (s.modLoop l g).pace = s.pace := rfl
@[simp] theorem State.modLoop_mc (l : Nat) (g : LoopSt → LoopSt) : (s.modLoop l g).mc = s.mc := rfl
@[simp] theorem State.modLoop_link (l : Nat) (g : LoopSt → LoopSt) : (s.modLoop l g).link = s.link := rfl
@[simp] theorem State.modLoop_fw (l : Nat) (g : LoopSt → LoopSt) : (s.modLoop l g).fw = s.fw := rfl
@[simp] theorem State.modLoop_queues (l : Nat) (g : LoopSt → LoopSt) : (s.modLoop l g).queues = s.queues := rfl
@[simp] theorem State.modLoop_counters (l : Nat) (g : LoopSt → LoopSt) : (s.modLoop l g).counters = s.counters := rfl
@[simp] theorem State.modLoop_sched (l : Nat) (g : LoopSt → LoopSt) : (s.modLoop l g).sched = s.sched := rfl
@[simp] theorem State.modLoop_mem (l : Nat) (g : LoopSt → LoopSt) : (s.modLoop l g).mem = s.mem := rfl
@[simp] theorem State.modLoop_piReset (l : Nat) (g : LoopSt → LoopSt) : (s.modLoop l g).piReset = s.piReset := rfl
@[simp] theorem State.modLoop_pools (l : Nat) (g : LoopSt → LoopSt) : (s.modLoop l g).pools = s.pools := rfl
@[simp] theorem State.modLoop_intake (l : Nat) (g : LoopSt → LoopSt) : (s.modLoop l g).intake = s.intake := rfl
@[simp] theorem State.modLoop_cams (l : Nat) (g : LoopSt → LoopSt) : (s.modLoop l g).cams = s.cams := rfl
@[simp] theorem State.modLoop_rxDiscards (l : Nat) (g : LoopSt → LoopSt) : (s.modLoop l g).rxDiscards = s.rxDiscards := rfl
@[simp] theorem State.modLoop_verge (l : Nat) (g : LoopSt → LoopSt) : (s.modLoop l g).verge = s.verge := rfl
@[simp] theorem State.modLoop_cans (l : Nat) (g : LoopSt → LoopSt) : (s.modLoop l g).cans = s.cans := rfl
@[simp] theorem State.modLoop_ports (l : Nat) (g : LoopSt → LoopSt) : (s.modLoop l g).ports = s.ports := rfl
@[simp] theorem State.modLoop_free (l : Nat) (g : LoopSt → LoopSt) : (s.modLoop l g).free = s.free := rfl
@[simp] theorem State.modLoop_out (l : Nat) (g : LoopSt → LoopSt) : (s.modLoop l g).out = s.out := rfl
@[simp] theorem State.modLoop_pending (l : Nat) (g : LoopSt → LoopSt) : (s.modLoop l g).pending = s.pending := rfl

/-! ### `modCam` -/

@[simp] theorem State.modCam_devState (k : Nat) (g : CamSt → CamSt) : (s.modCam k g).devState = s.devState := rfl
@[simp] theorem State.modCam_porst (k : Nat) (g : CamSt → CamSt) : (s.modCam k g).porst = s.porst := rfl
@[simp] theorem State.modCam_lostRails (k : Nat) (g : CamSt → CamSt) : (s.modCam k g).lostRails = s.lostRails := rfl
@[simp] theorem State.modCam_reachedRun (k : Nat) (g : CamSt → CamSt) : (s.modCam k g).reachedRun = s.reachedRun := rfl
@[simp] theorem State.modCam_outputsUp (k : Nat) (g : CamSt → CamSt) : (s.modCam k g).outputsUp = s.outputsUp := rfl
@[simp] theorem State.modCam_fns (k : Nat) (g : CamSt → CamSt) : (s.modCam k g).fns = s.fns := rfl
@[simp] theorem State.modCam_waymarks (k : Nat) (g : CamSt → CamSt) : (s.modCam k g).waymarks = s.waymarks := rfl
@[simp] theorem State.modCam_fences (k : Nat) (g : CamSt → CamSt) : (s.modCam k g).fences = s.fences := rfl
@[simp] theorem State.modCam_time (k : Nat) (g : CamSt → CamSt) : (s.modCam k g).time = s.time := rfl
@[simp] theorem State.modCam_pace (k : Nat) (g : CamSt → CamSt) : (s.modCam k g).pace = s.pace := rfl
@[simp] theorem State.modCam_mc (k : Nat) (g : CamSt → CamSt) : (s.modCam k g).mc = s.mc := rfl
@[simp] theorem State.modCam_link (k : Nat) (g : CamSt → CamSt) : (s.modCam k g).link = s.link := rfl
@[simp] theorem State.modCam_fw (k : Nat) (g : CamSt → CamSt) : (s.modCam k g).fw = s.fw := rfl
@[simp] theorem State.modCam_queues (k : Nat) (g : CamSt → CamSt) : (s.modCam k g).queues = s.queues := rfl
@[simp] theorem State.modCam_counters (k : Nat) (g : CamSt → CamSt) : (s.modCam k g).counters = s.counters := rfl
@[simp] theorem State.modCam_sched (k : Nat) (g : CamSt → CamSt) : (s.modCam k g).sched = s.sched := rfl
@[simp] theorem State.modCam_mem (k : Nat) (g : CamSt → CamSt) : (s.modCam k g).mem = s.mem := rfl
@[simp] theorem State.modCam_piReset (k : Nat) (g : CamSt → CamSt) : (s.modCam k g).piReset = s.piReset := rfl
@[simp] theorem State.modCam_pools (k : Nat) (g : CamSt → CamSt) : (s.modCam k g).pools = s.pools := rfl
@[simp] theorem State.modCam_intake (k : Nat) (g : CamSt → CamSt) : (s.modCam k g).intake = s.intake := rfl
@[simp] theorem State.modCam_rxDiscards (k : Nat) (g : CamSt → CamSt) : (s.modCam k g).rxDiscards = s.rxDiscards := rfl
@[simp] theorem State.modCam_loops (k : Nat) (g : CamSt → CamSt) : (s.modCam k g).loops = s.loops := rfl
@[simp] theorem State.modCam_verge (k : Nat) (g : CamSt → CamSt) : (s.modCam k g).verge = s.verge := rfl
@[simp] theorem State.modCam_cans (k : Nat) (g : CamSt → CamSt) : (s.modCam k g).cans = s.cans := rfl
@[simp] theorem State.modCam_ports (k : Nat) (g : CamSt → CamSt) : (s.modCam k g).ports = s.ports := rfl
@[simp] theorem State.modCam_free (k : Nat) (g : CamSt → CamSt) : (s.modCam k g).free = s.free := rfl
@[simp] theorem State.modCam_out (k : Nat) (g : CamSt → CamSt) : (s.modCam k g).out = s.out := rfl
@[simp] theorem State.modCam_pending (k : Nat) (g : CamSt → CamSt) : (s.modCam k g).pending = s.pending := rfl

/-! ### `modCan` -/

@[simp] theorem State.modCan_devState (k : Nat) (g : CanSt → CanSt) : (s.modCan k g).devState = s.devState := rfl
@[simp] theorem State.modCan_porst (k : Nat) (g : CanSt → CanSt) : (s.modCan k g).porst = s.porst := rfl
@[simp] theorem State.modCan_lostRails (k : Nat) (g : CanSt → CanSt) : (s.modCan k g).lostRails = s.lostRails := rfl
@[simp] theorem State.modCan_reachedRun (k : Nat) (g : CanSt → CanSt) : (s.modCan k g).reachedRun = s.reachedRun := rfl
@[simp] theorem State.modCan_outputsUp (k : Nat) (g : CanSt → CanSt) : (s.modCan k g).outputsUp = s.outputsUp := rfl
@[simp] theorem State.modCan_fns (k : Nat) (g : CanSt → CanSt) : (s.modCan k g).fns = s.fns := rfl
@[simp] theorem State.modCan_waymarks (k : Nat) (g : CanSt → CanSt) : (s.modCan k g).waymarks = s.waymarks := rfl
@[simp] theorem State.modCan_fences (k : Nat) (g : CanSt → CanSt) : (s.modCan k g).fences = s.fences := rfl
@[simp] theorem State.modCan_time (k : Nat) (g : CanSt → CanSt) : (s.modCan k g).time = s.time := rfl
@[simp] theorem State.modCan_pace (k : Nat) (g : CanSt → CanSt) : (s.modCan k g).pace = s.pace := rfl
@[simp] theorem State.modCan_mc (k : Nat) (g : CanSt → CanSt) : (s.modCan k g).mc = s.mc := rfl
@[simp] theorem State.modCan_link (k : Nat) (g : CanSt → CanSt) : (s.modCan k g).link = s.link := rfl
@[simp] theorem State.modCan_fw (k : Nat) (g : CanSt → CanSt) : (s.modCan k g).fw = s.fw := rfl
@[simp] theorem State.modCan_queues (k : Nat) (g : CanSt → CanSt) : (s.modCan k g).queues = s.queues := rfl
@[simp] theorem State.modCan_counters (k : Nat) (g : CanSt → CanSt) : (s.modCan k g).counters = s.counters := rfl
@[simp] theorem State.modCan_sched (k : Nat) (g : CanSt → CanSt) : (s.modCan k g).sched = s.sched := rfl
@[simp] theorem State.modCan_mem (k : Nat) (g : CanSt → CanSt) : (s.modCan k g).mem = s.mem := rfl
@[simp] theorem State.modCan_piReset (k : Nat) (g : CanSt → CanSt) : (s.modCan k g).piReset = s.piReset := rfl
@[simp] theorem State.modCan_pools (k : Nat) (g : CanSt → CanSt) : (s.modCan k g).pools = s.pools := rfl
@[simp] theorem State.modCan_intake (k : Nat) (g : CanSt → CanSt) : (s.modCan k g).intake = s.intake := rfl
@[simp] theorem State.modCan_cams (k : Nat) (g : CanSt → CanSt) : (s.modCan k g).cams = s.cams := rfl
@[simp] theorem State.modCan_rxDiscards (k : Nat) (g : CanSt → CanSt) : (s.modCan k g).rxDiscards = s.rxDiscards := rfl
@[simp] theorem State.modCan_loops (k : Nat) (g : CanSt → CanSt) : (s.modCan k g).loops = s.loops := rfl
@[simp] theorem State.modCan_verge (k : Nat) (g : CanSt → CanSt) : (s.modCan k g).verge = s.verge := rfl
@[simp] theorem State.modCan_ports (k : Nat) (g : CanSt → CanSt) : (s.modCan k g).ports = s.ports := rfl
@[simp] theorem State.modCan_free (k : Nat) (g : CanSt → CanSt) : (s.modCan k g).free = s.free := rfl
@[simp] theorem State.modCan_out (k : Nat) (g : CanSt → CanSt) : (s.modCan k g).out = s.out := rfl
@[simp] theorem State.modCan_pending (k : Nat) (g : CanSt → CanSt) : (s.modCan k g).pending = s.pending := rfl

/-! ### `modEnc` -/

@[simp] theorem State.modEnc_devState (k : Nat) (g : EncSt → EncSt) : (s.modEnc k g).devState = s.devState := rfl
@[simp] theorem State.modEnc_porst (k : Nat) (g : EncSt → EncSt) : (s.modEnc k g).porst = s.porst := rfl
@[simp] theorem State.modEnc_lostRails (k : Nat) (g : EncSt → EncSt) : (s.modEnc k g).lostRails = s.lostRails := rfl
@[simp] theorem State.modEnc_reachedRun (k : Nat) (g : EncSt → EncSt) : (s.modEnc k g).reachedRun = s.reachedRun := rfl
@[simp] theorem State.modEnc_outputsUp (k : Nat) (g : EncSt → EncSt) : (s.modEnc k g).outputsUp = s.outputsUp := rfl
@[simp] theorem State.modEnc_fns (k : Nat) (g : EncSt → EncSt) : (s.modEnc k g).fns = s.fns := rfl
@[simp] theorem State.modEnc_waymarks (k : Nat) (g : EncSt → EncSt) : (s.modEnc k g).waymarks = s.waymarks := rfl
@[simp] theorem State.modEnc_fences (k : Nat) (g : EncSt → EncSt) : (s.modEnc k g).fences = s.fences := rfl
@[simp] theorem State.modEnc_time (k : Nat) (g : EncSt → EncSt) : (s.modEnc k g).time = s.time := rfl
@[simp] theorem State.modEnc_pace (k : Nat) (g : EncSt → EncSt) : (s.modEnc k g).pace = s.pace := rfl
@[simp] theorem State.modEnc_mc (k : Nat) (g : EncSt → EncSt) : (s.modEnc k g).mc = s.mc := rfl
@[simp] theorem State.modEnc_link (k : Nat) (g : EncSt → EncSt) : (s.modEnc k g).link = s.link := rfl
@[simp] theorem State.modEnc_fw (k : Nat) (g : EncSt → EncSt) : (s.modEnc k g).fw = s.fw := rfl
@[simp] theorem State.modEnc_queues (k : Nat) (g : EncSt → EncSt) : (s.modEnc k g).queues = s.queues := rfl
@[simp] theorem State.modEnc_counters (k : Nat) (g : EncSt → EncSt) : (s.modEnc k g).counters = s.counters := rfl
@[simp] theorem State.modEnc_sched (k : Nat) (g : EncSt → EncSt) : (s.modEnc k g).sched = s.sched := rfl
@[simp] theorem State.modEnc_mem (k : Nat) (g : EncSt → EncSt) : (s.modEnc k g).mem = s.mem := rfl
@[simp] theorem State.modEnc_piReset (k : Nat) (g : EncSt → EncSt) : (s.modEnc k g).piReset = s.piReset := rfl
@[simp] theorem State.modEnc_pools (k : Nat) (g : EncSt → EncSt) : (s.modEnc k g).pools = s.pools := rfl
@[simp] theorem State.modEnc_intake (k : Nat) (g : EncSt → EncSt) : (s.modEnc k g).intake = s.intake := rfl
@[simp] theorem State.modEnc_cams (k : Nat) (g : EncSt → EncSt) : (s.modEnc k g).cams = s.cams := rfl
@[simp] theorem State.modEnc_rxDiscards (k : Nat) (g : EncSt → EncSt) : (s.modEnc k g).rxDiscards = s.rxDiscards := rfl
@[simp] theorem State.modEnc_loops (k : Nat) (g : EncSt → EncSt) : (s.modEnc k g).loops = s.loops := rfl
@[simp] theorem State.modEnc_verge (k : Nat) (g : EncSt → EncSt) : (s.modEnc k g).verge = s.verge := rfl
@[simp] theorem State.modEnc_cans (k : Nat) (g : EncSt → EncSt) : (s.modEnc k g).cans = s.cans := rfl
@[simp] theorem State.modEnc_free (k : Nat) (g : EncSt → EncSt) : (s.modEnc k g).free = s.free := rfl
@[simp] theorem State.modEnc_out (k : Nat) (g : EncSt → EncSt) : (s.modEnc k g).out = s.out := rfl
@[simp] theorem State.modEnc_pending (k : Nat) (g : EncSt → EncSt) : (s.modEnc k g).pending = s.pending := rfl

/-! ### `modSpi` -/

@[simp] theorem State.modSpi_devState (k : Nat) (g : SpiSt → SpiSt) : (s.modSpi k g).devState = s.devState := rfl
@[simp] theorem State.modSpi_porst (k : Nat) (g : SpiSt → SpiSt) : (s.modSpi k g).porst = s.porst := rfl
@[simp] theorem State.modSpi_lostRails (k : Nat) (g : SpiSt → SpiSt) : (s.modSpi k g).lostRails = s.lostRails := rfl
@[simp] theorem State.modSpi_reachedRun (k : Nat) (g : SpiSt → SpiSt) : (s.modSpi k g).reachedRun = s.reachedRun := rfl
@[simp] theorem State.modSpi_outputsUp (k : Nat) (g : SpiSt → SpiSt) : (s.modSpi k g).outputsUp = s.outputsUp := rfl
@[simp] theorem State.modSpi_fns (k : Nat) (g : SpiSt → SpiSt) : (s.modSpi k g).fns = s.fns := rfl
@[simp] theorem State.modSpi_waymarks (k : Nat) (g : SpiSt → SpiSt) : (s.modSpi k g).waymarks = s.waymarks := rfl
@[simp] theorem State.modSpi_fences (k : Nat) (g : SpiSt → SpiSt) : (s.modSpi k g).fences = s.fences := rfl
@[simp] theorem State.modSpi_time (k : Nat) (g : SpiSt → SpiSt) : (s.modSpi k g).time = s.time := rfl
@[simp] theorem State.modSpi_pace (k : Nat) (g : SpiSt → SpiSt) : (s.modSpi k g).pace = s.pace := rfl
@[simp] theorem State.modSpi_mc (k : Nat) (g : SpiSt → SpiSt) : (s.modSpi k g).mc = s.mc := rfl
@[simp] theorem State.modSpi_link (k : Nat) (g : SpiSt → SpiSt) : (s.modSpi k g).link = s.link := rfl
@[simp] theorem State.modSpi_fw (k : Nat) (g : SpiSt → SpiSt) : (s.modSpi k g).fw = s.fw := rfl
@[simp] theorem State.modSpi_queues (k : Nat) (g : SpiSt → SpiSt) : (s.modSpi k g).queues = s.queues := rfl
@[simp] theorem State.modSpi_counters (k : Nat) (g : SpiSt → SpiSt) : (s.modSpi k g).counters = s.counters := rfl
@[simp] theorem State.modSpi_sched (k : Nat) (g : SpiSt → SpiSt) : (s.modSpi k g).sched = s.sched := rfl
@[simp] theorem State.modSpi_mem (k : Nat) (g : SpiSt → SpiSt) : (s.modSpi k g).mem = s.mem := rfl
@[simp] theorem State.modSpi_piReset (k : Nat) (g : SpiSt → SpiSt) : (s.modSpi k g).piReset = s.piReset := rfl
@[simp] theorem State.modSpi_pools (k : Nat) (g : SpiSt → SpiSt) : (s.modSpi k g).pools = s.pools := rfl
@[simp] theorem State.modSpi_intake (k : Nat) (g : SpiSt → SpiSt) : (s.modSpi k g).intake = s.intake := rfl
@[simp] theorem State.modSpi_cams (k : Nat) (g : SpiSt → SpiSt) : (s.modSpi k g).cams = s.cams := rfl
@[simp] theorem State.modSpi_rxDiscards (k : Nat) (g : SpiSt → SpiSt) : (s.modSpi k g).rxDiscards = s.rxDiscards := rfl
@[simp] theorem State.modSpi_loops (k : Nat) (g : SpiSt → SpiSt) : (s.modSpi k g).loops = s.loops := rfl
@[simp] theorem State.modSpi_verge (k : Nat) (g : SpiSt → SpiSt) : (s.modSpi k g).verge = s.verge := rfl
@[simp] theorem State.modSpi_cans (k : Nat) (g : SpiSt → SpiSt) : (s.modSpi k g).cans = s.cans := rfl
@[simp] theorem State.modSpi_free (k : Nat) (g : SpiSt → SpiSt) : (s.modSpi k g).free = s.free := rfl
@[simp] theorem State.modSpi_out (k : Nat) (g : SpiSt → SpiSt) : (s.modSpi k g).out = s.out := rfl
@[simp] theorem State.modSpi_pending (k : Nat) (g : SpiSt → SpiSt) : (s.modSpi k g).pending = s.pending := rfl

/-! ### `modUart` -/

@[simp] theorem State.modUart_devState (k : Nat) (g : UartSt → UartSt) : (s.modUart k g).devState = s.devState := rfl
@[simp] theorem State.modUart_porst (k : Nat) (g : UartSt → UartSt) : (s.modUart k g).porst = s.porst := rfl
@[simp] theorem State.modUart_lostRails (k : Nat) (g : UartSt → UartSt) : (s.modUart k g).lostRails = s.lostRails := rfl
@[simp] theorem State.modUart_reachedRun (k : Nat) (g : UartSt → UartSt) : (s.modUart k g).reachedRun = s.reachedRun := rfl
@[simp] theorem State.modUart_outputsUp (k : Nat) (g : UartSt → UartSt) : (s.modUart k g).outputsUp = s.outputsUp := rfl
@[simp] theorem State.modUart_fns (k : Nat) (g : UartSt → UartSt) : (s.modUart k g).fns = s.fns := rfl
@[simp] theorem State.modUart_waymarks (k : Nat) (g : UartSt → UartSt) : (s.modUart k g).waymarks = s.waymarks := rfl
@[simp] theorem State.modUart_fences (k : Nat) (g : UartSt → UartSt) : (s.modUart k g).fences = s.fences := rfl
@[simp] theorem State.modUart_time (k : Nat) (g : UartSt → UartSt) : (s.modUart k g).time = s.time := rfl
@[simp] theorem State.modUart_pace (k : Nat) (g : UartSt → UartSt) : (s.modUart k g).pace = s.pace := rfl
@[simp] theorem State.modUart_mc (k : Nat) (g : UartSt → UartSt) : (s.modUart k g).mc = s.mc := rfl
@[simp] theorem State.modUart_link (k : Nat) (g : UartSt → UartSt) : (s.modUart k g).link = s.link := rfl
@[simp] theorem State.modUart_fw (k : Nat) (g : UartSt → UartSt) : (s.modUart k g).fw = s.fw := rfl
@[simp] theorem State.modUart_queues (k : Nat) (g : UartSt → UartSt) : (s.modUart k g).queues = s.queues := rfl
@[simp] theorem State.modUart_counters (k : Nat) (g : UartSt → UartSt) : (s.modUart k g).counters = s.counters := rfl
@[simp] theorem State.modUart_sched (k : Nat) (g : UartSt → UartSt) : (s.modUart k g).sched = s.sched := rfl
@[simp] theorem State.modUart_mem (k : Nat) (g : UartSt → UartSt) : (s.modUart k g).mem = s.mem := rfl
@[simp] theorem State.modUart_piReset (k : Nat) (g : UartSt → UartSt) : (s.modUart k g).piReset = s.piReset := rfl
@[simp] theorem State.modUart_pools (k : Nat) (g : UartSt → UartSt) : (s.modUart k g).pools = s.pools := rfl
@[simp] theorem State.modUart_intake (k : Nat) (g : UartSt → UartSt) : (s.modUart k g).intake = s.intake := rfl
@[simp] theorem State.modUart_cams (k : Nat) (g : UartSt → UartSt) : (s.modUart k g).cams = s.cams := rfl
@[simp] theorem State.modUart_rxDiscards (k : Nat) (g : UartSt → UartSt) : (s.modUart k g).rxDiscards = s.rxDiscards := rfl
@[simp] theorem State.modUart_loops (k : Nat) (g : UartSt → UartSt) : (s.modUart k g).loops = s.loops := rfl
@[simp] theorem State.modUart_verge (k : Nat) (g : UartSt → UartSt) : (s.modUart k g).verge = s.verge := rfl
@[simp] theorem State.modUart_cans (k : Nat) (g : UartSt → UartSt) : (s.modUart k g).cans = s.cans := rfl
@[simp] theorem State.modUart_free (k : Nat) (g : UartSt → UartSt) : (s.modUart k g).free = s.free := rfl
@[simp] theorem State.modUart_out (k : Nat) (g : UartSt → UartSt) : (s.modUart k g).out = s.out := rfl
@[simp] theorem State.modUart_pending (k : Nat) (g : UartSt → UartSt) : (s.modUart k g).pending = s.pending := rfl

/-! ### `modPwm` -/

@[simp] theorem State.modPwm_devState (k : Nat) (g : PwmSt → PwmSt) : (s.modPwm k g).devState = s.devState := rfl
@[simp] theorem State.modPwm_porst (k : Nat) (g : PwmSt → PwmSt) : (s.modPwm k g).porst = s.porst := rfl
@[simp] theorem State.modPwm_lostRails (k : Nat) (g : PwmSt → PwmSt) : (s.modPwm k g).lostRails = s.lostRails := rfl
@[simp] theorem State.modPwm_reachedRun (k : Nat) (g : PwmSt → PwmSt) : (s.modPwm k g).reachedRun = s.reachedRun := rfl
@[simp] theorem State.modPwm_outputsUp (k : Nat) (g : PwmSt → PwmSt) : (s.modPwm k g).outputsUp = s.outputsUp := rfl
@[simp] theorem State.modPwm_fns (k : Nat) (g : PwmSt → PwmSt) : (s.modPwm k g).fns = s.fns := rfl
@[simp] theorem State.modPwm_waymarks (k : Nat) (g : PwmSt → PwmSt) : (s.modPwm k g).waymarks = s.waymarks := rfl
@[simp] theorem State.modPwm_fences (k : Nat) (g : PwmSt → PwmSt) : (s.modPwm k g).fences = s.fences := rfl
@[simp] theorem State.modPwm_time (k : Nat) (g : PwmSt → PwmSt) : (s.modPwm k g).time = s.time := rfl
@[simp] theorem State.modPwm_pace (k : Nat) (g : PwmSt → PwmSt) : (s.modPwm k g).pace = s.pace := rfl
@[simp] theorem State.modPwm_mc (k : Nat) (g : PwmSt → PwmSt) : (s.modPwm k g).mc = s.mc := rfl
@[simp] theorem State.modPwm_link (k : Nat) (g : PwmSt → PwmSt) : (s.modPwm k g).link = s.link := rfl
@[simp] theorem State.modPwm_fw (k : Nat) (g : PwmSt → PwmSt) : (s.modPwm k g).fw = s.fw := rfl
@[simp] theorem State.modPwm_queues (k : Nat) (g : PwmSt → PwmSt) : (s.modPwm k g).queues = s.queues := rfl
@[simp] theorem State.modPwm_counters (k : Nat) (g : PwmSt → PwmSt) : (s.modPwm k g).counters = s.counters := rfl
@[simp] theorem State.modPwm_sched (k : Nat) (g : PwmSt → PwmSt) : (s.modPwm k g).sched = s.sched := rfl
@[simp] theorem State.modPwm_mem (k : Nat) (g : PwmSt → PwmSt) : (s.modPwm k g).mem = s.mem := rfl
@[simp] theorem State.modPwm_piReset (k : Nat) (g : PwmSt → PwmSt) : (s.modPwm k g).piReset = s.piReset := rfl
@[simp] theorem State.modPwm_pools (k : Nat) (g : PwmSt → PwmSt) : (s.modPwm k g).pools = s.pools := rfl
@[simp] theorem State.modPwm_intake (k : Nat) (g : PwmSt → PwmSt) : (s.modPwm k g).intake = s.intake := rfl
@[simp] theorem State.modPwm_cams (k : Nat) (g : PwmSt → PwmSt) : (s.modPwm k g).cams = s.cams := rfl
@[simp] theorem State.modPwm_rxDiscards (k : Nat) (g : PwmSt → PwmSt) : (s.modPwm k g).rxDiscards = s.rxDiscards := rfl
@[simp] theorem State.modPwm_loops (k : Nat) (g : PwmSt → PwmSt) : (s.modPwm k g).loops = s.loops := rfl
@[simp] theorem State.modPwm_verge (k : Nat) (g : PwmSt → PwmSt) : (s.modPwm k g).verge = s.verge := rfl
@[simp] theorem State.modPwm_cans (k : Nat) (g : PwmSt → PwmSt) : (s.modPwm k g).cans = s.cans := rfl
@[simp] theorem State.modPwm_free (k : Nat) (g : PwmSt → PwmSt) : (s.modPwm k g).free = s.free := rfl
@[simp] theorem State.modPwm_out (k : Nat) (g : PwmSt → PwmSt) : (s.modPwm k g).out = s.out := rfl
@[simp] theorem State.modPwm_pending (k : Nat) (g : PwmSt → PwmSt) : (s.modPwm k g).pending = s.pending := rfl

/-! ### `modFence` -/

@[simp] theorem State.modFence_devState (b : Nat) (g : Fence → Fence) : (s.modFence b g).devState = s.devState := rfl
@[simp] theorem State.modFence_porst (b : Nat) (g : Fence → Fence) : (s.modFence b g).porst = s.porst := rfl
@[simp] theorem State.modFence_lostRails (b : Nat) (g : Fence → Fence) : (s.modFence b g).lostRails = s.lostRails := rfl
@[simp] theorem State.modFence_reachedRun (b : Nat) (g : Fence → Fence) : (s.modFence b g).reachedRun = s.reachedRun := rfl
@[simp] theorem State.modFence_outputsUp (b : Nat) (g : Fence → Fence) : (s.modFence b g).outputsUp = s.outputsUp := rfl
@[simp] theorem State.modFence_fns (b : Nat) (g : Fence → Fence) : (s.modFence b g).fns = s.fns := rfl
@[simp] theorem State.modFence_waymarks (b : Nat) (g : Fence → Fence) : (s.modFence b g).waymarks = s.waymarks := rfl
@[simp] theorem State.modFence_time (b : Nat) (g : Fence → Fence) : (s.modFence b g).time = s.time := rfl
@[simp] theorem State.modFence_pace (b : Nat) (g : Fence → Fence) : (s.modFence b g).pace = s.pace := rfl
@[simp] theorem State.modFence_mc (b : Nat) (g : Fence → Fence) : (s.modFence b g).mc = s.mc := rfl
@[simp] theorem State.modFence_link (b : Nat) (g : Fence → Fence) : (s.modFence b g).link = s.link := rfl
@[simp] theorem State.modFence_fw (b : Nat) (g : Fence → Fence) : (s.modFence b g).fw = s.fw := rfl
@[simp] theorem State.modFence_queues (b : Nat) (g : Fence → Fence) : (s.modFence b g).queues = s.queues := rfl
@[simp] theorem State.modFence_counters (b : Nat) (g : Fence → Fence) : (s.modFence b g).counters = s.counters := rfl
@[simp] theorem State.modFence_sched (b : Nat) (g : Fence → Fence) : (s.modFence b g).sched = s.sched := rfl
@[simp] theorem State.modFence_mem (b : Nat) (g : Fence → Fence) : (s.modFence b g).mem = s.mem := rfl
@[simp] theorem State.modFence_piReset (b : Nat) (g : Fence → Fence) : (s.modFence b g).piReset = s.piReset := rfl
@[simp] theorem State.modFence_pools (b : Nat) (g : Fence → Fence) : (s.modFence b g).pools = s.pools := rfl
@[simp] theorem State.modFence_intake (b : Nat) (g : Fence → Fence) : (s.modFence b g).intake = s.intake := rfl
@[simp] theorem State.modFence_cams (b : Nat) (g : Fence → Fence) : (s.modFence b g).cams = s.cams := rfl
@[simp] theorem State.modFence_rxDiscards (b : Nat) (g : Fence → Fence) : (s.modFence b g).rxDiscards = s.rxDiscards := rfl
@[simp] theorem State.modFence_loops (b : Nat) (g : Fence → Fence) : (s.modFence b g).loops = s.loops := rfl
@[simp] theorem State.modFence_verge (b : Nat) (g : Fence → Fence) : (s.modFence b g).verge = s.verge := rfl
@[simp] theorem State.modFence_cans (b : Nat) (g : Fence → Fence) : (s.modFence b g).cans = s.cans := rfl
@[simp] theorem State.modFence_ports (b : Nat) (g : Fence → Fence) : (s.modFence b g).ports = s.ports := rfl
@[simp] theorem State.modFence_free (b : Nat) (g : Fence → Fence) : (s.modFence b g).free = s.free := rfl
@[simp] theorem State.modFence_out (b : Nat) (g : Fence → Fence) : (s.modFence b g).out = s.out := rfl
@[simp] theorem State.modFence_pending (b : Nat) (g : Fence → Fence) : (s.modFence b g).pending = s.pending := rfl

/-! ### `emit` -/

@[simp] theorem State.emit_devState (o : Out) : (s.emit o).devState = s.devState := rfl
@[simp] theorem State.emit_porst (o : Out) : (s.emit o).porst = s.porst := rfl
@[simp] theorem State.emit_lostRails (o : Out) : (s.emit o).lostRails = s.lostRails := rfl
@[simp] theorem State.emit_reachedRun (o : Out) : (s.emit o).reachedRun = s.reachedRun := rfl
@[simp] theorem State.emit_outputsUp (o : Out) : (s.emit o).outputsUp = s.outputsUp := rfl
@[simp] theorem State.emit_fns (o : Out) : (s.emit o).fns = s.fns := rfl
@[simp] theorem State.emit_waymarks (o : Out) : (s.emit o).waymarks = s.waymarks := rfl
@[simp] theorem State.emit_fences (o : Out) : (s.emit o).fences = s.fences := rfl
@[simp] theorem State.emit_time (o : Out) : (s.emit o).time = s.time := rfl
@[simp] theorem State.emit_pace (o : Out) : (s.emit o).pace = s.pace := rfl
@[simp] theorem State.emit_mc (o : Out) : (s.emit o).mc = s.mc := rfl
@[simp] theorem State.emit_link (o : Out) : (s.emit o).link = s.link := rfl
@[simp] theorem State.emit_fw (o : Out) : (s.emit o).fw = s.fw := rfl
@[simp] theorem State.emit_queues (o : Out) : (s.emit o).queues = s.queues := rfl
@[simp] theorem State.emit_counters (o : Out) : (s.emit o).counters = s.counters := rfl
@[simp] theorem State.emit_sched (o : Out) : (s.emit o).sched = s.sched := rfl
@[simp] theorem State.emit_mem (o : Out) : (s.emit o).mem = s.mem := rfl
@[simp] theorem State.emit_piReset (o : Out) : (s.emit o).piReset = s.piReset := rfl
@[simp] theorem State.emit_pools (o : Out) : (s.emit o).pools = s.pools := rfl
@[simp] theorem State.emit_intake (o : Out) : (s.emit o).intake = s.intake := rfl
@[simp] theorem State.emit_cams (o : Out) : (s.emit o).cams = s.cams := rfl
@[simp] theorem State.emit_rxDiscards (o : Out) : (s.emit o).rxDiscards = s.rxDiscards := rfl
@[simp] theorem State.emit_loops (o : Out) : (s.emit o).loops = s.loops := rfl
@[simp] theorem State.emit_verge (o : Out) : (s.emit o).verge = s.verge := rfl
@[simp] theorem State.emit_cans (o : Out) : (s.emit o).cans = s.cans := rfl
@[simp] theorem State.emit_ports (o : Out) : (s.emit o).ports = s.ports := rfl
@[simp] theorem State.emit_free (o : Out) : (s.emit o).free = s.free := rfl
@[simp] theorem State.emit_pending (o : Out) : (s.emit o).pending = s.pending := rfl

/-! ### `qspiSet` -/

@[simp] theorem State.qspiSet_devState (b : BitVec 4) : (s.qspiSet b).devState = s.devState := rfl
@[simp] theorem State.qspiSet_porst (b : BitVec 4) : (s.qspiSet b).porst = s.porst := rfl
@[simp] theorem State.qspiSet_lostRails (b : BitVec 4) : (s.qspiSet b).lostRails = s.lostRails := rfl
@[simp] theorem State.qspiSet_reachedRun (b : BitVec 4) : (s.qspiSet b).reachedRun = s.reachedRun := rfl
@[simp] theorem State.qspiSet_outputsUp (b : BitVec 4) : (s.qspiSet b).outputsUp = s.outputsUp := rfl
@[simp] theorem State.qspiSet_fns (b : BitVec 4) : (s.qspiSet b).fns = s.fns := rfl
@[simp] theorem State.qspiSet_waymarks (b : BitVec 4) : (s.qspiSet b).waymarks = s.waymarks := rfl
@[simp] theorem State.qspiSet_fences (b : BitVec 4) : (s.qspiSet b).fences = s.fences := rfl
@[simp] theorem State.qspiSet_time (b : BitVec 4) : (s.qspiSet b).time = s.time := rfl
@[simp] theorem State.qspiSet_pace (b : BitVec 4) : (s.qspiSet b).pace = s.pace := rfl
@[simp] theorem State.qspiSet_mc (b : BitVec 4) : (s.qspiSet b).mc = s.mc := rfl
@[simp] theorem State.qspiSet_fw (b : BitVec 4) : (s.qspiSet b).fw = s.fw := rfl
@[simp] theorem State.qspiSet_queues (b : BitVec 4) : (s.qspiSet b).queues = s.queues := rfl
@[simp] theorem State.qspiSet_counters (b : BitVec 4) : (s.qspiSet b).counters = s.counters := rfl
@[simp] theorem State.qspiSet_sched (b : BitVec 4) : (s.qspiSet b).sched = s.sched := rfl
@[simp] theorem State.qspiSet_mem (b : BitVec 4) : (s.qspiSet b).mem = s.mem := rfl
@[simp] theorem State.qspiSet_piReset (b : BitVec 4) : (s.qspiSet b).piReset = s.piReset := rfl
@[simp] theorem State.qspiSet_pools (b : BitVec 4) : (s.qspiSet b).pools = s.pools := rfl
@[simp] theorem State.qspiSet_intake (b : BitVec 4) : (s.qspiSet b).intake = s.intake := rfl
@[simp] theorem State.qspiSet_cams (b : BitVec 4) : (s.qspiSet b).cams = s.cams := rfl
@[simp] theorem State.qspiSet_rxDiscards (b : BitVec 4) : (s.qspiSet b).rxDiscards = s.rxDiscards := rfl
@[simp] theorem State.qspiSet_loops (b : BitVec 4) : (s.qspiSet b).loops = s.loops := rfl
@[simp] theorem State.qspiSet_verge (b : BitVec 4) : (s.qspiSet b).verge = s.verge := rfl
@[simp] theorem State.qspiSet_cans (b : BitVec 4) : (s.qspiSet b).cans = s.cans := rfl
@[simp] theorem State.qspiSet_ports (b : BitVec 4) : (s.qspiSet b).ports = s.ports := rfl
@[simp] theorem State.qspiSet_free (b : BitVec 4) : (s.qspiSet b).free = s.free := rfl
@[simp] theorem State.qspiSet_out (b : BitVec 4) : (s.qspiSet b).out = s.out := rfl
@[simp] theorem State.qspiSet_pending (b : BitVec 4) : (s.qspiSet b).pending = s.pending := rfl

/-! ### `countMax` -/

@[simp] theorem State.countMax_devState (c i v : Nat) : (s.countMax c i v).devState = s.devState := rfl
@[simp] theorem State.countMax_porst (c i v : Nat) : (s.countMax c i v).porst = s.porst := rfl
@[simp] theorem State.countMax_lostRails (c i v : Nat) : (s.countMax c i v).lostRails = s.lostRails := rfl
@[simp] theorem State.countMax_reachedRun (c i v : Nat) : (s.countMax c i v).reachedRun = s.reachedRun := rfl
@[simp] theorem State.countMax_outputsUp (c i v : Nat) : (s.countMax c i v).outputsUp = s.outputsUp := rfl
@[simp] theorem State.countMax_fns (c i v : Nat) : (s.countMax c i v).fns = s.fns := rfl
@[simp] theorem State.countMax_waymarks (c i v : Nat) : (s.countMax c i v).waymarks = s.waymarks := rfl
@[simp] theorem State.countMax_fences (c i v : Nat) : (s.countMax c i v).fences = s.fences := rfl
@[simp] theorem State.countMax_time (c i v : Nat) : (s.countMax c i v).time = s.time := rfl
@[simp] theorem State.countMax_pace (c i v : Nat) : (s.countMax c i v).pace = s.pace := rfl
@[simp] theorem State.countMax_mc (c i v : Nat) : (s.countMax c i v).mc = s.mc := rfl
@[simp] theorem State.countMax_link (c i v : Nat) : (s.countMax c i v).link = s.link := rfl
@[simp] theorem State.countMax_fw (c i v : Nat) : (s.countMax c i v).fw = s.fw := rfl
@[simp] theorem State.countMax_queues (c i v : Nat) : (s.countMax c i v).queues = s.queues := rfl
@[simp] theorem State.countMax_sched (c i v : Nat) : (s.countMax c i v).sched = s.sched := rfl
@[simp] theorem State.countMax_mem (c i v : Nat) : (s.countMax c i v).mem = s.mem := rfl
@[simp] theorem State.countMax_piReset (c i v : Nat) : (s.countMax c i v).piReset = s.piReset := rfl
@[simp] theorem State.countMax_pools (c i v : Nat) : (s.countMax c i v).pools = s.pools := rfl
@[simp] theorem State.countMax_intake (c i v : Nat) : (s.countMax c i v).intake = s.intake := rfl
@[simp] theorem State.countMax_cams (c i v : Nat) : (s.countMax c i v).cams = s.cams := rfl
@[simp] theorem State.countMax_rxDiscards (c i v : Nat) : (s.countMax c i v).rxDiscards = s.rxDiscards := rfl
@[simp] theorem State.countMax_loops (c i v : Nat) : (s.countMax c i v).loops = s.loops := rfl
@[simp] theorem State.countMax_verge (c i v : Nat) : (s.countMax c i v).verge = s.verge := rfl
@[simp] theorem State.countMax_cans (c i v : Nat) : (s.countMax c i v).cans = s.cans := rfl
@[simp] theorem State.countMax_ports (c i v : Nat) : (s.countMax c i v).ports = s.ports := rfl
@[simp] theorem State.countMax_free (c i v : Nat) : (s.countMax c i v).free = s.free := rfl
@[simp] theorem State.countMax_out (c i v : Nat) : (s.countMax c i v).out = s.out := rfl
@[simp] theorem State.countMax_pending (c i v : Nat) : (s.countMax c i v).pending = s.pending := rfl

/-! ### A free value -/

@[simp] theorem State.draw_devState : s.draw.2.devState = s.devState := rfl
@[simp] theorem State.draw_porst : s.draw.2.porst = s.porst := rfl
@[simp] theorem State.draw_lostRails : s.draw.2.lostRails = s.lostRails := rfl
@[simp] theorem State.draw_reachedRun : s.draw.2.reachedRun = s.reachedRun := rfl
@[simp] theorem State.draw_outputsUp : s.draw.2.outputsUp = s.outputsUp := rfl
@[simp] theorem State.draw_fns : s.draw.2.fns = s.fns := rfl
@[simp] theorem State.draw_waymarks : s.draw.2.waymarks = s.waymarks := rfl
@[simp] theorem State.draw_fences : s.draw.2.fences = s.fences := rfl
@[simp] theorem State.draw_time : s.draw.2.time = s.time := rfl
@[simp] theorem State.draw_pace : s.draw.2.pace = s.pace := rfl
@[simp] theorem State.draw_mc : s.draw.2.mc = s.mc := rfl
@[simp] theorem State.draw_link : s.draw.2.link = s.link := rfl
@[simp] theorem State.draw_fw : s.draw.2.fw = s.fw := rfl
@[simp] theorem State.draw_queues : s.draw.2.queues = s.queues := rfl
@[simp] theorem State.draw_counters : s.draw.2.counters = s.counters := rfl
@[simp] theorem State.draw_sched : s.draw.2.sched = s.sched := rfl
@[simp] theorem State.draw_mem : s.draw.2.mem = s.mem := rfl
@[simp] theorem State.draw_piReset : s.draw.2.piReset = s.piReset := rfl
@[simp] theorem State.draw_pools : s.draw.2.pools = s.pools := rfl
@[simp] theorem State.draw_intake : s.draw.2.intake = s.intake := rfl
@[simp] theorem State.draw_cams : s.draw.2.cams = s.cams := rfl
@[simp] theorem State.draw_rxDiscards : s.draw.2.rxDiscards = s.rxDiscards := rfl
@[simp] theorem State.draw_loops : s.draw.2.loops = s.loops := rfl
@[simp] theorem State.draw_verge : s.draw.2.verge = s.verge := rfl
@[simp] theorem State.draw_cans : s.draw.2.cans = s.cans := rfl
@[simp] theorem State.draw_ports : s.draw.2.ports = s.ports := rfl
@[simp] theorem State.draw_out : s.draw.2.out = s.out := rfl
@[simp] theorem State.draw_pending : s.draw.2.pending = s.pending := rfl
@[simp] theorem State.draw_free : s.draw.2.free = s.free + 1 := rfl
@[simp] theorem State.emit_out (o : Out) : (s.emit o).out = s.out ++ [o] := rfl
@[simp] theorem State.qspiSet_stat (b : BitVec 4) : (s.qspiSet b).link.qspiStat = s.link.qspiStat ||| b := rfl

/-! ### Reads after writes of one unit -/

theorem State.fn_modFn (f h : Nat) (g : FnState → FnState) (w : Map.wf FnState.init s.fns = true) :
    (s.modFn f g).fn h = if h = f then g (s.fn f) else s.fn h := Map.get_set _ _ _ _ _ w

theorem State.loop_modLoop (f h : Nat) (g : LoopSt → LoopSt) (w : Map.wf LoopSt.init s.loops = true) :
    (s.modLoop f g).loop h = if h = f then g (s.loop f) else s.loop h := Map.get_set _ _ _ _ _ w

theorem State.cam_modCam (f h : Nat) (g : CamSt → CamSt) (w : Map.wf CamSt.init s.cams = true) :
    (s.modCam f g).cam h = if h = f then g (s.cam f) else s.cam h := Map.get_set _ _ _ _ _ w

theorem State.can_modCan (f h : Nat) (g : CanSt → CanSt) (w : Map.wf CanSt.init s.cans = true) :
    (s.modCan f g).can h = if h = f then g (s.can f) else s.can h := Map.get_set _ _ _ _ _ w

theorem State.enc_modEnc (f h : Nat) (g : EncSt → EncSt) (w : Map.wf EncSt.init s.ports.enc = true) :
    (s.modEnc f g).enc h = if h = f then g (s.enc f) else s.enc h := Map.get_set _ _ _ _ _ w

theorem State.spi_modSpi (f h : Nat) (g : SpiSt → SpiSt) (w : Map.wf SpiSt.init s.ports.spi = true) :
    (s.modSpi f g).spi h = if h = f then g (s.spi f) else s.spi h := Map.get_set _ _ _ _ _ w

theorem State.uart_modUart (f h : Nat) (g : UartSt → UartSt) (w : Map.wf UartSt.init s.ports.uart = true) :
    (s.modUart f g).uart h = if h = f then g (s.uart f) else s.uart h := Map.get_set _ _ _ _ _ w

theorem State.pwm_modPwm (f h : Nat) (g : PwmSt → PwmSt) (w : Map.wf PwmSt.init s.ports.pwm = true) :
    (s.modPwm f g).pwm h = if h = f then g (s.pwm f) else s.pwm h := Map.get_set _ _ _ _ _ w

theorem State.fenceOf_modFence (f h : Nat) (g : Fence → Fence) (w : Map.wf ({} : Fence) s.fences = true) :
    (s.modFence f g).fenceOf h = if h = f then g (s.fenceOf f) else s.fenceOf h := Map.get_set _ _ _ _ _ w

theorem State.queue_modQueue (c q d r : Nat) (g : QueueSt → QueueSt) (w : Map.wf QueueSt.init s.queues = true) :
    (s.modQueue c q g).queue d r = if d * 4 + r = c * 4 + q then g (s.queue c q) else s.queue d r :=
  Map.get_set _ _ _ _ _ w

/-- Adding to a counter changes that counter alone, modulo 2^64. -/
theorem State.counter_count (c i n d j : Nat) (w : Map.wf 0 s.counters = true) (h : s.counter c i < 2 ^ 64) :
    (s.count c i n).counter d j = if d * 32 + j = c * 32 + i then add64 (s.counter c i) n else s.counter d j := by
  unfold State.count
  split
  · subst_vars
    split
    · rename_i e
      have k : s.counter d j = s.counter c i := by simp only [State.counter, e]
      rw [k]; exact (Nat.mod_eq_of_lt h).symm
    · rfl
  · exact Map.get_set _ _ _ _ _ w

end Sys2Proof.Machine
end

