-- ==== Sys2Proof/Tests/Slice0.lean ====
section
/-! SUPPORT. Tests of the model: the checks on operands, a witness for the hypotheses of each statement, and small
results of one step each, whose expected values come from the manual's rules. -/

namespace Sys2Proof.Tests

set_option Elab.async false

open Sys2Proof Sys2Proof.Machine

/-! ### Helpers -/

/-- Bytes with the given fields (offset, size, value), in rising order of offset; the rest is 0. -/
def fields (l : List (Nat × Nat × Nat)) : List Byte :=
  l.foldl (fun (b : List Byte) x => fit x.1 0 b ++ le x.2.1 x.2.2) []

/-- A Route Book record of a TYPE with the given fields. -/
def rec (typ : Nat) (l : List (Nat × Nat × Nat)) : Rec := { off := 64, typ := typ, bytes := fields l }

/-- The test passes when the command goes on and the state after it satisfies `p`. -/
def sees (c : Instr) (s : State) (p : State → Bool) : Bool :=
  match exec c s with
  | .next t => p t
  | _ => false

/-- The state after the command; `s` itself when it stops. -/
def after (c : Instr) (s : State) : State :=
  match exec c s with
  | .next t => t
  | _ => s

/-- PF0 over PCIe. -/
def pf : Requester := .pcie 0

/-- A Signpost request with the given payload. -/
def req (ctx : BitVec 16) (l : List Byte) : SpReq :=
  { tag := 7, reserved := 0, len := BitVec.ofNat 16 l.length, ctx := ctx, payload := l }

/-- A running device with Milestone at 1 s, a link, 8 GiB, and the given Route Book. -/
def runs (book : List Rec) : State :=
  { State.reset with
    devState := .run, porst := true, reachedRun := true, outputsUp := true,
    time := { TimeSt.init with ms := 1000000000, running := true },
    link := { LinkSt.init with up := true },
    mem := { MemSt.init with fittedGiB := 8 },
    fw := { FwSt.init with testPassed := true, scrubbing := true, bookCommitted := true, bookAccepted := true, book := book } }

/-- A TIME record: time source MAC 0, master MAC 1, one-step, a Sync each second. -/
def timeRecord : Rec := rec 4 [(8, 1, 0), (9, 1, 1), (0xB, 1, 1)]

/-- Contexts 0 (PF0) and 1 (VF 1) with shares of Sward and LPDDR5, and one queue of each in LPDDR5. -/
def contexts : List Rec :=
  [rec 3 [(8, 1, 2)],
   rec 0x10 [(8, 1, 0), (9, 1, 0), (0xA, 2, 1), (0x14, 4, 0x100000), (0x20, 8, 0x40000000)],
   rec 0x10 [(8, 1, 1), (9, 1, 1), (0xA, 2, 1), (0x10, 4, 0x100000), (0x14, 4, 0x100000), (0x18, 8, 0x40000000),
     (0x20, 8, 0x40000000)],
   rec 0x11 [(8, 1, 0), (9, 1, 0), (0xB, 1, 8), (0x10, 8, 0x1000000000), (0x18, 8, 0x1000001000)],
   rec 0x11 [(8, 1, 1), (9, 1, 1), (0xB, 1, 8), (0x10, 8, 0x1040000000), (0x18, 8, 0x1040001000)]]

/-- An ETH record of MAC 1: its IPv4 address and its MAC address. -/
def mac1 : Rec := rec 0x60 [(8, 1, 1), (0xC, 4, 0x0A000002), (0x10, 6, 0x060504030201)]

/-- The running device that most tests start from. -/
def run : State := runs (contexts ++ [timeRecord, mac1])

/-- A waybill that runs on station `e`, with the given fields of its 64 bytes: opcode, class, then more. -/
def waybill (e : Option Nat) (op cls : Nat) (more : List (Nat × Nat × Nat)) : Waybill :=
  { id := 1, bytes := fields ([(5, 1, cls * 16), (6, 2, op)] ++ more), engine := e, ready := true }

/-- `s` with one waybill in flight. -/
def flying (w : Waybill) (s : State) : State := { s with sched := { s.sched with flight := [w] } }

/-- `s` with the given lines FENCED. -/
def fenced (l : List Nat) (s : State) : State := l.foldl (fun (t : State) b => t.modFence b fun f => { f with fenced := true, gen := 1 }) s

/-! ### Operands that the hardware cannot send -/

theorem test_ill_request : (Instr.start pf { req 0xFFFF [] with payload := List.replicate 249 0 }).wellFormed = false := by decide +kernel
theorem test_ill_line : (Instr.csiLinePacket 0 0 0x2A .ok true false [65536]).wellFormed = false := by decide
theorem test_ill_can : (Instr.canFrameReceive 0 (.frame ⟨0, 1, false, false, true, false, false, 15, List.replicate 65 0⟩)).wellFormed = false := by
  decide
theorem test_ill_spi : (Instr.spiTransferEnd 0 (List.replicate 65 0)).wellFormed = false := by decide
theorem test_ill_uart_short : (Instr.uartCharacterReceive 0 (List.replicate 8 ⟨true, true, true⟩)).wellFormed = false := by decide
theorem test_ill_uart_long : (Instr.uartCharacterReceive 0 (List.replicate 13 ⟨true, true, true⟩)).wellFormed = false := by decide
theorem test_ill_spur : (Instr.spurSearchEnd [⟨true, List.replicate 65 (true, false)⟩] false).wellFormed = false := by decide
/-- An ill-formed command stops by name and does nothing else. -/
theorem test_ill_stops : exec (.spiTransferEnd 0 (List.replicate 65 0)) run = .fault (.illFormed "SPI_TRANSFER_END") := rfl
/-- No row of the table has bits, so no word spells a command. -/
theorem test_no_word : decodeTableWord 32 0 = none := by decide

/-! ### The step, time and Pace -/

theorem witness_StepRunsFrontCommand :
    ({ run with pending := [.mcHeartbeat, .ptpSyncTimeout] }).pending = .mcHeartbeat :: [.ptpSyncTimeout] ∧ run.pending = [] := by
  decide +kernel

/-- 02 section 2.4: 5 ns a clock at the nominal increment. -/
theorem test_clock : run.tickClock.time.ms = 1000000005 ∧ run.tickClock.time.frac = 0 := by decide +kernel

theorem witness_MilestoneCountsAndLatches :
    run.pending = [] ∧ run.time.running = true ∧ State.reset.pending = [] ∧ State.reset.time.running = false := by
  decide +kernel

/-- 02 R40: the low half is read, the high half is latched for the reader alone. -/
theorem test_msLoRead : sees (.msLoRead (.pcie 3) 4) { run with time := { run.time with ms := 0x200000003 } } (fun t =>
    t.out == [.read [3, 0, 0, 0] false] && (t.fn 3).msHi == 2 && (t.fn 0).msHi == 0) = true := by decide +kernel

/-- A DIRECT-mode waybill that is to end at tick 0, counted at TE0. -/
def directTe : Waybill := { waybill none 0x101 0 [] with bytes := fields [(5, 1, 8), (6, 2, 0x101)] }

theorem witness_RingTokenPassesOn :
    run.holders run.sched.tokenAt = [] ∧ (flying directTe run).holders 0 ≠ [] ∧ (fenced [0] run).stationFenced 0 = true := by
  decide +kernel

/-- 02 R34: nineteen stations; the token comes from IE back to TE0, and only there the tick number goes up. -/
theorem test_token_wraps : sees .ringTokenArrive { run with sched := { run.sched with tokenAt := 18 } }
    (fun t => t.sched.tokenAt == 0 && t.sched.tick == run.sched.tick + 1) = true := by decide +kernel

/-- A device that lost its ring for 2 ms. -/
theorem witness_PerceptionLossFencesIsland :
    3 ≤ run.devState.code ∧ run.sched.lastCircuit + 2000000 ≤ run.now ∧ (∃ e < 19, run.stationFenced e = false) ∧
    run.pace.vcore + 25 < 800 ∧ 600 + 25 < run.pace.vcore ∧ run.pace.cmdAt + 200000 ≤ run.now ∧ 775 ≤ run.pace.vcore + 25 ∧
    ({ run with time := { run.time with ms := 199999 } }).now < run.pace.cmdAt + 200000 ∧ run.pace.unconfirmed = false ∧
    (let s := { run with pace := { run.pace with unconfirmed := true } }
     s.pace.unconfirmed = true ∧ s.pace.vcore + 15 < 766 ∧ AvsMiss.noAck ≠ .badCrc) ∧ Rail.vcore ∉ run.lostRails := by
  decide +kernel

/-- 02 R44: the whole island is fenced and VCORE goes to 0.60 V. -/
theorem test_ring_miss : sees .ringTokenMiss run (fun t =>
    t.devState == .fenced && t.isFenced 0x60 && t.isFenced 18 && t.pace.vcore == 600 && !t.isFenced 0x28) = true := by
  decide +kernel
/-- 02 Table 2.7: ±25 mV is inside the window; 26 mV away for 10 µs is a miss, for less it is none. -/
theorem test_vcore_window :
    sees (.vcoreWindowMiss 725 10000) run (fun t => t.devState == .run) = true ∧
    sees (.vcoreWindowMiss 724 9999) run (fun t => t.devState == .run) = true ∧
    sees (.vcoreWindowMiss 724 10000) run (fun t => t.devState == .fenced) = true := by decide +kernel

theorem witness_HostCeilingAndThermalOverrideWin :
    let p := { run.pace with floor := 700, ceiling := 800, vcore := 750, target := 100 }
    p.floor ≤ p.ceiling ∧ (paceLaw p 211 0).1 = true ∧ (paceLaw p 210 0).1 = false := by decide +kernel

/-- 02 section 2.6: the override sets in above 105 °C (half degrees), and steps 10 mV down to no less than 650 mV. -/
theorem test_thermal_floor : (paceLaw { run.pace with vcore := 655, floor := 700, ceiling := 800 } 211 0).2.1 = 650 := by
  decide +kernel

/-- A running device whose governor holds VCORE between 700 and 800 mV with a rate target. -/
def paced : State := { run with pace := { run.pace with floor := 700, ceiling := 800, vcore := 750, target := 100 } }

/-- The same device in HELD. -/
def inHeld (s : State) : State := { s with devState := .held }

theorem witness_PaceGovernorActs :
    paced.mcRuns = true ∧ paced.devState = .run ∧ paced.pace.unconfirmed = false ∧
    (paceLaw paced.pace 100 1010).2.1 = paced.pace.vcore ∧ (paceLaw paced.pace 100 500).2.1 ≠ paced.pace.vcore ∧
    ({ paced with pace := { paced.pace with unconfirmed := true } }).pace.unconfirmed = true ∧
    (paceLaw paced.pace 219 500).2.2 = none ∧ (inHeld paced).mcRuns = true ∧ (inHeld paced).devState ≠ .run ∧
    (paceLaw { paced.pace with floor := 750 } 219 500).2.2 = some .hostFloor ∧
    (paceLaw { paced.pace with vcore := 800 } 100 500).2.2 = some .governor ∧ paced.pace.thermalFence = false := by
  decide +kernel

theorem test_pace_up : sees (.paceGovernorPeriod 100 500) paced (fun t => t.pace.vcore == 755 && t.pace.unconfirmed) = true := by
  decide +kernel
/-- 02 R49: the fence at 110 °C. -/
theorem test_pace_fence : sees (.paceGovernorPeriod 220 500) paced (fun t =>
    t.isFenced 0x60 && t.pace.vcore == 600 && t.pace.thermalFence) = true := by decide +kernel
/-- 02 R50: a read-back 15 mV away confirms the command, one 16 mV away does not. -/
theorem test_readback :
    sees (.avsbusReadBack 765 none) { paced with pace := { paced.pace with unconfirmed := true } }
      (fun t => !t.pace.unconfirmed) = true ∧
    sees (.avsbusReadBack 766 none) { paced with pace := { paced.pace with unconfirmed := true } }
      (fun t => t.pace.unconfirmed) = true := by decide +kernel

theorem witness_MonitorsStopTheDevice :
    run.devState ≠ .off ∧ run.mc.lost = false ∧ run.mc.lastBeat + 3000000 ≤ run.now ∧ run.mc.badWindows = 0 ∧
    ({ run with mc := { run.mc with badWindows := 1 } }).mc.badWindows = 1 ∧
    ({ run with link := { run.link with hostPort := some .qspi } }).link.hostPort = some .qspi ∧
    ((run.modFn 2 fun x => { x with spState := .busy }).fn 2).spState = .busy := by decide +kernel

/-- 02 Table 2.7: 1,237 cycles are bad, 1,238 and 1,262 good, and the second bad window in a row stops at once. -/
theorem test_oscillator :
    sees (.oscillatorWatchdogWindow 1237) run (fun t => t.mc.badWindows == 1 && t.verge.stop == .none) = true ∧
    sees (.oscillatorWatchdogWindow 1262) { run with mc := { run.mc with badWindows := 1 } }
      (fun t => t.mc.badWindows == 0) = true ∧
    sees (.oscillatorWatchdogWindow 1263) { run with mc := { run.mc with badWindows := 1 } }
      (fun t => t.verge.stop == .immediate && t.devState == .fault) = true := by decide +kernel

theorem witness_FaultReactions :
    run.active = true ∧ demandsFault 0x8A01 = true ∧ demandsFault 0x8A08 = false ∧ run.verge.stop = .none := by
  decide +kernel

theorem witness_PtpDisciplinesMilestone :
    run.timeRec = some timeRecord ∧ timeRecord.u 8 1 = (0 : Fin 2) ∧ run.isFenced (0x20 + (0 : Fin 2)) = false ∧
    run.mcRuns = true ∧ run.time.disc = .free ∧ (inHeld run).devState ≠ .run ∧ timeRecord.u 8 1 ≠ (1 : Fin 2) ∧
    (∀ d ∈ [Discipline.acquiring, .locked, .holdover], ({ run with time := { run.time with disc := d } }).time.disc = d) ∧
    run.time.lastSync + 4 * syncInterval run.time.logSync ≤ ({ run with time := { run.time with ms := 10000000000 } }).now := by
  decide +kernel

/-- 02 R41: outside RUN an offset of 1 ms and 1 ns behind is stepped; in RUN it leads to HOLDOVER. -/
theorem test_ptp_step :
    sees (.ptpSyncReceive 0 (-1000001) 0) (inHeld run) (fun t => t.time.ms == 1001000001) = true ∧
    sees (.ptpSyncReceive 0 (-1000001) 0) run (fun t => t.time.ms == 1000000000 && t.time.disc == .holdover) = true := by
  decide +kernel

theorem witness_PtpMasterAndPulse :
    run.masterMac = some (1, timeRecord) ∧ run.mcRuns = true ∧ run.time.lastMasterSync = none ∧
    run.recN 0x60 1 = some mac1 ∧
    (let s := { run with time := { run.time with lastMasterSync := some 0 } }
     0 + syncInterval (timeRecord.i 0xD 1) ≤ s.now ∧ s.time.lastMasterSync = some 0) ∧
    run.now < 1000000000 + syncInterval (timeRecord.i 0xD 1) ∧ (1 : Nat) = (1 : Fin 2) ∧ (1 : Nat) ≠ (0 : Fin 2) ∧
    run.time.running = true ∧ run.time.pps = false ∧ run.now % 1000000000 < 1000000 ∧
    1000000 ≤ ({ run with time := { run.time with ms := 1001000000, pps := true } }).now % 1000000000 := by decide +kernel

/-! ### Reset, supplies, fences and the link -/

/-- 04 R83, R87: a one-step Sync carries its Milestone and the MAC's own address. -/
theorem test_master_sync : sees .ptpMasterSync run (fun t => t.out ==
    [.ptp (PtpOut.mk 1 0 0 1000000000 [1, 2, 3, 4, 5, 6] false 0 false)]) = true := by decide +kernel

theorem witness_WholeDeviceResetAndRelease :
    (let s := { State.reset with lostRails := [.vfield, .vio33] }
     s.devState = .off ∧ Rail.vctl ∉ s.lostRails ∧ Rail.vio18 ∉ s.lostRails ∧ Rail.vfield ∈ s.lostRails) ∧
    Rail.vio18 ∈ ({ State.reset with lostRails := [.vio18] }).lostRails ∧
    (let s := { run with verge := { run.verge with stoA := true, stoB := true } }
     s.verge.stoA = true ∧ s.verge.stoB = true ∧ s.canonical = true) ∧
    (let s := (run.modCam 2 fun y => { y with trigPin := true, mclk := 3 }).modPwm 7 fun x => { x with high := 9 }
     s.canonical = true ∧ (s.cam 2).trigPin = true ∧ (s.cam 2).mclk ≠ 0 ∧ (s.pwm 7).high ≠ 0) ∧
    Rail.vctl ∉ run.lostRails ∧ run.devState ≠ .off ∧ State.reset.devState = .off ∧ State.reset.lostRails = [] ∧
    ({ State.reset with lostRails := [.vio33], porst := true }).lostRails = [.vio33] ∧
    (let s := fenced [0x60] { run with lostRails := [.vcore] }
     s.devState ≠ .off ∧ Rail.vcore ∈ s.lostRails ∧ s.isFenced 0x60 = true ∧ s.pace.thermalFence = false) := by
  decide +kernel

/-- 03 section 3.8: PORST_N released before VFIELD is in range goes on to ROM_WAIT all the same. -/
theorem test_porst_field : sees .porstNRelease { State.reset with lostRails := [.vfield] } (fun t =>
    t.devState == .romWait && !t.fieldPower) = true := by decide +kernel
theorem test_porst : sees .porstNRelease State.reset (fun t => t.devState == .romWait && t.time.running && t.now == 0) = true := by
  decide +kernel

theorem witness_SupplyLossFences : ∀ r ∈ [Rail.vio33, .vfield, .vddq, .vdd2h, .vphyHs, .vphyMipi],
    r ∉ run.lostRails ∧ run.devState ≠ .off ∧ run.canonical = true ∧ run.mem.lpddr.hard = [] := by decide +kernel

/-- 03 Table 3.4: VFIELD stops at once; VPHY_MIPI fences the four receivers. -/
theorem test_supply :
    sees (.supplyLoss .vfield) run (fun t => t.devState == .fault && t.verge.stop == .immediate && !t.outputsUp) = true ∧
    sees (.supplyLoss .vphyMipi) run (fun t => t.isFenced 0x22 && t.isFenced 0x25 && t.devState == .run) = true := by
  decide +kernel

/-- The island in reset, with a byte left in Sward. -/
def piInReset : State :=
  { fenced (0x60 :: piBlocks) run with
    piReset := true, devState := .fenced,
    mem := { run.mem with sward := { MemSpace.init with cells := [(5, 1)] } } }

theorem witness_IslandResetZeroesSward :
    piInReset.canonical = true ∧ piInReset.isFenced 0x60 = true ∧ (piInReset.fenceOf 0x60).poweredDown = false ∧
    Rail.vcore ∉ piInReset.lostRails ∧ piInReset.piReset = true ∧ Map.get 0 piInReset.mem.sward.hard 0 ≤ 2 ∧
    Map.get 0 piInReset.mem.tag.hard 0 ≤ 2 ∧ piInReset.fw.piHeld = false ∧ piInReset.pace.thermalFence = false ∧
    (let s := { piInReset with pace := { piInReset.pace with thermalFence := true, hostReset := true } }
     s.pace.hostReset = true ∧ s.canonical = true) ∧ run.piReset = false ∧
    (let s := { piInReset with pace := { piInReset.pace with thermalFence := true } }
     s.pace.thermalFence = true ∧ s.pace.hostReset = false) := by
  decide +kernel

/-- 02 R49: after a thermal fence a reset that the host has not asked for does not lift it. -/
theorem test_pi_thermal : sees (.fenceExit 0x60) { piInReset with pace := { piInReset.pace with thermalFence := true } }
    (fun t => t.isFenced 0x60 && t.devState == .fenced) = true := by decide +kernel

/-- 01 R10, R29: Sward is zeroed and the device runs again. -/
theorem test_pi_exit : sees (.fenceExit 0x60) piInReset (fun t =>
    t.devState == .run && t.mem.sward.cells == [] && !t.isFenced 0x60 && !t.isFenced 18) = true := by decide +kernel

theorem witness_FencesAbortAndLift :
    (fenced [0x28] run).isFenced 0x28 = true ∧ run.isFenced 0x28 = false ∧
    ((fenced [0x28] run).fenceOf 0x28).poweredDown = false ∧ (∀ r ∈ railsOf 0x28, r ∉ run.lostRails) ∧ 0x28 ∉ piBlocks ∧
    (fenced [0x54] run).isFenced 0x54 = true ∧ (fenced [0x54] run).canonical = true ∧
    (∀ c, c < 0x58 → 0x54 ≤ c → c ≠ 0x54 → (fenced [0x54] run).isFenced c = false) ∧
    (flying (waybill (some 3) 0x101 0 []) run).sched.flight ≠ [] ∧
    (∃ r ∈ railsOf 0x22, r ∈ ({ run with lostRails := [.vphyMipi] }).lostRails) ∧
    (2 ∈ piBlocks ∧ (fenced [2, 0x60] run).isFenced 0x60 = true) ∧ (∃ e < 19, run.stationFenced e = false) ∧
    (let s := fenced (List.range 19) run
     s.canonical = true ∧ (∀ e < 19, s.stationFenced e = true) ∧ s.isFenced 2 = true ∧ s.isFenced 0x60 = false) ∧
    (((fenced [0x28] run).modFence 0x28 fun f => { f with poweredDown := true }).fenceOf 0x28).poweredDown = true := by
  and_intros <;> decide +kernel

/-- 01 R24: a fence of TE3 takes the waybill that runs on it off the Scoreboard, and generation 1 begins. -/
theorem test_fence : let t := (flying (waybill (some 3) 0x101 0 []) run).enterFence 3
    t.sched.flight = [] ∧ t.isFenced 3 = true ∧ (t.fenceOf 3).gen = 1 := by decide +kernel

/-- A queue of context 0 with both rings in host memory. -/
def hostQueue : Rec := rec 0x11 [(8, 1, 0), (9, 1, 1), (0xB, 1, 8), (0x10, 8, hostBase), (0x18, 8, hostBase + 0x1000)]

theorem witness_LinkDownHaltsAndFences :
    let s := runs (contexts ++ [hostQueue])
    let d := fenced [0x50] { s with link := { s.link with up := false } }
    s.link.up = true ∧ (s.queueInfos.any fun i => hostBase ≤ i.sqBase) = true ∧ d.canonical = true ∧ d.link.up = false ∧
    d.devState ≠ .off ∧ Rail.vphyHs ∉ d.lostRails := by decide +kernel

theorem test_link_down : sees (.linkDown .dlDown) (runs (contexts ++ [hostQueue])) (fun t =>
    !t.link.up && t.isFenced 0x50 && (t.queue 0 1).halted && !(t.queue 0 0).halted) = true := by decide +kernel

/-! ### The host links -/

theorem witness_RegisterWritesWholeOrNothing :
    State.reset.devState = .off ∧ run.devState ≠ .off ∧ 0x1000 ≤ (0x10FF#16).toNat ∧ (0x10FF#16).toNat < 0x1100 ∧
    (List.replicate 512 1#8).length ≤ 512 ∧ (0xF00#16).toNat < 0x1000 ∧ 0x1000 < (0xF00#16).toNat + (List.replicate 257 1#8).length ∧
    0x1100 ≤ (0x11FF#16).toNat ∧ (0x11FF#16).toNat < 0x1200 ∧ (0x200#16).toNat % 4 = 0 ∧ [1#8, 2, 3].length ≠ 4 ∧
    fnOf pf = 0 ∧ [1#8, 0, 0, 0].length = 4 := by decide +kernel

/-- 04 Table 4.9: a 1 clears a bit of QSPI_STAT; a write of two bytes does nothing. -/
theorem test_qspi_stat :
    sees (.registerWrite pf 0x200 [1, 0, 0, 0]) { run with link := { run.link with qspiStat := 0xD } }
      (fun t => t.link.qspiStat == 0xC) = true ∧
    sees (.registerWrite pf 0x200 [1, 0]) { run with link := { run.link with qspiStat := 0xD } }
      (fun t => t.link.qspiStat == 0xD) = true := by decide +kernel

/-- 00 R390: a write that ends past SP_CMD's start takes effect in it, byte by byte. -/
theorem test_straddle : sees (.registerWrite pf 0xFFC [9, 9, 9, 9, 5, 6]) run (fun t =>
    (t.fn 0).spCmd.bytes 0 3 == [5, 6, 0]) = true := by decide +kernel

/-- VF Enable set with one VF, and vector 5 of VF 1 open to be sent but left pending while it was masked. -/
def vf1 : State :=
  ({ run with link := { run.link with vfEnable := true, numVfs := 1 } }).modFn 1 fun x =>
    { x with msixEnable := true, msixPending := [(5, true)] }

theorem witness_ConfigurationAnswers :
    vf1.devState ≠ .off ∧ vf1.link.up = true ∧ vf1.fnExists 1 = true ∧ vf1.fnExists 2 = false ∧
    (vf1.fn 1).msixEnable = true ∧ (vf1.fn 1).msixFnMask = false ∧ Map.get false (vf1.fn 1).msixPending 5 = true ∧
    (3#64).toNat % 4 = 3 ∧
    (let s := (after (.configRequest 0 (.write .powerState 3)) vf1)
     s.link.up = false ∧ (s.fn 0).cfg.d3hot = true ∧ s.fnExists 0 = true) := by
  decide +kernel

/-- 04 Table 4.3. -/
theorem test_config_identity : sees (.configRequest 0 (.read .vendorId)) run (fun t => t.out == [.config 0x1E6C]) = true := by
  decide +kernel
theorem test_unmask : sees (.msixUnmask 1 (some 5)) vf1 (fun t => t.out == [.msix 1 5] && (t.fn 1).msixPending == []) = true := by
  decide +kernel

/-- VF 1 with a waybill of its context 1 in flight. -/
def vfBusy : State := flying { waybill none 0x101 0 [] with ctx := 1 } vf1

theorem witness_VfResetEmptiesItsContexts :
    (1 : Fin 16) ≠ 0 ∧ vfBusy.devState ≠ .off ∧ vfBusy.link.up = true ∧ vfBusy.fnExists 1 = true ∧
    vfBusy.link.flrBusy.get 0 1 = 0 ∧ (after (.vfFlr 1) vfBusy).link.flrBusy.get 0 1 ≠ 0 := by decide +kernel

/-- 04 R78: one waybill was aborted, and FLR_DONE says so. -/
theorem test_flr : sees (.flrDone 1) (after (.vfFlr 1) vfBusy) (fun t =>
    t.sched.flight == [] && ((t.fn 0).posted.map fun e => (e.code, e.payload)) == [(0x0D02, 0x10001)]) = true := by
  decide +kernel

theorem witness_MctpAnswers :
    run.mctpLive = true ∧ run.reachedRun = true ∧ ({ run with reachedRun := false, devState := .held }).mctpLive = true ∧
    (1#8).toNat ≤ 1 ∧ (8#8 ≠ 0 ∧ 8#8 ≠ 0xFF) := by decide +kernel

/-- 04 R74: telemetry reads 0 until RUN has been reached. -/
theorem test_health : sees .getHealth { run with reachedRun := false, devState := .held }
    (fun t => t.out == [.mctp 0x7E 1 [0, 0, 0, 0, 0, 0]]) = true := by decide +kernel

theorem witness_MemoryWriteStoresItsBytes :
    run.mem.canonical = true ∧ run.mem.pendGran = [] ∧ (run.space .lp).hard = [] := by decide +kernel

/-- 08 Table 8.7: a partial write of a poisoned word leaves it poisoned; a whole write cleans it. -/
theorem test_poison_write :
    let s := run.setMark .lp 2 .poison
    (s.writeMem .lp none false 17 [9]).2.mem.lpddr.marks = [(2, .poison)] ∧
    (s.writeMem .lp none false 16 [1, 2, 3, 4, 5, 6, 7, 8]).2.mem.lpddr.marks = [] := by decide +kernel

theorem witness_Bar4ReachesOwnShares :
    vf1.link.up = true ∧ vf1.fnExists 1 = true ∧ vf1.fnExists 2 = false ∧ vf1.canonical = true ∧ vf1.mem.pendGran = [] ∧
    vf1.mem.lpddr.hard = [] ∧ vf1.reaches 1 0x40000000 = true ∧ vf1.lpShut 0x40000000 = false ∧
    (∀ i < 4, vf1.reaches 1 (0x3FFFFFFC + i) = false) ∧ vf1.reaches 1 0x7FFFFFFF = true ∧ vf1.reaches 1 0x80000000 = false ∧
    (∀ i < 64, vf1.reaches 1 (0x40000000 + i) = true) ∧ 0x40000000 % 64 + (List.replicate 64 1#8).length ≤ 64 ∧
    ((vf1.setMark .lp 0x8000000 .ue).mem.lpddr.marks.get Ecc.clean ((0x40000000 + 3) / 8) = .ue) := by decide +kernel

/-- 04 R72, 00 R390: a VF reads the bytes of its own share, and zeros for the bytes outside it. -/
theorem test_bar4 :
    let s := after (.bar4Write 0 0x40000001 [0xAA, 0xBB]) vf1
    sees (.bar4Read 1 0x40000000 4) s (fun t => t.out == [.read [0, 0xAA, 0xBB, 0] false]) = true ∧
    sees (.bar4Read 1 0x3FFFFFFF 4) s (fun t => t.out == [.read [0, 0, 0xAA, 0xBB] false]) = true ∧
    sees (.bar4Read 1 0x3FFFFFFB 4) s (fun t => t.out == [.read [0, 0, 0, 0] false]) = true := by decide +kernel
/-- 08 R172: a read of a poisoned word is marked EP. -/
theorem test_bar4_poison : sees (.bar4Read 0 16 2) (run.setMark .lp 2 .poison) (fun t =>
    (t.out.any fun o => match o with | .read _ ep => ep | _ => false) && t.out.length == 1) = true := by decide +kernel

/-- A QSPI frame with right CRCs: opcode, address and words. -/
def frame (op : Byte) (addr : Nat) (data : List Byte) : List Byte :=
  let h := le 4 addr ++ [BitVec.ofNat 8 (max 1 (data.length / 4) - 1), 0]
  h ++ le 2 (crc16 (op :: h)) ++ (if data.isEmpty then [] else data ++ le 2 (crc16 data))

/-- The check value of CRC-16 with polynomial 0x1021 and initial value 0xFFFF (04 Table 4.8). -/
theorem test_crc16 : crc16 [0x31, 0x32, 0x33, 0x34, 0x35, 0x36, 0x37, 0x38, 0x39] = 0x29B1 := by decide +kernel

theorem witness_QspiFramesCheckCrc :
    let good := frame 0x02 0x1000 [1, 2, 3, 4]
    let cut := good.take 13
    let bad := good.set 13 0
    let lp := frame 0x02 0x80000040 [1, 2, 3, 4, 5, 6, 7, 8]
    let lpRead := frame 0x0B 0x80000040 []
    let reserved := fun (op : Byte) => let h := [0, 0x10, 0, 0, 0, 1]
      h ++ le 2 (crc16 (op :: h)) ++ [1, 2, 3, 4] ++ le 2 (crc16 [1, 2, 3, 4])
    State.reset.devState = .off ∧ run.canonical = true ∧ run.mem.pendGran = [] ∧ run.mem.lpddr.hard = [] ∧
    (qspiHeader 0x02#8 ([0xFF] ++ good.drop 1)).2.2.2 = false ∧ (qspiHeader 0x0B#8 ([0xFF] ++ lpRead.drop 1)).2.2.2 = false ∧
    (∀ op ∈ [0x02#8, 0x0B#8], (qspiHeader op (reserved op)).2.2.2 = true ∧ byteAt (reserved op) 5 ≠ 0 ∧
      10 + 4 * (byteAt (reserved op) 4 + 1) ≤ (reserved op).length ∧
      crc16 (((reserved op).drop 8).take 4) = fieldAt (reserved op) 12 2) ∧
    (qspiHeader 0x02#8 lp).2.2.2 = true ∧ byteAt lp 4 + 1 = 2 ∧ byteAt lp 5 = 0 ∧
    crc16 ((lp.drop 8).take 8) = fieldAt lp 16 2 ∧ run.qspiPlace (fieldAt lp 0 4) 8 = .lpddr 0x40 ∧
    run.lpFenced 0x40 8 = false ∧ (fenced [0x54, 0x55, 0x56, 0x57] run).lpFenced 0x40 8 = true ∧
    (fenced [0x54, 0x55, 0x56, 0x57] run).qspiPlace (fieldAt lp 0 4) 8 = .lpddr 0x40 ∧
    (qspiHeader 0x0B#8 lpRead).2.2.2 = true ∧ byteAt lpRead 4 + 1 = 1 ∧ run.qspiPlace (fieldAt lpRead 0 4) 4 = .lpddr 0x40 ∧
    run.devState ≠ .off ∧ 10 + 4 * (byteAt bad 4 + 1) ≤ bad.length ∧
    crc16 ((bad.drop 8).take (4 * (byteAt bad 4 + 1))) ≠ fieldAt bad (8 + 4 * (byteAt bad 4 + 1)) 2 ∧
    cut.length < 10 + 4 * (byteAt cut 4 + 1) ∧
    good.length = 14 ∧ byteAt good 4 = 0 ∧ byteAt good 5 = 0 ∧ (qspiHeader 0x02#8 good).2.2.2 = true ∧
    crc16 ((good.drop 8).take 4) = fieldAt good 12 2 ∧ run.qspiPlace (fieldAt good 0 4) 4 = .bar0 0x1000 ∧
    (qspiHeader 0x0B#8 (frame 0x0B 0x10000 [])).2.2.2 = true ∧
    run.qspiPlace (fieldAt (frame 0x0B 0x10000 []) 0 4) 4 = .nowhere ∧
    run.qspiPlace (fieldAt (frame 0x0B 0xFFFC []) 0 4) 4 = .nowhere ∧ run.qspiPlace (fieldAt (frame 0x0B 0x100 []) 0 4) 4 = .bar0 0x100 ∧
    (8 ≤ (frame 0x0B 0x100 []).length) ∧ ((frame 0x0B 0x100 []).take 7).length < 8 ∧ run.qspiPlace (fieldAt (frame 0x02 0xFFFC [1, 2, 3, 4]) 0 4) 4 = .nowhere ∧
    (0x03#8 ≠ 0x02#8 ∧ 0x03#8 ≠ 0x0B#8 ∧ 0x03#8 ≠ 0x05#8) := by decide +kernel

theorem test_qspi_write :
    sees (.qspiWrite (frame 0x02 0x1000 [1, 2, 3, 4])) run (fun t => (t.fn 0).spCmd.bytes 0 4 == [1, 2, 3, 4] &&
      t.out == [.qspiStat 0]) = true ∧
    sees (.qspiWrite ((frame 0x02 0x1000 [1, 2, 3, 4]).set 13 0)) run (fun t => (t.fn 0).spCmd == [] &&
      t.out == [.qspiStat 1] && t.link.qspiStat == 8) = true := by decide +kernel
/-- 04 Tables 4.8, 4.10: a frame to the LPDDR5 window is read back, and a Reserved offset ends with STAT 0x03. -/
theorem test_qspi_window :
    sees (.qspiRead (frame 0x0B 0x80000040 [])) (after (.qspiWrite (frame 0x02 0x80000040 [1, 2, 3, 4, 5, 6, 7, 8])) run) (fun t =>
      t.out == [.qspiStat 0, .read ([1, 2, 3, 4] ++ le 2 (crc16 [1, 2, 3, 4])) false, .qspiStat 0]) = true ∧
    sees (.qspiWrite (frame 0x02 0xFFFC [1, 2, 3, 4])) run (fun t => t.out == [.qspiStat 3]) = true := by decide +kernel

def rtpOpen : Stream := { kind := 0, source := 0, reserve := 10000, rtpNext := some 65535, maxW := 64, maxH := 64 }

/-- MAC 0 with one RTP record, and a stream of it that waits for sequence number 65,535. -/
def rtpRun : State :=
  let s := runs (contexts ++ [rec 0x60 [(8, 1, 0)], rec 0x61 [(8, 1, 0), (9, 1, 0xFF), (0xA, 2, 5004), (0xC, 4, 0x0A000001)]])
  { s with intake := { s.intake with streams := [(0, some rtpOpen)] } }

/-- A packet of one H.264 NAL unit of type 5 to the station address of MAC 0. -/
def packet : RtpPacket := { dstMac := 0, dstIp := 0x0A000001, dstPort := 5004, srcIp := 1, payloadType := 96, ssrc := 2, seq := 65535,
                            timestamp := 0, lastOfUnit := true, payload := [0x65, 2, 3] }

/-- A UDP/IPv4 frame to the station address of MAC 0 and the address of its RTP record. -/
def udpFrame (port : BitVec 16) : EthFrame := { dstMac := 0, etherType := 0x0800, udp4 := true, dstIp := 0x0A000001, dstPort := port }

theorem witness_EthernetDropsAllElse :
    rtpRun.macLive 0 = true ∧ run.macLive 0 = false ∧ rtpRun.macAccepts 0 packet.dstMac.toNat = true ∧
    rtpRun.macAccepts 0 7 = false ∧ (udpFrame 5005).etherType ≠ 0x88F7#16 ∧ (udpFrame 5005).udp4 = true ∧
    (∀ r ∈ rtpRun.recs 0x61, r.u 0xA 2 ≠ (udpFrame 5005).dstPort.toNat) ∧ (udpFrame 320).dstPort = 320#16 ∧
    rtpRun.macAccepts 0 (udpFrame 5004).dstMac.toNat = true ∧
    (∃ r ∈ rtpRun.recs 0x61, r.u 8 1 = 0 ∧ r.u 0xC 4 = (udpFrame 5004).dstIp.toNat ∧ r.u 0xA 2 = (udpFrame 5004).dstPort.toNat) ∧
    (fenced [18] rtpRun).stationFenced 18 = true ∧
    (rtpRun.rtpMatch 0 { packet with dstPort := 5005 }).bind rtpRun.rtpStream = none ∧
    (rtpRun.rtpMatch 0 packet).bind rtpRun.rtpStream = some (0, rtpOpen) ∧ rtpRun.stationFenced 18 = false ∧
    rtpOpen.rtpNext = some packet.seq.toNat ∧ rtpOpen.rtpBuf = [] ∧ rtpOpen.rtpStamp = none ∧ rtpOpen.rtpLost = false ∧
    rtpOpen.openUnit = [] ∧ packet.lastOfUnit = true ∧ rtpOpen.payloadBytes packet.payload = some [0, 0, 0, 1, 0x65, 2, 3] ∧
    rtpOpen.buffered + 7 ≤ rtpOpen.capacity ∧ 7 ≤ rtpOpen.unitLimit ∧ rtpOpen.payloadBytes [0x1A, 0, 0] = none := by
  decide +kernel

/-- 04 R86: sequence number 65,535 is followed by 0. -/
theorem test_rtp : sees (.rtpPacketReceive 0 packet) rtpRun (fun t => (t.intake.streams.head?.bind (·.2)).any fun y =>
    (y.units.map fun u => (u.1, u.2.2)) == [([0, 0, 0, 1, 0x65, 2, 3], false)] && y.rtpNext == some 0) = true := by decide +kernel

/-! ### The Signpost -/

/-- The running device in another state. -/
def inState (d : DevState) : State := { run with devState := d }

/-- Whether a request is accepted, as a value. -/
def accepts (p : Requester) (op : Nat) (r : SpReq) (s : State) : Bool :=
  r.wellFormed && s.devState != .off && !s.mc.lost && (s.fn (fnOf p)).spState != .busy && Memory.wf (s.fn (fnOf p)).spCmd
    && (p != .pcie 0 || s.link.hostPort != some .qspi) && (p != .qspi || s.link.hostPort != some .pcie)
    && (s.taken p op r).requestStatus (fnOf p) (requestBytes op r) == 0

theorem accepted {p : Requester} {op : Nat} {r : SpReq} {s : State} (h : accepts p op r s = true) : Accepted p op r s := by
  simp only [accepts, Bool.and_eq_true, bne_iff_ne, beq_iff_eq, Bool.not_eq_true', Bool.or_eq_true] at h
  obtain ⟨⟨⟨⟨⟨⟨⟨h1, h2⟩, h3⟩, h4⟩, h5⟩, h6⟩, h7⟩, h8⟩ := h
  exact ⟨h1, ⟨h2, h3, h4, h5, fun e => h6.resolve_left (fun k => k e), fun e => h7.resolve_left (fun k => k e)⟩, h8⟩

/-- Every request of a list is accepted. -/
theorem accepted_all {l : List (Nat × SpReq × State)} (h : (l.all fun x => accepts pf x.1 x.2.1 x.2.2) = true) :
    ∀ x ∈ l, Accepted pf x.1 x.2.1 x.2.2 := fun x m => accepted (List.all_eq_true.1 h x m)

theorem witness_SignpostTakesRequest : (req 0xFFFF []).wellFormed = true ∧ MayRing pf run ∧ MayRing .qspi run ∧
    MayRing (.pcie 1) vf1 := by unfold MayRing; decide +kernel

/-- The judged request, as its bytes. -/
def judged (f op : Nat) (r : SpReq) (s : State) : Nat := s.requestStatus f (requestBytes op r)

/-- 06 Table 6.9 checks 1 to 7 in order, one request for each answer. -/
theorem witness_SignpostJudgesAndAnswers :
    commandRow 0x0FFF = none ∧ judged 0 0x0FFF (req 0xFFFF []) run = 0x2001 ∧
    judged 0 0x0001 (req 0xFFFF [0]) run = 0x2003 ∧
    judged 0 0x0001 { req 0xFFFF [] with reserved := 1 } run = 0x2004 ∧
    judged 1 0x0101 (req 0xFFFF (List.replicate 8 0)) vf1 = 0x2002 ∧
    judged 1 0x0001 (req 0xFFFF []) { vf1 with reachedRun := false } = 0x2007 ∧
    judged 0 0x0008 (req 0xFFFF []) run = 0x2011 ∧
    judged 0 0x0001 (req 0 []) run = 0x2005 ∧ judged 0 0x0001 (req 0xFFFF []) run = 0 ∧
    judged 1 0x0203 (req 0 []) vf1 = 0x2005 ∧ judged 1 0x0203 (req 1 []) vf1 = 0 ∧
    (let s := (run.modFn 0 fun x => { x with msixEnable := true, msixOpen := [(1024, true)] })
     (s.fn 0).msixEnable = true ∧ (s.fn 0).msixFnMask = false ∧ Map.get false (s.fn 0).msixOpen 1024 = true ∧ s.link.up = true ∧
     (s.respond 0 1 0 0 []).out = [.msix 0 1024]) := by decide +kernel

theorem witness_ReportCommandsAnswer :
    (∀ x ∈ [(0x0001, req 0xFFFF [], run), (0x0004, req 0xFFFF [], run), (0x0006, req 0xFFFF [], run),
      (0x0105, req 0xFFFF [], run), (0x0106, req 0xFFFF [], run), (0x0301, req 0xFFFF [], run),
      (0x0201, req 0 (List.replicate 8 0), run), (0x0203, req 0 [], run), (0x0204, req 0 [], run),
      (0x0903, req 0xFFFF (31 :: List.replicate 7 0), run), (0x0903, req 0xFFFF (32 :: List.replicate 7 0), run),
      (0x0201, req 0 (3 :: List.replicate 7 0), run), (0x0004, req 0xFFFF [], inState .selftest),
      (0x0C03, req 0xFFFF [], run)], Accepted pf x.1 x.2.1 x.2.2) ∧
    run.devState ≠ .selftest ∧ (run.queueInfo 0 0).isSome = true ∧ run.queueInfo 0 3 = none ∧ (run.ctx 0).isSome = true :=
  ⟨accepted_all (by decide +kernel), by decide +kernel⟩

/-- 16 R333: while REDUCED is in force LOOP_STATUS reports the output clamped to OUT_REDUCED. -/
theorem test_loop_status :
    let s := runs (contexts ++ [rec 0xA0 [(8, 4, 1000), (0x14, 4, 40)]]) |>.modLoop 0 fun y => { y with out := -90 }
    sees (.loopStatus pf (req 0xFFFF (List.replicate 8 0))) { s with verge := { s.verge with reduced := true } } (fun t =>
      (t.fn 0).spRsp.bytes 20 4 == [0xD8, 0xFF, 0xFF, 0]) = true := by decide +kernel

/-- 06 Table 6.10: GET_INFO names the function and the state; TAG comes back (06 Table 6.6). -/
theorem test_get_info : sees (.getInfo pf (req 0xFFFF [])) run (fun t =>
    (t.fn 0).spRsp.bytes 0 4 == [0, 0, 7, 0] && (t.fn 0).spRsp.bytes 8 9 == [0, 0, 0, 0, 0, 0, 0x10, 0, 7]) = true := by
  decide +kernel

theorem test_context_info : sees (.contextInfo (.pcie 1) (req 1 [])) vf1 (fun t =>
    (t.fn 1).spRsp.bytes 8 8 == [0, 0, 0x10, 0, 0, 0, 0x10, 0] && (t.fn 0).spRsp == []) = true := by decide +kernel

/-- FW_LOAD's payload: offset, reserved word, data. -/
def loadReq : SpReq := req 0xFFFF (le 4 8 ++ le 4 0 ++ [1, 2, 3, 4])
/-- ROUTE_COMMIT's payload: offset, length, reserved word. -/
def commitReq (off n : Nat) : SpReq := req 0xFFFF (le 8 off ++ le 4 n ++ le 4 0)

theorem witness_LoadingCommandsStage :
    (∀ x ∈ [(0x0002, loadReq, inState .romWait), (0x0003, req 0xFFFF (List.replicate 8 0), inState .romWait),
      (0x0005, commitReq 64 72, inState .held), (0x0007, req 0xFFFF (le 8 1000000000), inState .held),
      (0x0007, req 0xFFFF (le 8 999999999), inState .held)], Accepted pf x.1 x.2.1 x.2.2) ∧
    fieldAt loadReq.payload 0 4 % 4 = 0 ∧ fieldAt loadReq.payload 0 4 + (loadReq.len.toNat - 8) ≤ 1573472 ∧
    fieldAt (commitReq 64 72).payload 0 8 % 8 = 0 ∧ fieldAt (commitReq 64 72).payload 8 4 = 72 :=
  ⟨accepted_all (by decide +kernel), by decide +kernel⟩

theorem test_fw_load : sees (.fwLoad pf loadReq) (inState .romWait) (fun t =>
    t.fw.stage.bytes 8 4 == [1, 2, 3, 4] && (t.fn 0).spStatus == 0) = true := by decide +kernel
/-- 02 R38: Milestone is never set back. -/
theorem test_set_milestone :
    sees (.setMilestone pf (req 0xFFFF (le 8 999999999))) (inState .held) (fun t =>
      t.time.ms == 1000000000 && (t.fn 0).spStatus == 0x2016) = true ∧
    sees (.setMilestone pf (req 0xFFFF (le 8 5000000000))) (inState .held) (fun t =>
      t.time.ms == 5000000000 && (t.fn 0).spStatus == 0) = true := by decide +kernel

theorem witness_StartEntersRun : Accepted pf 0x0008 (req 0xFFFF []) (inState .held) ∧ (inState .held).canonical = true ∧
    (inState .held).fw.testPassed = true ∧ (inState .held).fw.bookCommitted = true ∧
    (inState .held).fw.bookAccepted = true ∧
    (∀ s ∈ [inState .awaitRoute, { inState .held with fw := { run.fw with testPassed := false } },
        { inState .held with fw := { run.fw with bookCommitted := false } },
        { inState .held with fw := { run.fw with bookAccepted := false } }],
      s.canonical = true ∧ Accepted pf 0x0008 (req 0xFFFF []) s) :=
  ⟨accepted (by decide +kernel), by decide +kernel, by decide +kernel, by decide +kernel, by decide +kernel, by
    intro s h
    have : (s.canonical && accepts pf 0x0008 (req 0xFFFF []) s) = true := by revert s h; decide +kernel
    rw [Bool.and_eq_true] at this
    exact ⟨this.1, accepted this.2⟩⟩

/-- 05 R106: START enters RUN; without an accepted book it is refused with 0x210A, without a book 0x2109. -/
theorem test_start :
    let s := inState .held
    sees (.start pf (req 0xFFFF [])) s (fun t => t.devState == .run && (t.fn 0).spStatus == 0) = true ∧
    sees (.start pf (req 0xFFFF [])) { s with fw := { s.fw with bookAccepted := false } }
      (fun t => t.devState == .held && (t.fn 0).spStatus == 0x210A) = true ∧
    sees (.start pf (req 0xFFFF [])) { s with fw := { s.fw with bookCommitted := false } }
      (fun t => t.devState == .held && (t.fn 0).spStatus == 0x2109) = true := by decide +kernel

/-- The device in FAULT for a cause. -/
def inFault (cause : BitVec 16) : State := let s := inState .fault; { s with fw := { s.fw with faultCause := cause } }

theorem witness_FaultAndResetCommands :
    (∀ x ∈ [(0x0009, req 0xFFFF [], inFault 0x8A01), (0x0009, req 0xFFFF [], inFault 0x8A0C),
      (0x0009, req 0xFFFF [], { inFault 0x8A07 with lostRails := [.vio33] }),
      (0x000A, req 0xFFFF (le 4 confirmWord ++ le 4 0), run), (0x000A, req 0xFFFF (le 8 0), run)],
      Accepted pf x.1 x.2.1 x.2.2) ∧
    (inFault 0x8A0C).faultPersists = false ∧ (inFault 0x8A0C).hiddenCause = false ∧ (inFault 0x8A04).hiddenCause = true ∧
    (inFault 0x8A04).faultPersists = false ∧ accepts pf 0x0009 (req 0xFFFF []) (inFault 0x8A04) = true ∧
    ({ inFault 0x8A07 with lostRails := [.vio33] }).faultPersists = true :=
  ⟨accepted_all (by decide +kernel), by decide +kernel⟩

theorem test_clear_fault :
    sees (.clearFault pf (req 0xFFFF [])) (inFault 0x8A01) (fun t => (t.fn 0).spStatus == 0x2018) = true ∧
    sees (.clearFault pf (req 0xFFFF [])) (inFault 0x8A0C) (fun t =>
      (t.fn 0).spState == .busy && t.devState == .fault) = true := by decide +kernel

def paceReq (ceiling floor target : Nat) : SpReq := req 0xFFFF (le 2 ceiling ++ le 2 floor ++ le 2 target ++ le 2 0)
def blockReq (blk : Nat) : SpReq := req 0xFFFF (le 2 blk ++ List.replicate 6 0)

/-- A ring of 64 entries above every share of LPDDR5. -/
def ringReq : SpReq := req 0xFFFF (le 8 0x1080000000 ++ le 4 64 ++ le 4 0)

/-- A request to remove the ring, and one whose base is not aligned. -/
def noRing : SpReq := req 0xFFFF (List.replicate 16 0)
def skewRing : SpReq := req 0xFFFF (le 8 0x1080000800 ++ le 4 64 ++ le 4 0)
/-- The island under a thermal fence at 101 °C; a loop on encoder 0; TE3 powered down. -/
def hotFence : State := { fenced (0x60 :: piBlocks) run with
  devState := .fenced, pace := { run.pace with thermalFence := true, tjHalf := 202 } }
def claimed : State := runs (contexts ++ [rec 0x30 [(8, 1, 0), (0xA, 1, 0), (0xC, 2, 4)]])
def downTe : State := (fenced [3] run).modFence 3 fun f => { f with poweredDown := true }

theorem witness_DeviceCommandsAct :
    (∀ x ∈ [(0x0101, paceReq 850 650 200, run), (0x0102, req 0xFFFF [], run), (0x0103, withAction 0 (blockReq 3), run),
      (0x0103, withAction 1 (blockReq 3), run), (0x0103, withAction 2 (blockReq 3), run),
      (0x0103, withAction 3 (blockReq 3), run), (0x0104, ringReq, run), (0x0104, noRing, run), (0x0104, skewRing, run),
      (0x0102, req 0xFFFF [], hotFence), (0x0103, withAction 1 (blockReq 0x28), run),
      (0x0103, withAction 0 (blockReq 0x30), claimed), (0x0103, withAction 2 (blockReq 3), downTe),
      (0x0202, req 0 (3 :: List.replicate 7 0), run), (0x0202, req 0 (List.replicate 8 0), run),
      (0x0202, req 0 (List.replicate 8 0), run.modQueue 0 0 fun x => { x with halted := true })],
      Accepted pf x.1 x.2.1 x.2.2) ∧
    (∀ o, o = 0 ∨ o = 2 → fieldAt (paceReq 850 650 200).payload o 2 % 5 = 0 ∧ 650 ≤ fieldAt (paceReq 850 650 200).payload o 2 ∧
      fieldAt (paceReq 850 650 200).payload o 2 ≤ 850) ∧
    run.piReset = false ∧ run.pace.thermalFence = false ∧ blockActions 3 = [0, 1, 2, 3] ∧ run.loopClaims 3 = false ∧
    (run.fenceOf 3).poweredDown = false ∧ run.isFenced 3 = false ∧ fieldAt ringReq.payload 0 8 % 4096 = 0 ∧
    ringSizeOk 64 = true ∧ run.ringPlaceOk 0 0x1080000000 1024 = true ∧ (run.queueInfo 0 0).isSome = true ∧
    run.isFenced 0x50 = false := by
  refine ⟨accepted_all (by decide +kernel), ?_, by decide +kernel⟩
  rintro o (rfl | rfl) <;> decide +kernel

theorem witness_DeviceCommandsAct_more :
    hotFence.pace.thermalFence = true ∧ 200 < hotFence.pace.tjHalf ∧ 1 ∉ blockActions 0x28 ∧ 0 ∈ blockActions 0x30 ∧
    claimed.loopClaims 0x30 = true ∧ (downTe.fenceOf 3).poweredDown = true ∧ downTe.canonical = true ∧
    downTe.isFenced 3 = true ∧ fieldAt noRing.payload 0 8 % 4096 = 0 ∧ fieldAt noRing.payload 8 4 = 0 ∧
    fieldAt skewRing.payload 0 8 % 4096 ≠ 0 ∧ run.queueInfo 0 3 = none := by
  and_intros <;> decide +kernel

/-- 02 R45: FLOOR above CEILING is refused with its field. -/
theorem test_pace_set :
    sees (.paceSet pf (paceReq 850 650 200)) run (fun t => t.pace.ceiling == 850 && t.pace.floor == 650) = true ∧
    sees (.paceSet pf (paceReq 700 705 200)) run (fun t => (t.fn 0).spStatus == 0x2006 && t.pace.floor == run.pace.floor) = true := by
  decide +kernel
theorem test_block_reset : sees (.blockReset pf (blockReq 3)) run (fun t => t.isFenced 3 && (t.fn 0).spStatus == 0 &&
    (t.fn 0).spRsp.bytes 8 1 == [1]) = true := by decide +kernel
theorem test_power_up_running : sees (.blockPowerUp pf (blockReq 3)) run (fun t => (t.fn 0).spStatus == 0x1001 && !t.isFenced 3) = true := by
  decide +kernel

def modeReqMsg (l m : Nat) : SpReq := req 0xFFFF (le 1 l ++ le 1 m ++ le 6 0)
def tableReq (l k flags first n : Nat) (d : List Byte) : SpReq := req 0xFFFF ([BitVec.ofNat 8 l, BitVec.ofNat 8 k, BitVec.ofNat 8 flags, 0] ++ le 2 first ++ le 2 n ++ d)

def partnerStopped : State :=
  { run with verge := { run.verge with partnerStop := true, twin := { run.verge.twin with up := true } } }
def latched : State := run.modAnn fun a => { a with state := 3 }
def searching : State := { run with ports := { run.ports with spur := { run.ports.spur with running := true } } }

/-- Loop 0 with two gain points, and commits of breaks that fall and that rise. -/
def gained : State := runs (contexts ++ [rec 0x30 [(8, 1, 0), (0xA, 1, 0xFF), (0xC, 2, 4), (0xE, 1, 2)]])
def falling : SpReq := tableReq 0 0 1 0 2 (le 8 (2 ^ 24) ++ le 8 0)
def rising : SpReq := tableReq 0 0 1 0 2 (le 8 0 ++ le 8 (2 ^ 24))

theorem witness_ControlCommandsAct :
    (∀ x ∈ [(0x0901, modeReqMsg 31 1, run), (0x0902, tableReq 31 0 0 63 1 (le 8 5), run),
      (0x0902, tableReq 31 0 0 63 1 (le 8 5), run.modLoop 31 fun y => { y with commitTbl := some (0, 0) }),
      (0x0902, tableReq 31 1 1 0 1 (le 4 5), run), (0x0902, falling, gained), (0x0902, rising, gained),
      (0x0901, modeReqMsg 32 0, run), (0x0901, modeReqMsg 0 2, run),
      (0x0A01, req 0xFFFF [], { run with verge := { run.verge with twin := { run.verge.twin with up := true } } }),
      (0x0C02, req 0xFFFF [], fenced [0x4C] run),
      (0x0A01, req 0xFFFF [], partnerStopped), (0x0A01, req 0xFFFF [], run), (0x0C01, req 0xFFFF [], latched),
      (0x0C01, req 0xFFFF [], run), (0x0C02, req 0xFFFF [], run), (0x0C02, req 0xFFFF [], searching)],
      Accepted pf x.1 x.2.1 x.2.2) ∧
    gained.breaksOk 0 ((gained.loop 0).shadow.put 0 0 2 ((fit 248 0 falling.payload).drop 8)) = false ∧
    gained.breaksOk 0 ((gained.loop 0).shadow.put 0 0 2 ((fit 248 0 rising.payload).drop 8)) = true ∧
    (byteAt falling.payload 2).testBit 0 = true ∧ 63 + 1 ≤ tableSize 0 ∧ (run.loop 31).commitTbl = none ∧ run.verge.twin.up = false ∧ run.ports.ann.state ≠ 3 ∧
    run.ports.spur.running = false ∧ run.isFenced 0x4C = false :=
  ⟨accepted_all (by decide +kernel), by decide +kernel⟩

/-- 06 R122: a table write with COMMIT takes effect at a sample instant at least 50 µs later. -/
theorem test_table_commit : sees (.loopTableWrite pf rising) gained (fun t =>
    (t.loop 0).commitTbl == some (0, 1000050000) && (t.fn 0).spStatus == 0) = true := by decide +kernel
/-- 06 R121: a mode change waits for a sample instant at least 50 µs later. -/
theorem test_loop_mode : sees (.loopMode pf (modeReqMsg 2 1)) run (fun t => (t.loop 2).modeReq == some (true, 0, 1000050000)) = true := by
  decide +kernel

/-- Everything in order: 0.75 V read back, no failing checker, and the STO feedback as driven (05 Table 5.7). -/
def goodObs : SelfTestObs := ⟨some 750, [], [], [], [], [], []⟩

/-- The bytes of a book with FORMAT 0, the given records and CRC (05 Tables 5.8, 5.9). -/
def rawBook (crc : Nat) (records : List (List Byte)) : List Byte :=
  le 4 0x42525A56 ++ le 4 0 ++ le 4 (72 + records.flatten.length) ++ le 4 records.length ++ le 8 0x42 ++ List.replicate 40 0
    ++ records.flatten ++ le 4 0 ++ le 4 crc

/-- The smallest book, DEVICE, PACE and SAFETY, for a given FLOOR; the CRCs were computed apart from the model. -/
def smallBook (floor crc : Nat) : List Byte :=
  rawBook crc [fit 40 0 (fields [(0, 2, 1), (4, 4, 40)]),
    fit 24 0 (fields [(0, 2, 3), (4, 4, 24), (8, 1, 2), (0xC, 2, floor), (0xE, 2, 800), (0x10, 2, 100)]),
    fit 272 0 (fields [(0, 2, 0xA0), (4, 4, 272), (8, 4, 1000)])]

def goodBook : List Byte := smallBook 650 0xb8a9330f
def badBook : List Byte := smallBook 805 0x81cda92f

/-- A number handed on as a numeral, for the kernel's sake. -/
def handOn (n : Nat) (k : Nat → Nat) : Nat :=
  match n with
  | 0 => k 0
  | m + 1 => k (m + 1)

theorem handOn_eq (n : Nat) (k : Nat → Nat) : handOn n k = k n := by cases n <;> rfl

def crcGo : List Byte → Nat → Nat
  | [], c => c
  | b :: r, c => handOn (crc32Byte c b) (crcGo r)

theorem crcGo_eq (l : List Byte) : ∀ c, crcGo l c = l.foldl crc32Byte c := by
  induction l with
  | nil => exact fun c => rfl
  | cons b r ih => exact fun c => (handOn_eq _ _).trans (ih _)

theorem stage3_of (d : List Byte) (h : crcGo (d.take (fieldAt d 8 4 - 4)) 0xFFFFFFFF ^^^ 0xFFFFFFFF = fieldAt d (fieldAt d 8 4 - 4) 4) :
    bookStage3 d = none := by
  rw [crcGo_eq] at h
  simp only [bookStage3, crc32, h, ne_eq, not_true_eq_false, if_false]

/-- A device in VALIDATE with a book. -/
def validating (d : List Byte) : State :=
  let s := inState .validate
  { s with fw := { s.fw with bookRaw := d, bookLen := d.length, book := [], bookAccepted := false } }

theorem witness_BringUpStagesEnd :
    run.mc.lost = false ∧ (inState .fwVerify).devState = .fwVerify ∧ (inState .selftest).devState = .selftest ∧
    ((inState .selftest).firstFail { goodObs with avsReadBack := some 734 }).isSome = true ∧
    (inState .selftest).firstFail goodObs = none ∧
    (validating goodBook).devState = .validate ∧
    (let s := (inState .fault).modFn 0 fun x => { x with spState := .busy, spOwed := some 9 }
     s.devState = .fault ∧ (s.fn 0).spOwed = some 0x0009#16) ∧
    (inState .fault).retestFail goodObs = none ∧
    ((inState .fault).retestFail { goodObs with lockstepFlags := [true, false] }).isSome = true := by decide +kernel

/-- 05 Table 5.5: 735 mV passes, 734 mV fails item 1 with status 0x8021. -/
theorem test_selftest :
    sees (.selftestEnd { goodObs with avsReadBack := some 735 }) (inState .selftest) (fun t => t.devState == .awaitRoute) = true ∧
    sees (.selftestEnd { goodObs with avsReadBack := some 734 }) (inState .selftest) (fun t =>
      t.devState == .held && t.fw.report.status == 0x8021 && t.fw.report.stage == 0x10) = true := by decide +kernel
/-- 05 R97, R105: row 75 of Sward bank 3 must read as uncorrectable; the report names bank and row. -/
theorem test_selftest_row : ((inState .selftest).firstFail { goodObs with swardReads := [⟨3, 75, .corrected 0 0⟩] }).map
    (fun e => (e.status, e.resClass, e.resIndex, e.detail)) = some (0x8023, 3, 3, 75) := by decide +kernel
/-- 05 R399: the second sample of step 4 shows A high, with channel A named. -/
theorem test_sto_channel : ((inState .fault).retestFail { goodObs with stoSamples :=
      [(false, false), (false, false), (true, false), (true, false), (false, false), (false, false), (false, true), (true, true)] }).map
    (fun e => (e.status, e.resIndex, e.detail)) = some (0x8027, 0, 4) := by decide +kernel

/-- What the later stages say of a book that passes stages 1 to 4. -/
def laterStages (s : State) : Option Report :=
  let rs := (bookStage2 s.fw.bookLen s.fw.bookRaw).2
  [bookStage5 s.usable rs, bookStage6 rs, bookStage7 rs, bookStage8 rs s.usable rs [], bookStage9 rs s.usable].findSome? id

theorem judge_of (s : State) (r : Option Report) (h3 : bookStage3 s.fw.bookRaw = none)
    (h1 : [bookStage1 s.fw.rbFormat.toNat s.fw.bookRaw, (bookStage2 s.fw.bookLen s.fw.bookRaw).1].findSome? id = none)
    (h4 : bookStage4 s.fw.bookRaw (bookStage2 s.fw.bookLen s.fw.bookRaw).2 = none) (h5 : laterStages s = r) :
    s.judgeBook none = match r with
      | some e => .error e
      | none => .ok (bookStage2 s.fw.bookLen s.fw.bookRaw).2 := by
  simp only [laterStages] at h5
  simp only [State.judgeBook, validateBook, h1, h3, h4, h5]
  cases r <;> rfl

/-- 02 R45, 05 R392: a book whose FLOOR lies above its CEILING is refused at stage 5, at PACE's offset and FLOOR's field. -/
theorem test_book_refused : (validating badBook).judgeBook none =
    .error { status := 0x2105, stage := 5, offset := 64 + 40, recType := 3, field := 0xC } :=
  judge_of _ (some { status := 0x2105, stage := 5, offset := 64 + 40, recType := 3, field := 0xC })
    (stage3_of _ (by decide +kernel)) (by decide +kernel) (by decide +kernel) (by decide +kernel)

/-- The same book with a good FLOOR is accepted, with its three records. -/
theorem witness_BringUpStagesEnd_accepted :
    (validating goodBook).judgeBook none = .ok (bookStage2 (validating goodBook).fw.bookLen goodBook).2 ∧
    (bookStage2 (validating goodBook).fw.bookLen goodBook).2.length = 3 :=
  ⟨judge_of (validating goodBook) none (stage3_of _ (by decide +kernel)) (by decide +kernel) (by decide +kernel)
    (by decide +kernel), by decide +kernel⟩

theorem witness_DoorbellHasOneHostPort :
    run.devState ≠ .off ∧ (1#32).toNat % 2 = 1 ∧
    ({ run with link := { run.link with hostPort := some .pcie } }).link.hostPort = some .pcie ∧
    ({ run with link := { run.link with hostPort := some .qspi } }).link.hostPort = some .qspi ∧
    ((vf1.modFn 1 fun x => { x with spState := .busy }).fn (1 : Fin 16)).spState = .busy ∧ MayRing pf run := by
  unfold MayRing; decide +kernel

/-- PF0 with a ring of 64 entries in LPDDR5 and an event posted; `lost` events are lost since the last record. -/
def ringed (tail head : Nat) : State := run.modFn 0 fun x =>
  { x with evSet := true, evBase := 0x1080000000, evEntries := 64, evTail := tail, evHead := head, evPhase := true,
           posted := [{ code := 1, payload := 2, stamp := 3 }] }

theorem witness_EventsReachRings :
    0 ∈ run.receivers 0x0302 none ∧ run.holdCount = 0 ∧ (ringed 0 0).held 0 = false ∧
    ((ringed 0 0).fn 0).posted = [{ code := 1, payload := 2, stamp := 3 }] ∧
    ((ringed 0 0).fn 0).ringFull = false ∧ ((ringed 63 0).fn 0).ringFull = true ∧ ((ringed 0 0).fn 0).evLostSince = 0 ∧
    run.held 0 = true ∧ (5#32).toNat < ((ringed 5 0).fn 0).evEntries ∧
    (5 + 64 - ((ringed 5 0).fn 0).evHead) % 64 ≤ (((ringed 5 0).fn 0).evTail + 64 - ((ringed 5 0).fn 0).evHead) % 64 ∧
    (((ringed 5 0).fn 0).evTail + 64 - ((ringed 5 0).fn 0).evHead) % 64 < (6 + 64 - ((ringed 5 0).fn 0).evHead) % 64 := by
  decide +kernel

/-- 06 Table 6.13: a record of 16 bytes with the phase bit goes to the ring's entry, and TAIL moves past it. -/
theorem test_event_write : sees (.eventWrite 0) (ringed 63 1) (fun t => (t.fn 0).evTail == 0 && (t.fn 0).posted == [] &&
    t.mem.lpddr.cells.bytes (0x80000000 + 63 * 16) 2 == [1, 0]) = true := by decide +kernel

/-! ### Queues, the Scheduler and memory -/

/-- The running device with `n` entries submitted to queue 0 of context 0, and the given bytes in its ring. -/
def ring (n : Nat) (bytes : List Byte) : State :=
  let s := run.modQueue 0 0 fun x => { x with sqTail := BitVec.ofNat 16 n }
  { s with mem := { s.mem with lpddr := { s.mem.lpddr with cells := Map.store [] 0 bytes } } }

/-- The entry of a waybill: opcode, class with MODE in bit 3 of byte 5, and further fields. -/
def entry (op cls mode : Nat) (more : List (Nat × Nat × Nat)) : List Byte :=
  fit 64 0 (fields ([(2, 1, bits mode 7 0), (5, 1, cls * 16 + bits mode 15 8), (6, 2, op)] ++ more))

theorem witness_DoorbellWritesTakenWhole :
    Map.wf QueueSt.init run.queues = true ∧ run.liveQueue 1 0 0 = none ∧ (run.liveQueue 0 0 0).isSome = true ∧
    run.active = true ∧ (inState .held).active = false ∧ ((inState .held).liveQueue 0 0 0).isSome = true := by decide +kernel

/-- 07 R140: depth 8. Eight entries are taken, nine are refused with 0x2202. -/
theorem test_sq_tail :
    sees (.sqTailWrite 0 0 0 8) run (fun t => (t.queue 0 0).sqTail == 8 && (t.queue 0 0).dbStatus == 0) = true ∧
    sees (.sqTailWrite 0 0 0 9) run (fun t => (t.queue 0 0).sqTail == 0 && (t.queue 0 0).dbStatus == 0x2202 &&
      (t.queue 0 0).dbValue == 9) = true := by decide +kernel
/-- 07 R141: CQ_HEAD does not pass the completion tail. -/
theorem test_cq_head : sees (.cqHeadWrite 0 0 0 1) run (fun t => (t.queue 0 0).cqHead == 0 && (t.queue 0 0).dbStatus == 0x2205) = true := by
  decide +kernel

/-- Context 0 and its queue. -/
def ctx0 : CtxInfo := ctxOfRec (contexts.getD 1 (rec 0 []))
def queue0 : QueueInfo := queueOfRec (contexts.getD 3 (rec 0 []))

/-- An ANCHOR and a SEAL in DIRECT mode, of which the second has an unknown opcode. -/
def brokenSchedule : List Byte := entry 0 0 0x0801 [] ++ entry 0x777 0 0x0802 []

theorem witness_FetchTakesOneUnit :
    run.ctx 0 = some ctx0 ∧ run.queueInfo 0 0 = some queue0 ∧
    (let u := ring 1 (entry 0 0 0 [])
     u.active = true ∧ (u.queue 0 0).halted = false ∧ u.ringReadable queue0 = true ∧
     u.nextUnit queue0 0 1 = some ⟨[false], false⟩ ∧ u.room [(u.peekEntry queue0 0).1.wclass] = true ∧
     (u.fetchOne ctx0 queue0 false).2.1 = none ∧
     ({ u with sched := { u.sched with flight := List.replicate 64 (waybill none 0x101 0 []) } }).room [0] = false) ∧
    ((ring 1 (entry 0x777 0 0 [])).fetchOne ctx0 queue0 false).2.1 = some (0x2401, 0) ∧
    (let u := ring 2 brokenSchedule
     u.nextUnit queue0 0 2 = some ⟨[false, false], true⟩ ∧
     u.room ((List.range 2).map fun j => (u.peekEntry queue0 j).1.wclass) = true ∧
     (u.fetchAll ctx0 queue0 [false, false]).1.any (fun p => p.2.isSome) = true) := by decide +kernel

/-- 09 Table 9.10: a NOP joins the Scoreboard; an unknown opcode is refused with 0x2401 in its completion record. -/
theorem test_fetch :
    sees (.waybillFetch 0 0 []) (ring 1 (entry 0 0 0 [])) (fun t => t.sched.flight.length == 1 && (t.queue 0 0).fetched == 1) = true ∧
    sees (.waybillFetch 0 0 []) (ring 1 (entry 0x777 0 0 [])) (fun t => t.sched.flight.length == 0 &&
      (t.queue 0 0).fetched == 1 && (t.queue 0 0).cqTail == 1) = true := by decide +kernel

/-- A ready waybill of queue 0 for a TE, with TE0 to TE2 FENCED. -/
def readyTe : State := fenced [0, 1, 2] (flying (waybill none 0x101 0 []) { run with sched := { run.sched with credits := [(0, 1)] } })

theorem witness_DispatchStartsReadyWork :
    (inState .held).active = false ∧ (fenced [3] run).stationFenced 3 = true ∧
    (∃ w ∈ (flying (waybill (some 3) 0x101 0 []) run).sched.flight, w.engine = some 3) ∧
    readyTe.active = true ∧ readyTe.stationFenced 3 = false ∧ (∀ w ∈ readyTe.sched.flight, w.engine ≠ some 3) ∧
    (∀ d < 3, readyTe.stationFenced d = true) ∧ (∃ d < 3, classOf d = classOf 3 ∧ run.stationFenced d = false) ∧
    readyTe.urgent 0 = none ∧ (readyTe.arbitrate 0).isSome = true ∧ ((flying directTe run).urgent 0).isSome = true ∧
    run.urgent 0 = none ∧ (run.arbitrate 0).isNone = true := by
  decide +kernel

theorem test_dispatch : sees (.engineDispatch 3) readyTe (fun t => (t.sched.flight.map fun w => (w.engine, w.started)) ==
    [(some 3, 1000000000)] && t.sched.pointers == [(0, 1)]) = true := by decide +kernel

theorem witness_MemoryIsCorrectedAndZeroed :
    (∀ m ∈ [Mem.lp, .tag, .pic], let s := (run.setMark m 2 .corr).setMark m 3 .ue
     Map.wf Ecc.clean (s.space m).marks = true ∧ (s.space m).hard.get 0 2 ≤ 1 ∧
     (s.space m).marks.get Ecc.clean 2 = .corr ∧ (s.space m).marks.get Ecc.clean 3 = .ue) ∧ run.held 0 = true ∧
    (ringed 0 0).held 0 = false ∧
    (let s := (run.setMark .sw 2 .corr).setMark .sw 3 .ue
     Map.wf Ecc.clean (s.space .sw).marks = true ∧ (s.space .sw).hard.get 0 2 ≤ 1 ∧
     (s.space .sw).marks.get Ecc.clean 2 = .corr ∧ (s.space .sw).marks.get Ecc.clean 3 = .ue ∧
     (s.space .sw).marks.get Ecc.clean 4 = .clean) ∧
    (let s := { run with mem := { run.mem with pendGran := [0, 5] } }
     s.canonical = true ∧ s.mem.pendGran = 0 :: [5]) ∧
    run.mem.lpddr.hard = [] ∧ (∃ b, b < 0x58 ∧ 0x54 ≤ b ∧ (fenced [0x55] run).isFenced b = true) ∧
    (∀ b, b < 0x58 → 0x54 ≤ b → run.isFenced b = false) ∧ run.fw.scrubbing = true ∧ State.reset.fw.scrubbing = false ∧ run.isFenced 0x60 = false ∧
    run.isFenced (0x58 + run.mem.scrubSw / 2 ^ 18) = false ∧ run.markedIn .sw (run.mem.scrubSw * 64) 64 = [] ∧
    run.mem.tag.marks.get Ecc.clean (run.mem.scrubSw / 8) = .clean ∧ run.markedIn .lp (run.mem.scrubLp * 64) 64 = [] ∧
    run.mem.pendGran = [] ∧ 3 ≤ run.devState.code := by
  decide +kernel

/-- 08 R163, R165: the device counts, and the poison syndrome after an uncorrectable word. -/
theorem test_read_words :
    let s := (run.setMark .sw 2 .corr).setMark .sw 3 .ue
    ((s.readWord .sw (some 0) 2).2.mem.swCorr = 1 ∧ (s.readWord .sw (some 0) 2).2.counter 0 22 = 1) ∧
    (s.readWord .sw (some 0) 3).2.mem.sward.marks = [(2, .corr), (3, .poison)] := by decide +kernel
/-- 08 R160: only the granule's bytes are zeroed, and MEM_ZERO_DONE follows the last. -/
theorem test_zeroing :
    let s := { run with mem := { run.mem with
      lpddr := { run.mem.lpddr with cells := [(granule - 1, 1), (granule, 2), (2 * granule, 3)] }, pendGran := [1], zeroOwed := true } }
    sees .backgroundZeroing s (fun t => t.mem.lpddr.cells == [(granule - 1, 1), (2 * granule, 3)] && t.mem.pendGran == [] &&
      ((t.fn 0).posted.map fun e => e.code) == [0x0301]) = true := by decide +kernel

/-! ### Engines -/

/-- A tensor of context 0 in Sward: base, format, dimensions, strides. -/
def tensor (base format : Nat) (dims strides : List Nat) : Desc :=
  { base := base, format := format, rank := dims.length, dims := fit 4 0 dims, strides := fit 3 0 strides }

/-- A waybill in HANDLE mode that runs on station `e`: opcode, class, its tensors under handles 1, 2 and 3 in slots 0, 1
and 2, and fields of PARAM. -/
def job (e op cls : Nat) (ts : List Desc) (more : List (Nat × Nat × Nat)) : Waybill :=
  { waybill (some e) op cls ([(16, 1, 1), (28, 1, 2), (40, 1, 3)] ++ more) with
    descs := (ts.zipIdx 1).map fun p => (p.2, p.1) }

/-- The running device with bytes of context 0 in Sward and one running waybill. -/
def engine (bytes : List (Nat × List Byte)) (w : Waybill) : State :=
  flying w { run with mem := { run.mem with sward := { run.mem.sward with
    cells := bytes.foldl (fun (m : Map Byte) p => m.store p.1 p.2) [] } } }

/-- A 2 × 3 by 3 × 2 product of INT8 codes into INT32: rows (1, 2, 3) and (-1, 0, 1) by columns (4, 5, 6) and (1, 1, -128). -/
def matmulJob : Waybill := job 3 0x101 0
  [tensor 0 1 [3, 2] [3], tensor 0x100 1 [3, 2] [3], tensor 0x200 4 [2, 2] [8]] []
def matmulRun : State := engine [(0, [1, 2, 3, 255, 0, 1]), (0x100, [4, 5, 6, 1, 1, 128])] matmulJob

/-- A 1 × 1 convolution of one channel of two samples by 2. -/
def convJob : Waybill := job 3 0x102 0
  [tensor 0 1 [2, 1, 1, 1] [2, 2, 2], tensor 0x100 1 [1, 1, 1, 1] [1, 1, 1], tensor 0x200 4 [2, 1, 1, 1] [8, 8, 8]]
  [(52, 1, 1), (53, 1, 1), (58, 2, 1)]
def convRun : State := engine [(0, [3, 253]), (0x100, [2])] convJob

theorem witness_TensorEnginesRun :
    Runs 3 0 0x101 matmulJob ctx0 matmulRun ∧ (matmulRun.matmulPlan ctx0 matmulJob).1.covered = true ∧
    (ctx0.isChecked && matmulJob.direct) = false ∧ (matmulRun.matmulPlan ctx0 matmulJob).2.1.length = 2 ∧
    Runs 3 0 0x102 convJob ctx0 convRun ∧ (convRun.convPlan ctx0 convJob).1.covered = true := by
  unfold Runs; decide +kernel

/-- A bad group in the two steps of the product, and one after them. -/
theorem test_matmul :
    sees (.matmul 3 []) matmulRun (fun t => t.mem.sward.cells.bytes 0x200 16 ==
      le 4 32 ++ le 4 (2 ^ 32 - 381) ++ le 4 2 ++ le 4 (2 ^ 32 - 129) && t.sched.flight == [] && t.counter 0 12 == 2) = true ∧
    sees (.matmul 3 [⟨0, true⟩]) matmulRun (fun t => t.isFenced 3) = true ∧
    sees (.matmul 3 [⟨1, true⟩]) matmulRun (fun t => !t.isFenced 3) = true := by decide +kernel

theorem test_conv2d : sees (.conv2d 3 []) convRun (fun t => t.mem.sward.cells.bytes 0x200 8 == le 4 6 ++ le 4 (2 ^ 32 - 6)) = true := by
  decide +kernel

/-- Rows of one INT8 element each. -/
def veJob (op : Nat) : Waybill := job 8 op 1 [tensor 0 1 [2] [], tensor 0x200 1 [2] [], tensor 0x100 1 [2] []] [(52, 1, 1), (53, 1, 1)]
def veRun (op : Nat) : State := engine [(0, [100, 156]), (0x100, [100, 5])] (veJob op)

theorem witness_VectorEnginesRun :
    ∀ op ∈ [0x201, 0x202, 0x203, 0x204, 0x205, 0x210, 0x220, 0x221, 0x222, 0x230, 0x231, 0x240, 0x260, 0x250, 0x251],
      Runs 8 1 op (veJob op) ctx0 (veRun op) ∧ (ctx0.isChecked && (veJob op).direct) = false := by
  unfold Runs; decide +kernel

/-- 11 R231: INT8 sums saturate: 100 + 100 gives 127, -100 + 5 gives -95; MIN and MAX choose. -/
theorem test_add : sees (.add 8) (veRun 0x201) (fun t => t.mem.sward.cells.bytes 0x200 2 == [127, 161] && t.counter 0 13 == 1) = true := by
  decide +kernel
theorem test_sub : sees (.sub 8) (veRun 0x202) (fun t => t.mem.sward.cells.bytes 0x200 2 == [0, 151]) = true := by decide +kernel
theorem test_mul : sees (.mul 8) (veRun 0x203) (fun t => t.mem.sward.cells.bytes 0x200 2 == [127, 128]) = true := by decide +kernel
theorem test_max : sees (.max 8) (veRun 0x204) (fun t => t.mem.sward.cells.bytes 0x200 2 == [100, 5]) = true := by decide +kernel
theorem test_min : sees (.min 8) (veRun 0x205) (fun t => t.mem.sward.cells.bytes 0x200 2 == [100, 156]) = true := by decide +kernel

theorem witness_IntegerResultsAreExact :
    let w := veJob 0x201
    let s := veRun 0x201
    isIntFmt (s.operand ctx0 w 0).fmt = true ∧ (s.operand ctx0 w 0).qmode = 0 ∧ isIntFmt (s.operand ctx0 w 2).fmt = true ∧
    (s.operand ctx0 w 2).qmode = 0 ∧ isIntFmt (s.operand ctx0 w 1).fmt = true ∧ (s.operand ctx0 w 1).qmode = 0 ∧
    1 < (s.operand ctx0 w 0).dim 0 := by decide +kernel

/-- Two rows of codes with their true sums, for the second half of the statement. -/
theorem witness_IntegerResultsAreExact_zp :
    isIntFmt 1 = true ∧ [1, 255].length = [3, 4].length ∧ (0 : Int) = ([1, 255].map (codeInt 1)).foldl (· + ·) 0 ∧
    (7 : Int) = ([3, 4].map (codeInt 1)).foldl (· + ·) 0 := by decide +kernel

/-- A commit of two bytes at Sward address 0 into slot 63 with STAMP 9. -/
def commitJob : Waybill := job 8 1 1 [tensor 0 1 [2] []] [(52, 8, 9), (60, 1, 63), (61, 1, 2)]
def commitRun (mark : Ecc) : State := (engine [(0, [0xAA, 0xBB])] commitJob).setMark .sw 0 mark
/-- The same with the payload in LPDDR5. -/
def commitLp : Waybill := { commitJob with descs := [(1, tensor 0x1000000000 1 [2] [])] }

theorem witness_WaymarkCommitsAreWhole :
    Runs 8 (classOf 8) 1 commitJob ctx0 (commitRun .clean) ∧ (commitRun .clean).mem.pendGran = [] ∧
    Map.wf WmSlot.init (commitRun .clean).waymarks = true ∧ ((commitRun .clean).operand ctx0 commitJob 0).mem = .sward ∧
    (commitRun .clean).mem.sward.marks = [] ∧ (ctx0.isChecked && commitJob.direct) = false ∧
    ((commitRun .clean).waymark 63).activeHalf.stamp < 9 ∧ Memory.wf ((commitRun .clean).waymark 63).idleHalf.payload = true ∧
    Runs 8 (classOf 8) 1 commitJob ctx0 (commitRun .poison) ∧ Map.wf Ecc.clean (commitRun .poison).mem.sward.marks = true ∧
    (commitRun .poison).mem.sward.marks.get Ecc.clean 0 = .poison ∧
    Runs 8 (classOf 8) 1 commitLp ctx0 (engine [] commitLp) ∧ ((engine [] commitLp).operand ctx0 commitLp 0).mem = .lpddr ∧
    ((engine [] commitLp).space .lp).marks = [] := by
  unfold Runs; decide +kernel

/-- A slot whose active half has STAMP 9 already, for the commit that is discarded. -/
theorem test_waymark :
    (let t := after (.waymarkCommit 8) (commitRun .clean)
     (t.waymark 63).activeHalf.seq = 1 ∧ (t.waymark 63).activeHalf.stamp = 9 ∧
     (t.waymark 63).activeHalf.payload.bytes 0 2 = [0xAA, 0xBB] ∧
     sees (.waymarkCommit 8) { commitRun .clean with waymarks := t.waymarks }
       (fun u => (u.waymark 63).stale == 1 && (u.waymark 63).activeHalf.seq == 1) = true) ∧
    sees (.waymarkCommit 8) (commitRun .poison) (fun t => t.waymarks == []) = true := by decide +kernel

/-- A plan that wants 16 MiB of Sward, and its RESULT in Sward. -/
def planJob : Waybill := waybill (some 14) 2 3 [(20, 4, 0x1000000), (40, 8, 0x300)]
def copyJob : Waybill := job 14 0x401 3 [tensor 0 1 [4] [], tensor 0x200 1 [4] []] []
def fillJob : Waybill := job 14 0x402 3 [tensor 0 1 [4] [], tensor 0x200 1 [4] []] [(52, 8, 0xBBAA)]
def xeRun (w : Waybill) : State := engine [(0, [1, 2, 3, 4])] w

theorem witness_TransferEnginesRun :
    Runs 3 (classOf 3) 0 (waybill (some 3) 0 0 []) ctx0 (engine [] (waybill (some 3) 0 0 [])) ∧
    Runs 14 3 2 planJob ctx0 (xeRun planJob) ∧ (xeRun planJob).canonical = true ∧
    ((xeRun planJob).locate ctx0 planJob.result).1 ≠ .none ∧
    Runs 14 3 0x401 copyJob ctx0 (xeRun copyJob) ∧ (xeRun copyJob).canonical = true ∧ (xeRun copyJob).mem.pendGran = [] ∧
    ((xeRun copyJob).operand ctx0 copyJob 1).mem ≠ .none ∧ Runs 14 3 0x402 fillJob ctx0 (xeRun fillJob) ∧
    (xeRun fillJob).mem.sward.hard = [] := by
  unfold Runs; decide +kernel

theorem test_copy : sees (.copy 14 []) (xeRun copyJob) (fun t => t.mem.sward.cells.bytes 0x1FF 6 == [0, 1, 2, 3, 4, 0]) = true := by
  decide +kernel
theorem test_fill : sees (.fill 14) (xeRun fillJob) (fun t => t.mem.sward.cells.bytes 0x1FF 6 == [0, 0xAA, 0xAA, 0xAA, 0xAA, 0]) = true := by
  decide +kernel
/-- 08 Table 8.8: 16 MiB against a share of 1 MiB misses 15 MiB, with status 0x2302. -/
theorem test_plan_admit : sees (.planAdmit 14) (xeRun planJob) (fun t =>
    t.mem.sward.cells.bytes 0x300 16 == le 8 0xF00000 ++ le 8 0 && (t.queue 0 0).cqTail == 1 && t.sched.flight == []) = true := by decide +kernel

/-- A pool of context 0 with 8 blocks, 2 per sequence; sequence 0 holds 70 tokens in blocks 4 and 5. -/
def pool0 : Pool :=
  let p := { Pool.init with key := poolKey ctx0, ready := true, base := lpBase, nBlocks := 8, dl := 4, maxb := 2, layers := 1 }
  { p with seqs := 2, bytes := granule, blk := [(4, { used := true, refs := 1 }), (5, { used := true, refs := 1 })],
           seq := [(0, ⟨[4, 5], 70⟩)] }

def aeRun (w : Waybill) (ps : List Pool) : State := { engine [] w with pools := ps }
def aeJob (op n : Nat) (tokens : Nat) : Waybill := job 12 op 2 [tensor 0 4 [4] [], tensor 0x100 4 [tokens] [], tensor 0x200 4 [4] []] [(52, 1, n)]

theorem witness_AttentionEnginesRun :
    (∀ op ∈ [0x301, 0x302, 0x303, 0x304, 0x305], Runs 12 2 op (aeJob op 0 4) ctx0 (aeRun (aeJob op 0 4) []) ∧
      (aeRun (aeJob op 0 4) []).poolOf 0 = none ∧ Runs 12 2 op (aeJob op 0 4) ctx0 (aeRun (aeJob op 0 4) [pool0]) ∧
      (aeRun (aeJob op 0 4) [pool0]).poolOf 0 = some pool0) ∧
    Map.wf PoolBlock.init pool0.blk = true ∧ Map.wf PoolSeq.init pool0.seq = true ∧ (pool0.seqOf 0 0).blocks.Nodup := by
  unfold Runs; decide +kernel

/-- The clauses of KV_APPEND: 128 tokens fill the sequence, 129 do not fit; a full pool has no block to give. -/
theorem witness_AttentionEnginesRun_append :
    let n := fun k => ((aeRun (aeJob 0x304 0 k) [pool0]).operand ctx0 (aeJob 0x304 0 k) 1).dim 0
    n 58 = 58 ∧ (pool0.seqOf 0 0).tokens + 58 ≤ 64 * pool0.maxb ∧ 64 * pool0.maxb < (pool0.seqOf 0 0).tokens + 59 ∧
    (pool0.takeBlocks 0).isSome = true ∧ (pool0.takeBlocks 7) = none ∧ (pool0.seqOf 0 0).tokens % 64 ≠ 0 := by decide +kernel

/-- 12 R248: the two blocks go back, in two steps. -/
theorem test_seq_reset : sees (.seqReset 12) (aeRun (aeJob 0x302 0 4) [pool0]) (fun t =>
    (t.pools.map fun p => (p.blk, p.seq)) == [([], [])] && t.counter 0 14 == 2) = true := by decide +kernel
theorem test_pool_init : sees (.poolInit 12) (aeRun (aeJob 0x301 0 4) [{ pool0 with ready := false }]) (fun t =>
    (t.pools.map fun p => (p.ready, p.seq)) == [(true, [])]) = true := by decide +kernel

/-! ### The Intake Engine -/

/-- An IE waybill with an inline layout on stream or dictionary 2, LEN `n`, FLAGS, and further bytes. -/
def ieJob (op n flags : Nat) (more : List (Nat × Nat × Nat)) : Waybill :=
  waybill (some 18) op 4 ([(16, 1, 2), (17, 1, n), (18, 1, flags)] ++ more)
/-- An IE waybill with operands, on stream 2 and dictionary 2. -/
def ieOp (op flags : Nat) : Waybill :=
  job 18 op 4 [tensor 0 4 [8] [], tensor 0x200 4 [8] [], tensor 0x300 4 [8] []] [(52, 1, 2), (53, 1, 2), (54, 1, flags)]

/-- A video stream fed by the host (kind 1) and a text stream (kind 3). -/
def video : Stream := { Stream.init with kind := 1, outQ := 1, maxW := 16, maxH := 16 }
def text : Stream := { Stream.init with kind := 3, rowLen := 8 }
/-- A dictionary of two records, sealed or not. -/
def dict2 (isSealed : Bool) : Dict := { Dict.init with entries := [([0x61], 5), ([0x62], 6)], isSealed := isSealed }

def ieRun (w : Waybill) (x : Option Stream) (d : Option Dict) : State :=
  let s := engine [] w
  { s with intake := { streams := Map.set none [] 2 x, dicts := Map.set none [] 2 d } }

/-- A picture of 2 × 2 luma samples, put into the store of a stream that a DECODE then reads: OP1 takes the luma plane. -/
def decodeJob : Waybill := job 18 0x505 4 [tensor 0 4 [8] [], tensor 0x200 1 [2, 2] [2], tensor 0x300 1 [40] []] [(52, 1, 2)]
def stored (x : Stream) : State :=
  let (p, s) := (ieRun decodeJob none none).storePicture 2 x { Picture.init with width := 2, height := 2, ordinal := 1 } [[1, 2, 3, 4], [8], [9]]
  s.setStream 0 2 (some ({ x with pics := [p] }).begin)
def decoder : Stream := { video with reserve := 64, fillY := 16, fill := true }

/-- Every inline operator and every operator with operands, with a stream and without one. -/
theorem witness_StreamOperatorsAct :
    (∀ op ∈ [0x501, 0x502, 0x503, 0x504], Runs 18 4 op (ieJob op 1 0 []) ctx0 (ieRun (ieJob op 1 0 []) (some video) none) ∧
      Map.wf none (ieRun (ieJob op 1 0 []) (some video) none).intake.streams = true ∧
      (ieRun (ieJob op 1 0 []) none none).stream 0 2 = none ∧
      (ieRun (ieJob op 1 0 []) (some video) none).stream 0 2 = some video) ∧
    (∀ op ∈ [0x505, 0x508, 0x509, 0x50A], Runs 18 4 op (ieOp op 0) ctx0 (ieRun (ieOp op 0) (some video) none)) ∧
    (let w := ieJob 0x501 1 0 []
     let s := ieRun w none none
     w.wclass = 4 ∧ w.opcode = 0x501 ∧ s.intake.streams = [] ∧ s.sourceFree w.ctx 1 0 = true ∧ s.reserveFor w ≤ 50331648 ∧
     (ieRun w (some video) none).openLacks w = true) ∧
    (ieOp 0x505 0).wclass = 4 ∧ (ieOp 0x505 0).opcode = 0x505 ∧ video.taking = none ∧ video.latest = false ∧ text.kind = 3 ∧
    (∀ k, some Taking.init = some k → k.skip = 0 ∧ k.pic = none) ∧
    video.buffered + 1 ≤ video.capacity ∧ video.openUnit.length + 1 ≤ video.unitLimit ∧ video.kind = 1 ∧
    video.skipReason = 0 ∧ video.pics = [] := by
  unfold Runs
  refine ⟨by decide +kernel, by decide +kernel, by decide +kernel, rfl, rfl, rfl, rfl, rfl, ?_, by decide +kernel⟩
  rintro k ⟨⟩
  exact ⟨rfl, rfl⟩

/-- A full buffer, and a unit beyond its limit in a buffer that has room. -/
theorem feed_bounds (big half : List Byte) (hb : big.length = 4194304) (hh : half.length = 2097152) :
    ∃ filled long : Stream, filled.kind = 1 ∧ filled.capacity < filled.buffered + 1 ∧ long.kind = 1 ∧
    long.buffered + 1 ≤ long.capacity ∧ long.unitLimit < long.openUnit.length + 1 :=
  ⟨{ video with units := [(big, 0, false)] }, { video with openUnit := half }, by
    simp [Stream.capacity, Stream.buffered, Stream.unitLimit, video, Stream.init, hb, hh]⟩
/-- The clauses of FEED that refuse have states: the buffers of `feed_bounds`. -/
theorem witness_StreamOperatorsAct_feed :
    ∃ filled long : Stream, filled.kind = 1 ∧ filled.capacity < filled.buffered + 1 ∧ long.kind = 1 ∧
    long.buffered + 1 ≤ long.capacity ∧ long.unitLimit < long.openUnit.length + 1 :=
  feed_bounds (List.replicate 4194304 0) (List.replicate 2097152 0) List.length_replicate List.length_replicate

/-- 13 R272: the bytes of a FEED join the open unit; END hands it on. -/
theorem test_feed :
    sees (.feed 18) (ieRun (ieJob 0x503 2 0 [(20, 2, 0x2211)]) (some video) none) (fun t =>
      (t.stream 0 2).any fun y => y.openUnit == [0x11, 0x22] && y.units == []) = true ∧
    sees (.feed 18) (ieRun (ieJob 0x503 2 1 [(20, 2, 0x2211)]) (some video) none) (fun t =>
      (t.stream 0 2).any fun y => y.openUnit == [] && (y.units.map (·.1)) == [[0x11, 0x22]]) = true := by decide +kernel
/-- 13 R262: a STREAM_OPEN opens its stream when it starts; a second one of the number finds it taken. -/
theorem test_stream_open_close :
    (let w := ieJob 0x501 1 0 []
     ((ieRun w none none).ieTake w).1 = 0 ∧ ((ieRun w none none).ieTake w).2.stream 0 2 ≠ none ∧
     ((ieRun w (some video) none).ieTake w).1 = 0x4702) ∧
    sees (.streamClose 18) (ieRun (ieJob 0x502 1 0 []) (some video) none) (fun t => t.stream 0 2 == none) = true := by
  decide +kernel
/-- 13 R269, R270: the picture taken at the start is delivered; one whose store word is uncorrectable is replaced by a
filled one. -/
theorem test_decode :
    sees (.decode 18) (stored decoder) (fun t => t.mem.sward.cells.bytes 0x200 4 == [1, 2, 3, 4] &&
      (t.stream 0 2).any fun y => y.taking == none && y.lastGood.isSome) = true ∧
    sees (.decode 18) ((stored decoder).upset 2 ⟨0, true⟩) (fun t => t.mem.sward.cells.bytes 0x200 4 == [16, 16, 16, 16] &&
      t.mem.sward.cells.bytes 0x305 1 == [7]) = true := by decide +kernel

def withUnit : Stream := { video with units := [([1, 2], 5, false)] }

theorem witness_TextOperatorsAct_picture :
    (let s := ieRun (ieJob 0x503 1 0 []) (some withUnit) none
     Map.wf none s.intake.streams = true ∧ s.stream 0 2 = some withUnit ∧ s.stationFenced 18 = false ∧ s.active = true ∧
     (fenced [18] s).stationFenced 18 = true ∧ (inHeld s).active = false) ∧
    withUnit.units = ([1, 2], 5, false) :: [] ∧ withUnit.kind < 2 ∧ video.units = [] ∧ withUnit.refPics = [] ∧
    ((run.setMark .pic 0 .corr).mem.pic.marks.get Ecc.clean (0 * (storeSpan / 8) + 0 % (storeSpan / 8)) = .corr) ∧
    run.mem.pic.marks.get Ecc.clean 5 = .clean := by decide +kernel

/-- 13 R268: whatever the decoder finds, an incomplete unit gives no picture that is not corrupt, and one that the stream's
settings admit is not corrupt. -/
theorem witness_TextOperatorsAct_verdict (c : CodedPicture) :
    withUnit.verdict true true c ≠ 0 ∧ (c.decodable = true → supportedBy 0 c = true → (codedSize c).1 ≤ 16 →
      (codedSize c).2 ≤ 16 → c.refsNeeded = 0 → withUnit.verdict false true c = 0) := by
  constructor
  · simp [Stream.verdict, withUnit, video, Stream.init]
  · intro h1 h2 h3 h4 h5
    have h6 : ¬ (16 < (codedSize c).1 ∨ 16 < (codedSize c).2) := by omega
    simp [Stream.verdict, withUnit, video, Stream.init, h1, h2, h5, h6]

theorem witness_TextOperatorsAct_dictionary :
    (∀ op ∈ [0x506, 0x507], Runs 18 4 op (ieJob op 1 0 []) ctx0 (ieRun (ieJob op 1 0 []) none (some (dict2 false)))) ∧
    (let s := ieRun (ieJob 0x506 1 0 []) none (some (dict2 true))
     Map.wf none s.intake.dicts = true ∧ s.dict 0 2 = some (dict2 true)) ∧
    (let w := ieJob 0x506 1 0 []
     w.wclass = 4 ∧ w.opcode = 0x506 ∧ (ieRun w none none).dict 0 2 = none ∧ (ieRun w none none).intake.dicts.length < 4 ∧
     4 ≤ ({ ieRun w none none with intake := { streams := [], dicts := [(4, some (dict2 true)), (5, some (dict2 true)),
       (6, some (dict2 true)), (7, some (dict2 true))] } }).intake.dicts.length ∧
     Runs 18 4 0x506 { w with intake := 0x4702 } ctx0 (ieRun { w with intake := 0x4702 } none none) ∧ w.intake ≠ 0x4702) ∧
    (dict2 true).isSealed = true ∧ (dict2 false).isSealed = false ∧ ((dict2 false).entries.map (·.1)).Nodup ∧
    firstDuplicate [([0x61], 5), ([0x62], 6), ([0x61], 7)] = some 2 ∧
    (dict2 false).entries.length + (dictRecords (ieJob 0x506 1 0 []) 1 20).1.length ≤ 262144 ∧
    (((dict2 false).entries ++ (dictRecords (ieJob 0x506 1 0 []) 1 20).1).map fun p => p.1.length).sum ≤ 2097152 := by
  unfold Runs; decide +kernel

/-- A dictionary that is full to its last entry. -/
theorem witness_TextOperatorsAct_full : ∃ d : Dict, d.isSealed = false ∧
    262144 < (d.entries ++ (dictRecords (ieJob 0x506 1 0 []) 1 20).1).length :=
  ⟨{ Dict.init with entries := List.replicate 262145 ([], 0) }, rfl, by
    rw [List.length_append, List.length_replicate]; omega⟩

/-- 13 R274: sealing sets the byte base and the pad id; a repeated string is refused by its record. -/
theorem test_dict_seal :
    sees (.dictSeal 18) (ieRun (ieJob 0x507 0 0 [(20, 3, 256), (24, 3, 9)]) none (some (dict2 false))) (fun t =>
      (t.dict 0 2).any fun d => d.isSealed && d.byteBase == 256 && d.padId == 9) = true ∧
    sees (.dictSeal 18) (ieRun (ieJob 0x507 0 0 []) none (some { dict2 false with entries := [([0x61], 5), ([0x61], 6)] })) (fun t =>
      (t.dict 0 2).any fun d => !d.isSealed) = true := by decide +kernel

/-- STREAM_STATS with CLEAR into 16 numbers. -/
def statsJob : Waybill := job 18 0x50A 4 [tensor 0 4 [8] [], tensor 0x200 4 [32] []] [(52, 1, 2), (53, 1, 1)]

theorem witness_TextOperatorsAct_text :
    (∀ x ∈ [text, { text with units := [([0x61], 5, false)] }, { text with row := [(5, 0)] }],
      (ieRun (ieOp 0x508 0) (some x) (some (dict2 true))).stream 0 2 = some x) ∧
    Runs 18 4 0x508 (ieOp 0x508 0) ctx0 (ieRun (ieOp 0x508 0) (some text) (some (dict2 true))) ∧
    (ieRun (ieOp 0x508 0) (some text) (some (dict2 true))).dict 0 2 = some (dict2 true) ∧
    (byteAt (ieOp 0x508 0).bytes 54).testBit 1 = false ∧
    Runs 18 4 0x509 (ieOp 0x509 0) ctx0 (ieRun (ieOp 0x509 0) (some text) none) ∧
    ((ieRun (ieOp 0x509 0) (some text) none).operand ctx0 (ieOp 0x509 0) 1).dim 0 = text.rowLen ∧
    ((ieRun (ieOp 0x509 0) (some text) none).operand ctx0 (ieOp 0x509 0) 2).dim 0 = text.rowLen ∧
    Runs 18 4 0x50A (ieOp 0x50A 0) ctx0 (ieRun (ieOp 0x50A 0) (some text) none) ∧
    Runs 18 4 0x50A statsJob ctx0 (ieRun statsJob (some text) none) ∧ (byteAt statsJob.bytes 53).testBit 0 = true ∧
    Map.wf 0 run.mem.picCorr = true := by
  unfold Runs; decide +kernel
/-- 13 R281: CLEAR leaves zeroed counters, the picture store's among them. -/
theorem test_stats : sees (.streamStats 18) (let s := ieRun statsJob (some (text.bump 9 5)) none
      { s with mem := { s.mem with picCorr := [(2, 7)] } }) (fun t =>
    t.mem.picCorr == [] && (t.stream 0 2).any (fun y => y.counters == []) &&
    t.mem.sward.cells.bytes (0x200 + 72) 1 == [5] && t.mem.sward.cells.bytes (0x200 + 112) 1 == [7]) = true := by decide +kernel

/-- 13 R276: a unit of one byte that the dictionary holds becomes its id. -/
theorem test_tokenise :
    sees (.tokenise 18) (ieRun (ieOp 0x508 0) (some { text with units := [([0x62], 5, false)] }) (some (dict2 true))) (fun t =>
      (t.stream 0 2).any fun y => y.units == []) = true := by decide +kernel

/-! ### Cameras -/

/-- Camera 0 on receiver 0, channel 0: RAW10 lines of 2, 2 lines; in TRIGGER mode a period of 10 ms. -/
def camBook (mode : Nat) : List Rec :=
  contexts ++ [rec 0x50 [(8, 1, 0), (0x10, 1, 1)],
    rec 0x52 [(8, 1, 0), (9, 1, 0), (0xA, 1, 1), (0xC, 2, 2), (0xE, 2, 2), (0x10, 1, mode), (0x14, 4, 10000000), (0x26, 2, 1), (0x28, 4, 50000000)]]
def sensor0 (mode : Nat) : Rec := (camBook mode).getD 6 (rec 0 [])
def frame0 : CamFrame := { CamFrame.init with stamp := 900000000, efn := 1 }
def camRun (mode : Nat) (g : CamSt → CamSt) : State := (runs (camBook mode)).modCam 0 g

theorem witness_CameraCommandsAct_packets :
    (∀ mode ∈ [0, 1], let s := camRun mode id
      s.canonical = true ∧ s.rxLive 0 = true ∧ s.camerasOf 0 0 = [0] ∧ s.sensor 0 = some (sensor0 mode)) ∧
    (sensor0 0).u 0x10 1 ≠ 1 ∧ (sensor0 1).u 0x10 1 = 1 ∧ (camRun 0 id).isFenced 0x13 = false ∧
    ((camRun 1 id).cam 0).pulses = ((camRun 1 id).cam 0).pulsesAtFrame ∧
    (let x := (camRun 0 fun y => { y with frame := some frame0 }).cam 0
     x.frame = some frame0 ∧ x.resync = false ∧ frame0.lines.length < camHeight (sensor0 0)) ∧ allBelow 16 [1, 2] = true := by
  decide +kernel

/-- A pulse that has come since the last frame start, with its exposure; and a fenced ISP. -/
theorem witness_CameraCommandsAct_trigger :
    (let s := camRun 1 fun y => { y with pulses := 5, pulseExp := [(5, 70)] }
     s.canonical = true ∧ (sensor0 1).u 0x10 1 = 1 ∧ (s.cam 0).pulses ≠ (s.cam 0).pulsesAtFrame ∧ s.isFenced 0x13 = false) ∧
    (let s := fenced [0x13] (camRun 0 id)
     s.canonical = true ∧ s.rxLive 0 = true ∧ s.camerasOf 0 0 = [0] ∧ (sensor0 0).u 0x10 1 ≠ 1 ∧ s.isFenced 0x13 = true) ∧
    ((camRun 0 fun y => { y with resync := true }).cam 0).resync = true ∧ (camRun 0 id).outputsUp = true ∧
    ({ camRun 0 id with outputsUp := false }).outputsUp = false := by decide +kernel

/-- 14 R285, R293: a TRIGGER-mode frame takes the pulse count as its EFN and the exposure of its pulse. -/
theorem test_trigger_start : sees (.csiFrameStart 0 0 .ok 5) (camRun 1 fun y => { y with pulses := 5, pulseExp := [(5, 70)] })
    (fun t => (t.cam 0).efn == 5 && ((t.cam 0).frame.map fun f => (f.efn, f.exposure)) == some (5, 70)) = true := by decide +kernel

theorem witness_CameraCommandsAct_times :
    (let s := camRun 0 fun y => { y with frame := some frame0, done := [frame0], lossArmed := true, lastStart := 900000000 }
     s.canonical = true ∧ s.camerasLive = true ∧ frame0.stamp + (sensor0 0).u 0x28 4 ≤ s.now ∧
     s.now < ({ frame0 with stamp := 999999999 }).stamp + (sensor0 0).u 0x28 4 ∧ (s.cam 0).done = frame0 :: [] ∧
     s.isFenced 0x13 = false ∧ s.isFenced 0x60 = false ∧ Map.wf 0 (s.cam 0).delivery = true ∧
     Map.wf 0 (s.cam 0).dropCount = true ∧ (s.cam 0).lossArmed = true ∧ (s.cam 0).lostPosted = false ∧
     (s.cam 0).lastStart + (sensor0 0).u 0x28 4 ≤ s.now) ∧
    (let s := camRun 1 fun y => { y with nextPulse := some 1000000000, trig := true, trigFall := 1000000000 }
     (sensor0 1).u 0x10 1 = 1 ∧ (s.cam 0).nextPulse = some 1000000000 ∧ 1000000000 ≤ s.now ∧ (s.cam 0).decided = none ∧
     (s.cam 0).trig = true ∧ (s.cam 0).trigFall ≤ s.now) := by decide +kernel

/-- 14 R285: a frame start in FREE mode advances the EFN; 14 R284: an uncorrectable header is counted (counter 6). -/
theorem test_frame_start :
    sees (.csiFrameStart 0 0 .ok 5) (camRun 0 id) (fun t => (t.cam 0).efn == 1 && ((t.cam 0).frame.map fun f => (f.efn, f.sensorFn)) == some (1, 5)) = true ∧
    sees (.csiFrameStart 0 0 .uncorrectable 5) (camRun 0 id) (fun t => (t.cam 0).efn == 0 && (t.cam 0).counters == [(6, 1)]) = true := by
  decide +kernel
/-- 14 R292: the next pulse comes one period later. -/
theorem test_pulse : sees (.triggerPulse 0) (camRun 1 fun y => { y with nextPulse := some 1000000000 }) (fun t =>
    (t.cam 0).nextPulse == some 1010000000 && (t.cam 0).trig && (t.cam 0).pulses == 1) = true := by decide +kernel
theorem test_cam_lost : sees (.camLost 0) (camRun 0 fun y => { y with lossArmed := true, lastStart := 900000000 }) (fun t =>
    (t.cam 0).lostPosted && ((t.fn 0).posted.map fun e => e.code) == [0x0803]) = true := by decide +kernel

/-! ### Encoders and loops -/

/-- Encoder 0: 24 SSI bits, binary, no status bits and no CRC; encoder 1: ABZ with 4,000 counts a revolution, HOME at Z. -/
def ssi : Rec := rec 0x70 [(8, 1, 1), (9, 1, 0), (0xA, 1, 0xFF), (0xE, 1, 24), (0xF, 1, 24), (0x14, 2, 1000)]
def abz (z : Nat) : Rec := rec 0x70 [(8, 1, 1), (9, 1, 1), (0xA, 1, 0xFF), (0xC, 1, 1), (0x1C, 4, 4000), (0x20, 1, z)]
/-- Loop 0 on encoder 0 and loop 2 on encoder 1: 4 ticks, 50 µs delay, PWM output 0, OUT_MIN -100 and OUT_MAX 100. -/
def loopRecord (l e : Nat) : Rec := rec 0x30 [(8, 1, l), (0xA, 1, e), (0xC, 2, 4), (0xE, 1, 1), (0x14, 4, 50000), (0x19, 1, 2),
  (0x4C, 4, 2 ^ 32 - 100), (0x50, 4, 100)]
/-- PWM output 0 with a period of 50 µs, and the SAFETY record: STOP after 1,000 µs, K of loop 0 is 2, STOP_CAT 0. -/
def pwm0 : Rec := rec 0x70 [(8, 1, 6), (9, 1, 0), (0xC, 4, 50000)]
def safety : Rec := rec 0xA0 [(8, 4, 1000), (0xC, 1, 1), (0x10, 1, 2)]
def controlBook (z : Nat) : List Rec := contexts ++ [ssi, abz z, loopRecord 0 0, loopRecord 2 1, pwm0, safety]
def control (z : Nat) : State := runs (controlBook z)

/-- A sample of encoder 0 is due, and loop 0 waits for it. -/
def ssiDue (prev : Option Nat) : State :=
  ((control 1).modEnc 0 fun x => { x with busy := true, readyAt := 1000000000, codePrev := prev, pos := 5 }).modLoop 0 fun y =>
    { y with sample := some 999990000 }

/-- The bits of a transaction of encoder 0: a first low bit, then the code, highest bit first. -/
def ssiBits (code : Nat) : List Bool := false :: bitsDown 24 code

theorem witness_EncoderCommandsAct_ssi :
    (ssiDue none).canonical = true ∧ (ssiDue none).encRec 0 = some ssi ∧ (ssiDue none).islandLive = true ∧
    encAbz ssi = false ∧ ((ssiDue none).enc 0).busy = true ∧ ((ssiDue none).enc 0).readyAt ≤ (ssiDue none).now ∧
    (ssiBits 9).length = ssiCycles ssi ∧ ssiCause ssi true (ssiBits 9) = 1 ∧ ssiCause ssi false (ssiBits 9) = 0 ∧
    ssi.u 0xD 1 ≠ 1 ∧ (ssiParts ssi (ssiBits 9)).1 % 2 ^ ssi.u 0xE 1 = 9 ∧
    ((ssiDue none).enc 0).codePrev = none ∧ ((ssiDue (some 9)).enc 0).codePrev = some 9 ∧
    0 ∈ (ssiDue none).encLoops 0 ∧ ((ssiDue none).loop 0).sample.isSome = true ∧ ((ssiDue none).loop 0).inReady = false ∧
    ((control 1).enc 0).busy = false ∧ sampleFits ssi .abz = false := by decide +kernel

/-- A level of encoder 1 that holds for `n` ns. -/
def edgeAt (n : Nat) : EncEdge := { ch := 1, heldNs := n }

theorem witness_EncoderCommandsAct_abz :
    (let s := (control 1).modEnc 1 fun x => { x with busy := true, readyAt := 1000000000 }
     s.canonical = true ∧ s.encRec 1 = some (abz 1) ∧ encAbz (abz 1) = true ∧ (s.enc 1).busy = true ∧ (s.enc 1).readyAt ≤ s.now ∧
     (s.enc 1).latchedBad = false ∧ ((s.modEnc 1 fun x => { x with latchedBad := true }).enc 1).latchedBad = true) ∧
    (abz 1).u 0x20 1 = 1 ∧ (abz 2).u 0x20 1 = 2 ∧ ((control 2).enc 1).homed = false ∧
    (let s := runs (contexts ++ [abz 1])
     s.encLoops 1 = [] ∧ s.outputsUp = true ∧ (edgeAt 20).ch = 1 ∧ 20 ≤ (edgeAt 20).heldNs ∧ (edgeAt 19).heldNs < 20 ∧
     (s.encRec (edgeAt 20).ch).any encAbz = true ∧ (run.encRec (edgeAt 20).ch).any encAbz = false ∧ sampleFits (abz 1) .abz = true ∧ (s.enc 1).readyAt / 1000000 < s.now / 1000000 ∧
     s.now / 1000000 ≤ ((s.modEnc 1 fun x => { x with readyAt := 1000000000 }).enc 1).readyAt / 1000000) ∧
    ((true ≠ false) ≠ (false ≠ false)) := by decide +kernel

/-- 18 R369: the first valid code is the position; R368: a low line at the latch is cause 1, and nothing moves. -/
theorem test_ssi :
    sees (.encoderPositionReady 0 (.ssi false (ssiBits 9))) (ssiDue none) (fun t =>
      (t.enc 0).pos == 9 && (t.loop 0).inReady && (t.loop 0).inPos == 9 && (t.loop 0).inValid) = true ∧
    sees (.encoderPositionReady 0 (.ssi true (ssiBits 9))) (ssiDue none) (fun t =>
      (t.enc 0).pos == 5 && (t.enc 0).cause == 1 && (t.enc 0).errCount == 1 && !(t.loop 0).inValid) = true := by decide +kernel
/-- 18 R371: HOME sets the count to 0 at the first Z edge only. -/
theorem test_home :
    let s := (control 2).modEnc 1 fun x => { x with count := 77 }
    sees (.encZEdge (edgeAt 20)) s (fun t => (t.enc 1).count == 0 && (t.enc 1).homed) = true ∧
    sees (.encZEdge (edgeAt 20)) (s.modEnc 1 fun x => { x with homed := true }) (fun t => (t.enc 1).count == 77) = true := by decide +kernel
/-- 18 R370: both levels at once are an illegal transition. -/
theorem test_illegal :
    sees (.encAbEdge (edgeAt 20) true true) (control 1) (fun t => (t.enc 1).illegal && (t.enc 1).count == 0) = true ∧
    sees (.encAbEdge (edgeAt 19) true true) (control 1) (fun t => !(t.enc 1).illegal && !(t.enc 1).levA) = true ∧
    sees (.encAbEdge (edgeAt 20) true true) (inHeld run) (fun t => !(t.enc 1).illegal && (t.enc 1).levA) = true := by
  decide +kernel

/-- Loop 0 with a sample instant due now, a mode change and a table commit due with it. -/
def sampleDue : State := (control 1).modLoop 0 fun y =>
  { y with nextSample := some 1000000000, modeReq := some (true, 7, 1000000000), commitTbl := some (0, 1000000000) }

theorem witness_SamplesAreTakenInOrder :
    sampleDue.canonical = true ∧ sampleDue.loopRec 0 = some (loopRecord 0 0) ∧ (sampleDue.loop 0).nextSample = some 1000000000 ∧
    sampleDue.islandLive = true ∧ 1000000000 ≤ sampleDue.now ∧ (sampleDue.loop 0).reinitAt = none ∧
    (sampleDue.loop 0).modeReq = some (true, 7, 1000000000) ∧ (sampleDue.loop 0).commitTbl = some (0, 1000000000) ∧
    (let s := { control 1 with ports := { (control 1).ports with gpio := { (control 1).ports.gpio with marks := [(3, 1000000000)] } } }
     s.canonical = true ∧ Map.wf 0 s.ports.gpio.marks = true ∧ s.ports.gpio.marks.get 0 3 ≤ s.now ∧ s.ports.gpio.marks.get 0 3 ≠ 0) := by
  decide +kernel

/-- 15 R303: the next instant is 4 × 31.25 µs later and the actuation 50 µs after this one; R315: MANUAL begins here. -/
theorem test_sample : sees (.loopSampleInstant 0) sampleDue (fun t => let y := t.loop 0
    y.nextSample == some 1000125000 && y.actPend == [(1000050000, false)] && y.manual && y.modeReq == none && y.commitTbl == none) = true := by
  decide +kernel

/-- A loop sampled at `p` with its input ready, in MANUAL. -/
def sampled (p : Nat) (y : LoopSt) : LoopSt :=
  let z := { y with sample := some p, inReady := true, inValid := true }
  { z with actPend := [(p + 50000, false)], manual := true, manualOut := 500 }
/-- Loops 0 and 2 with their inputs ready; loop 2 was sampled `d` ns before loop 0. -/
def evalDue (d : Nat) : State := ((control 1).modLoop 0 (sampled 999990000)).modLoop 2 (sampled (999990000 - d))

/-- 15 R304: the earlier actuation instant first, the lower loop among equals. -/
theorem test_next_loop : (evalDue 0).nextLoop = some 0 ∧ (evalDue 1).nextLoop = some 2 := by decide +kernel

/-- Loop 1 of KIND 2, whose feedback is a Waymark read of slot 0 with a STOP fallback that no commit has fed. -/
def unfed : Rec := rec 0x30 [(8, 1, 1), (9, 1, 2), (0xA, 1, 0xFF), (0xC, 2, 4), (0xE, 1, 1), (0x14, 4, 50000), (0x69, 1, 2),
  (0x6B, 1, 4), (0x6C, 1, 2)]

theorem witness_EvaluationsCommitOnlyInTime :
    (evalDue 0).canonical = true ∧ (evalDue 0).islandLive = true ∧ (evalDue 0).nextLoop = some 0 ∧
    (evalDue 0).loopRec 0 = some (loopRecord 0 0) ∧ ((evalDue 0).loop 0).sample = some 999990000 ∧ (loopRecord 0 0).u 9 1 ≤ 1 ∧
    (let s := (runs (contexts ++ [unfed, safety])).modLoop 1 fun y => { y with sample := some 999990000, inReady := true, inValid := true }
     s.canonical = true ∧ s.islandLive = true ∧ s.nextLoop = some 1 ∧ s.loopRec 1 = some unfed ∧ ¬ unfed.u 9 1 ≤ 1 ∧
     (valueOf (s.readAll unfed (s.loop 1) 999990000) 2).isSome = false ∧
     stopRequested (s.loop 1) (s.readAll unfed (s.loop 1) 999990000) = true) ∧
    (evalDue 0).now < 999990000 + loopDelay (loopRecord 0 0) ∧ (loopRecord 0 0).i 0x4C 4 ≤ (loopRecord 0 0).i 0x50 4 ∧
    ((evalDue 0).loop 0).manual = true ∧
    999990000 + loopDelay (loopRecord 0 0) ≤ ({ evalDue 0 with time := { run.time with ms := 1000040000 } }).now ∧
    ((evalDue 0).loop 0).actPend = (1000040000, false) :: [] ∧
    1000040000 ≤ ({ evalDue 0 with time := { run.time with ms := 1000040000 } }).now ∧
    (evalDue 0).now < 1000040000 ∧ (evalDue 0).lateLimit 0 = 2 ∧ run.devState ≠ .off := by decide +kernel

/-- 15 R315, R317: the manual output, clamped to OUT_MAX, is committed for its instant; a divergence is a lockstep fault. -/
theorem test_evaluation :
    sees (.loopEvaluation .agree) (evalDue 0) (fun t => (t.loop 0).out == 100 && (t.loop 0).actPend == [(1000040000, true)] &&
      (t.loop 0).sample == none) = true ∧
    sees (.loopEvaluation .diverge) (evalDue 0) (fun t => (t.loop 0).actPend == [(1000040000, false)] && t.devState == .fault &&
      (t.verge.records.map fun r => r.code) == [0x8A01]) = true := by decide +kernel
/-- 15 R311, R320: a loop without its feedback requests its stop and commits nothing, and a divergence is a fault there too. -/
theorem test_unfed :
    let s := (runs (contexts ++ [unfed, safety])).modLoop 1 fun y => { y with sample := some 999990000, inReady := true, inValid := true }
    sees (.loopEvaluation .agree) s (fun t => (t.loop 1).posPrev == none && (t.verge.records.map fun r => r.code) == [0x8A0D] &&
      ((t.fn 0).posted.map fun e => e.code).getLast? == some 0x0901) = true ∧
    sees (.loopEvaluation .diverge) s (fun t => (t.verge.records.map fun r => r.code) == [0x8A01, 0x8A0D]) = true := by decide +kernel
/-- 16 R332: the second late instant in a row makes the loop's stop demand. -/
theorem test_late :
    let s := { evalDue 0 with time := { run.time with ms := 1000040000 } }
    sees (.loopActuation 0) s (fun t => (t.loop 0).lateCount == 1 && t.verge.stop == .none) = true ∧
    sees (.loopActuation 0) (s.modLoop 0 fun y => { y with lateRun := 1 }) (fun t => t.verge.stop == .immediate &&
      (t.verge.records.map fun r => (r.code, r.unit, r.detail)) == [(0x8A0C, 0, 2)]) = true := by decide +kernel
theorem test_diagnostic : sees (.diagnosticEvaluation false false true) run (fun t => (t.verge.records.map fun r => r.code) == [0x8A02]) = true := by
  decide +kernel

/-! ### Verge and the Twin Link -/

/-- The control device with both driving loops committed, ready for its outputs. -/
def ready : State := ((control 1).modLoop 0 fun y => { y with committed := true }).modLoop 2 fun y => { y with committed := true }
/-- A controlled stop in force since 1 ms. -/
def stopped : State := { control 1 with verge := { (control 1).verge with stop := .controlled, stopSince := 999000000 } }

theorem witness_VergeCommandsAct :
    run.devState ≠ .off ∧ run.devState ≠ .selftest ∧ stopped.stopping = true ∧ ready.outputsUp = true ∧
    stopped.verge.stopSince + stopped.recField 0xA0 8 4 * 1000 ≤ stopped.now ∧
    ({ stopped with time := { run.time with ms := 999999999 } }).now < stopped.verge.stopSince + stopped.recField 0xA0 8 4 * 1000 ∧
    ready.active = true ∧ ready.verge.stop = .none ∧ ready.verge.partnerStop = false ∧ ready.partnerOk = true ∧
    ready.verge.stoA = false ∧ ready.verge.stoB = false ∧ ready.loopsCommitted = true ∧ (control 1).loopsCommitted = false := by
  decide +kernel

/-- 16 R334: both channels rise at once, and not before every driving loop has committed. -/
theorem test_sto_release :
    sees .stoRelease ready (fun t => t.out == [.sto 0 true, .sto 1 true] && t.verge.stoA && t.verge.stoB) = true ∧
    sees .stoRelease (control 1) (fun t => t.out == [] && !t.verge.stoA) = true ∧
    sees .stoRelease { ready with outputsUp := false } (fun t => t.out == [] && !t.verge.stoA) = true := by decide +kernel
theorem test_stop_timeout : sees .stopTimeout { stopped with verge := { stopped.verge with stoA := true, stoB := true } }
    (fun t => !t.verge.stoA && !t.verge.stoB && t.verge.stoByStop) = true := by decide +kernel
/-- 16 Table 16.3: a bad residue checker fences its TE; a bad Sward tract checker fences the island. -/
theorem test_checkers :
    sees (.piCheckerTest (.residue 5)) run (fun t => t.isFenced 5 && !t.isFenced 0x60) = true ∧
    sees (.piCheckerTest (.swardTract 2 9)) run (fun t => t.isFenced 0x60 &&
      (t.verge.records.map fun r => (r.code, r.unit, r.detail)) == [(0x8A08, 2, 9)]) = true := by decide +kernel

/-- The Twin Link in CROSS_CHECK as unit 0, with lane 0 locked at offset 0. -/
def twinRecord (mode : Nat) : Rec := rec 0xA1 [(9, 1, mode), (0xA, 1, 0xFF), (0xB, 1, 0xFF)]
def twinRun (mode : Nat) (g : TwinLane → TwinLane) : State :=
  let s := runs (contexts ++ [twinRecord mode, safety])
  { s with verge := { s.verge with twin := { s.verge.twin with
      on := true, winStart := 999991750, lane0 := g { s.verge.twin.lane0 with locked := some 0 } } } }

/-- A TWIN frame of unit 1 in CROSS_CHECK with SEQ 3 and STOP 1: its 240 bits below SYNC, with their CRC. -/
def twinBits (stop : Nat) : Nat :=
  let d := 2 ^ 204 + 2 ^ 203 + 2 ^ 202 + 3 * 2 ^ 184 + stop * 2 ^ 177
  d * 2 ^ 32 + crc32 (beBytes 26 d)
/-- The frame as a lane that has descrambled nothing yet carries it. -/
def twinWire (stop : Nat) : BitVec 256 := BitVec.ofNat 256 (0xF2C0 * 2 ^ 240 + (scramble 240 (twinBits stop) 0).1)

theorem witness_TwinLinkActs :
    (twinRun 1 id).twinRec = some (twinRecord 1) ∧ (twinRun 1 id).verge.twin.on = true ∧
    (runs [twinRecord 1]).verge.twin.on = false ∧ ((twinRun 1 id).verge.twin.lane 0).locked = some 0 ∧
    ((twinRun 1 id).verge.twin.lane 1).locked = none ∧
    ((twinRun 1 fun l => { l with misses := 3 }).verge.twin.lane 0).misses = 3 ∧ frameAt 0 0 0 / 2 ^ 240 ≠ 0xF2C0 ∧
    (twinRun 1 id).verge.twin.winStart + 8250 ≤ (twinRun 1 id).now ∧
    ({ twinRun 1 id with time := { run.time with ms := 999999999 } }).now < (twinRun 1 id).verge.twin.winStart + 8250 ∧
    twinCross (twinRecord 1) = true ∧ twinCross (twinRecord 0) = false ∧ (twinRun 1 id).active = true := by decide +kernel

theorem witness_TwinLinkActs_frame :
    let s := twinRun 1 fun l => { l with prev := twinWire 1 }
    let raw := frameAt (s.verge.twin.lane 0).prev 0 0
    let d := (descramble 240 raw (s.verge.twin.lane 0).descr.toNat).1
    raw / 2 ^ 240 = 0xF2C0 ∧ crc32 (beBytes 26 (d / 2 ^ 32)) = d % 2 ^ 32 ∧ (twinFields d).typ = 1 ∧
    s.verge.twin.rxSeq ≠ some (BitVec.ofNat 16 (twinFields d).seq) ∧ (twinFields d).unit ≠ (twinRecord 1).u 8 1 ∧
    (twinFields d).mode = (twinRecord 1).u 9 1 ∧ (twinFields d).stop ≠ 0 ∧ (twinFields d).stop ≠ s.verge.twin.lastStop := by decide +kernel

/-- 16 R343: a STOP field of the partner is a partner stop; 16 R342: the fourth window without a frame is one as well. -/
theorem test_twin :
    sees (.twinFrameReceive 0 0) (twinRun 1 fun l => { l with prev := twinWire 1 }) (fun t => t.verge.partnerStop && t.verge.twin.up &&
      t.verge.twin.rxSeq == some 3) = true ∧
    (let s := twinRun 1 id
     sees .twinMissWindow { s with verge := { s.verge with twin := { s.verge.twin with misses := 3 } } } (fun t =>
       t.verge.partnerStop && t.verge.twin.misses == 4) = true) := by decide +kernel

/-! ### CAN -/

/-- Controller 0: NORMAL or another mode, FLAGS, all TXBs of the host, ring 0 of 4 records, filter 0 takes the standard
identifier 0x123 into ring 0. -/
def canRecord (mode flags : Nat) : Rec := rec 0x40 [(8, 1, 0), (9, 1, mode), (0xA, 1, flags), (0xB, 1, 7),
  (0x20, 8, 0x1080000000), (0x28, 2, 4), (0x2C, 4, 1000000), (0x40, 4, 0x123), (0x44, 4, 0x3FFFFFFF), (0x48, 1, 1)]
def canRun (mode flags : Nat) (g : CanSt → CanSt) : State :=
  (runs (contexts ++ [canRecord mode flags, safety])).modCan 0 fun x => g { x with joined := true }

/-- A frame of identifier `id` and no data. -/
def plain (id : BitVec 29) : CanFrame := { CanFrame.init with id := id }

theorem witness_CanSendingActs :
    (canRun 0 0 id).canonical = true ∧ fnOf pf = 0 ∧ fnOf (.pcie 1) ≠ 0 ∧ (canRun 0 0 id).txCheck 0 5 = 0 ∧
    (canRun 0 0 id).txCheck 0 0x11 = 0x2B06 ∧ ((canRun 0 0 id).can 0).pend.length = 3 ∧ ((canRun 0 0 id).can 0).failed.length = 3 ∧
    ((canRun 0 0 id).can 0).cause.length = 3 ∧
    (let s := canRun 0 0 fun x => { x with pend := [true, false, false] }
     s.txCheck 0 0x10 = 0 ∧ (s.can 0).pend[0]? = some true ∧ (s.can 0).onBus ≠ some (.txb 0) ∧
     (s.can 0).pend.getD 0 false = true ∧ (s.can 0).pend.getD 1 false = false) ∧
    (fenced [0x28] (canRun 0 0 id)).isFenced 0x28 = true ∧
    (canRun 0 0 id).canRec 0 = some (canRecord 0 0) ∧ canHostTxb (canRecord 0 0) 2 = true ∧
    canHostTxb (rec 0x40 [(8, 1, 0)]) 0 = false ∧ Memory.wf ((canRun 0 0 id).can 0).area = true := by decide +kernel

/-- A bit error with no further error in its flag. -/
def bitError : CanErr := { kind := 5, dataPhase := false, inOverload := false, more := 0 }

theorem witness_CanSendingActs_bus :
    (canRun 0 0 id).canLive 0 = true ∧ canMode (canRecord 1 0) = 1 ∧ (canRun 1 0 id).canLive 0 = true ∧
    ((canRun 0 0 id).can 0).select (canRecord 0 0) 0 = none ∧
    (let s := canRun 0 4 fun x => { x with txq := [plain 5], pend := [true, false, false], area := [(0, 9)] }
     (s.can 0).select (canRecord 0 4) s.now = some (.queue, plain 5) ∧ (s.can 0).onBus = none ∧ canMode (canRecord 0 4) ≠ 1 ∧
     (s.can 0).refPending = false ∧ canFlag (canRecord 0 4) 2 = true) ∧
    (((canRun 0 32 fun x => { x with refPending := true }).can 0).select (canRecord 0 32) 0).isSome = true ∧
    (let s := canRun 0 0 fun x => { x with onBus := some (.txb 1), pend := [false, true, false], tec := 255 }
     (s.can 0).onBus = some (.txb 1) ∧ canMode (canRecord 0 0) < 2 ∧ s.leadLoop 0 = none ∧ (s.can 0).tec < 256 ∧
     (s.can 0).abortReq.getD 1 false = false ∧
     256 ≤ (s.can 0).tec + txErrorCount ((s.can 0).state == 1) bitError false false ∧ s.outputsUp = true ∧
     s.canDrives (canRecord 0 0) = true) ∧ bitError.more = 0 ∧ bitError.kind ≠ 1 ∧ bitError.kind ≠ 3 ∧
    ({ canRun 0 0 id with outputsUp := false }).canDrives (canRecord 0 0) = false ∧ canMode (canRecord 2 0) = 2 ∧
    canMode (canRecord 3 0) = 3 ∧ (canRun 2 0 id).canLive 0 = true ∧ (canRun 3 0 id).canLive 0 = true ∧
    Map.wf 0 ((canRun 2 0 id).can 0).counters = true ∧
    (let s := canRun 0 8 fun x => { x with onBus := some .queue, busFrame := { plain 5 with fdf := true } }
     canFlag (canRecord 0 8) 3 = true ∧ (s.can 0).busFrame.fdf = true) ∧
    canFlag (canRecord 0 0) 1 = false ∧ canFlag (canRecord 0 2) 1 = true := by decide +kernel

/-- 17 R355: an abort of a waiting buffer fails it with CAUSE 3; asking and aborting one buffer is refused. -/
theorem test_can_abort :
    let s := canRun 0 0 fun x => { x with pend := [true, false, false] }
    sees (.canAbort pf 0 0x10) s (fun t => (t.can 0).pend == [false, false, false] && (t.can 0).cause == [3, 0, 0] &&
      (t.can 0).failed == [true, false, false]) = true ∧
    sees (.canAbort pf 0 0x11) s (fun t => (t.can 0).txResult == 0x2B06 && (t.can 0).pend == [true, false, false]) = true := by
  decide +kernel
/-- 17 R352: with BY_ID the lower identifier goes first. -/
theorem test_can_by_id : sees (.canArbitration 0) (canRun 0 4 fun x => { x with txq := [plain 5], pend := [true, false, false], area := [(0, 9)] }) (fun t =>
    (t.can 0).onBus == some .queue && t.out == [.canFrame 0 5 false false false false 0 []]) = true := by decide +kernel
/-- 17 R359: at 256 the controller is bus-off. -/
theorem test_bus_off : sees (.canTxEnd 0 (.error bitError false false)) (canRun 0 0 fun x => { x with onBus := some .queue, txq := [plain 5], tec := 248 })
    (fun t => (t.can 0).tec == 256 && 2 ≤ (t.can 0).state && (t.can 0).txq == []) = true := by decide +kernel

/-- 17 R358, Table 17.7: INT_LOOPBACK sends and receives its frame with arbitration lost on the bus. -/
theorem test_loopback : sees (.canTxEnd 0 .lost) (canRun 2 0 fun x => { x with onBus := some .queue, txq := [plain 5], busFrame := plain 5 })
    (fun t => (t.can 0).txq == [] && (t.can 0).counters == [(0, 1), (1, 1), (2, 1)]) = true := by decide +kernel
/-- 17 R351: with TDC a delay of 128 units ends an FD frame as a bit error. -/
theorem test_tdc : sees (.canTxEnd 0 (.sent 128))
    (canRun 0 8 fun x => { x with onBus := some .queue, txq := [plain 5], busFrame := { plain 5 with fdf := true } })
    (fun t => (t.can 0).tec == 8 && (t.can 0).lastErr == 5 && (t.can 0).txq == [plain 5]) = true := by decide +kernel

def wire (id : BitVec 29) : CanWire := ⟨0, id, false, false, false, false, false, 1, [0x55]⟩

theorem witness_CanReceivingActs :
    (canRun 0 0 id).canonical = true ∧ (canRun 0 0 id).canRec 0 = some (canRecord 0 0) ∧
    Map.wf 0 ((canRun 0 0 id).can 0).counters = true ∧ (wire 5).data.length ≤ 64 ∧ (canRun 0 0 id).canLive 0 = true ∧
    canMode (canRecord 0 0) ≠ 2 ∧ canMode (canRecord 0 0) = 0 ∧ ((canRun 0 0 id).can 0).onBus = none ∧
    filterFate (canRecord 0 0) (wire 5) = none ∧ filterFate (canRecord 0 0) (wire 0x123) = some (0, 0) ∧
    ((canRun 0 0 id).can 0).rxTail.length = 2 ∧ (canRun 0 0 id).isFenced 0x50 = false ∧
    (3 + 4 - 0) % 4 = 4 - 1 ∧ (canRun 0 0 id).outputsUp = true ∧ (canRun 0 0 id).isFenced 0x28 = false ∧
    (fenced [0x28] (canRun 0 0 id)).isFenced 0x28 = true ∧ rxErrorCount bitError false = 1 ∧
    (let s := canRun 0 0 fun x => { x with rxTail := [2, 0], state := 3 }
     (2 : Nat) < (canRecord 0 0).u 0x28 2 ∧ (2 + 4 - (s.can 0).rxHead.getD 0 0) % 4 ≤ ((s.can 0).rxTail.getD 0 0 + 4 - (s.can 0).rxHead.getD 0 0) % 4 ∧
     ((s.can 0).rxTail.getD 0 0 + 4 - (s.can 0).rxHead.getD 0 0) % 4 < (3 + 4 - (s.can 0).rxHead.getD 0 0) % 4 ∧
     s.islandLive = true ∧ s.isFenced 0x28 = false ∧ (s.can 0).state = 3) ∧
    (let s := canRun 0 32 fun x => { x with refNext := some 1000000000 }
     (s.can 0).refNext = some 1000000000 ∧ canFlag (canRecord 0 32) 5 = true ∧ 1000000000 ≤ s.now) := by decide +kernel

/-- 17 R356, R357: an accepted frame moves TAIL, a rejected one is counted (counter 2), a full ring drops (counter 3). -/
theorem test_can_receive :
    sees (.canFrameReceive 0 (.frame (wire 0x123))) (canRun 0 0 id) (fun t => (t.can 0).rxTail == [1, 0]) = true ∧
    sees (.canFrameReceive 0 (.frame (wire 0x124))) (canRun 0 0 id) (fun t => (t.can 0).counters == [(1, 1), (2, 1)]) = true ∧
    sees (.canFrameReceive 0 (.frame (wire 0x123))) (canRun 0 0 fun x => { x with rxTail := [3, 0] }) (fun t =>
      (t.can 0).counters == [(1, 1), (3, 1)] && (t.can 0).rxTail == [3, 0]) = true := by decide +kernel
/-- 17 R359: RECOVER and 128 idle sequences end bus-off with both counts at 0. -/
theorem test_recover :
    let s := after (.canRecover pf 0 1) (canRun 0 0 fun x => { x with state := 2, tec := 256 })
    sees (.canBusOn 0) s (fun t => (t.can 0).state == 0 && (t.can 0).tec == 0) = true := by decide +kernel

/-! ### Small ports -/

/-- SPI master 0 with script 0 of 2 bytes and a ring of 64 records, and UART 0 with 8 data bits and no parity. -/
def spi0 : Rec := rec 0x70 [(8, 1, 2), (9, 1, 0), (0xC, 1, 4), (0xE, 2, 64), (0x10, 8, 0x1080000000), (0x18, 1, 0x81), (0x19, 1, 2), (0x1C, 4, 1000)]
def uart0 : Rec := rec 0x70 [(8, 1, 3), (9, 1, 0), (0xC, 2, 217)]
def serial (g : SpiSt → SpiSt) (h : UartSt → UartSt) : State := ((runs (contexts ++ [spi0, uart0])).modSpi 0 g).modUart 0 h
def jobOf (script : Option Nat) : SpiJob := { script := script, len := 2, cs := 1 }

theorem witness_SerialPortsAct_spi :
    (serial id id).canonical = true ∧ (serial id id).spiRec 0 = some spi0 ∧ scriptEnabled spi0 0 = true ∧
    (let x := (serial (fun y => { y with nextTrig := [(0, 1000000001)] }) id).spi 0
     x.nextTrig.get 0 0 ≠ 0 ∧ x.nextTrig.get 0 0 ≤ run.now + 1 ∧ x.busy = none ∧ x.waiting = []) ∧
    run.now + 1 < ((serial (fun y => { y with nextTrig := [(0, 1000000002)] }) id).spi 0).nextTrig.get 0 0 ∧
    ((serial (fun y => { y with busy := some (jobOf none) }) id).spi 0).busy = some (jobOf none) ∧ (jobOf none).script = none ∧
    (jobOf (some 0)).script = some 0 ∧ ((serial (fun y => { y with busy := some (jobOf none), waiting := [0] }) id).spi 0).waiting = [0] ∧
    Memory.wf ((serial id id).spi 0).rxBuf = true ∧ (0x80000000#32).toNat.testBit 31 = true ∧ (0#32).toNat.testBit 31 = false ∧
    (let x := (serial (fun y => { y with ringTail := 2 }) id).spi 0
     (2 + 64 - x.ringHead) % 64 ≤ (x.ringTail + 64 - x.ringHead) % 64 ∧ (x.ringTail + 64 - x.ringHead) % 64 < (3 + 64 - x.ringHead) % 64) := by
  decide +kernel

/-- The votes of a character: 8 data bits LSB first, then the stop bit. -/
def votes (d : Nat) (stop : Bool) : List Vote :=
  ((List.range 8).map fun i => ⟨d.testBit i, d.testBit i, d.testBit i⟩) ++ [⟨stop, stop, stop⟩]

theorem witness_SerialPortsAct_uart :
    (serial id id).uartRec 0 = some uart0 ∧ 9 ≤ (votes 0x41 true).length ∧ (votes 0x41 true).length ≤ 12 ∧
    (serial id id).islandLive = true ∧ ((serial id id).uart 0).armed = true ∧ ((serial id id).uart 0).rx = [] ∧
    ((serial id fun y => { y with armed := false }).uart 0).armed = false ∧
    256 ≤ ((serial id fun y => { y with rx := List.replicate 256 0 }).uart 0).rx.length ∧
    64 ≤ ((serial id fun y => { y with tx := List.replicate 64 0 }).uart 0).tx.length ∧
    ((serial id id).uart 0).tx.length < 64 ∧ ((serial id fun y => { y with rx := [1, 2] }).uart 0).rx = 1 :: [2] ∧
    ((serial id fun y => { y with txBusy := some 1, tx := [2] }).uart 0).txBusy = some 1 ∧ (serial id id).outputsUp = true := by
  decide +kernel

/-- 18 R372: a due script starts; R373: a host transfer on a busy master is refused with 0x2C02. -/
theorem test_spi :
    sees (.spiScriptTrigger 0 0) (serial (fun y => { y with nextTrig := [(0, 1000000000)] }) id) (fun t =>
      (t.spi 0).busy == some (jobOf (some 0)) && t.out == [.spi 0 1 [0, 0]]) = true ∧
    sees (.spiCmd pf 0 0x80000000) (serial (fun y => { y with busy := some (jobOf none) }) id) (fun t => (t.spi 0).result == 0x2C02) = true := by
  decide +kernel
/-- 18 Table 18.7: VALID with the data; a low stop bit is a framing error and disarms. -/
theorem test_uart :
    sees (.uartCharacterReceive 0 (votes 0x41 true)) (serial id id) (fun t => (t.uart 0).rx == [0x8041] && (t.uart 0).armed) = true ∧
    sees (.uartCharacterReceive 0 (votes 0x41 false)) (serial id id) (fun t => (t.uart 0).rx == [0x8141] && !(t.uart 0).armed) = true ∧
    sees (.uartRxdataRead pf 0 4) (serial id fun y => { y with rx := [0x8041, 0x8042] }) (fun t => (t.uart 0).rx == [0x8042] &&
      t.out == [.read [0x41, 0x80, 0, 0] false]) = true ∧
    sees (.uartTxdata pf 0 5) (serial id fun y => { y with tx := List.replicate 64 0 }) (fun t => (t.uart 0).result == 0x2C03) = true := by
  decide +kernel

/-- A Tool Spur, an annunciator and a GPIO port: pin 0 out, pin 1 in with its rising edge enabled; PWM 1 of the host. -/
def gpio0 : Rec := rec 0x70 [(8, 1, 7), (9, 1, 0), (0xA, 1, 0xFF), (0xC, 2, 3), (0xE, 2, 1), (0x12, 2, 2)]
def ann0 : Rec := rec 0x70 [(8, 1, 5), (9, 1, 0)]
def pwm1 : Rec := rec 0x70 [(8, 1, 6), (9, 1, 1), (0xC, 4, 50000)]
def ports : State := runs (controlBook 1 ++ [rec 0x70 [(8, 1, 4), (9, 1, 0)], ann0, gpio0, pwm1])
/-- The tone on, `n` trips since it was cleared. -/
def toned (n : Nat) : State := ports.modAnn fun a => { a with on := true, trips := n }
/-- Both PWM periods due, STO released. -/
def pwmDue (cmd : Int) : State :=
  let s := (ports.modPwm 0 fun x => { x with nextPeriod := some 1000000000, cmd := cmd }).modPwm 1 fun x =>
    { x with nextPeriod := some 1000000000, duty := 4000 }
  { s with verge := { s.verge with stoA := true, stoB := true } }

theorem witness_PlainPortsAct_spur :
    [SpurPass.mk false []].all SpurPass.wellFormed = true ∧ ports.ports.spur.running = false ∧
    ({ ports with ports := { ports.ports with spur := { ports.ports.spur with running := true } } }).ports.spur.running = true ∧
    ports.islandLive = true ∧ (ports.portRec 4 0 0x4C).isSome = true ∧ ports.ports.spur.announced = false ∧ fnOf pf = 0 ∧
    ports.annRec.isSome = true ∧ ports.annState ≠ 1 ∧ (toned 2).annState = 1 ∧ (toned 2).ports.ann.trips + 1 < 4 ∧
    4 ≤ (toned 3).ports.ann.trips + 1 ∧ ports.verge.warnLost = false ∧
    ((toned 3).modAnn fun a => { a with state := 2, retryAt := 1000000000 }).ports.ann.state = 2 ∧
    ports.ports.gpio.drive.getLsbD 1 = false ∧ (ports.modGpio fun g => { g with drive := 1 }).ports.gpio.drive.getLsbD 0 = true ∧
    fnOf (.pcie 1) ≠ 0 := by decide +kernel

theorem witness_PlainPortsAct_pwm :
    (pwmDue 5).canonical = true ∧ (pwmDue 5).pwmRec 0 = some pwm0 ∧ (pwmDue 5).pwmRec 1 = some pwm1 ∧
    ((pwmDue 5).pwm 0).nextPeriod = some 1000000000 ∧ (pwmDue 5).islandLive = true ∧ (pwmDue 5).outputsUp = true ∧
    1000000000 ≤ (pwmDue 5).now ∧ (pwmDue 5).verge.stoA = true ∧ (pwmDue 5).verge.stoB = true ∧
    ports.verge.stoA = false ∧ (pwmDue 5).pwmLoop 1 = none ∧ (pwmDue 5).pwmLoop 0 = some 0 ∧
    ((pwmDue (-1)).pwm 0).cmd ≤ 0 ∧ ((pwmDue 8388607).pwm 0).cmd = 8388607 ∧ ports.gpioRec = some gpio0 ∧
    (gpio0.u 0xC 2).testBit 1 = true ∧ (gpio0.u 0xE 2).testBit 1 = false ∧ (gpio0.u 0x12 2).testBit 1 = true ∧
    (gpio0.u 0x14 2).testBit 1 = false ∧ ports.ports.gpio.flags = 0 ∧ Map.wf 0 ports.ports.gpio.stamps = true := by decide +kernel

/-- 18 R381, R382: 10,000 ticks a period; a full command is high all of it, a host duty its ticks, and STO makes both low. -/
theorem test_pwm :
    sees (.pwmPeriodStart 0) (pwmDue 8388607) (fun t => t.out == [.pwm 0 10000] && (t.pwm 0).nextPeriod == some 1000050000) = true ∧
    sees (.pwmPeriodStart 1) (pwmDue 5) (fun t => t.out == [.pwm 1 4000]) = true ∧
    sees (.pwmPeriodStart 1) { pwmDue 5 with verge := ports.verge } (fun t => t.out == [.pwm 1 0]) = true ∧
    sees (.pwmDutyWrite pf 0 9) (pwmDue 5) (fun t => (t.pwm 0).result == 0x2C01 && (t.pwm 0).duty == 0) = true := by decide +kernel
/-- 18 R383: SET moves the used output alone; a rising edge of pin 1 is flagged and stamped, a falling one is not. -/
theorem test_gpio :
    sees (.gpioSetWrite pf 0xFFFF) (ports.modGpio fun g => { g with drive := 1 }) (fun t =>
      t.ports.gpio.out == 1 && t.out == [.gpio 1 1]) = true ∧
    sees (.gpioEdge 1 true) (inHeld run) (fun t => t.ports.gpio.level == 2 && t.ports.gpio.flags == 0) = true ∧
    sees (.gpioEdge 1 true) ports (fun t => t.ports.gpio.flags == 2 && t.ports.gpio.stamps == [(1, 1000000000)] &&
      ((t.fn 0).posted.map fun e => (e.code, e.payload)) == [(0x0C05, 2)]) = true ∧
    sees (.gpioEdge 1 false) ports (fun t => t.ports.gpio.flags == 0) = true := by decide +kernel
/-- 18 R380: the fourth trip latches with 0x8C01; an earlier one waits 100 ms. -/
theorem test_ann :
    sees .annTrip (toned 3) (fun t => t.ports.ann.state == 3 && t.ports.ann.status == 0x8C01) = true ∧
    sees .annTrip (toned 2) (fun t => t.ports.ann.state == 2 && t.ports.ann.retryAt == 1100000000 && t.verge.reduced) = true := by
  decide +kernel
/-- 18 R379: a search that no device answers. -/
theorem test_spur : sees (.spurSearchEnd [⟨false, []⟩] false)
    { ports with ports := { ports.ports with spur := { ports.ports.spur with running := true } } } (fun t =>
      t.out.head? == some .spurReset && !t.ports.spur.running && t.ports.spur.ids == [] && ((t.fn 0).posted.map fun e => e.code) == [0x0C02]) = true := by decide +kernel

/-! ### What every step keeps -/

theorem witness_EveryStepKeepsCanonical : run.canonical = true ∧ State.reset.canonical = true := by decide +kernel

theorem witness_MilestoneNeverDecreases :
    run.devState = .run ∧ (after .mcHeartbeat run).devState ≠ .off ∧
    nominalInc * 999800 ≤ run.time.inc * 1000000 ∧ run.time.inc * 1000000 ≤ nominalInc * 1000200 := by decide +kernel

/-- A step from `ready` with STO_RELEASE in front raises both channels. -/
theorem witness_StoRisesOnlyByRelease :
    ready.verge.stoA = false ∧ (after .stoRelease { ready with pending := [] }).verge.stoA = true ∧ ready.verge.stoB = false ∧
    (after .stoRelease { ready with pending := [] }).verge.stoB = true := by decide +kernel

end Sys2Proof.Tests
end

section
/-! PROOF. A host write to BAR0 (00 R390): its walk over the areas passes what lies in none, and below the CAN areas the
only one is SP_CMD. -/

namespace Sys2Proof.Machine

/-! ### The areas below 0x8000 -/

theorem areaAt_spCmd {o : Nat} (f : Nat) (lo : 0x1000 ≤ o) (hi : o < 0x1100) :
    areaAt f o = some (.spCmd, o - 0x1000, 0x1100 - o) :=
  if_pos ⟨lo, hi⟩

theorem areaAt_beside_spCmd {o : Nat} (f : Nat) (beside : o < 0x1000 ∨ 0x1100 ≤ o) (hi : o < 0x8000) :
    areaAt f o = none := by
  unfold areaAt
  rw [if_neg (by omega), if_neg (by omega : ¬(0x8000 ≤ o ∧ _)), if_neg (by omega : ¬(0x9200 ≤ o ∧ _)),
    if_neg (by omega : ¬(0xA000 ≤ o ∧ _)), ite_self]

/-! ### The walk of a write -/

@[simp] theorem State.writeArea_nil (p : Requester) (fuel o : Nat) (s : State) : s.writeArea p fuel o [] = s := by
  cases fuel <;> rfl

/-- Bytes that lie in no area are passed over, with a unit of fuel each. -/
theorem State.writeArea_skip (p : Requester) (s : State) (fuel : Nat) (k : Nat) : ∀ (o : Nat) (data : List Byte),
    (∀ i < k, areaAt (fnOf p) (o + i) = none) →
    s.writeArea p (fuel + k) o data = s.writeArea p fuel (o + k) (data.drop k) := by
  induction k with
  | zero => intro o data _; rfl
  | succ k ih =>
    intro o data free
    cases data with
    | nil => simp
    | cons b rest =>
      have here : areaAt (fnOf p) o = none := free 0 (by omega)
      have next : ∀ i < k, areaAt (fnOf p) (o + 1 + i) = none := fun i hi => by
        rw [Nat.add_right_comm, Nat.add_assoc]; exact free (i + 1) (by omega)
      calc s.writeArea p (fuel + k + 1) o (b :: rest)
        _ = s.writeArea p (fuel + k) (o + 1) rest := by simp [State.writeArea, here]
        _ = s.writeArea p fuel (o + 1 + k) (rest.drop k) := ih (o + 1) rest next
        _ = s.writeArea p fuel (o + (k + 1)) ((b :: rest).drop (k + 1)) := by rw [Nat.add_right_comm]; rfl

/-- A write none of whose bytes lies in an area has no effect. -/
theorem State.writeArea_free {p : Requester} {fuel o : Nat} {data : List Byte} (s : State) (enough : data.length ≤ fuel)
    (free : ∀ i < data.length, areaAt (fnOf p) (o + i) = none) : s.writeArea p fuel o data = s := by
  obtain ⟨spare, rfl⟩ := Nat.exists_eq_add_of_le' enough
  rw [State.writeArea_skip p s spare data.length o data free, List.drop_length, State.writeArea_nil]

/-- Of a write that begins in SP_CMD and ends below the next area, SP_CMD takes the bytes up to its end. -/
theorem State.writeArea_spCmd {p : Requester} {fuel o : Nat} {data : List Byte} (s : State) (ne : data ≠ [])
    (enough : data.length ≤ fuel) (lo : 0x1000 ≤ o) (hi : o < 0x1100) (fin : o + data.length ≤ 0x8000) :
    s.writeArea p fuel o data = s.modFn (fnOf p) fun x =>
      { x with spCmd := x.spCmd.store (o - 0x1000) (data.take (0x1100 - o)) } := by
  have pos : 0 < data.length := List.length_pos_iff.mpr ne
  obtain ⟨fuel, rfl⟩ := Nat.exists_eq_add_of_le' (Nat.le_trans pos enough)
  have first : s.writeArea p (fuel + 1) o data = (s.writePart p .spCmd (o - 0x1000) (data.take (0x1100 - o))).writeArea p
      fuel (o + (0x1100 - o)) (data.drop (0x1100 - o)) := by
    simp [State.writeArea, ne, areaAt_spCmd _ lo hi]
  rw [first]
  refine State.writeArea_free _ (by rw [List.length_drop]; omega) fun i hi' => ?_
  rw [List.length_drop] at hi'
  exact areaAt_beside_spCmd _ (by omega) (by omega)

/-! ### Where a write to BAR0 goes -/

/-- In OFF nothing is taken. -/
theorem State.writeBar0_off {p : Requester} {o : Nat} {data : List Byte} {s : State} (h : s.devState = .off) :
    s.writeBar0 p o data = s :=
  if_pos h

/-- An aligned word outside the areas is a register's. -/
theorem State.writeBar0_word {p : Requester} {o : Nat} {data : List Byte} {s : State} (on : s.devState ≠ .off)
    (len : data.length = 4) (al : o % 4 = 0) (free : areaAt (fnOf p) o = none) :
    s.writeBar0 p o data = s.writeReg p o (unle data) := by
  simp [State.writeBar0, on, len, al, free]

/-- Below the MSI-X table, a write that is no aligned word outside the areas reaches the areas alone. -/
theorem State.writeBar0_bytes {p : Requester} {o : Nat} {data : List Byte} {s : State} (on : s.devState ≠ .off)
    (lo : o < 0x2000) (h : ¬(data.length = 4 ∧ o % 4 = 0 ∧ (areaAt (fnOf p) o).isNone)) :
    s.writeBar0 p o data = s.writeArea p data.length o data := by
  unfold State.writeBar0
  rw [if_neg on, if_neg h, if_neg (by omega)]

theorem State.writeReg_qspiStat {p : Requester} (v : Nat) (s : State) (h : fnOf p = 0) : s.writeReg p 0x200 v =
    { s with link := { s.link with qspiStat := s.link.qspiStat &&& ~~~BitVec.ofNat 4 v } } := by
  simp [State.writeReg, h]

/-- No register of SP_RSP takes a word (06 section 6.2). -/
theorem State.writeReg_spRsp {o : Nat} (p : Requester) (v : Nat) (s : State) (lo : 0x1100 ≤ o) (hi : o < 0x1200) :
    s.writeReg p o v = s := by
  unfold State.writeReg
  dsimp only
  rw [if_neg (by omega), if_neg (by omega), if_neg (by omega), if_neg (by omega), if_neg (by omega : ¬(0x2000 ≤ o ∧ _)),
    if_neg (by omega : ¬(0x8000 ≤ o ∧ _)), if_neg (by omega : ¬(0x9000 ≤ o ∧ _)), ite_self]

/-! ### The write by the place it begins at -/

section
variable {p : Requester} {o : Nat} {data : List Byte} {s : State}

theorem State.writeBar0_in_spCmd (short : data.length ≤ 512) (on : s.devState ≠ .off) (lo : 0x1000 ≤ o) (hi : o < 0x1100)
    (ne : data ≠ []) : s.writeBar0 p o data = s.modFn (fnOf p) fun x =>
      { x with spCmd := x.spCmd.store (o - 0x1000) (data.take (0x1100 - o)) } := by
  rw [State.writeBar0_bytes on (by omega) (by simp [areaAt_spCmd _ lo hi])]
  exact State.writeArea_spCmd s ne (Nat.le_refl _) lo hi (by omega)

/-- A write that begins below SP_CMD and runs into it passes the bytes before it. -/
theorem State.writeBar0_into_spCmd (short : data.length ≤ 512) (on : s.devState ≠ .off) (lo : o < 0x1000)
    (hi : 0x1000 < o + data.length) : s.writeBar0 p o data = s.modFn (fnOf p) fun x =>
      { x with spCmd := x.spCmd.store 0 ((data.drop (0x1000 - o)).take 0x100) } := by
  obtain ⟨k, hk⟩ : ∃ k, o + k = 0x1000 := ⟨0x1000 - o, by omega⟩
  obtain ⟨m, hm⟩ : ∃ m, data.length = m + k := ⟨data.length - k, by omega⟩
  have left : (data.drop k).length = m := by rw [List.length_drop]; omega
  have ne : data.drop k ≠ [] := List.length_pos_iff.mp (by omega)
  calc s.writeBar0 p o data
    _ = s.writeArea p (m + k) o data := by rw [State.writeBar0_bytes on (by omega) (by omega), hm]
    _ = s.writeArea p m 0x1000 (data.drop k) := by
      rw [State.writeArea_skip p s m k o data fun i hi => areaAt_beside_spCmd _ (by omega) (by omega), hk]
    _ = _ := by
      rw [State.writeArea_spCmd s ne left.le (by omega) (by omega) (by omega), show 0x1000 - o = k by omega]

theorem State.writeBar0_spRsp (short : data.length ≤ 512) (lo : 0x1100 ≤ o) (hi : o < 0x1200) :
    s.writeBar0 p o data = s := by
  by_cases off : s.devState = .off
  · exact State.writeBar0_off off
  by_cases word : data.length = 4 ∧ o % 4 = 0
  · obtain ⟨len, al⟩ := word
    rw [State.writeBar0_word off len al (areaAt_beside_spCmd _ (.inr lo) (by omega)), State.writeReg_spRsp p _ s lo hi]
  · rw [State.writeBar0_bytes off (by omega) fun ⟨len, al, _⟩ => word ⟨len, al⟩]
    exact State.writeArea_free s (Nat.le_refl _) fun i hi' => areaAt_beside_spCmd _ (by omega) (by omega)

/-- Away from SP_CMD and SP_RSP and below the MSI-X table, a write in part or unaligned has no effect. -/
theorem State.writeBar0_partial (short : data.length ≤ 512)
    (place : (o < 0x1000 ∧ o + data.length ≤ 0x1000) ∨ (0x1200 ≤ o ∧ o < 0x2000)) (h : data.length ≠ 4 ∨ o % 4 ≠ 0) :
    s.writeBar0 p o data = s := by
  by_cases off : s.devState = .off
  · exact State.writeBar0_off off
  rw [State.writeBar0_bytes off (by omega) (by omega)]
  exact State.writeArea_free s (Nat.le_refl _) fun i hi => areaAt_beside_spCmd _ (by omega) (by omega)

end

/-- REGISTER_WRITE ends in the state that the write leaves, when that kept the queue. -/
theorem exec_registerWrite {p : Requester} {off : BitVec 16} {data : List Byte} {s t : State}
    (h : s.writeBar0 p off.toNat data = t) (q : t.pending = s.pending) :
    exec (.registerWrite p off data) s = .next t :=
  (done_eq (h ▸ q)).trans (congrArg _ h)

end Sys2Proof.Machine

open Sys2Proof Sys2Proof.Machine

/-- Settles O17, by where the write begins: the walk over its bytes reaches SP_CMD or no area at all, and an aligned
word outside the areas goes to its register. -/
theorem registerWritesWholeOrNothing : Obligations.RegisterWritesWholeOrNothing := by
  intro p off data s short
  refine ⟨?inOff, ?inSpCmd, ?intoSpCmd, ?spRsp, ?part, ?qspiStat⟩
  case inOff => exact fun h => exec_registerWrite (State.writeBar0_off h) rfl
  case inSpCmd => exact fun on lo hi ne => exec_registerWrite (State.writeBar0_in_spCmd short on lo hi ne) rfl
  case intoSpCmd => exact fun on lo hi => exec_registerWrite (State.writeBar0_into_spCmd short on lo hi) rfl
  case spRsp => exact fun lo hi => exec_registerWrite (State.writeBar0_spRsp short lo hi) rfl
  case part => exact fun place h => exec_registerWrite (State.writeBar0_partial short place h) rfl
  case qspiStat =>
    rintro on pf0 rfl len
    refine exec_registerWrite ?_ rfl
    calc s.writeBar0 p 0x200 data
      _ = s.writeReg p 0x200 (unle data) :=
        State.writeBar0_word on len (by decide) (areaAt_beside_spCmd _ (by decide) (by decide))
      _ = _ := State.writeReg_qspiStat (unle data) s pf0

end

section
/-! PROOF. The Scoreboard after a completion: a waybill that completes leaves it, and settling the waits that this ends
puts nothing back (09 R185). -/

namespace Sys2Proof.Machine

/-- The fetch ordinals of the waybills in flight. -/
def State.flightIds (s : State) : List Nat := s.sched.flight.map (·.id)

theorem State.mem_flightIds {s : State} {k : Nat} : k ∈ s.flightIds ↔ ∃ v ∈ s.sched.flight, v.id = k := List.mem_map

theorem flightIds_of_only {ps : List Part} {s t : State} (h : Only ps s t) (hp : Part.sched ∉ ps) :
    t.flightIds = s.flightIds :=
  congrArg (fun x : SchedSt => x.flight.map fun v : Waybill => v.id) (h.2 .sched hp : t.sched = s.sched)

theorem flightIds_foldl {α : Type} (f : State → α → State) (h : ∀ s a, (f s a).flightIds = s.flightIds) (l : List α) :
    ∀ s, (l.foldl f s).flightIds = s.flightIds := by
  induction l with
  | nil => exact fun _ => rfl
  | cons a r ih => exact fun s => (ih _).trans (h s a)

/-- A change of each waybill that keeps its ordinal keeps the ordinals of all. -/
theorem map_ids (f : Waybill → Waybill) (h : ∀ v, (f v).id = v.id) (l : List Waybill) :
    (l.map f).map (·.id) = l.map (·.id) := by
  rw [List.map_map]; exact List.map_congr_left fun v _ => h v

theorem flightIds_map (f : Waybill → Waybill) (h : ∀ v, (f v).id = v.id) (s : State) :
    State.flightIds { s with sched := { s.sched with flight := s.sched.flight.map f } } = s.flightIds :=
  map_ids f h s.sched.flight

theorem flightIds_setOutcomes (w : Waybill) (o : Nat → Option Nat) (s : State) :
    (s.setOutcomes w o).flightIds = s.flightIds := by
  unfold State.setOutcomes
  refine (flightIds_map (w.takeOutcome o) (fun _ => rfl) _).trans (flightIds_foldl _ (fun t k => ?_) _ s)
  dsimp only
  split
  · split <;> rfl
  · rfl

theorem flightIds_poolFailed (w : Waybill) (status : Nat) (s : State) :
    (s.poolFailed w status).flightIds = s.flightIds := by
  unfold State.poolFailed
  split
  · rfl
  · split
    · refine (map_ids _ (fun v => ?_) _).trans (flightIds_of_only (Only.unregister _ s) (by decide))
      split <;> rfl
    · rfl

/-- A record written to its ring leaves the Scheduler. -/
theorem writeRecord_frame (i : QueueInfo) (bs : List Byte) (s : State) :
    Only (.queues :: memParts) s (s.writeRecord i bs) := by
  unfold State.writeRecord
  refine Only.when ?_ fun x => (Only.signal _ _ x).mono (by decide)
  exact (((Only.writeDev _ _ bs s).mono (by decide)).trans ((Only.count _ _ _ _).mono (by decide))).trans
    (((Only.count _ _ _ _).mono (by decide)).trans ((Only.modQueue _ _ _ _).mono (by decide)))

/-- So does a record delivered, whether into the ring or into the hold store. -/
theorem deliver_frame (c q : Nat) (bs : List Byte) (s : State) : Only (.queues :: memParts) s (s.deliver c q bs) := by
  unfold State.deliver
  split
  · exact Only.refl _ s
  · exact Only.ite (fun _ => (Only.modQueue _ _ _ s).mono (by decide)) fun _ => writeRecord_frame _ bs s

/-- A waybill that completes leaves the Scoreboard, and no other does. -/
theorem flightIds_finish (w : Waybill) (status detail : Nat) (f : DoneFlags) (b : Bool) (s : State) :
    (s.finish w status detail f b).flightIds = s.flightIds.filter (· != w.id) := by
  unfold State.finish
  refine (flightIds_of_only (deliver_frame _ _ _ _) (by decide)).trans ?_
  refine (flightIds_of_only (Only.countDone _ _ _ _ _ _) (by decide)).trans ?_
  refine (map_ids (fun v : Waybill => { v with waits := v.waits.filter (· != w.id) }) (fun _ => rfl) _).trans ?_
  rw [← flightIds_poolFailed w status s, ← flightIds_setOutcomes w (outcomeOf status b)]
  exact (List.filter_map (f := fun v : Waybill => v.id) (p := (· != w.id))).symm

theorem flightIds_settle_subset (n : Nat) : ∀ s : State, (s.settle n).flightIds ⊆ s.flightIds := by
  have finish_subset : ∀ (w : Waybill) (status : Nat) (s : State),
      (s.finish w status 0 {} false).flightIds ⊆ s.flightIds := fun w status s => by
    rw [flightIds_finish]; exact List.filter_subset_self _
  induction n with
  | zero => exact fun s => List.Subset.refl _
  | succ n ih =>
    intro s
    unfold State.settle
    split
    · exact List.Subset.refl _
    · dsimp only
      split
      · exact List.Subset.trans (ih _) (finish_subset _ _ s)
      · split
        · exact List.Subset.trans (ih _) (finish_subset _ _ s)
        · refine List.Subset.trans (ih _) ?_
          rw [flightIds_map _ fun v => by split <;> rfl]
          exact List.Subset.refl _

theorem flightIds_complete (w : Waybill) (status detail : Nat) (f : DoneFlags) (s : State) :
    w.id ∉ (s.complete w status detail f).flightIds := fun h => by
  have := flightIds_settle_subset _ _ h
  rw [flightIds_finish] at this
  simp at this

/-- A waybill that has completed has ended. -/
theorem ends_complete (w : Waybill) (status detail : Nat) (f : DoneFlags) (s : State) :
    Ends w status detail s (s.complete w status detail f) :=
  ⟨⟨f, rfl⟩, fun v hv e => flightIds_complete w status detail f s (State.mem_flightIds.2 ⟨v, hv, e⟩)⟩

/-- Of some waybills that complete in turn, none stays. -/
theorem flightIds_foldl_finish (status : Nat) (l : List Waybill) : ∀ s : State,
    (l.foldl (fun t w => t.finish w status 0 {} false) s).flightIds ⊆ s.flightIds ∧
    ∀ w ∈ l, w.id ∉ (l.foldl (fun t w => t.finish w status 0 {} false) s).flightIds := by
  induction l with
  | nil => exact fun s => ⟨List.Subset.refl _, fun w h => absurd h List.not_mem_nil⟩
  | cons v r ih =>
    intro s
    obtain ⟨sub, gone⟩ := ih (s.finish v status 0 {} false)
    rw [flightIds_finish] at sub
    refine ⟨List.Subset.trans sub (List.filter_subset_self _), fun w hw => ?_⟩
    rcases List.mem_cons.1 hw with rfl | hw
    · exact fun h => by simpa using sub h
    · exact gone w hw

/-- The waybills that run and that a condition picks are cut, and leave the Scoreboard (01 R24). -/
theorem flightIds_abortRunning (p : Waybill → Bool) {s : State} {w : Waybill} (hw : w ∈ s.sched.flight)
    (run : w.running = true) (hp : p w = true) : w.id ∉ (s.abortRunning p).flightIds := fun h => by
  refine (flightIds_foldl_finish 0x4402 (s.sched.flight.filter fun w => w.running && p w) s).2 w ?_
    (flightIds_settle_subset _ _ h)
  simp [hw, run, hp]

end Sys2Proof.Machine
end

section
/-! PROOF. Entering and leaving FENCED (01 section 1.6): what a fence line does to its own block, to the other lines, to
the waybills that run, and to the ring's monitor. -/

namespace Sys2Proof.Machine

/-! ### Entering -/

/-- A part outside the frame, carried to the fence of a block. -/
theorem fenceOf_of_only {ps : List Part} {s t : State} (h : Only ps s t) (hp : Part.fences ∉ ps) (b : Nat) :
    t.fenceOf b = s.fenceOf b :=
  congrArg (fun m : Map Fence => Map.get ({} : Fence) m b) (h.2 .fences hp : t.fences = s.fences)

theorem enterFence_of_fenced {b : Nat} {s : State} (h : s.isFenced b = true) : s.enterFence b = s := if_pos h

/-- Raising a fence line begins its next generation. -/
theorem gen_raiseFence (b : Nat) (s : State) : ((s.raiseFence b).fenceOf b).gen = (s.fenceOf b).gen + 1 := by
  have set : ((s.modFence b fun f => { f with fenced := true, gen := f.gen + 1 }).fenceOf b) =
      { s.fenceOf b with fenced := true, gen := (s.fenceOf b).gen + 1 } := Map.get_set_self _ _ _ _ (fence_line_ne rfl)
  unfold State.raiseFence
  rw [fenceOf_of_only (Only.camFence b _) (by decide), set]

theorem gen_enterFence {b : Nat} {s : State} (h : s.isFenced b = false) :
    ((s.enterFence b).fenceOf b).gen = (s.fenceOf b).gen + 1 := by
  unfold State.enterFence
  rw [if_neg (by simp [h]), fenceOf_of_only (Only.postFence _ _ _) (by decide),
    fenceOf_of_only (Only.abortRunning _ _) (by decide), gen_raiseFence]

/-- A waybill that runs on a block which enters FENCED leaves the Scoreboard (01 R24). -/
theorem flightIds_enterFence {b : Nat} {s : State} (h : s.isFenced b = false) {w : Waybill} (hw : w ∈ s.sched.flight)
    (on : w.engine = some b) : w.id ∉ (s.enterFence b).flightIds := by
  unfold State.enterFence
  rw [if_neg (by simp [h]), flightIds_of_only (Only.postFence _ _ _) (by decide)]
  have raised : (s.raiseFence b).sched = s.sched := (Only.raiseFence b s).get .sched
  refine flightIds_abortRunning _ (raised ▸ hw) ?_ ?_
  · simp [Waybill.running, on]
  · simp [on]

/-! ### Leaving -/

/-- The fence line of a block falls and FENCE_EXIT is posted; `lowerFence` adds what this does to the ring's monitor. -/
def State.fenceFallen (b : Nat) (s : State) : State :=
  (s.modFence b fun f => { f with fenced := false }).postFence 0x0005 b

theorem fenceOf_fenceFallen (b c : Nat) {s : State} (wf : Map.wf ({} : Fence) s.fences = true) :
    (s.fenceFallen b).fenceOf c = if c = b then { s.fenceOf b with fenced := false } else s.fenceOf c := by
  unfold State.fenceFallen
  rw [fenceOf_of_only (Only.postFence _ _ _) (by decide), State.fenceOf_modFence _ _ _ _ wf]

theorem isFenced_fenceFallen (b c : Nat) {s : State} (wf : Map.wf ({} : Fence) s.fences = true) :
    (s.fenceFallen b).isFenced c = if c = b then false else s.isFenced c := by
  unfold State.isFenced
  rw [fenceOf_fenceFallen b c wf]
  split <;> rfl

theorem Only.fenceFallen (b : Nat) (s : State) : Only [.fences, .events, .irq, .out] s (s.fenceFallen b) :=
  ((Only.modFence b _ s).mono (by decide)).trans ((Only.postFence _ b _).mono (by decide))

/-- Of the ring's stations the first leaves FENCED as the line of `b` falls (02 Table 2.7). -/
def State.ringWakes (b : Nat) (s : State) : Bool :=
  (List.range 19).all (fun e => s.stationFenced e) && (List.range 19).any (fun e => !(s.fenceFallen b).stationFenced e)

theorem lowerFence_eq {b : Nat} {s : State} (h : s.isFenced b = true) : s.lowerFence b =
    if s.ringWakes b then { s.fenceFallen b with sched := { (s.fenceFallen b).sched with lastCircuit := s.now } }
    else s.fenceFallen b := by
  have now : (s.fenceFallen b).now = s.now := congrArg TimeSt.ms ((Only.fenceFallen b s).get .time)
  rw [← now]
  exact if_pos h

/-- A line that falls beside the ring, or while a station works, is nothing to the ring's monitor. -/
theorem ringWakes_false {b : Nat} {s : State} (wf : Map.wf ({} : Fence) s.fences = true)
    (h : (∃ e < 19, s.stationFenced e = false) ∨ (19 ≤ b ∧ b ≠ 0x60)) : s.ringWakes b = false := by
  rw [State.ringWakes, Bool.and_eq_false_iff]
  rcases h with ⟨e, he, awake⟩ | ⟨out, ne⟩
  · left
    rw [List.all_eq_false]
    exact ⟨e, List.mem_range.2 he, by simp [awake]⟩
  · by_cases all : (List.range 19).all (fun e => s.stationFenced e) = true
    · right
      rw [List.any_eq_false]
      intro e he
      have lt := List.mem_range.1 he
      have still : (s.fenceFallen b).stationFenced e = s.stationFenced e := by
        simp [State.stationFenced, isFenced_fenceFallen b _ wf, show e ≠ b by omega, ne.symm]
      simpa [still] using List.all_eq_true.1 all e he
    · exact Or.inl (Bool.not_eq_true _ ▸ all)

/-- The first station to leave FENCED wakes the ring's monitor. -/
theorem ringWakes_true {b : Nat} {s : State} (wf : Map.wf ({} : Fence) s.fences = true) (hb : b < 19)
    (island : s.isFenced 0x60 = false) (all : ∀ e < 19, s.stationFenced e = true) : s.ringWakes b = true := by
  rw [State.ringWakes, Bool.and_eq_true, List.all_eq_true, List.any_eq_true]
  refine ⟨fun e he => all e (List.mem_range.1 he), b, List.mem_range.2 hb, ?_⟩
  simp [State.stationFenced, isFenced_fenceFallen b _ wf, island, show 96 ≠ b by omega]

/-! ### FENCE_EXIT -/

/-- What keeps a block FENCED: the endpoint waits for LINK_UP, a block powered down for POWER_UP, one whose supply is
lost for its supply, a block of a fenced Perception Island for the island (01 R22, R29). -/
def State.fenceStays (b : Nat) (s : State) : Prop :=
  b = 0x50 ∨ (s.fenceOf b).poweredDown = true ∨ (∃ r ∈ railsOf b, r ∈ s.lostRails) ∨
  (b ∈ piBlocks ∧ s.isFenced 0x60 = true)

theorem railsOf_any (b : Nat) (s : State) :
    (railsOf b).any s.lostRails.contains = true ↔ ∃ r ∈ railsOf b, r ∈ s.lostRails := by
  simp [List.any_eq_true]

/-- The island is none of its own blocks. -/
theorem island_notMem_piBlocks : 0x60 ∉ piBlocks := by decide

theorem fenceExit_stays {b : BitVec 8} {s : State} (h : s.isFenced b.toNat = false ∨ s.fenceStays b.toNat) :
    exec (.fenceExit b) s = .next s := by
  refine (congrArg (done s) ?_).trans (done_eq rfl)
  by_cases early : (!s.isFenced b.toNat || b.toNat == 0x50 || (s.fenceOf b.toNat).poweredDown ||
      (railsOf b.toNat).any s.lostRails.contains) = true
  · exact if_pos early
  · rw [if_neg early]
    simp only [Bool.or_eq_true, railsOf_any, not_or, Bool.not_eq_true', Bool.not_eq_false, beq_iff_eq] at early
    obtain ⟨⟨⟨on, ep⟩, down⟩, rails⟩ := early
    obtain ⟨block, island⟩ : b.toNat ∈ piBlocks ∧ s.isFenced 0x60 = true := by
      simpa [on, ep, down, rails, State.fenceStays] using h
    rw [if_neg fun e : b.toNat = 0x60 => island_notMem_piBlocks (e ▸ block), if_pos (by simp [block, island])]

theorem fenceExit_lowers {b : BitVec 8} {s : State} (on : s.isFenced b.toNat = true) (free : ¬ s.fenceStays b.toNat)
    (ne : b.toNat ≠ 0x60) : exec (.fenceExit b) s = done s (s.lowerFence b.toNat) := by
  simp only [State.fenceStays, not_or] at free
  obtain ⟨ep, down, rails, island⟩ := free
  refine congrArg (done s) ?_
  rw [if_neg, if_neg ne, if_neg]
  · simpa using island
  · rw [Bool.or_eq_true, railsOf_any]
    simp [on, ep, down, rails]

theorem canonical_fences {s : State} (h : s.canonical = true) : Map.wf ({} : Fence) s.fences = true := by
  simp only [State.canonical, Bool.and_eq_true] at h
  tauto

end Sys2Proof.Machine

open Sys2Proof Sys2Proof.Machine

/-- Settles O15: entering by what raising a line and cutting the running waybills do, leaving by what keeps a block
FENCED and by whether its line is the first of the ring to fall. -/
theorem fencesAbortAndLift : Obligations.FencesAbortAndLift := by
  refine ⟨⟨fun b c s => ?lines, fun b s on => enterFence_of_fenced on, fun b s off => ⟨gen_enterFence off, ?flight,
    Only.enterFence b s⟩⟩, fun b s can on ep down rails ne block => ?leaves, fun b s h => fenceExit_stays h⟩
  case lines => rw [isFenced_enterFence]; by_cases e : c = b <;> simp [e]
  case flight =>
    exact fun w hw run v hv e => flightIds_enterFence off hw run (State.mem_flightIds.2 ⟨v, hv, e⟩)
  case leaves =>
    have wf := canonical_fences can
    have free : ¬ s.fenceStays b.toNat := by
      rintro (h | h | ⟨r, hr, lost⟩ | ⟨h, island⟩)
      · exact ep h
      · simp [h] at down
      · exact rails r hr lost
      · simp [island] at block; exact block h
    have keeps := (Only.fenceFallen b.toNat s).1
    intro t
    refine ⟨?_, fun c hc => ?_, fun h => ?_, fun all lt => ?_⟩
    · exact (isFenced_fenceFallen _ _ wf).trans (if_pos rfl)
    · exact (isFenced_fenceFallen _ _ wf).trans (if_neg hc)
    · have asleep := ringWakes_false wf (h.imp_right fun out => ⟨out, ne⟩)
      rw [fenceExit_lowers on free ne, lowerFence_eq on, asleep]
      exact done_eq keeps
    · have station : b.toNat ∈ piBlocks := by
        revert lt; generalize b.toNat = n; revert n; decide
      have wakes := ringWakes_true wf lt (block station) all
      rw [fenceExit_lowers on free ne, lowerFence_eq on, wakes]
      exact done_eq keeps
end

section
/-! PROOF. The Perception Island's reset (01 R10, R29): zeroing a memory leaves no byte in it, and lowering the island's
fences lifts those of its blocks that are not powered down. -/

namespace Sys2Proof.Machine

/-! ### Zeroing a memory -/

theorem Map.get_of_notMem {α : Type} (d : α) (m : Map α) (k : Nat) (h : ∀ p ∈ m, p.1 ≠ k) : Map.get d m k = d := by
  induction m with
  | nil => rfl
  | cons p r ih =>
    have here : p.1 ≠ k := h p List.mem_cons_self
    simp only [Map.get, here, if_false]
    split
    · rfl
    · exact ih fun q hq => h q (List.mem_cons_of_mem _ hq)

/-- A cleared range reads as the default, whatever the form of the map. -/
theorem Map.get_clear {α : Type} (d : α) (m : Map α) {lo n k : Nat} (hlo : lo ≤ k) (hhi : k < lo + n) :
    Map.get d (m.clear lo n) k = d := by
  refine Map.get_of_notMem d _ k fun p hp e => ?_
  have out := (List.mem_filter.1 hp).2
  simp only [Bool.or_eq_true, decide_eq_true_eq] at out
  omega

theorem State.space_sw (s : State) : s.space .sw = s.mem.sward := rfl

theorem State.space_tag (s : State) : s.space .tag = s.mem.tag := rfl

/-- A part outside the frame, carried to a memory. -/
theorem space_of_only {ps : List Part} {s t : State} (h : Only ps s t) (hp : Part.mem ∉ ps) (m : Mem) :
    t.space m = s.space m := by
  have e : t.mem = s.mem := h.2 .mem hp
  cases m <;> simp [State.space, e]

@[simp] theorem State.space_draw (s : State) (m : Mem) : s.draw.2.space m = s.space m := by cases m <;> rfl

@[simp] theorem State.space_setMark_ne {m n : Mem} (h : n ≠ m) (w : Nat) (e : Ecc) (s : State) :
    (s.setMark m w e).space n = s.space n := (space_setSpace m n _ s).trans (if_neg h)

@[simp] theorem State.space_setWord_ne {m n : Mem} (h : n ≠ m) (w v : Nat) (s : State) :
    (s.setWord m w v).space n = s.space n := (space_setSpace m n _ s).trans (if_neg h)

@[simp] theorem State.cells_setMark (m : Mem) (w : Nat) (e : Ecc) (s : State) :
    ((s.setMark m w e).space m).cells = (s.space m).cells := by rw [State.setMark, space_setSpace, if_pos rfl]

@[simp] theorem State.hard_setMark (m : Mem) (w : Nat) (e : Ecc) (s : State) :
    ((s.setMark m w e).space m).hard = (s.space m).hard := by rw [State.setMark, space_setSpace, if_pos rfl]

@[simp] theorem State.hard_setWord (m : Mem) (w v : Nat) (s : State) :
    ((s.setWord m w v).space m).hard = (s.space m).hard := by rw [State.setWord, space_setSpace, if_pos rfl]

/-- Writing the check bits of one memory leaves the others. -/
theorem space_reMark_ne {m n : Mem} (h : n ≠ m) (w : Nat) (b : Bool) (s : State) :
    (s.reMark m w b).space n = s.space n := by
  unfold State.reMark
  dsimp only
  repeat' split
  all_goals simp [h]

theorem hard_reMark (m : Mem) (w : Nat) (b : Bool) (s : State) :
    ((s.reMark m w b).space m).hard = (s.space m).hard := by
  unfold State.reMark
  dsimp only
  repeat' split
  all_goals simp

/-- A word written clean keeps its data unless more than two of its bits are stuck (08 R396). -/
theorem cells_reMark_clean {m : Mem} {w : Nat} {s : State} (h : Map.get 0 (s.space m).hard w ≤ 2) :
    ((s.reMark m w false).space m).cells = (s.space m).cells := by
  unfold State.reMark
  dsimp only
  split
  · exact State.cells_setMark ..
  split
  · exact State.cells_setMark ..
  rw [if_pos (by simp only [Bool.not_false, Bool.and_true, decide_eq_true_eq]; omega), State.cells_setMark,
    State.space_draw]

theorem space_cleanRange_ne {m n : Mem} (h : n ≠ m) (a k : Nat) (s : State) :
    (s.cleanRange m a k).space n = s.space n := by
  have fold : ∀ (l : List (Nat × Nat)) (t : State),
      (l.foldl (fun t h => t.reMark m h.1 false) t).space n = t.space n := fun l => by
    induction l with
    | nil => exact fun t => rfl
    | cons p r ih => exact fun t => (ih _).trans (space_reMark_ne h _ _ t)
  exact (fold _ _).trans ((space_setSpace m n _ s).trans (if_neg h))

theorem cells_cleanRange {m : Mem} {s : State} (hard : ∀ w, Map.get 0 (s.space m).hard w ≤ 2) (a k : Nat) :
    ((s.cleanRange m a k).space m).cells = (s.space m).cells := by
  have fold : ∀ (l : List (Nat × Nat)) (t : State), (∀ w, Map.get 0 (t.space m).hard w ≤ 2) →
      ((l.foldl (fun t h => t.reMark m h.1 false) t).space m).cells = (t.space m).cells := fun l => by
    induction l with
    | nil => exact fun t _ => rfl
    | cons p r ih =>
      exact fun t ht => (ih _ fun w => by rw [hard_reMark]; exact ht w).trans (cells_reMark_clean (ht p.1))
  refine (fold _ _ fun w => ?_).trans ?_
  · rw [space_setSpace, if_pos rfl]; exact hard w
  · rw [space_setSpace, if_pos rfl]

theorem space_zeroRange_ne {m n : Mem} (h : n ≠ m) (a k : Nat) (s : State) :
    (s.zeroRange m a k).space n = s.space n :=
  (space_cleanRange_ne h a k _).trans ((space_setSpace m n _ s).trans (if_neg h))

/-- A zeroed range reads 0 where no word of the memory has more than two stuck bits. -/
theorem get_zeroRange {m : Mem} {s : State} (hard : ∀ w, Map.get 0 (s.space m).hard w ≤ 2) {a k i : Nat} (lo : a ≤ i)
    (hi : i < a + k) : Map.get 0 ((s.zeroRange m a k).space m).cells i = 0 := by
  unfold State.zeroRange
  rw [cells_cleanRange, space_setSpace, if_pos rfl]
  · exact Map.get_clear 0 _ lo hi
  · intro w; rw [space_setSpace, if_pos rfl]; exact hard w

theorem get_zeroSward {s : State} (hard : ∀ w, Map.get 0 s.mem.sward.hard w ≤ 2) {a : Nat} (ha : a < swardSize) :
    Map.get 0 (s.zeroSward.space .sw).cells a = 0 := by
  rw [State.zeroSward, space_zeroRange_ne (by decide)]
  exact get_zeroRange (m := .sw) (s := s) hard (Nat.zero_le a) (by omega)

theorem get_zeroSward_tag {s : State} (hard : ∀ w, Map.get 0 s.mem.tag.hard w ≤ 2) {l : Nat} (hl : l < swardSize / 64) :
    Map.get 0 (s.zeroSward.space .tag).cells l = 0 := by
  refine get_zeroRange (fun w => ?_) (Nat.zero_le l) (by omega)
  rw [space_zeroRange_ne (by decide)]
  exact hard w

/-! ### The registry and the Intake Engine -/

/-- Marking granules pending leaves the words of every memory. -/
theorem space_markPending (gs : List Nat) (m : Mem) (s : State) : (s.markPending gs).space m = s.space m := by
  unfold State.markPending State.zeroDone
  split
  · refine (space_of_only (Only.post _ _ _ _) (by decide) m).trans ?_
    cases m <;> rfl
  · cases m <;> rfl

theorem space_unregister (f : Pool → Bool) (m : Mem) (s : State) : (s.unregister f).space m = s.space m := by
  have fold : ∀ (l : List Pool) (t : State), (l.foldl (fun t p => t.markPending p.granules) t).space m = t.space m :=
    fun l => by
      induction l with
      | nil => exact fun t => rfl
      | cons p r ih => exact fun t => (ih _).trans (space_markPending _ m t)
  refine (fold _ _).trans ?_
  cases m <;> rfl

theorem pools_unregister (f : Pool → Bool) (s : State) : (s.unregister f).pools = s.pools.filter fun p => !f p :=
  (Only.foldl (ps := memParts) _ (fun t (p : Pool) => Only.markPending p.granules t) _ _).get .pools

theorem intake_closeIntake_all (s : State) : (s.closeIntake fun _ => true).intake = { streams := [], dicts := [] } := by
  simp [State.closeIntake]

theorem Only.closeIntake (f : Nat → Bool) (s : State) : Only [.intake, .sched] s (s.closeIntake f) :=
  ⟨rfl, fun p hp => by cases p <;> first | rfl | exact fun _ => rfl | exact absurd (by decide) hp⟩

/-! ### Lowering the island's fences -/

theorem lowerFence_of_down {b : Nat} {s : State} (h : s.isFenced b = false) : s.lowerFence b = s := if_neg (by simp [h])

theorem Only.lowerFence (b : Nat) (s : State) : Only [.fences, .events, .irq, .out, .sched] s (s.lowerFence b) := by
  cases on : s.isFenced b with
  | false => rw [lowerFence_of_down on]; exact Only.refl _ s
  | true =>
    rw [lowerFence_eq on]
    have fallen := (Only.fenceFallen b s).mono (qs := [.fences, .events, .irq, .out, .sched]) (by decide)
    exact Only.ite (fun _ => fallen.trans ((Only.ofSched _ _).mono (by decide))) fun _ => fallen

/-- A lowered line is down with its generation; every other line stands as it stood. -/
theorem fenceOf_lowerFence (b c : Nat) {s : State} (wf : Map.wf ({} : Fence) s.fences = true) :
    (s.lowerFence b).fenceOf c = if c = b then { s.fenceOf b with fenced := false } else s.fenceOf c := by
  cases on : s.isFenced b with
  | false =>
    have down : { s.fenceOf b with fenced := false } = s.fenceOf b := by
      rw [← show (s.fenceOf b).fenced = false from on]
    rw [lowerFence_of_down on, down]
    split
    · exact congrArg _ ‹_›
    · rfl
  | true =>
    rw [lowerFence_eq on, ← fenceOf_fenceFallen b c wf]
    split <;> rfl

theorem wf_lowerFence (b : Nat) {s : State} (wf : Map.wf ({} : Fence) s.fences = true) :
    Map.wf ({} : Fence) (s.lowerFence b).fences = true := by
  cases on : s.isFenced b with
  | false => exact (lowerFence_of_down on).symm ▸ wf
  | true =>
    have fallen : (s.fenceFallen b).fences = s.fences.set {} b { s.fenceOf b with fenced := false } :=
      (Only.postFence 5 b _).get .fences
    have lowered : (s.lowerFence b).fences = (s.fenceFallen b).fences := by rw [lowerFence_eq on]; split <;> rfl
    rw [lowered, fallen]
    exact Map.wf_set _ _ _ _ wf

/-- A fence as the end of the island's reset leaves it: lifted, but for a block powered down. -/
def Fence.lifted (f : Fence) : Fence := if f.poweredDown then f else { f with fenced := false }

/-- Lower the lines of some blocks, but of those powered down. -/
def State.liftFences (bs : List Nat) (s : State) : State :=
  bs.foldl (fun (t : State) b => if (t.fenceOf b).poweredDown then t else t.lowerFence b) s

theorem Only.liftFences (bs : List Nat) (s : State) : Only [.fences, .events, .irq, .out, .sched] s (s.liftFences bs) :=
  Only.foldl _ (fun t b => Only.ite (fun _ => Only.refl _ t) fun _ => Only.lowerFence b t) bs s

theorem fenceOf_liftFences (bs : List Nat) (c : Nat) : ∀ {s : State}, Map.wf ({} : Fence) s.fences = true →
    (s.liftFences bs).fenceOf c = if c ∈ bs then (s.fenceOf c).lifted else s.fenceOf c := by
  induction bs with
  | nil => exact fun _ => rfl
  | cons b r ih =>
    intro s wf
    rw [State.liftFences, List.foldl_cons, ← State.liftFences]
    by_cases down : (s.fenceOf b).poweredDown = true
    · rw [if_pos down, ih wf]
      by_cases e : c = b
      · subst e; simp [Fence.lifted, down]
      · simp [e]
    · rw [if_neg down, ih (wf_lowerFence b wf), fenceOf_lowerFence b c wf]
      by_cases e : c = b
      · subst e; simp [Fence.lifted, down]
      · simp [e]

/-! ### The end of the reset -/

/-- The reset is no longer in progress, and nothing asks for another. -/
def State.piResetOver (s : State) : State :=
  { s with piReset := false, pace := { s.pace with thermalFence := false, hostReset := false },
           fw := { s.fw with runSinceZero := s.active } }

/-- The island's reset before the fences fall: Sward zeroed, pools, streams and dictionaries gone. -/
def State.piCleared (s : State) : State :=
  ((s.zeroSward.unregister fun _ => true).closeIntake fun _ => true).piResetOver

theorem exitPi_eq (s : State) : s.exitPi =
    let t := s.piCleared.liftFences (0x60 :: piBlocks)
    if t.devState = .fenced then t.enter .run 0 else t := rfl

theorem Only.piResetOver (s : State) : Only [.piReset, .pace, .fw] s s.piResetOver :=
  ⟨rfl, fun p hp => by cases p <;> first | rfl | exact fun _ => rfl | exact absurd (by decide) hp⟩

/-- What the reset changes before the fences fall. -/
def clearedParts : List Part :=
  [.mem, .free, .counters, .records, .events, .irq, .out, .pools, .intake, .sched, .piReset, .pace, .fw]

theorem Only.piCleared (s : State) : Only clearedParts s s.piCleared := by
  have zeroed : Only clearedParts s s.zeroSward :=
    ((Only.zeroRange .sw _ _ s).trans (Only.zeroRange .tag _ _ _)).mono (by decide)
  exact zeroed.trans (((Only.unregister _ _).mono (by decide)).trans
    (((Only.closeIntake _ _).mono (by decide)).trans ((Only.piResetOver _).mono (by decide))))

theorem space_piCleared (s : State) (m : Mem) : s.piCleared.space m = s.zeroSward.space m := by
  rw [← space_unregister (fun _ => true) m s.zeroSward]
  exact (space_of_only (Only.piResetOver _) (by decide) m).trans (space_of_only (Only.closeIntake _ _) (by decide) m)

theorem pools_piCleared (s : State) : s.piCleared.pools = [] := by
  refine ((Only.piResetOver _).get .pools).trans (((Only.closeIntake _ _).get .pools).trans ?_)
  rw [pools_unregister]
  simp

theorem intake_piCleared (s : State) : s.piCleared.intake = { streams := [], dicts := [] } :=
  ((Only.piResetOver _).get .intake).trans (intake_closeIntake_all _)

/-- Once the fences have fallen the device state alone follows: FENCED becomes RUN. -/
theorem Only.exitPi_cleared (s : State) :
    Only [.fences, .events, .irq, .out, .sched, .devState] s.piCleared s.exitPi := by
  rw [exitPi_eq]
  exact Only.when ((Only.liftFences _ _).mono (by decide)) fun t => (Only.enter _ _ t).mono (by decide)

theorem Only.exitPi (s : State) : Only [.devState, .mem, .free, .counters, .records, .events, .irq, .out, .pools,
    .intake, .piReset, .pace, .fw, .fences, .sched] s s.exitPi :=
  ((Only.piCleared s).mono (by decide)).trans ((Only.exitPi_cleared s).mono (by decide))

theorem devState_exitPi (s : State) : s.exitPi.devState = if s.devState = .fenced then .run else s.devState := by
  have kept : (s.piCleared.liftFences (0x60 :: piBlocks)).devState = s.devState :=
    ((Only.liftFences _ _).get .devState).trans ((Only.piCleared s).get .devState)
  rw [exitPi_eq]
  dsimp only
  rw [kept]
  split
  · exact devState_enter _ _ _
  · exact kept

/-- The fence of each block after the reset: lifted for the island and its blocks, as it was elsewhere. -/
theorem fenceOf_exitPi (c : Nat) {s : State} (wf : Map.wf ({} : Fence) s.fences = true) :
    s.exitPi.fenceOf c = if c ∈ 0x60 :: piBlocks then (s.fenceOf c).lifted else s.fenceOf c := by
  have fences : s.piCleared.fences = s.fences := (Only.piCleared s).get .fences
  have entered : s.exitPi.fenceOf c = (s.piCleared.liftFences (0x60 :: piBlocks)).fenceOf c := by
    rw [exitPi_eq]
    dsimp only
    split
    · exact fenceOf_of_only (Only.enter _ _ _) (by decide) c
    · rfl
  rw [entered, fenceOf_liftFences _ _ (fences ▸ wf), fenceOf_of_only (Only.piCleared s) (by decide)]

/-! ### FENCE_EXIT of the island -/

/-- The island's own reset has ended, and neither a thermal fence nor a FAULT holds the island (02 R49, 05 R108). -/
def State.islandReady (s : State) : Bool :=
  s.piReset && !s.fw.piHeld && (!s.pace.thermalFence || s.pace.hostReset)

theorem fenceExit_island {s : State} (on : s.isFenced 0x60 = true) (up : (s.fenceOf 0x60).poweredDown = false)
    (rail : Rail.vcore ∉ s.lostRails) (ready : s.islandReady = true) :
    exec (.fenceExit 0x60) s = done s s.exitPi := by
  refine congrArg (done s) ((if_neg ?_).trans ((if_pos rfl).trans (if_pos ready)))
  have rails : railsOf 0x60 = [.vcore] := by decide
  change ¬((!s.isFenced 0x60 || 0x60 == 0x50 || (s.fenceOf 0x60).poweredDown || (railsOf 0x60).any _) = true)
  simp [on, up, rails, rail]

theorem fenceExit_island_waits {s : State} (waits : s.islandReady = false) : exec (.fenceExit 0x60) s = .next s := by
  refine (congrArg (done s) ?_).trans (done_eq rfl)
  split
  · rfl
  · exact (if_pos rfl).trans (if_neg (Bool.eq_false_iff.1 waits))

end Sys2Proof.Machine

open Sys2Proof Sys2Proof.Machine

/-- Settles O14: what the reset clears stays cleared as the fences fall, and each fence of the island is lifted but for
a block powered down. -/
theorem islandResetZeroesSward : Obligations.IslandResetZeroesSward := by
  refine ⟨fun s can on up rail reset held asked => ?exits, fun s h => fenceExit_island_waits ?waits⟩
  case waits => rcases h with h | h | ⟨h, k⟩ <;> simp [State.islandReady, *]
  case exits =>
    have wf := canonical_fences can
    have after := Only.exitPi_cleared s
    have frame := Only.exitPi s
    have ready : s.islandReady = true := by rcases asked with h | h <;> simp [State.islandReady, reset, held, h]
    have words (m : Mem) : s.exitPi.space m = s.zeroSward.space m :=
      (space_of_only after (by decide) m).trans (space_piCleared s m)
    rw [fenceExit_island on up rail ready]
    refine goes_done frame ⟨fun hard a ha => ?_, fun hard l hl => ?_, ?_, ?_, ?_, fun b hb down => ?_,
      fun b ne hb => ?_, devState_exitPi s, frame⟩
    · rw [← State.space_sw, words, get_zeroSward hard ha]
    · rw [← State.space_tag, words, get_zeroSward_tag hard hl]
    · exact (after.get .pools).trans (pools_piCleared s)
    · exact (after.get .intake).trans (intake_piCleared s)
    · exact after.get .piReset
    · rw [State.isFenced, fenceOf_exitPi b wf, if_pos (List.mem_cons.2 hb), Fence.lifted, if_neg (by simp [down])]
    · rw [State.isFenced, fenceOf_exitPi b wf, if_neg fun h => (List.mem_cons.1 h).elim ne hb]
      rfl
end

section
/-! PROOF. The Waymark commit (01 section 1.4): what its one read of the payload meets, and what its slot holds then. -/

namespace Sys2Proof.Machine

/-! ### Reading marked words -/

theorem Map.mem_of_get_ne {α : Type} {d : α} {m : Map α} {k : Nat} (h : Map.get d m k ≠ d) :
    (k, Map.get d m k) ∈ m := by
  induction m with
  | nil => exact absurd rfl h
  | cons p r ih =>
    obtain ⟨j, v⟩ := p
    simp only [Map.get] at h ⊢
    split at h
    · subst_vars; simp
    · split at h
      · exact absurd rfl h
      · simp only [*, if_false]
        exact List.mem_cons_of_mem _ (ih h)

/-- Writing a word's check bits sets what that word decodes to, and no other. -/
theorem marks_reMark (m : Mem) (w : Nat) (b : Bool) (s : State) :
    ∃ e, ((s.reMark m w b).space m).marks = (s.space m).marks.set Ecc.clean w e := by
  have set (e : Ecc) (t : State) : ((t.setMark m w e).space m).marks = (t.space m).marks.set Ecc.clean w e := by
    rw [State.setMark, space_setSpace, if_pos rfl]
  have word (v : Nat) (t : State) : ((t.setWord m w v).space m).marks = (t.space m).marks := by
    rw [State.setWord, space_setSpace, if_pos rfl]
  unfold State.reMark
  dsimp only
  repeat' split
  all_goals
    simp only [word, set, State.space_draw]
    exact ⟨_, rfl⟩

theorem space_memUe (m n : Mem) (a : Nat) (s : State) : (s.memUe m a).space n = s.space n := by
  unfold State.memUe State.storeUe
  split
  · exact (space_of_only (Only.post _ _ _ _) (by decide) n).trans (State.space_draw s n)
  · refine (space_of_only (Only.post _ _ _ _) (by decide) n).trans ?_
    refine (space_of_only (Only.record _ _ _ _ _) (by decide) n).trans ?_
    split <;> cases n <;> rfl

theorem space_memCorr (m n : Mem) (who : Option Nat) (a : Nat) (s : State) :
    (s.memCorr m who a).space n = s.space n := by
  unfold State.memCorr
  split
  · cases n <;> rfl
  · cases who with
    | none => dsimp only; split <;> cases n <;> rfl
    | some c =>
      refine (space_of_only (Only.count c 22 1 _) (by decide) n).trans ?_
      split <;> cases n <;> rfl

/-- A read leaves what every other word decodes to. -/
theorem marks_readWord (m : Mem) (who : Option Nat) (v : Nat) {s : State}
    (wf : Map.wf Ecc.clean (s.space m).marks = true) :
    Map.wf Ecc.clean ((s.readWord m who v).2.space m).marks = true ∧ ∀ w, w ≠ v →
      Map.get Ecc.clean ((s.readWord m who v).2.space m).marks w = Map.get Ecc.clean (s.space m).marks w := by
  have marked (b : Bool) {t : State} (h : t.space m = (s.reMark m v b).space m) :
      Map.wf Ecc.clean (t.space m).marks = true ∧ ∀ w, w ≠ v →
        Map.get Ecc.clean (t.space m).marks w = Map.get Ecc.clean (s.space m).marks w := by
    obtain ⟨e, set⟩ := marks_reMark m v b s
    rw [h, set]
    exact ⟨Map.wf_set _ _ _ _ wf, fun w ne => (Map.get_set _ _ _ _ _ wf).trans (if_neg ne)⟩
  unfold State.readWord
  dsimp only
  split
  · exact ⟨wf, fun _ _ => rfl⟩
  · exact marked false (space_memCorr _ _ _ _ _)
  · exact marked true (space_memUe _ _ _ _)
  · exact ⟨wf, fun _ _ => rfl⟩

theorem Seen.ok_add {x : Seen} (a : Nat) (e : Ecc) (h : x.ok = false) : (x.add a e).ok = false := by
  simp only [Seen.ok, Bool.and_eq_false_iff, Option.isNone_eq_false_iff] at h ⊢
  cases e <;> simp only [Seen.add] <;> first | exact h | (rcases h with h | h <;> simp [h])

theorem Seen.ok_add_bad (x : Seen) (a : Nat) {e : Ecc} (h : e = .ue ∨ e = .poison) : (x.add a e).ok = false := by
  rcases h with rfl | rfl <;> simp [Seen.add, Seen.ok]

theorem readWords_cons (m : Mem) (who : Option Nat) (v : Nat) (r : List Nat) (s : State) (x : Seen) :
    State.readWords m who (v :: r) s x = State.readWords m who r (s.readWord m who v).2
      (x.add (v * 8) (Map.get Ecc.clean (s.space m).marks v)) := rfl

/-- What has met a bad word stays so. -/
theorem ok_readWords (m : Mem) (who : Option Nat) (l : List Nat) : ∀ (s : State) (x : Seen), x.ok = false →
    (State.readWords m who l s x).1.ok = false := by
  induction l with
  | nil => exact fun _ _ h => h
  | cons w r ih => exact fun s x h => ih _ _ (Seen.ok_add _ _ h)

/-- Reads that pass an uncorrectable or poisoned word meet it, whatever the words read before it. -/
theorem readWords_meets {m : Mem} (who : Option Nat) {w : Nat} (l : List Nat) : ∀ (s : State) (x : Seen),
    Map.wf Ecc.clean (s.space m).marks = true → w ∈ l →
    (Map.get Ecc.clean (s.space m).marks w = .ue ∨ Map.get Ecc.clean (s.space m).marks w = .poison) →
    (State.readWords m who l s x).1.ok = false := by
  induction l with
  | nil => exact fun _ _ _ h => absurd h List.not_mem_nil
  | cons v r ih =>
    intro s x wf hw bad
    rw [readWords_cons]
    by_cases e : w = v
    · subst e
      exact ok_readWords m who r _ _ (Seen.ok_add_bad x _ bad)
    · obtain ⟨wf', same⟩ := marks_readWord m who v wf
      refine ih _ _ wf' ((List.mem_cons.1 hw).resolve_left e) ?_
      rw [same w e]
      exact bad

/-! ### One read request -/

theorem touch_none {s : State} (none : s.mem.pendGran = []) (m : Mem) (a n : Nat) : s.touch m a n = s := by
  unfold State.touch
  split
  · rfl
  · rw [none]; rfl

theorem touchSpans_none {s : State} (none : s.mem.pendGran = []) (c : CtxInfo) (w : Waybill) :
    s.touchSpans c w = s := by
  refine List.foldl_fixed' (fun p => ?_) _
  split
  · rw [none]; rfl
  · rfl

theorem touch_all_none {s : State} (none : s.mem.pendGran = []) (m : Mem) (l : List (Nat × Nat)) :
    l.foldl (fun (t : State) q => t.touch m q.1 q.2) s = s :=
  List.foldl_fixed' (fun q => touch_none none m q.1 q.2) l

/-- The word of each byte read is listed when it is not clean. -/
theorem mem_markedIn {s : State} {m : Mem} {a b n : Nat} (lo : b ≤ a) (hi : a < b + n)
    (bad : Map.get Ecc.clean (s.space m).marks (a / 8) ≠ .clean) : a / 8 ∈ s.markedIn m b n := by
  unfold State.markedIn
  rw [if_neg (by omega)]
  refine List.mem_map.2 ⟨_, List.mem_filter.2 ⟨Map.mem_of_get_ne bad, ?_⟩, rfl⟩
  simp only [Bool.and_eq_true, decide_eq_true_eq]
  omega

/-- Joined runs cover every address. -/
theorem joinRuns_covers {a : Nat} (l : List Nat) : a ∈ l → ∃ q ∈ joinRuns l, q.1 ≤ a ∧ a < q.1 + q.2 := by
  induction l with
  | nil => exact fun h => absurd h List.not_mem_nil
  | cons b r ih =>
    intro h
    rw [joinRuns]
    rcases joined : joinRuns r with - | ⟨⟨c, n⟩, q⟩
    · simp only [joined, List.not_mem_nil, false_and, exists_false, imp_false] at ih
      obtain rfl := (List.mem_cons.1 h).resolve_right ih
      exact ⟨(a, 1), List.mem_singleton.2 rfl, Nat.le_refl a, Nat.lt_succ_self a⟩
    · dsimp only
      rw [joined] at ih
      split <;> rcases List.mem_cons.1 h with rfl | h
      · exact ⟨_, List.mem_cons_self, Nat.le_refl a, by simp⟩
      · obtain ⟨p, hp, lo, hi⟩ := ih h
        rcases List.mem_cons.1 hp with rfl | hp
        · exact ⟨_, List.mem_cons_self, by dsimp only at lo ⊢; omega, by dsimp only at hi ⊢; omega⟩
        · exact ⟨p, List.mem_cons_of_mem _ hp, lo, hi⟩
      · exact ⟨_, List.mem_cons_self, Nat.le_refl a, by simp⟩
      · obtain ⟨p, hp, lo, hi⟩ := ih h
        exact ⟨p, List.mem_cons_of_mem _ hp, lo, hi⟩

/-! ### One read of a step -/

/-- The words that a request reads which are not clean. -/
def Rd.marked (r : Rd) (s : State) : List Nat := ((r.runs.map fun q => s.markedIn r.mem.mem q.1 q.2).flatten).eraseDups

/-- What a run has met after the words of a request. -/
def Run.meets (x : Run) (r : Rd) (seen : Seen) : Run :=
  { x with
    ue := x.ue.or (seen.ueAt.map fun v => addrDetail r.code v r.base),
    poison := x.poison.or (seen.poisonAt.map fun v => addrDetail r.code v r.base), bad := x.bad || !seen.ok }

/-- The bytes and the bad words of a request are counted (07 counters 17, 19 and 23). -/
def State.countRead (k : RunCtx) (r : Rd) (bad : Nat) (s : State) : State :=
  (s.count k.ctx (if r.mem = .sward then 17 else 19) r.len).count k.ctx 23 bad

/-- A read of Sward or LPDDR5 where no granule is pending. -/
theorem runRead_eq {k : RunCtx} {r : Rd} {s : State} (x : Run) (mem : r.mem = .sward ∨ r.mem = .lpddr)
    (none : s.mem.pendGran = []) (len : r.len ≠ 0) : State.runRead k (x, s) r =
      let seen := s.readWords r.mem.mem (some k.ctx) (r.marked s) {}
      let p := (x.meets r seen.1, seen.2.countRead k r seen.1.bad)
      if k.isChecked && r.chk then State.checkTags k r p else p := by
  obtain ⟨m, runs, code, base, chk⟩ := r
  unfold State.runRead
  rcases mem with rfl | rfl
  all_goals
    dsimp only
    rw [if_neg len, touch_all_none none]
    rfl

/-- What a checked read compares changes the first stale line alone, and reads its tags. -/
theorem checkTags_keeps (k : RunCtx) (r : Rd) (p : Run × State) :
    (State.checkTags k r p).1.ue = p.1.ue ∧ (State.checkTags k r p).1.poison = p.1.poison ∧
    Only memParts p.2 (State.checkTags k r p).2 := by
  unfold State.checkTags
  generalize r.lines = l
  induction l generalizing p with
  | nil => exact ⟨rfl, rfl, Only.refl _ _⟩
  | cons v l ih =>
    obtain ⟨ue, poison, frame⟩ := ih _
    refine ⟨ue.trans ?_, poison.trans ?_, Only.trans ?_ frame⟩
    · dsimp only; split <;> rfl
    · dsimp only; split <;> rfl
    · have read := Only.readWord .tag (some k.ctx) (v / 8) p.2
      dsimp only; split <;> exact read

/-- A read that finds every word clean, and compares no tags, only counts its bytes. -/
theorem runRead_clean {k : RunCtx} {r : Rd} {s : State} (mem : r.mem = .sward ∨ r.mem = .lpddr)
    (none : s.mem.pendGran = []) (clean : (s.space r.mem.mem).marks = []) (unchecked : k.isChecked = false) :
    State.runRead k ({}, s) r = ({}, s.countRead k r 0) := by
  by_cases len : r.len = 0
  · have nothing : s.countRead k r 0 = s := by rw [State.countRead, len]; rfl
    rw [nothing]
    exact if_pos len
  · have unmarked : r.marked s = [] := by
      have each (q : Nat × Nat) : s.markedIn r.mem.mem q.1 q.2 = [] := by
        unfold State.markedIn; rw [clean]; exact ite_self []
      simp [Rd.marked, each]
    rw [runRead_eq {} mem none len, unmarked, unchecked]
    rfl

/-- A read that passes an uncorrectable or poisoned word meets it (08 R171). -/
theorem runRead_meets {k : RunCtx} {r : Rd} {s : State} (x : Run) (mem : r.mem = .sward ∨ r.mem = .lpddr)
    (none : s.mem.pendGran = []) (wf : Map.wf Ecc.clean (s.space r.mem.mem).marks = true) {q : Nat × Nat} {a : Nat}
    (hq : q ∈ r.runs) (lo : q.1 ≤ a) (hi : a < q.1 + q.2)
    (bad : Map.get Ecc.clean (s.space r.mem.mem).marks (a / 8) = .ue ∨
      Map.get Ecc.clean (s.space r.mem.mem).marks (a / 8) = .poison) :
    ((State.runRead k (x, s) r).1.ue.isSome ∨ (State.runRead k (x, s) r).1.poison.isSome) := by
  have len : r.len ≠ 0 := by
    have := List.le_sum_of_mem (List.mem_map_of_mem (f := (·.2)) hq)
    unfold Rd.len; omega
  have listed : a / 8 ∈ r.marked s := by
    refine List.mem_eraseDups.2 (List.mem_flatten.2 ⟨_, List.mem_map_of_mem hq, mem_markedIn lo hi ?_⟩)
    rcases bad with h | h <;> simp [h]
  have met := readWords_meets (some k.ctx) _ s {} wf listed bad
  simp only [Seen.ok, Bool.and_eq_false_iff, Option.isNone_eq_false_iff] at met
  have seen : ∀ y : State, ((x.meets r (s.readWords r.mem.mem (some k.ctx) (r.marked s) {}).1, y).1.ue.isSome ∨
      (x.meets r (s.readWords r.mem.mem (some k.ctx) (r.marked s) {}).1, y).1.poison.isSome) := fun y => by
    rcases met with h | h <;> simp [Run.meets, Option.isSome_or, h]
  rw [runRead_eq x mem none len]
  dsimp only
  split
  · obtain ⟨ue, poison, -⟩ := checkTags_keeps k r (x.meets r (s.readWords r.mem.mem (some k.ctx) (r.marked s) {}).1,
      (s.readWords r.mem.mem (some k.ctx) (r.marked s) {}).2.countRead k r
        (s.readWords r.mem.mem (some k.ctx) (r.marked s) {}).1.bad)
    rw [ue, poison]
    exact seen _
  · exact seen _

/-- A read changes what an access to memory may. -/
theorem runRead_frame {k : RunCtx} {r : Rd} {s : State} (x : Run) (mem : r.mem = .sward ∨ r.mem = .lpddr)
    (none : s.mem.pendGran = []) : Only memParts s (State.runRead k (x, s) r).2 := by
  by_cases len : r.len = 0
  · have nothing : State.runRead k (x, s) r = (x, s) := if_pos len
    rw [nothing]
    exact Only.refl _ s
  · have counted (n : Nat) (t : State) : Only memParts t (t.countRead k r n) :=
      ((Only.count _ _ _ t).mono (by decide)).trans ((Only.count _ _ _ _).mono (by decide))
    have read := (Only.readWords r.mem.mem (some k.ctx) (r.marked s) s {}).trans
      (counted (s.readWords r.mem.mem (some k.ctx) (r.marked s) {}).1.bad _)
    rw [runRead_eq x mem none len]
    dsimp only
    split
    · exact read.trans (checkTags_keeps k r _).2.2
    · exact read

/-- A run that met an uncorrectable or poisoned word does not end GOOD. -/
theorem Run.status_ne_zero {x : Run} (h : x.ue.isSome ∨ x.poison.isSome) : (x.status none).1 ≠ 0 := by
  obtain ⟨ue, poison, part, stale, _, _, _⟩ := x
  rcases stale with - | d
  · rcases part with - | d
    · rcases ue with - | d
      · rcases poison with - | d
        · simp at h
        · simp [Run.status]
      · simp [Run.status]
    · simp [Run.status]
  · simp [Run.status]

/-! ### The slot -/

@[simp] theorem WmSlot.activeHalf_commit (x : WmSlot) (h : WmHalf) : (x.commit h).activeHalf = h := by
  unfold WmSlot.commit WmSlot.activeHalf
  cases x.active1 <;> rfl

@[simp] theorem WmSlot.idleHalf_commit (x : WmSlot) (h : WmHalf) : (x.commit h).idleHalf = x.activeHalf := by
  unfold WmSlot.commit WmSlot.activeHalf WmSlot.idleHalf
  cases x.active1 <;> rfl

@[simp] theorem WmSlot.stale_commit (x : WmSlot) (h : WmHalf) : (x.commit h).stale = x.stale := by
  unfold WmSlot.commit
  split <;> rfl

/-- The half that a commit writes over the idle one (01 Table 1.5). -/
def WmSlot.written (x : WmSlot) (c len stamp : Nat) (data : List Byte) : WmHalf :=
  { seq := x.activeHalf.seq + 1, writer := BitVec.ofNat 8 c, length := BitVec.ofNat 8 len, stamp := stamp,
    payload := x.idleHalf.payload.store 0 data }

/-- What a slot becomes by a commit whose payload was read clean (01 R13, R15). -/
def WmSlot.after (x : WmSlot) (c len stamp : Nat) (data : List Byte) : WmSlot :=
  if stamp ≤ x.activeHalf.stamp then { x with stale := x.stale + 1 } else x.commit (x.written c len stamp data)

theorem Only.ofWaymarks (s : State) (m : Map WmSlot) : Only [.waymarks] s { s with waymarks := m } :=
  ⟨rfl, fun p hp => by cases p <;> first | rfl | exact fun _ => rfl | exact absurd (by decide) hp⟩

theorem commitWaymark_eq (c n len stamp : Nat) (data : List Byte) (s : State) : s.commitWaymark c n len stamp data =
    State.count c (if stamp ≤ (s.waymark n).activeHalf.stamp then 29 else 28) 1
      { s with waymarks := s.waymarks.set WmSlot.init n ((s.waymark n).after c len stamp data) } := by
  unfold State.commitWaymark WmSlot.after
  dsimp only
  split <;> rfl

theorem Only.commitWaymark (c n len stamp : Nat) (data : List Byte) (s : State) :
    Only [.waymarks, .counters] s (s.commitWaymark c n len stamp data) := by
  rw [commitWaymark_eq]
  exact ((Only.ofWaymarks s _).mono (by decide)).trans ((Only.count _ _ _ _).mono (by decide))

/-- A part outside the frame, carried to a slot. -/
theorem waymark_of_only {ps : List Part} {s t : State} (h : Only ps s t) (hp : Part.waymarks ∉ ps) (n : Nat) :
    t.waymark n = s.waymark n :=
  congrArg (fun m : Map WmSlot => Map.get WmSlot.init m n) (h.2 .waymarks hp : t.waymarks = s.waymarks)

theorem waymark_commitWaymark (c n len stamp : Nat) (data : List Byte) {s : State}
    (wf : Map.wf WmSlot.init s.waymarks = true) (j : Nat) : (s.commitWaymark c n len stamp data).waymark j =
      if j = n then (s.waymark n).after c len stamp data else s.waymark j := by
  rw [commitWaymark_eq, waymark_of_only (Only.count _ _ _ _) (by decide)]
  exact Map.get_set _ _ _ _ _ wf

/-- The payload of a half just written, byte by byte. -/
theorem get_written_payload {x : WmSlot} (wf : Memory.wf x.idleHalf.payload = true) (c len stamp : Nat)
    (data : List Byte) {i : Nat} (hi : i < data.length) :
    (x.written c len stamp data).payload.get 0 i = data.getD i 0 := by
  refine (Map.get_store data _ 0 i wf).trans ((if_pos ?_).trans rfl)
  omega

/-! ### The commit as a whole -/

/-- The bytes that a commit takes from its operand (09 R179). -/
def State.payloadOf (s : State) (o : Opnd) (n : Nat) : List Byte :=
  (o.firstBytes n).map fun a => BitVec.ofNat 8 (s.rawByte o.mem a)

theorem length_payloadOf (s : State) (o : Opnd) (n : Nat) : (s.payloadOf o n).length = n := by
  simp [State.payloadOf, Opnd.firstBytes]

theorem rawByte_lt (s : State) (m : OpMem) (a : Nat) : s.rawByte m a < 256 := by
  cases m
  · exact BitVec.isLt _
  · exact BitVec.isLt _
  · exact BitVec.isLt _
  · exact Nat.zero_lt_succ _

theorem payloadOf_getD (s : State) (o : Opnd) {n i : Nat} (hi : i < n) :
    ((s.payloadOf o n).getD i 0).toNat = s.rawByte o.mem (o.addr (i / max 1 o.rowBytes) (i % max 1 o.rowBytes)) := by
  simp [State.payloadOf, Opnd.firstBytes, hi, Nat.mod_eq_of_lt (rawByte_lt s _ _)]

/-- The one request of a commit: the runs of its payload's bytes. -/
def Opnd.payloadReq (o : Opnd) (n : Nat) : Rd := o.req (joinRuns (o.firstBytes n))

/-- What a commit's read has met, and the state after it. -/
def State.commitRead (c : CtxInfo) (w : Waybill) (s : State) : Run × State :=
  State.runRead (runCtx c w) ({}, s) ((s.operand c w 0).payloadReq (byteAt w.bytes 61))

/-- The slot takes what a commit has read. -/
def State.commitMade (c : CtxInfo) (w : Waybill) (s u : State) : State :=
  u.commitWaymark w.ctx (byteAt w.bytes 60) (byteAt w.bytes 61) (fieldAt w.bytes 52 8)
    (s.payloadOf (s.operand c w 0) (byteAt w.bytes 61))

/-- A station that runs a waybill of this class and opcode, with no block that it needs FENCED, works on it. -/
theorem runOn_eq {e cls op : Nat} {s : State} {w : Waybill} {c : CtxInfo} (run : Runs e cls op w c s)
    (f : CtxInfo → Waybill → State → State) : s.runOn e cls op f = f c w (s.touchSpans c w) := by
  obtain ⟨on, ctx, through⟩ := run
  simp [State.runOn, on, ctx, through]

section
variable {e : Fin 19} {s : State} {w : Waybill} {c : CtxInfo}

/-- A commit reads its payload, writes the slot when it was clean, and completes with what the read met. -/
theorem exec_waymarkCommit (run : Runs e (classOf e) 1 w c s) (idle : s.mem.pendGran = []) : ∃ f,
    exec (.waymarkCommit e) s = done s (
      let p := s.commitRead c w
      let st := p.1.status none
      (if st.1 = 0 then s.commitMade c w p.2 else p.2).complete w st.1 st.2 f) := by
  refine ⟨{ corrected := (s.commitRead c w).2.counter c.ctx 22 != s.counter c.ctx 22 },
    congrArg (done s) ((runOn_eq run _).trans ?_)⟩
  rw [touchSpans_none idle]
  rfl

/-- A payload without marked words, whose tags are not compared, is read clean. -/
theorem exec_waymarkCommit_clean (run : Runs e (classOf e) 1 w c s) (idle : s.mem.pendGran = [])
    (mem : (s.operand c w 0).mem = .sward ∨ (s.operand c w 0).mem = .lpddr)
    (clean : (s.space (s.operand c w 0).mem.mem).marks = []) (unchecked : (c.isChecked && w.direct) = false) :
    ∃ u f, Only [.counters] s u ∧ exec (.waymarkCommit e) s = done s ((s.commitMade c w u).complete w 0 0 f) := by
  obtain ⟨f, commits⟩ := exec_waymarkCommit run idle
  have read : s.commitRead c w = ({}, s.countRead (runCtx c w) ((s.operand c w 0).payloadReq (byteAt w.bytes 61)) 0) :=
    runRead_clean mem idle clean unchecked
  rw [read] at commits
  exact ⟨_, f, (Only.count _ _ _ s).trans (Only.count _ _ _ _), commits⟩

/-- A payload with an uncorrectable or poisoned word ends the commit before the slot (08 R171). -/
theorem exec_waymarkCommit_bad (run : Runs e (classOf e) 1 w c s) (idle : s.mem.pendGran = [])
    (mem : (s.operand c w 0).mem = .sward ∨ (s.operand c w 0).mem = .lpddr)
    (wf : Map.wf Ecc.clean (s.space (s.operand c w 0).mem.mem).marks = true) {a : Nat}
    (ha : a ∈ (s.operand c w 0).firstBytes (byteAt w.bytes 61))
    (bad : Map.get Ecc.clean (s.space (s.operand c w 0).mem.mem).marks (a / 8) = .ue ∨
      Map.get Ecc.clean (s.space (s.operand c w 0).mem.mem).marks (a / 8) = .poison) :
    ∃ u st d f, st ≠ 0 ∧ Only memParts s u ∧ exec (.waymarkCommit e) s = done s (u.complete w st d f) := by
  obtain ⟨f, commits⟩ := exec_waymarkCommit run idle
  obtain ⟨q, hq, lo, hi⟩ := joinRuns_covers _ ha
  have met : (s.commitRead c w).1.ue.isSome ∨ (s.commitRead c w).1.poison.isSome :=
    runRead_meets {} mem idle wf hq lo hi bad
  have stops := Run.status_ne_zero met
  dsimp only at commits
  rw [if_neg stops] at commits
  exact ⟨_, _, _, f, stops, runRead_frame {} mem idle, commits⟩

/-- Every slot after a commit that was read clean: its own as the STAMPs decide, the others as they stood. -/
theorem waymark_complete_commit {u : State} (read : Only [.counters] s u) (wf : Map.wf WmSlot.init s.waymarks = true)
    (st d : Nat) (f : DoneFlags) (n : Nat) : ((s.commitMade c w u).complete w st d f).waymark n =
      if n = byteAt w.bytes 60 then (s.waymark (byteAt w.bytes 60)).after w.ctx (byteAt w.bytes 61)
        (fieldAt w.bytes 52 8) (s.payloadOf (s.operand c w 0) (byteAt w.bytes 61))
      else s.waymark n := by
  have same (n : Nat) : u.waymark n = s.waymark n := waymark_of_only read (by decide) n
  have wf' : Map.wf WmSlot.init u.waymarks = true := (read.get .waymarks : u.waymarks = s.waymarks) ▸ wf
  rw [waymark_of_only (Only.complete _ _ _ _ _) (by decide), State.commitMade, waymark_commitWaymark _ _ _ _ _ wf',
    same, same]

end

end Sys2Proof.Machine

open Sys2Proof Sys2Proof.Machine

/-- Settles O43: a payload without marked words is read clean, and the slot takes it or counts it stale; a payload with
a bad word ends the commit before the slot. -/
theorem waymarkCommitsAreWhole : Obligations.WaymarkCommitsAreWhole := by
  intro e s w c run idle wf o slot len stamp x addr
  refine ⟨fun mem clean unchecked => ?clean, fun mem marks ⟨i, hi, bad⟩ => ?bad⟩
  case clean =>
    obtain ⟨u, f, read, commits⟩ := exec_waymarkCommit_clean run idle mem clean unchecked
    rw [commits]
    have slots := waymark_complete_commit (w := w) (c := c) read wf 0 0 f
    have frame : Only (.waymarks :: doneParts) s ((s.commitMade c w u).complete w 0 0 f) :=
      (read.mono (by decide)).trans (((Only.commitWaymark _ _ _ _ _ u).mono (by decide)).trans
        ((Only.complete _ _ _ _ _).mono (by decide)))
    refine goes_done frame ⟨⟨_, ends_complete _ _ _ _ _⟩, fun old => ?_, fun new payload => ?_, fun n ne => ?_, frame⟩
    · rw [slots, if_pos rfl, WmSlot.after, if_pos old]
    · rw [slots, if_pos rfl, WmSlot.after, if_neg (Nat.not_le.2 new), WmSlot.activeHalf_commit,
        WmSlot.idleHalf_commit, WmSlot.stale_commit]
      refine ⟨rfl, rfl, rfl, rfl, fun i hi => ?_, rfl, rfl⟩
      rw [get_written_payload payload _ _ _ _ (by rwa [length_payloadOf]), payloadOf_getD _ _ hi]
    · rw [slots, if_neg ne]
  case bad =>
    obtain ⟨u, st, d, f, stops, read, commits⟩ :=
      exec_waymarkCommit_bad run idle mem marks (List.mem_map_of_mem (List.mem_range.2 hi)) bad
    rw [commits]
    have frame : Only doneParts s (u.complete w st d f) := (read.mono (by decide)).trans (Only.complete _ _ _ _ _)
    exact goes_done frame ⟨frame.get .waymarks, ⟨st, d, u, stops, ends_complete _ _ _ _ _⟩, frame⟩

end

section
/-! PROOF. Whole-device reset and its release (03 sections 3.1, 3.2, 3.8): the outputs that fall, what stands over the
reset, and the rails that are still out of range as OFF is left. -/

namespace Sys2Proof.Machine

/-! ### Outputs that fall -/

/-- What has been sent stays sent. -/
def Sent (s t : State) : Prop := ∀ o ∈ s.out, o ∈ t.out

theorem Sent.refl (s : State) : Sent s s := fun _ h => h

theorem Sent.trans {s t u : State} (h : Sent s t) (k : Sent t u) : Sent s u := fun o ho => k o (h o ho)

theorem Sent.foldl {α : Type} (f : State → α → State) (h : ∀ s a, Sent s (f s a)) (l : List α) :
    ∀ s, Sent s (l.foldl f s) := by
  induction l with
  | nil => exact Sent.refl
  | cons a r ih => exact fun s => (h s a).trans (ih _)

theorem Sent.emit (o : Out) (s : State) : Sent s (s.emit o) := fun _ h => List.mem_append_left _ h

theorem mem_emit (o : Out) (s : State) : o ∈ (s.emit o).out := List.mem_append_right _ (List.mem_singleton.2 rfl)

/-- A further output, or none. -/
def State.emitIf (c : Bool) (o : Out) (s : State) : State := if c then s.emit o else s

theorem Sent.emitIf (c : Bool) (o : Out) (s : State) : Sent s (s.emitIf c o) := by
  cases c
  · exact Sent.refl s
  · exact Sent.emit o s

theorem mem_emitIf {c : Bool} (h : c = true) (o : Out) (s : State) : o ∈ (s.emitIf c o).out := by
  subst h; exact mem_emit o s

theorem Only.emitIf (c : Bool) (o : Out) (s : State) : Only [.out] s (s.emitIf c o) := by
  cases c
  · exact Only.refl _ s
  · exact Only.emit o s

/-- The trigger and the clock of camera `k`, where they were high, have fallen. -/
def CamFell (k : Nat) (s t : State) : Prop :=
  ((s.cam k).trigPin = true → Out.trig k false ∈ t.out) ∧ ((s.cam k).mclk ≠ 0 → Out.mclk k 0 ∈ t.out)

/-- PWM output `n`, where it was high, has fallen. -/
def PwmFell (n : Nat) (s t : State) : Prop := (s.pwm n).high ≠ 0 → Out.pwm n 0 ∈ t.out

/-- A camera as its pins go low. -/
def CamSt.pinsLow (y : CamSt) : CamSt := { y with trig := false, trigPin := false, mclk := 0 }

theorem camPinsLow_eq (s : State) (k : Nat) : s.camPinsLow k =
    ((s.modCam k CamSt.pinsLow).emitIf (s.cam k).trigPin (.trig k false)).emitIf ((s.cam k).mclk != 0) (.mclk k 0) := by
  unfold State.camPinsLow State.emitIf
  by_cases clock : (s.cam k).mclk = 0 <;> simp [clock] <;> rfl

theorem Sent.camPinsLow (s : State) (k : Nat) : Sent s (s.camPinsLow k) := by
  rw [camPinsLow_eq]
  exact Sent.trans (t := s.modCam k CamSt.pinsLow) (Sent.refl s) ((Sent.emitIf _ _ _).trans (Sent.emitIf _ _ _))

theorem camFell_camPinsLow (s : State) (k : Nat) : CamFell k s (s.camPinsLow k) := by
  rw [camPinsLow_eq]
  exact ⟨fun trig => Sent.emitIf _ _ _ _ (mem_emitIf trig _ _), fun clock => mem_emitIf (bne_iff_ne.2 clock) _ _⟩

/-- The pins of one camera leave the other cameras. -/
theorem cams_camPinsLow (s : State) (k : Nat) : (s.camPinsLow k).cams = (s.modCam k CamSt.pinsLow).cams := by
  rw [camPinsLow_eq]
  exact ((Only.emitIf _ _ _).get .cams).trans ((Only.emitIf _ _ _).get .cams)

/-- Of some cameras whose pins go low in turn, each falls. -/
theorem camFell_foldl (l : List Nat) : ∀ {s : State}, Map.wf CamSt.init s.cams = true → ∀ k ∈ l,
    CamFell k s (l.foldl State.camPinsLow s) := by
  induction l with
  | nil => exact fun _ k h => absurd h List.not_mem_nil
  | cons j r ih =>
    intro s wf k hk
    by_cases e : k = j
    · subst e
      have fell := camFell_camPinsLow s k
      have later := Sent.foldl State.camPinsLow Sent.camPinsLow r (s.camPinsLow k)
      exact ⟨fun h => later _ (fell.1 h), fun h => later _ (fell.2 h)⟩
    · have same : (s.camPinsLow j).cam k = s.cam k := by
        have set := State.cam_modCam s j k CamSt.pinsLow wf
        rw [if_neg e] at set
        rw [State.cam, cams_camPinsLow]
        exact set
      have wf' : Map.wf CamSt.init (s.camPinsLow j).cams = true := by
        rw [cams_camPinsLow]; exact Map.wf_set _ _ _ _ wf
      have fell := ih wf' k ((List.mem_cons.1 hk).resolve_left e)
      rwa [CamFell, same] at fell

/-- PWM output `n` goes low. -/
def State.pwmOff (s : State) (n : Nat) : State :=
  if (s.pwm n).high = 0 then s else (s.modPwm n fun x => { x with high := 0 }).emit (.pwm n 0)

theorem Sent.pwmOff (s : State) (n : Nat) : Sent s (s.pwmOff n) := by
  unfold State.pwmOff
  split
  · exact Sent.refl s
  · exact Sent.trans (t := s.modPwm n fun x => { x with high := 0 }) (Sent.refl s) (Sent.emit _ _)

theorem pwmFell_pwmOff (s : State) (n : Nat) : PwmFell n s (s.pwmOff n) := fun high => by
  rw [State.pwmOff, if_neg high]; exact mem_emit _ _

/-- Of some PWM outputs that go low in turn, each falls. -/
theorem pwmFell_foldl (l : List Nat) : ∀ {s : State}, Map.wf PwmSt.init s.ports.pwm = true → ∀ n ∈ l,
    PwmFell n s (l.foldl State.pwmOff s) := by
  induction l with
  | nil => exact fun _ n h => absurd h List.not_mem_nil
  | cons j r ih =>
    intro s wf n hn
    by_cases e : n = j
    · subst e
      exact fun high => Sent.foldl State.pwmOff Sent.pwmOff r _ _ (pwmFell_pwmOff s n high)
    · have same : (s.pwmOff j).pwm n = s.pwm n := by
        unfold State.pwmOff
        split
        · rfl
        · exact (State.pwm_modPwm s j n (fun x => { x with high := 0 }) wf).trans (if_neg e)
      have wf' : Map.wf PwmSt.init (s.pwmOff j).ports.pwm = true := by
        unfold State.pwmOff
        split
        · exact wf
        · exact Map.wf_set _ _ _ _ wf
      have fell := ih wf' n ((List.mem_cons.1 hn).resolve_left e)
      rwa [PwmFell, same] at fell

/-- The GPIO pins become inputs: what has been sent stays, and no PWM output changes. -/
theorem Sent.gpioInputs (s : State) : Sent s s.gpioInputs := by
  unfold State.gpioInputs
  have marks := Sent.foldl (fun (t : State) p => t.emit (.mark p false)) (fun t p => Sent.emit _ t)
    (s.ports.gpio.marks.map (·.1)) s
  dsimp only
  split
  · exact marks
  · exact marks.trans (Sent.emit _ _)

theorem pwm_gpioInputs (s : State) : s.gpioInputs.ports.pwm = s.ports.pwm := by
  have marks : ((s.ports.gpio.marks.map (·.1)).foldl (fun (t : State) p => t.emit (.mark p false)) s).ports = s.ports :=
    (Only.foldl _ (fun t (p : Nat) => Only.emit (.mark p false) t) _ s).get .ports
  unfold State.gpioInputs
  dsimp only
  split <;> exact congrArg PortsSt.pwm marks

theorem canonical_cams {s : State} (h : s.canonical = true) : Map.wf CamSt.init s.cams = true := by
  simp only [State.canonical, Bool.and_eq_true] at h
  tauto

theorem canonical_pwm {s : State} (h : s.canonical = true) : Map.wf PwmSt.init s.ports.pwm = true := by
  simp only [State.canonical, Bool.and_eq_true] at h
  tauto

/-- The STO channels that were high fall. -/
def State.stoFallen (s : State) : State := (s.emitIf s.verge.stoA (.sto 0 false)).emitIf s.verge.stoB (.sto 1 false)

/-- The camera pins go low. -/
def State.camsFallen (s : State) : State := (List.range 4).foldl State.camPinsLow s

theorem pwmLow_eq (s : State) : s.pwmLow = (List.range 8).foldl State.pwmOff s := rfl

/-- With the outputs down, Verge stands as it stood but for its channels and the Twin. -/
def State.outputsOff (v : VergeSt) (s : State) : State :=
  { s with outputsUp := false, verge := { v with stoA := false, stoB := false, twin := { v.twin with on := false } } }

theorem out_outputsOff (v : VergeSt) (s : State) : (s.outputsOff v).out = s.out := rfl

/-- The outputs fall in the order STO, camera pins, GPIO, PWM (03 Table 3.7). -/
theorem outputsDown_eq (s : State) : s.outputsDown = s.stoFallen.camsFallen.gpioInputs.pwmLow.outputsOff s.verge := by
  unfold State.outputsDown State.outputsOff State.camsFallen State.stoFallen State.emitIf
  with_reducible rfl

theorem out_outputsDown (s : State) : s.outputsDown.out = s.stoFallen.camsFallen.gpioInputs.pwmLow.out := by
  rw [outputsDown_eq]
  exact out_outputsOff _ _

/-- Every output that was high falls as the outputs go to their reset state (03 R58). -/
theorem outputsDown_fell (s : State) :
    (s.verge.stoA = true → Out.sto 0 false ∈ s.outputsDown.out) ∧
    (s.verge.stoB = true → Out.sto 1 false ∈ s.outputsDown.out) ∧
    (s.canonical = true → (∀ k < 4, CamFell k s s.outputsDown) ∧ ∀ n < 8, PwmFell n s s.outputsDown) := by
  have sto : Only [.out] s s.stoFallen := (Only.emitIf _ _ s).trans (Only.emitIf _ _ _)
  have cams : Only [.cams, .out] s.stoFallen s.stoFallen.camsFallen := Only.foldl _ (fun t k => Only.camPinsLow k t) _ _
  have fromCams : Sent s.stoFallen.camsFallen s.outputsDown := fun o ho => by
    rw [out_outputsDown, pwmLow_eq]
    exact Sent.foldl _ Sent.pwmOff _ _ _ (Sent.gpioInputs _ _ ho)
  have fromSto : Sent s.stoFallen s.outputsDown := (Sent.foldl _ Sent.camPinsLow _ _).trans fromCams
  refine ⟨fun a => fromSto _ (Sent.emitIf _ _ _ _ (mem_emitIf a _ _)), fun b => fromSto _ (mem_emitIf b _ _),
    fun can => ⟨fun k hk => ?_, fun n hn => ?_⟩⟩
  · have same : s.stoFallen.cams = s.cams := sto.get .cams
    have fell := camFell_foldl (List.range 4) (same ▸ canonical_cams can) k (List.mem_range.2 hk)
    rw [CamFell, State.cam, same] at fell
    exact ⟨fun h => fromCams _ (fell.1 h), fun h => fromCams _ (fell.2 h)⟩
  · have same : s.stoFallen.camsFallen.gpioInputs.ports.pwm = s.ports.pwm := by
      rw [pwm_gpioInputs, (cams.get .ports : s.stoFallen.camsFallen.ports = s.stoFallen.ports),
        (sto.get .ports : s.stoFallen.ports = s.ports)]
    have fell := pwmFell_foldl (List.range 8) (by rw [same]; exact canonical_pwm can) n (List.mem_range.2 hn)
    rw [PwmFell, State.pwm, same] at fell
    rw [PwmFell, out_outputsDown, pwmLow_eq]
    exact fell

/-! ### The whole device -/

/-- Reset values everywhere but in what lies outside the block and in the model's own record. -/
def State.atReset (s : State) : State :=
  { State.reset with
    porst := s.porst, lostRails := s.lostRails, free := s.free, out := s.out,
    mem := { MemSt.init with host := s.mem.host, hostBad := s.mem.hostBad, fittedGiB := s.mem.fittedGiB,
                             sward := s.mem.sward.hardOnly, lpddr := s.mem.lpddr.hardOnly,
                             tag := s.mem.tag.hardOnly, pic := s.mem.pic.hardOnly } }

theorem toOff_eq (s : State) : s.toOff = s.outputsDown.atReset := by
  unfold State.toOff State.atReset
  with_reducible rfl

theorem Only.atReset (s t : State) (p : Bool) : Only [.porst, .lostRails, .mem, .free, .out]
    { State.reset with pending := s.pending } { t.atReset with porst := p, pending := s.pending } :=
  ⟨rfl, fun p hp => by cases p <;> first | rfl | exact fun _ => rfl | exact absurd (by decide) hp⟩

/-- Reset leaves nothing in Sward, LPDDR5, the tags and the picture store. -/
theorem cells_atReset (s : State) (m : Mem) : (s.atReset.space m).cells = [] := by cases m <;> rfl

theorem host_atReset (s : State) : s.atReset.mem.host = s.mem.host := rfl

theorem lostRails_atReset (s : State) : s.atReset.lostRails = s.lostRails := rfl

theorem porst_atReset (s : State) : s.atReset.porst = s.porst := rfl

theorem lostRails_toOff (s : State) : s.toOff.lostRails = s.lostRails := by
  rw [toOff_eq, lostRails_atReset]
  exact (Only.outputsDown s).get .lostRails

theorem porst_toOff (s : State) : s.toOff.porst = s.porst := by
  rw [toOff_eq, porst_atReset]
  exact (Only.outputsDown s).get .porst

/-- Whole-device reset: every part at its reset value but what lies outside the block (03 R60). -/
theorem offFrom_toOff (s : State) (p : Bool) : OffFrom s { s.toOff with porst := p, pending := s.pending } := by
  obtain ⟨stoA, stoB, pins⟩ := outputsDown_fell s
  have down := Only.outputsDown s
  rw [toOff_eq]
  generalize s.outputsDown = t at *
  exact ⟨Only.atReset s t p, cells_atReset t .sw, cells_atReset t .lp, cells_atReset t .tag,
    cells_atReset t .pic, (host_atReset t).trans (congrArg MemSt.host (down.get .mem)), down.get .free, stoA, stoB,
    pins⟩

/-- The rails are no part of what a whole-device reset starts from. -/
theorem offFrom_rails {s t : State} {l : List Rail} (h : OffFrom { s with lostRails := l } t) : OffFrom s t := h

/-- A command that ends in a whole-device reset, with PORST_N at a level. -/
theorem goes_toOff (s : State) (p : Bool) : Goes (done s { s.toOff with porst := p })
    fun t => OffFrom s t ∧ t.porst = p ∧ t.lostRails = s.lostRails := by
  have off := offFrom_toOff s p
  have rails := lostRails_toOff s
  generalize s.toOff = t at *
  exact ⟨_, rfl, off, rfl, rails⟩

/-- The reset itself leaves PORST_N. -/
theorem toOff_porst (s : State) : { s.toOff with porst := s.porst } = s.toOff := by
  rw [← porst_toOff s]

/-! ### Rails still out of range as OFF is left -/

/-- ROM_WAIT begins: Milestone starts at 0 (03 R54, Table 3.3 step 7). -/
def State.romStarted (s : State) : State :=
  State.enter .romWait 0 { s with time := { TimeSt.init with running := true }, mc := McSt.init }

theorem Only.ofTimeMc (s : State) (a : TimeSt) (b : McSt) : Only [.time, .mc] s { s with time := a, mc := b } :=
  ⟨rfl, fun p hp => by cases p <;> first | rfl | exact fun _ => rfl | exact absurd (by decide) hp⟩

theorem Only.romStarted (s : State) : Only [.time, .mc, .devState, .events, .irq, .out] s s.romStarted :=
  ((Only.ofTimeMc s _ _).mono (by decide)).trans ((Only.enter _ _ _).mono (by decide))

theorem devState_romStarted (s : State) : s.romStarted.devState = .romWait := devState_enter _ _ _

theorem time_romStarted (s : State) : s.romStarted.time = { TimeSt.init with running := true } :=
  (Only.enter _ _ _).get .time

/-- PORST_N is high in OFF, with VCTL and VIO18 in range. -/
def State.mayLeaveOff (s : State) : Prop :=
  s.devState = .off ∧ s.porst = true ∧ Rail.vctl ∉ s.lostRails ∧ Rail.vio18 ∉ s.lostRails

theorem toRomWait_leaves {s : State} (h : s.mayLeaveOff) :
    s.toRomWait = s.lostRails.foldl (fun (t : State) r => t.railLost r) s.romStarted := by
  obtain ⟨off, porst, vctl, vio18⟩ := h
  exact if_pos ⟨off, porst, by simpa using vctl, by simpa using vio18⟩

theorem toRomWait_stays {s : State} (h : ¬ s.mayLeaveOff) : s.toRomWait = s := by
  refine if_neg fun ⟨off, porst, vctl, vio18⟩ => h ⟨off, porst, ?_, ?_⟩
  · simpa using vctl
  · simpa using vio18

/-- What the declared loss of a rail other than VCTL and VIO18 may change. -/
def railParts : List Part := [.outputsUp, .pace, .link, .fns] ++ raiseParts

/-- Cutting what runs and posting the event leave the device state. -/
theorem devState_enterFence (b : Nat) (s : State) : (s.enterFence b).devState = s.devState := by
  unfold State.enterFence
  split
  · rfl
  · exact ((Only.postFence _ _ _).get .devState).trans (((Only.abortRunning _ _).get .devState).trans
      ((Only.raiseFence b s).get .devState))

theorem Only.fenceBlocks (bs : List Nat) (s : State) : Only fenceParts s (s.fenceBlocks bs) :=
  Only.foldl _ (fun t b => Only.enterFence b t) bs s

theorem devState_fenceBlocks (bs : List Nat) : ∀ s : State, (s.fenceBlocks bs).devState = s.devState := by
  induction bs with
  | nil => exact fun _ => rfl
  | cons b r ih => exact fun s => (ih _).trans (devState_enterFence b s)

theorem Only.lpddrCleared (s : State) : Only (.pools :: memParts) s s.lpddrCleared :=
  ((Only.zeroRange .lp 0 _ s).mono (by decide)).trans ((Only.ofPools _ _).mono (by decide))

/-- The link's loss up to the fence of the endpoint (04 Table 4.7 steps 1 to 4). -/
def State.linkHalted (s : State) : State :=
  if s.link.up then ({ s with link := { s.link with up := false } }.haltHostQueues).holdEvents true (List.range 16)
  else s

theorem linkLost_eq (s : State) : s.linkLost = s.linkHalted.enterFence 0x50 := by
  unfold State.linkLost State.linkHalted
  split <;> rfl

theorem Only.linkHalted (s : State) : Only [.link, .queues, .fns, .events] s s.linkHalted := by
  unfold State.linkHalted
  refine Only.ite (fun _ => ?_) fun _ => Only.refl _ s
  have down := Only.ofLinkKeep s { s.link with up := false } rfl
  have halted := Only.foldl (ps := [.queues]) (fun (t : State) (i : QueueInfo) =>
    t.modQueue i.ctx i.queue fun x => { x with halted := true }) (fun t i => Only.modQueue _ _ _ t)
  have held := Only.foldl (ps := [.fns, .events]) (fun (t : State) f => t.modFn f fun x => { x with evHold := true })
    (fun t f => Only.modFn f _ t)
  exact (down.mono (by decide)).trans (((halted _ _).mono (by decide)).trans ((held _ _).mono (by decide)))

theorem Only.linkLost (s : State) : Only (.link :: .fns :: fenceParts) s s.linkLost := by
  rw [linkLost_eq]
  exact ((Only.linkHalted s).mono (by decide)).trans ((Only.enterFence _ _).mono (by decide))

theorem devState_linkLost (s : State) : s.linkLost.devState = s.devState := by
  rw [linkLost_eq]
  exact (devState_enterFence _ _).trans ((Only.linkHalted s).get .devState)

/-- A fault outside RUN and FENCED is recorded and reported, and takes no device state (05 Table 5.2). -/
theorem Only.noteInactive (code unit : Nat) (r : Reaction) (detail : Nat) {s : State} (h : s.active = false) :
    Only [.records, .events, .irq, .out] s (s.noteFault code unit r detail) := by
  unfold State.noteFault
  rw [h, Bool.and_false, if_neg (by decide)]
  exact ((Only.record _ _ _ _ s).mono (by decide)).trans ((Only.post _ _ none _).mono (by decide))

theorem devState_fencePi_inactive {s : State} (h : s.devState ≠ .run) : s.fencePi.devState = s.devState := by
  cases on : s.isFenced 0x60 with
  | false => rw [devState_fencePi s on, if_neg h]
  | true => rw [State.fencePi, if_pos on]

/-- The loss of a field supply before RUN is recorded, and the outputs go to their reset state. -/
theorem railLost_field {r : Rail} {s : State} (h : r = .vio33 ∨ r = .vfield) (rom : s.devState = .romWait) :
    (s.railLost r).devState = .romWait ∧ Only railParts s (s.railLost r) ∧ (s.railLost r).outputsUp = false := by
  have idle : s.active = false := by simp [State.active, rom]
  have lost : s.railLost r = (s.noteFault 0x8A07 (railIndex r) .immediate 0).outputsDown := by
    have quiet : s.raise 0x8A07 (railIndex r) .immediate 0 = s.noteFault 0x8A07 (railIndex r) .immediate 0 :=
      if_neg (by simp [idle, rom])
    rcases h with rfl | rfl <;> exact congrArg State.outputsDown quiet
  have noted := Only.noteInactive 0x8A07 (railIndex r) .immediate 0 idle
  rw [lost]
  refine ⟨((Only.outputsDown _).get .devState).trans ((noted.get .devState).trans rom),
    (noted.mono (by decide)).trans ((Only.outputsDown _).mono (by decide)), ?_⟩
  rw [outputsDown_eq]
  rfl

/-- The loss of any other rail before RUN raises fences, and neither the device state nor the outputs follow. -/
theorem railLost_fences {r : Rail} {s : State} (vctl : r ≠ .vctl) (vio18 : r ≠ .vio18)
    (field : ¬(r = .vio33 ∨ r = .vfield)) (rom : s.devState = .romWait) :
    (s.railLost r).devState = .romWait ∧ Only (.link :: .fns :: fenceParts) s (s.railLost r) := by
  have idle : s.active = false := by simp [State.active, rom]
  cases r with
  | vctl => exact absurd rfl vctl
  | vio18 => exact absurd rfl vio18
  | vio33 => exact absurd (.inl rfl) field
  | vfield => exact absurd (.inr rfl) field
  | vcore =>
    have lost : s.railLost .vcore = (s.noteFault 0x8A0A 0xFF .fencePi 0).fencePi := if_neg (by rw [rom]; decide)
    have noted := Only.noteInactive 0x8A0A 0xFF .fencePi 0 idle
    have still : (s.noteFault 0x8A0A 0xFF .fencePi 0).devState = .romWait := (noted.get .devState).trans rom
    rw [lost]
    refine ⟨?_, (noted.mono (by decide)).trans ((Only.fencePi _).mono (by decide))⟩
    rw [devState_fencePi_inactive (by rw [still]; decide), still]
  | vddq | vdd2h =>
    exact ⟨((Only.lpddrCleared _).get .devState).trans ((devState_fenceBlocks _ s).trans rom),
      ((Only.fenceBlocks _ s).mono (by decide)).trans ((Only.lpddrCleared _).mono (by decide))⟩
  | vphyHs =>
    exact ⟨(devState_fenceBlocks _ _).trans ((devState_linkLost s).trans rom),
      (Only.linkLost s).trans ((Only.fenceBlocks _ _).mono (by decide))⟩
  | vphyMipi => exact ⟨(devState_fenceBlocks _ s).trans rom, (Only.fenceBlocks _ s).mono (by decide)⟩

/-- Rails that count as lost in turn from ROM_WAIT on: the device stays there, and a field supply among them holds the
outputs down. -/
theorem railLost_foldl (l : List Rail) : ∀ {s : State}, Rail.vctl ∉ l → Rail.vio18 ∉ l → s.devState = .romWait →
    (l.foldl (fun (t : State) r => t.railLost r) s).devState = .romWait ∧
    Only railParts s (l.foldl (fun (t : State) r => t.railLost r) s) ∧
    (s.outputsUp = false ∨ .vio33 ∈ l ∨ .vfield ∈ l →
      (l.foldl (fun (t : State) r => t.railLost r) s).outputsUp = false) := by
  induction l with
  | nil => exact fun _ _ rom => ⟨rom, Only.refl _ _, fun h => by simpa using h⟩
  | cons r l ih =>
    intro s vctl vio18 rom
    simp only [List.mem_cons, not_or] at vctl vio18
    by_cases field : r = .vio33 ∨ r = .vfield
    · obtain ⟨rom', frame, down⟩ := railLost_field field rom
      obtain ⟨stays, frame', downs⟩ := ih vctl.2 vio18.2 rom'
      exact ⟨stays, frame.trans frame', fun _ => downs (.inl down)⟩
    · obtain ⟨rom', frame⟩ := railLost_fences (Ne.symm vctl.1) (Ne.symm vio18.1) field rom
      obtain ⟨stays, frame', downs⟩ := ih vctl.2 vio18.2 rom'
      refine ⟨stays, (frame.mono (by decide)).trans frame', fun h => downs ?_⟩
      have same : (s.railLost r).outputsUp = s.outputsUp := frame.get .outputsUp
      rw [same]
      exact h.imp_right (Or.imp (fun h => (List.mem_cons.1 h).resolve_left fun e => field (.inl e.symm))
        fun h => (List.mem_cons.1 h).resolve_left fun e => field (.inr e.symm))

/-! ### PORST_N and the supplies -/

/-- PORST_N rises, or the last rail returns, in OFF: ROM_WAIT begins and the rails still out of range are lost. -/
theorem goes_toRomWait {s t : State} (h : t.mayLeaveOff) (pending : t.pending = s.pending) :
    Goes (done s t.toRomWait) fun u => u.devState = .romWait ∧ u.porst = t.porst ∧ u.lostRails = t.lostRails ∧
      u.time = { TimeSt.init with running := true } ∧
      (Rail.vfield ∈ t.lostRails ∨ Rail.vio33 ∈ t.lostRails → u.outputsUp = false ∧ u.fieldPower = false) := by
  rw [toRomWait_leaves h]
  obtain ⟨off, -, vctl, vio18⟩ := h
  have started := Only.romStarted t
  obtain ⟨rom, frame, down⟩ := railLost_foldl t.lostRails vctl vio18 (devState_romStarted t)
  have rails := (frame.get .lostRails).trans (started.get .lostRails)
  refine goes_done_of (frame.1.trans (started.1.trans pending)) ⟨rom, (frame.get .porst).trans (started.get .porst),
    rails, (frame.get .time).trans (time_romStarted t), fun lost => ⟨down (.inr lost.symm), ?_⟩⟩
  rw [State.fieldPower, rails]
  rcases lost with lost | lost <;> simp [lost]

/-- With every rail in range OFF is left for ROM_WAIT and nothing else follows. -/
theorem done_toRomWait {s t : State} (h : t.mayLeaveOff) (rails : t.lostRails = []) (pending : t.pending = s.pending) :
    done s t.toRomWait = .next t.romStarted := by
  rw [toRomWait_leaves h, rails]
  exact done_eq ((Only.romStarted t).1.trans pending)

theorem supplyLoss_lost {r : Rail} {s : State} (h : r ∉ s.lostRails) : exec (.supplyLoss r) s =
    done s (if s.devState = .off then { s with lostRails := s.lostRails ++ [r] }
      else { s with lostRails := s.lostRails ++ [r] }.railLost r) :=
  congrArg (done s) (if_neg (by simpa using h))

theorem supplyRestore_restored {r : Rail} {s : State} (h : r ∈ s.lostRails) : exec (.supplyRestore r) s =
    done s (if s.devState = .off then { s with lostRails := s.lostRails.filter (· ≠ r) }.toRomWait
      else if r = .vcore && s.isFenced 0x60 && !s.pace.thermalFence then
        { s with lostRails := s.lostRails.filter (· ≠ r), piReset := true }
      else { s with lostRails := s.lostRails.filter (· ≠ r) }) :=
  congrArg (done s) (if_neg (by simpa using h))

theorem supplyRestore_inRange {r : Rail} {s : State} (h : r ∉ s.lostRails) : exec (.supplyRestore r) s = .next s :=
  (congrArg (done s) (if_pos (by simpa using h))).trans (done_eq rfl)

end Sys2Proof.Machine

open Sys2Proof Sys2Proof.Machine

/-- Settles O12: what stands over the reset and which outputs fall by `offFrom_toOff`, the release by the rails that are
still out of range as ROM_WAIT begins. -/
theorem wholeDeviceResetAndRelease : Obligations.WholeDeviceResetAndRelease := by
  refine ⟨⟨fun s => ?low, fun r s hr new on => ?loss, fun r s new off => ?lossInOff⟩,
    fun s off rails => ?release, fun s off vctl vio18 => ?releaseLost, fun s stays => ?releaseStays,
    fun r s off high rails => ?restoreLast, fun r s => supplyRestore_inRange,
    fun s on lost fenced thermal => ?restoreVcore⟩
  case low => exact goes_toOff s false
  case loss =>
    have reset : { s with lostRails := s.lostRails ++ [r] }.railLost r =
        { s with lostRails := s.lostRails ++ [r] }.toOff := by
      rcases hr with rfl | rfl <;> rfl
    obtain ⟨t, goes, off, porst, rails⟩ := goes_toOff { s with lostRails := s.lostRails ++ [r] } s.porst
    rw [supplyLoss_lost new, if_neg on, reset, ← toOff_porst]
    exact ⟨t, goes, offFrom_rails off, porst, rails⟩
  case lossInOff =>
    rw [supplyLoss_lost new, if_pos off]
    exact done_eq rfl
  case release =>
    exact done_toRomWait (t := { s with porst := true }) ⟨off, rfl, by simp [rails], by simp [rails]⟩ rails rfl
  case releaseLost => exact goes_toRomWait (t := { s with porst := true }) ⟨off, rfl, vctl, vio18⟩ rfl
  case releaseStays =>
    have held : ¬ { s with porst := true }.mayLeaveOff := by
      rintro ⟨off, -, vctl, vio18⟩
      exact stays.elim (· off) (Or.elim · vctl vio18)
    exact (congrArg (done s) (toRomWait_stays held)).trans (done_eq rfl)
  case restoreLast =>
    have none : s.lostRails.filter (· ≠ r) = [] := by simp [rails]
    rw [supplyRestore_restored (by simp [rails]), if_pos off, none]
    exact done_toRomWait (t := { s with lostRails := [] }) ⟨off, high, List.not_mem_nil, List.not_mem_nil⟩ rfl rfl
  case restoreVcore =>
    rw [supplyRestore_restored lost, if_neg on, if_pos (by simp [fenced, thermal])]
    exact done_eq rfl

end

section
/-! PROOF. What leaves the Milestone timebase alone (02 section 2.4): every operation of the model but the clock, the PTP
servo, SET_MILESTONE, a START or a book without a time source, and the whole-device reset. One lemma per operation, in
the model's order, each from those of the operations that it calls. -/

namespace Sys2Proof.Machine

set_option Elab.async false

/-- Whatever state the outcome goes on to has the Milestone timebase of `s`. -/
def KeepsTime (s : State) (o : Host.Outcome State Fault Refusal) : Prop := ∀ t, o = .next t → t.time = s.time

@[simp] theorem keepsTime_done {s t : State} : KeepsTime s (done s t) ↔ t.time = s.time := by
  simp [KeepsTime, done]

@[simp] theorem keepsTime_checked {c : Instr} {m : String} {s t : State} (h : t.time = s.time) :
    KeepsTime s (checked c m s t) := by
  unfold checked
  split
  · exact keepsTime_done.2 h
  · intro u e
    cases e

theorem foldl_keeps {α β γ : Type} (g : β → γ) {f : β → α → β} (h : ∀ x a, g (f x a) = g x) (l : List α) (x : β) :
    g (l.foldl f x) = g x :=
  (List.foldl_hom g (g₂ := fun y _ => y) fun x a => (h x a).symm).symm.trans (List.foldl_fixed l)

@[simp] theorem State.foldl_time {α : Type} {f : State → α → State} (h : ∀ s a, (f s a).time = s.time) (l : List α)
    (s : State) : (l.foldl f s).time = s.time :=
  foldl_keeps State.time h l s

theorem State.foldl_snd_time {α β : Type} {f : α × State → β → α × State} (h : ∀ x b, (f x b).2.time = x.2.time)
    (l : List β) (x : α × State) : (l.foldl f x).2.time = x.2.time :=
  foldl_keeps (fun p : α × State => p.2.time) h l x

@[simp] theorem State.ite_time (c : Prop) [Decidable c] (s t : State) :
    (if c then s else t).time = if c then s.time else t.time := apply_ite State.time c s t

@[simp] theorem ite_fst {α β : Type} (c : Prop) [Decidable c] (x y : α × β) :
    (if c then x else y).1 = if c then x.1 else y.1 := apply_ite Prod.fst c x y

@[simp] theorem ite_snd {α β : Type} (c : Prop) [Decidable c] (x y : α × β) :
    (if c then x else y).2 = if c then x.2 else y.2 := apply_ite Prod.snd c x y

section
variable (s : State)

/-! ### Shared operations -/

@[simp] theorem State.count_time (c i n : Nat) : (s.count c i n).time = s.time := (Only.count _ _ _ _).get .time

@[simp] theorem State.signal_time (f v : Nat) : (s.signal f v).time = s.time := (Only.signal _ _ _).get .time

@[simp] theorem State.post_time (code payload : Nat) (ctx : Option Nat) : (s.post code payload ctx).time = s.time :=
  (Only.post _ _ _ _).get .time

@[simp] theorem State.enter_time (d : DevState) (cause : Nat) : (s.enter d cause).time = s.time :=
  (Only.enter _ _ _).get .time

/-! ### Memory -/

@[simp] theorem State.setMark_time (m : Mem) (w : Nat) (e : Ecc) : (s.setMark m w e).time = s.time :=
  (Only.setMark _ _ _ _).get .time

@[simp] theorem State.record_time (code unit reaction detail : Nat) :
    (s.record code unit reaction detail).time = s.time := (Only.record _ _ _ _ _).get .time

@[simp] theorem State.readWord_time (m : Mem) (who : Option Nat) (w : Nat) : (s.readWord m who w).2.time = s.time :=
  (Only.readWord _ _ _ _).get .time

@[simp] theorem State.readWords_time (m : Mem) (who : Option Nat) (a0 : List Nat) (a2 : Seen) :
    (State.readWords m who a0 s a2).2.time = s.time := (Only.readWords _ _ _ _ _).get .time

@[simp] theorem State.zeroRange_time (m : Mem) (a n : Nat) : (s.zeroRange m a n).time = s.time :=
  (Only.zeroRange _ _ _ _).get .time

@[simp] theorem State.zeroDone_time : s.zeroDone.time = s.time := (Only.zeroDone _).get .time

@[simp] theorem State.markPending_time (gs : List Nat) : (s.markPending gs).time = s.time :=
  (Only.markPending _ _).get .time

@[simp] theorem State.zeroGranule_time (g : Nat) : (s.zeroGranule g).time = s.time := (Only.zeroGranule _ _).get .time

@[simp] theorem State.touch_time (m : Mem) (a n : Nat) : (s.touch m a n).time = s.time :=
  (Only.touch _ _ _ _).get .time

@[simp] theorem State.readMem_time (m : Mem) (who : Option Nat) (a n : Nat) :
    (s.readMem m who a n).2.2.time = s.time := (Only.readMem _ _ _ _ _).get .time

@[simp] theorem State.writeMem_time (m : Mem) (who : Option Nat) (poison : Bool) (a : Nat) (bs : List Byte) :
    (s.writeMem m who poison a bs).2.time = s.time := (Only.writeMem _ _ _ _ _ _).get .time

@[simp] theorem State.setTags_time (who : Option Nat) (epoch a n : Nat) :
    (s.setTags who epoch a n).time = s.time := by
  simp [State.setTags]

@[simp] theorem State.zeroSward_time : s.zeroSward.time = s.time := by simp [State.zeroSward]

@[simp] theorem State.writeHost_time (ep : Bool) (a : Nat) (bs : List Byte) : (s.writeHost ep a bs).time = s.time :=
  (Only.writeHost _ _ _ _).get .time

@[simp] theorem State.hostStores_time (l : List HostStore) : (s.hostStores l).time = s.time := by
  simp [State.hostStores]

@[simp] theorem State.writeDev_time (who : Option Nat) (a : Nat) (bs : List Byte) :
    (s.writeDev who a bs).time = s.time := (Only.writeDev _ _ _ _).get .time

/-! ### Completions, fences and faults -/

@[simp] theorem State.writeRecord_time (i : QueueInfo) (bs : List Byte) : (s.writeRecord i bs).time = s.time :=
  (Only.writeRecord _ _ _).get .time

@[simp] theorem State.unregister_time (f : Pool → Bool) : (s.unregister f).time = s.time :=
  (Only.unregister _ _).get .time

@[simp] theorem State.poolFailed_time (w : Waybill) (status : Nat) : (s.poolFailed w status).time = s.time :=
  (Only.poolFailed _ _ _).get .time

@[simp] theorem State.finish_time (w : Waybill) (status detail : Nat) (f : DoneFlags) (descFault : Bool) :
    (s.finish w status detail f descFault).time = s.time := (Only.finish _ _ _ _ _ _).get .time

@[simp] theorem State.settle_time (n : Nat) : (s.settle n).time = s.time := (Only.settle _ _).get .time

@[simp] theorem State.settleAll_time : s.settleAll.time = s.time := by simp [State.settleAll]

@[simp] theorem State.complete_time (w : Waybill) (status detail : Nat) (f : DoneFlags) :
    (s.complete w status detail f).time = s.time := (Only.complete _ _ _ _ _).get .time

@[simp] theorem State.endFrame_time (k flags : Nat) : (s.endFrame k flags).time = s.time :=
  (Only.endFrame _ _ _).get .time

@[simp] theorem State.enterFence_time (b : Nat) : (s.enterFence b).time = s.time := (Only.enterFence _ _).get .time

@[simp] theorem State.fencePi_time : s.fencePi.time = s.time := (Only.fencePi _).get .time

@[simp] theorem State.outputsDown_time : s.outputsDown.time = s.time := (Only.outputsDown _).get .time

@[simp] theorem State.assertSto_time (cause : Nat) : (s.assertSto cause).time = s.time :=
  (Only.assertSto _ _).get .time

@[simp] theorem State.endRamps_time : s.endRamps.time = s.time := (Only.endRamps _).get .time

@[simp] theorem State.orderStop_time (cause : Nat) : (s.orderStop cause).time = s.time :=
  (Only.orderStop _ _).get .time

@[simp] theorem State.raise_time (code unit : Nat) (r : Reaction) (detail : Nat) :
    (s.raise code unit r detail).time = s.time := (Only.raise _ _ _ _ _).get .time

/-! ### The checks of a fetch -/

@[simp] theorem State.readDesc_time (c : CtxInfo) (h : Nat) : (s.readDesc c h).2.2.time = s.time := by
  simp [State.readDesc]

@[simp] theorem State.loadNamed_time (c : CtxInfo) (l : List (Nat × Nat)) (w : Waybill) :
    (State.loadNamed c l w s).2.1.time = s.time := by
  induction l generalizing w s with
  | nil => rfl
  | cons p r ih =>
    unfold State.loadNamed
    dsimp only
    repeat' split
    all_goals simp [ih]

@[simp] theorem State.check4_time (c : CtxInfo) (w : Waybill) : (s.check4 c w).2.1.time = s.time := by
  simp [State.check4]

@[simp] theorem State.loadMore_time (c : CtxInfo) (l : List Nat) (w : Waybill) (bad : Map Nat) :
    (State.loadMore c l w bad s).2.2.time = s.time := by
  induction l generalizing w bad s with
  | nil => rfl
  | cons h r ih =>
    unfold State.loadMore
    split <;> simp [ih]

@[simp] theorem State.loadRest_time (c : CtxInfo) (w : Waybill) : (s.loadRest c w).2.2.time = s.time := by
  simp [State.loadRest]

/-! ### Fetch -/

@[simp] theorem State.readEntry_time (i : QueueInfo) (n : Nat) : (s.readEntry i n).2.2.2.time = s.time := by
  unfold State.readEntry
  split <;> simp

@[simp] theorem State.judge_time (c : CtxInfo) (breach : Bool) (w : Waybill) :
    (s.judge c breach w).2.2.time = s.time := by
  have named := State.check4_time s c w
  unfold State.judge
  split
  · rfl
  · split
    · simp_all
    · exact (State.loadRest_time _ c _).trans (by simp_all)

@[simp] theorem State.takeWrites_time (w : Waybill) : (s.takeWrites w).time = s.time := by simp [State.takeWrites]

@[simp] theorem State.refuse_time (w : Waybill) (f : Nat × Nat) : (s.refuse w f).time = s.time := by
  simp [State.refuse]

@[simp] theorem State.registerPool_time (c : CtxInfo) (w : Waybill) : (s.registerPool c w).time = s.time := rfl

@[simp] theorem State.accept_time (c : CtxInfo) (w : Waybill) : (s.accept c w).time = s.time := by simp [State.accept]

@[simp] theorem State.fetchOne_time (c : CtxInfo) (i : QueueInfo) (breach : Bool) :
    (s.fetchOne c i breach).2.2.time = s.time := by simp [State.fetchOne]

@[simp] theorem State.fetchAll_time (c : CtxInfo) (i : QueueInfo) (l : List Bool) :
    (State.fetchAll c i l s).2.time = s.time := by
  induction l generalizing s with
  | nil => rfl
  | cons b r ih => simp [State.fetchAll, ih]

@[simp] theorem State.fetchUnit_time (c : CtxInfo) (i : QueueInfo) (u : FetchUnit) :
    (s.fetchUnit c i u).time = s.time := by
  simp only [State.fetchUnit, State.settleAll_time]
  refine (State.foldl_time (fun t p => ?_) _ _).trans (State.fetchAll_time s c i _)
  split
  · simp
  · split <;> simp

@[simp] theorem keepsTime_execWaybillFetch (ctx : Fin 256) (q : Fin 4) (stores : List HostStore) :
    KeepsTime s (execWaybillFetch ctx q stores s) := by
  unfold execWaybillFetch
  dsimp only
  repeat' split
  all_goals simp

/-! ### Streams, dictionaries and pictures -/

@[simp] theorem State.setStream_time (c n : Nat) (x : Option Stream) : (s.setStream c n x).time = s.time := rfl

@[simp] theorem State.setDict_time (c n : Nat) (x : Option Dict) : (s.setDict c n x).time = s.time := rfl

@[simp] theorem State.closeIntake_time (f : Nat → Bool) : (s.closeIntake f).time = s.time :=
  (Only.closeIntake _ _).get .time

@[simp] theorem State.storePicture_time (key : Nat) (x : Stream) (p : Picture) (planes : List (List Nat)) :
    (s.storePicture key x p planes).2.time = s.time := by simp [State.storePicture]

@[simp] theorem State.loadPicture_time (key : Nat) (x : Stream) (p : Picture) :
    (s.loadPicture key x p).2.time = s.time := by simp [State.loadPicture]

@[simp] theorem State.upset_time (key : Nat) (u : StoreUpset) : (State.upset key s u).time = s.time := by
  unfold State.upset
  dsimp only
  repeat' split
  all_goals simp

@[simp] theorem State.openStream_time (w : Waybill) : (s.openStream w).time = s.time := rfl

@[simp] theorem State.ieTake_time (w : Waybill) : (s.ieTake w).2.time = s.time := by
  unfold State.ieTake
  dsimp only
  repeat' split
  all_goals simp

/-! ### The timebase, the ring and the governor -/

@[simp] theorem State.latchMs_time (p : Requester) : (s.latchMs p).time = s.time := by
  unfold State.latchMs
  split <;> simp

@[simp] theorem State.vcoreCommand_time (mV : Nat) : (s.vcoreCommand mV).time = s.time :=
  (Only.vcoreCommand _ _).get .time

@[simp] theorem State.piLoss_time : s.piLoss.time = s.time := by simp [State.piLoss]

@[simp] theorem keepsTime_execAvsbusReadBack (mV : Nat) (alert : Option (BitVec 16)) :
    KeepsTime s (execAvsbusReadBack mV alert s) := by
  unfold execAvsbusReadBack
  repeat' split
  all_goals simp

@[simp] theorem keepsTime_execPaceGovernorPeriod (tjHalf : Int) (rateMilli : Nat) :
    KeepsTime s (execPaceGovernorPeriod tjHalf rateMilli s) := by
  unfold execPaceGovernorPeriod
  dsimp only
  repeat' split
  all_goals simp

@[simp] theorem State.mcLostAnswer_time (f : Nat) : (s.mcLostAnswer f).time = s.time := by simp [State.mcLostAnswer]

@[simp] theorem keepsTime_execPtpDelayReqReceive (mac : Fin 2) (seq : BitVec 16) :
    KeepsTime s (execPtpDelayReqReceive mac seq s) := by
  unfold execPtpDelayReqReceive
  split <;> simp

/-! ### Dispatch, zeroing and scrubbing -/

@[simp] theorem State.arbitrate_time (cls : Nat) : ∀ x ∈ State.arbitrate cls s, x.2.time = s.time := by
  unfold State.arbitrate
  dsimp only
  repeat' split
  all_goals simp

@[simp] theorem State.reloadCredits_time : s.reloadCredits.time = s.time := rfl

@[simp] theorem State.startOn_time (e : Nat) (w : Waybill) : (s.startOn e w).time = s.time := by simp [State.startOn]

@[simp] theorem keepsTime_execEngineDispatch (e : Fin 19) : KeepsTime s (execEngineDispatch e s) := by
  have chosen := State.arbitrate_time s (classOf e)
  unfold execEngineDispatch
  rw [keepsTime_done]
  repeat' split
  all_goals simp_all

@[simp] theorem keepsTime_execBackgroundZeroing : KeepsTime s (execBackgroundZeroing s) := by
  unfold execBackgroundZeroing
  split <;> simp

@[simp] theorem State.scrubSward_time : s.scrubSward.time = s.time := by simp [State.scrubSward]

@[simp] theorem State.scrubLpddr_time : s.scrubLpddr.time = s.time := by simp [State.scrubLpddr]

@[simp] theorem keepsTime_execPatrolScrub (mem : ScrubMem) : KeepsTime s (execPatrolScrub mem s) := by
  unfold execPatrolScrub
  repeat' split
  all_goals simp

/-! ### Runs of an engine -/

@[simp] theorem State.checkTags_time (k : RunCtx) (r : Rd) (p : Run × State) :
    (State.checkTags k r p).2.time = p.2.time := State.foldl_snd_time (fun x l => by dsimp only; split <;> simp) _ p

@[simp] theorem State.hostReq_time (k : RunCtx) (write : Bool) (addr len : Nat) :
    (s.hostReq k write addr len).time = s.time := rfl

@[simp] theorem State.runRead_time (k : RunCtx) (p : Run × State) (r : Rd) :
    (State.runRead k p r).2.time = p.2.time := by
  have sent : (r.runs.foldl (fun (t : State) (q : Nat × Nat) => t.hostReq k false q.1 q.2) p.2).time = p.2.time :=
    State.foldl_time (by simp) _ _
  unfold State.runRead
  dsimp only
  repeat' split
  all_goals simp [sent]

@[simp] theorem State.runWrite_time (k : RunCtx) (force : Bool) (p : Run × State) (wr : Wr) :
    (State.runWrite k force p wr).2.time = p.2.time := by
  unfold State.runWrite
  repeat' split
  all_goals simp

@[simp] theorem State.runStep_time (k : RunCtx) (force : Bool) (p : Run × State) (t : EngStep) :
    (State.runStep k force p t).2.time = p.2.time :=
  (State.foldl_snd_time (by simp) t.writes _).trans (State.foldl_snd_time (by simp) t.reads p)

@[simp] theorem State.runSteps_time (k : RunCtx) (poisonFrom : Option Nat) (n : Nat) (l : List EngStep)
    (p : Run × State) :
    (State.runSteps k poisonFrom n l p).2.2.time = p.2.time := by
  induction l generalizing n p with
  | nil => rfl
  | cons t r ih =>
    unfold State.runSteps
    split <;> simp [ih]

@[simp] theorem State.touchSpans_time (c : CtxInfo) (w : Waybill) : (s.touchSpans c w).time = s.time := by
  simp [State.touchSpans]

@[simp] theorem State.residueReports_time (ctx e : Nat) (ev : List ResidueEvent) (first : Option Nat) :
    (s.residueReports ctx e ev first).time = s.time := by
  unfold State.residueReports
  split <;> simp

@[simp] theorem State.runPlan_time (c : CtxInfo) (w : Waybill) (e : Nat) (covered : Bool) (ev : List ResidueEvent)
    (steps last : List EngStep) (nSteps : Nat) :
    (s.runPlan c w e covered ev steps last nSteps).time = s.time := by simp [State.runPlan]

@[simp] theorem State.runOn_time {e cls op : Nat} {f : CtxInfo → Waybill → State → State}
    (h : ∀ c w t, (f c w t).time = t.time) :
    (s.runOn e cls op f).time = s.time := by
  unfold State.runOn
  repeat' split
  all_goals simp [h]

/-! ### Tensor commands -/

@[simp] theorem State.commitWaymark_time (c n len stamp : Nat) (data : List Byte) :
    (s.commitWaymark c n len stamp data).time = s.time := (Only.commitWaymark _ _ _ _ _ _).get .time

/-! ### Vector commands -/

@[simp] theorem State.runVe_time (e op : Nat) (f : State → CtxInfo → Waybill → Nat → VeRow)
    (more : State → CtxInfo → Waybill → Nat → Nat → List Rd) :
    (s.runVe e op f more).time = s.time := by
  refine State.runOn_time s fun c w t => ?_
  simp

/-! ### Attention commands -/

@[simp] theorem State.setPool_time (p : Pool) : (s.setPool p).time = s.time := rfl

@[simp] theorem State.freeWrite_time (ctx u n : Nat) : (s.freeWrite ctx u n).time = s.time := by
  simp [State.freeWrite]

@[simp] theorem State.freeLines_time (ctx u n : Nat) : (s.freeLines ctx u n).time = s.time := by
  simp [State.freeLines]

theorem State.foldl_freeWrite_time (ctx n : Nat) (a b : Nat → Nat) (l : List Nat) :
    (l.foldl (fun (t : State) i => (t.freeWrite ctx (a i) n).freeWrite ctx (b i) n) s).time = s.time :=
  State.foldl_time (by simp) l s

theorem State.foldl_freeLines_time (ctx n : Nat) (a : Nat → Nat) (l : List Nat) :
    (l.foldl (fun (t : State) i => t.freeLines ctx (a i) n) s).time = s.time :=
  State.foldl_time (by simp) l s

@[simp] theorem State.changePool_time (ctx : Nat) (p q : Pool) : (s.changePool ctx p q).time = s.time := by
  unfold State.changePool
  exact (State.foldl_freeLines_time _ ctx _ _ _).trans (State.foldl_freeWrite_time _ ctx 64 q.nodeAt q.blockAt _)

@[simp] theorem State.finishAe_time (c : CtxInfo) (w : Waybill) (steps corrBefore : Nat) (x : Run) :
    (s.finishAe c w steps corrBefore x).time = s.time := by simp [State.finishAe]

@[simp] theorem State.runAe_time {e op : Nat} {f : CtxInfo → Waybill → Pool → State → State}
    (h : ∀ c w p t, (f c w p t).time = t.time) :
    (s.runAe e op f).time = s.time := by
  unfold State.runAe
  refine State.runOn_time s fun c w t => ?_
  split <;> simp [h]

@[simp] theorem State.examine_time (k : RunCtx) (code : Nat) (p : Pool) (parent : Option Nat) (ids : List
    (BitVec 32)) (l : List Nat)
    (x : Run × State) :
    (State.examine k code p parent ids l x).2.2.2.time = x.2.time := by
  induction l generalizing x with
  | nil => rfl
  | cons i r ih =>
    unfold State.examine
    dsimp only
    split <;> simp [ih]

@[simp] theorem State.lookupFrom_time (k : RunCtx) (code : Nat) (o : Opnd) (n at_ : Nat) (l : Lookup) :
    (State.lookupFrom k code o n at_ l s).2.time = s.time := by
  induction n generalizing at_ l s with
  | zero => rfl
  | succ n ih =>
    unfold State.lookupFrom
    split
    · rfl
    · dsimp only
      split
      · simp
      · rw [ih]
        simp

@[simp] theorem State.appendTokens_time (k : RunCtx) (code : Nat) (p : Pool) (blocks : List Nat) (lat ids : Opnd)
    (start : Nat) (l : List Nat)
    (x : Run × State) :
    (State.appendTokens k code p blocks lat ids start l x).2.time = x.2.time := by
  induction l generalizing x with
  | nil => rfl
  | cons i r ih => simp [State.appendTokens, ih]

@[simp] theorem State.insertBlocks_time (k : RunCtx) (code now start : Nat) (blocks : List Nat) (n i : Nat)
    (p : Pool) (x : Run × State) :
    (State.insertBlocks k code now start blocks n i p x).2.2.time = x.2.time := by
  induction n generalizing i p x with
  | zero => rfl
  | succ n ih =>
    unfold State.insertBlocks
    simp only [ite_snd, State.ite_time, ih]
    simp

@[simp] theorem keepsTime_execKvAppend (e : Fin 19) : KeepsTime s (execKvAppend e s) := by
  rw [execKvAppend, keepsTime_done]
  refine State.runAe_time s fun c w p t => ?_
  dsimp only
  split
  · simp
  · split <;> simp

/-! ### Intake commands -/

@[simp] theorem State.ieEnd_time (c : CtxInfo) (w : Waybill) (steps status detail : Nat) :
    (s.ieEnd c w steps status detail).time = s.time := by simp [State.ieEnd]

@[simp] theorem State.ieWrite_time (c : CtxInfo) (w : Waybill) (outs : List (Opnd × List Byte))
    (minSteps status detail : Nat) :
    (s.ieWrite c w outs minSteps status detail).time = s.time := by simp [State.ieWrite]

@[simp] theorem State.runIe_time {e op at_ : Nat} {f : CtxInfo → Waybill → Nat → Stream → State → State}
    (h : ∀ c w n x t, (f c w n x t).time = t.time) :
    (s.runIe e op at_ f).time = s.time := by
  refine State.runOn_time s fun c w t => ?_
  dsimp only
  split
  · simp
  · exact h c w _ _ t

@[simp] theorem State.readRefs_time (key : Nat) (l : List Nat) (x : Stream × State) :
    (State.readRefs key l x).2.2.time = x.2.time := by
  induction l generalizing x with
  | nil => rfl
  | cons b r ih =>
    unfold State.readRefs
    split <;> simp [ih]

@[simp] theorem State.decodeUnit_time (key : Nat) (u : List Byte × Nat × Bool) (rest : List
    (List Byte × Nat × Bool)) (x : Stream) :
    (s.decodeUnit key u rest x).time = s.time := by simp [State.decodeUnit]

@[simp] theorem keepsTime_execPictureDecoded (ctx : Fin 256) (n : Fin 16) (upsets : List StoreUpset) :
    KeepsTime s (execPictureDecoded ctx n upsets s) := by
  unfold execPictureDecoded
  repeat' split
  all_goals simp

@[simp] theorem State.replacement_time (key : Nat) (x : Stream) (h : Shape) (reason dropped : Nat) :
    (s.replacement key x h reason dropped).2.time = s.time := by
  unfold State.replacement
  dsimp only
  split
  · rfl
  · have read := State.loadPicture_time s key x ‹_›
    split <;> simp_all

@[simp] theorem State.decodeOut_time (key : Nat) (x : Stream) (h : Shape) :
    (s.decodeOut key x h).2.time = s.time := by
  unfold State.decodeOut
  dsimp only
  split
  · simp
  · split
    · rfl
    · have read := State.loadPicture_time s key x ‹_›
      split <;> simp_all

@[simp] theorem keepsTime_execDecode (e : Fin 19) : KeepsTime s (execDecode e s) := by
  rw [execDecode, keepsTime_done]
  refine State.runIe_time s fun c w n x t => ?_
  dsimp only
  split
  · simp
  · split
    case h_1 t1 out =>
      have taken : t.time = t1.time := by simpa using congrArg (·.2.time) out
      simp [taken]
    case h_2 d t1 out =>
      have taken : t.time = t1.time := by simpa using congrArg (·.2.time) out
      split <;> simp [taken]

@[simp] theorem keepsTime_execDictSeal (e : Fin 19) : KeepsTime s (execDictSeal e s) := by
  rw [execDictSeal, keepsTime_done]
  refine State.runOn_time s fun c w t => ?_
  dsimp only
  split
  · simp
  · split
    · simp
    · split <;> simp

@[simp] theorem keepsTime_execTokenise (e : Fin 19) : KeepsTime s (execTokenise e s) := by
  rw [execTokenise, keepsTime_done]
  refine State.runIe_time s fun c w n x t => ?_
  dsimp only
  split
  · simp
  · split
    · simp
    · split
      · simp
      · split <;> simp

@[simp] theorem State.clearStats_time (c n : Nat) (x : Stream) : (s.clearStats c n x).time = s.time := rfl

/-! ### Cameras -/

@[simp] theorem State.dropPacket_time (rx vc : Nat) : (s.dropPacket rx vc).time = s.time := by
  unfold State.dropPacket
  dsimp only
  split
  · rfl
  · exact State.foldl_time (by simp) _ s

@[simp] theorem State.onPacket_time {rx vc : Nat} {hdr : HeaderEcc} {f : Nat → Rec → State → State}
    (h : ∀ k r t, (f k r t).time = t.time) :
    (s.onPacket rx vc hdr f).time = s.time := by
  unfold State.onPacket
  split
  · rfl
  · split
    · simp
    · refine State.foldl_time (fun t k => ?_) _ s
      split
      · split <;> simp [h]
      · rfl

@[simp] theorem State.ispWrite_time (ctx a efn : Nat) (bs : List Byte) :
    (s.ispWrite ctx a efn bs).time = s.time := by
  unfold State.ispWrite
  split <;> simp

@[simp] theorem State.writingRecords_time (k : Nat) (f : CamFrame) : (s.writingRecords k f).time = s.time := by
  simp [State.writingRecords]

@[simp] theorem State.frameStart_time (k : Nat) (r : Rec) (fn : BitVec 16) : (s.frameStart k r fn).time = s.time := by
  simp [State.frameStart]

@[simp] theorem keepsTime_execCsiLinePacket (rx vc : Fin 4) (dt : Byte) (hdr : HeaderEcc) (crcOk overrun : Bool)
    (codes : List Nat) :
    KeepsTime s (execCsiLinePacket rx vc dt hdr crcOk overrun codes s) := by
  refine keepsTime_checked (State.onPacket_time s fun k r t => ?_)
  split
  · split <;> simp
  · simp

@[simp] theorem keepsTime_execFrameEndTimeout (cam : Fin 4) : KeepsTime s (execFrameEndTimeout cam s) := by
  unfold execFrameEndTimeout
  split <;> simp

@[simp] theorem State.writePlanes_time (b : Rec) (efn : Nat) (l : List BranchPlane) (a : Nat) :
    (State.writePlanes b efn l a s).time = s.time := by
  induction l generalizing a s with
  | nil => rfl
  | cons p r ih => simp [State.writePlanes, ih]

@[simp] theorem State.deliverSward_time (k : Nat) (r b : Rec) (f : CamFrame) (o : IspOut) (status : Nat) :
    (s.deliverSward k r b f o status).time = s.time := by simp [State.deliverSward]

@[simp] theorem State.deliverIe_time (k : Nat) (b : Rec) (f : CamFrame) (o : IspOut) (status : Nat) :
    (s.deliverIe k b f o status).time = s.time := by
  unfold State.deliverIe
  split <;> simp

@[simp] theorem State.writeStats_time (k : Nat) (r : Rec) (f : CamFrame) (o : IspOut) (status : Nat) :
    (s.writeStats k r f o status).time = s.time := by simp [State.writeStats]

@[simp] theorem State.governCam_time (k : Nat) (r : Rec) (f : CamFrame) (o : IspOut) (status : Nat) :
    (s.governCam k r f o status).time = s.time := by
  unfold State.governCam
  repeat' split
  all_goals simp

@[simp] theorem keepsTime_execFrameRecordWrite (cam : Fin 4) : KeepsTime s (execFrameRecordWrite cam s) := by
  unfold execFrameRecordWrite
  dsimp only
  repeat' split
  all_goals simp

@[simp] theorem State.trigLevel_time (k : Nat) (level : Bool) : (s.trigLevel k level).time = s.time := by
  simp [State.trigLevel]

@[simp] theorem keepsTime_execTriggerPulse (cam : Fin 4) : KeepsTime s (execTriggerPulse cam s) := by
  unfold execTriggerPulse
  dsimp only
  repeat' split
  all_goals simp

@[simp] theorem keepsTime_execCamLost (cam : Fin 4) : KeepsTime s (execCamLost cam s) := by
  unfold execCamLost
  split <;> simp

@[simp] theorem State.startCamera_time (k : Nat) : (s.startCamera k).time = s.time := by
  unfold State.startCamera
  split <;> simp

@[simp] theorem State.startCameras_time : s.startCameras.time = s.time := by simp [State.startCameras]

/-! ### Encoders -/

@[simp] theorem State.encClock_time (ch : Nat) (r : Rec) : (s.encClock ch r).time = s.time := by simp [State.encClock]

@[simp] theorem State.encSample_time (ch at_ : Nat) : (s.encSample ch at_).time = s.time := by
  unfold State.encSample
  split <;> simp

@[simp] theorem State.encDeliver_time (ch : Nat) : (s.encDeliver ch).time = s.time := by
  refine State.foldl_time (fun t l => ?_) _ s
  rfl

@[simp] theorem keepsTime_execEncoderPositionReady (ch : Fin 16) (sample : EncSample) :
    KeepsTime s (execEncoderPositionReady ch sample s) := by
  unfold execEncoderPositionReady
  split <;> simp

@[simp] theorem keepsTime_execEncoderFreeSample (ch : Fin 16) (sample : EncSample) :
    KeepsTime s (execEncoderFreeSample ch sample s) := by
  unfold execEncoderFreeSample
  split <;> simp

@[simp] theorem keepsTime_execEncZEdge (z : EncEdge) : KeepsTime s (execEncZEdge z s) := by
  unfold execEncZEdge
  repeat' split
  all_goals simp

@[simp] theorem State.startEncoders_time : s.startEncoders.time = s.time := State.foldl_time (by simp) _ _

/-! ### Event rings and queues -/

@[simp] theorem State.ringWrite_time (f : Nat) (e : EvRecord) : (s.ringWrite f e).time = s.time := by
  simp [State.ringWrite]

@[simp] theorem State.ringLost_time (f : Nat) : (s.ringLost f).time = s.time := by simp [State.ringLost]

@[simp] theorem keepsTime_execEventWrite (fn : Fin 16) : KeepsTime s (execEventWrite fn s) := by
  unfold execEventWrite
  split <;> simp

@[simp] theorem State.writeEvHead_time (f value : Nat) : (s.writeEvHead f value).time = s.time := by
  simp [State.writeEvHead]

@[simp] theorem State.sendPending_time (f v : Nat) : (s.sendPending f v).time = s.time := by simp [State.sendPending]

@[simp] theorem keepsTime_execMsixUnmask (fn : Fin 16) (vector : Option (Fin 1088)) :
    KeepsTime s (execMsixUnmask fn vector s) := by
  unfold execMsixUnmask
  split <;> simp

@[simp] theorem State.doorbell_time (i : QueueInfo) (status : Nat) (value : BitVec 16) :
    (s.doorbell i status value).time = s.time := rfl

@[simp] theorem State.writeSqTail_time (f c q : Nat) (value : BitVec 16) :
    (s.writeSqTail f c q value).time = s.time := by
  unfold State.writeSqTail
  split <;> simp

@[simp] theorem State.writeCqHead_time (f c q : Nat) (value : BitVec 16) :
    (s.writeCqHead f c q value).time = s.time := by
  unfold State.writeCqHead
  split <;> simp

/-! ### CAN -/

@[simp] theorem State.writeTxCmd_time (p : Requester) (c cmd : Nat) : (s.writeTxCmd p c cmd).time = s.time := by
  simp [State.writeTxCmd]

@[simp] theorem State.writeTxb_time (p : Requester) (c n off : Nat) (data : List Byte) :
    (s.writeTxb p c n off data).time = s.time := by simp [State.writeTxb]

@[simp] theorem keepsTime_execCanArbitration (c : Fin 4) : KeepsTime s (execCanArbitration c s) := by
  unfold execCanArbitration
  repeat' split
  all_goals simp

@[simp] theorem State.busOff_time (c : Nat) (r : Rec) : (s.busOff c r).time = s.time := by simp [State.busOff]

@[simp] theorem State.canErrorState_time (c : Nat) (r : Rec) : (s.canErrorState c r).time = s.time := by
  simp [State.canErrorState]

@[simp] theorem State.canSays_time (o : Out) (r : Rec) : (s.canSays o r).time = s.time := by simp [State.canSays]

@[simp] theorem State.canErrorFlag_time (c : Nat) (r : Rec) : (s.canErrorFlag c r).time = s.time := by
  simp [State.canErrorFlag]

@[simp] theorem State.rxStore_time (c ring filter stamp : Nat) (r : Rec) (f : CanWire) (looped : Bool) :
    (s.rxStore c ring filter stamp r f looped).time = s.time := by simp [State.rxStore]

@[simp] theorem State.rxFrame_time (c stamp : Nat) (r : Rec) (f : CanWire) (looped : Bool) :
    (s.rxFrame c stamp r f looped).time = s.time := by
  unfold State.rxFrame
  split <;> simp

@[simp] theorem State.recGood_time (c : Nat) : (s.recGood c).time = s.time := by simp [State.recGood]

@[simp] theorem keepsTime_execCanFrameReceive (c : Fin 4) (rx : CanRx) :
    KeepsTime s (execCanFrameReceive c rx s) := by
  unfold execCanFrameReceive
  repeat' split
  all_goals simp

@[simp] theorem State.writeRxHead_time (p : Requester) (c ring value : Nat) :
    (s.writeRxHead p c ring value).time = s.time := by simp [State.writeRxHead]

@[simp] theorem State.spReplaced_time (c seq : Nat) : (s.spReplaced c seq).time = s.time := by simp [State.spReplaced]

@[simp] theorem State.offerSetpoint_time (c : Nat) (f : CanFrame) : (s.offerSetpoint c f).time = s.time := by
  unfold State.offerSetpoint
  dsimp only
  repeat' split
  all_goals simp

@[simp] theorem State.formSetpoint_time (c : Nat) : (s.formSetpoint c).time = s.time := by
  unfold State.formSetpoint
  split <;> simp

@[simp] theorem State.releaseHold_time (c : Nat) (correct : Bool) : (s.releaseHold c correct).time = s.time := by
  unfold State.releaseHold
  split <;> simp

@[simp] theorem State.txSent_time (c : Nat) (src : CanSrc) : (s.txSent c src).time = s.time := by
  unfold State.txSent
  split <;> simp

@[simp] theorem State.txFailed_time (c : Nat) (src : CanSrc) (cause : Nat) (r : Rec) :
    (s.txFailed c src cause r).time = s.time := by
  unfold State.txFailed
  split <;> simp

@[simp] theorem keepsTime_execCanTxEnd (c : Fin 4) (outcome : CanTxEnd) :
    KeepsTime s (execCanTxEnd c outcome s) := by
  unfold execCanTxEnd
  dsimp only
  repeat' split
  all_goals simp

@[simp] theorem State.canRecover_time (p : Requester) (c v : Nat) : (s.canRecover p c v).time = s.time := by
  simp [State.canRecover]

@[simp] theorem keepsTime_execCanReferenceInstant (c : Fin 4) : KeepsTime s (execCanReferenceInstant c s) := by
  unfold execCanReferenceInstant
  split <;> simp

@[simp] theorem State.startCans_time : s.startCans.time = s.time := rfl

@[simp] theorem State.resetCan_time (c : Nat) : (s.resetCan c).time = s.time := by
  unfold State.resetCan
  split <;> simp

/-! ### Small ports -/

@[simp] theorem State.spiStart_time (m : Nat) (j : SpiJob) : (s.spiStart m j).time = s.time := by
  simp [State.spiStart]

@[simp] theorem keepsTime_execSpiScriptTrigger (m k : Fin 2) : KeepsTime s (execSpiScriptTrigger m k s) := by
  unfold execSpiScriptTrigger
  split <;> simp

@[simp] theorem State.spiRecord_time (m k len : Nat) (rx : List Byte) (r : Rec) :
    (s.spiRecord m k len rx r).time = s.time := by simp [State.spiRecord]

@[simp] theorem keepsTime_execSpiTransferEnd (m : Fin 2) (rx : List Byte) :
    KeepsTime s (execSpiTransferEnd m rx s) := by
  refine keepsTime_checked ?_
  split
  · dsimp only
    split <;> split <;> simp
  · rfl

@[simp] theorem State.writeSpiCmd_time (p : Requester) (m v : Nat) : (s.writeSpiCmd p m v).time = s.time := by
  simp [State.writeSpiCmd]

@[simp] theorem State.writeSpiHead_time (p : Requester) (m value : Nat) :
    (s.writeSpiHead p m value).time = s.time := by
  simp [State.writeSpiHead]

@[simp] theorem keepsTime_execUartCharacterReceive (u : Fin 2) (bits : List Vote) :
    KeepsTime s (execUartCharacterReceive u bits s) := by
  unfold execUartCharacterReceive
  split <;> simp

@[simp] theorem State.uartNext_time (u : Nat) : (s.uartNext u).time = s.time := by
  unfold State.uartNext
  dsimp only
  repeat' split
  all_goals simp

@[simp] theorem State.writeTxdata_time (p : Requester) (u v : Nat) : (s.writeTxdata p u v).time = s.time := by
  simp [State.writeTxdata]

@[simp] theorem State.readRxdata_time (p : Requester) (u : Nat) : (s.readRxdata p u).2.time = s.time := by
  unfold State.readRxdata
  split <;> simp

@[simp] theorem State.spurEnd_time (status : Nat) (ids : List Nat) : (s.spurEnd status ids).time = s.time := by
  simp [State.spurEnd]

@[simp] theorem keepsTime_execSpurSearchEnd (passes : List SpurPass) (busLow : Bool) :
    KeepsTime s (execSpurSearchEnd passes busLow s) := by
  refine keepsTime_checked ?_
  split
  · rfl
  · have sent (l : List Out) : (l.foldl (fun (t : State) o => t.emit o) s).time = s.time :=
      State.foldl_time (by simp) l s
    dsimp only
    repeat' split
    all_goals simp [sent]

@[simp] theorem State.modAnn_time (g : AnnSt → AnnSt) : (s.modAnn g).time = s.time := rfl

@[simp] theorem State.writeTone_time (p : Requester) (v : Nat) : (s.writeTone p v).time = s.time := by
  simp [State.writeTone]

@[simp] theorem State.warningLost_time : s.warningLost.time = s.time := by simp [State.warningLost]

@[simp] theorem keepsTime_execPwmPeriodStart (n : Fin 8) : KeepsTime s (execPwmPeriodStart n s) := by
  unfold execPwmPeriodStart
  split <;> simp

@[simp] theorem State.writeDuty_time (p : Requester) (n v : Nat) : (s.writeDuty p n v).time = s.time := by
  simp [State.writeDuty]

@[simp] theorem State.modGpio_time (g : GpioSt → GpioSt) : (s.modGpio g).time = s.time := rfl

@[simp] theorem State.gpioDrive_time (drive out : BitVec 16) : (s.gpioDrive drive out).time = s.time := by
  simp [State.gpioDrive]

@[simp] theorem State.writeGpio_time (p : Requester) (g : BitVec 16 → BitVec 16 → BitVec 16) :
    (s.writeGpio p g).time = s.time := by
  unfold State.writeGpio
  split <;> simp

@[simp] theorem State.restartPwm_time (n : Nat) : (s.restartPwm n).time = s.time := rfl

@[simp] theorem State.startPorts_time : s.startPorts.time = s.time := by
  unfold State.startPorts
  simp only [State.gpioDrive_time, State.modGpio_time]
  exact (State.foldl_time (by simp) _ _).trans ((State.foldl_time (by simp) _ _).trans (State.startEncoders_time s))

@[simp] theorem State.resetPort_time (b : Nat) : (s.resetPort b).time = s.time := by simp [State.resetPort]

/-! ### Links, supplies and fences -/

@[simp] theorem State.holdEvents_time (hold : Bool) (fs : List Nat) : (s.holdEvents hold fs).time = s.time :=
  State.foldl_time (by simp) _ _

@[simp] theorem State.linkLost_time : s.linkLost.time = s.time := (Only.linkLost _).get .time

@[simp] theorem State.dropRing_time (f : Nat) : (s.dropRing f).time = s.time := rfl

@[simp] theorem State.clearCounters_time (f : Nat) : (s.clearCounters f).time = s.time := rfl

@[simp] theorem State.dropPools_time (f : Nat) : (s.dropPools f).time = s.time := by simp [State.dropPools]

@[simp] theorem State.pfFlr_time : s.pfFlr.time = s.time := by simp [State.pfFlr]

@[simp] theorem keepsTime_execLinkDown (cause : LinkDownCause) : KeepsTime s (execLinkDown cause s) := by
  unfold execLinkDown
  repeat' split
  all_goals simp

@[simp] theorem State.resetConfig_time : s.resetConfig.time = s.time := State.foldl_time (by simp) _ _

@[simp] theorem State.lowerFence_time (b : Nat) : (s.lowerFence b).time = s.time := (Only.lowerFence _ _).get .time

@[simp] theorem State.fenceBlocks_time (bs : List Nat) : (s.fenceBlocks bs).time = s.time :=
  (Only.fenceBlocks _ _).get .time

@[simp] theorem State.lpddrCleared_time : s.lpddrCleared.time = s.time := (Only.lpddrCleared _).get .time

@[simp] theorem State.exitPi_time : s.exitPi.time = s.time := (Only.exitPi _).get .time

/-! ### Loops -/

@[simp] theorem State.postFallbacks_time (l : Nat) (x : LoopSt) (reads : List (ReadEntry × ReadSt)) :
    (s.postFallbacks l x reads).time = s.time := by simp [State.postFallbacks]

@[simp] theorem State.feedForward_time (reads : List (ReadEntry × ReadSt)) :
    (s.feedForward reads).2.time = s.time := by
  unfold State.feedForward
  split <;> simp

@[simp] theorem State.evaluate_time (l : Nat) (r : Rec) (reads : List (ReadEntry × ReadSt)) :
    (s.evaluate l r reads).2.time = s.time := by
  unfold State.evaluate
  dsimp only
  split <;> simp

@[simp] theorem State.raiseMarks_time (l : Nat) : (s.raiseMarks l).time = s.time := by simp [State.raiseMarks]

@[simp] theorem State.triggerScripts_time (l at_ : Nat) : (s.triggerScripts l at_).time = s.time := by
  refine State.foldl_time (fun t m => ?_) _ s
  split
  · rfl
  · exact State.foldl_time (fun u k => by split <;> rfl) _ t

@[simp] theorem keepsTime_execLoopSampleInstant (l : Fin 32) : KeepsTime s (execLoopSampleInstant l s) := by
  unfold execLoopSampleInstant
  split <;> simp

@[simp] theorem keepsTime_execLoopEvaluation (outcome : CeOutcome) : KeepsTime s (execLoopEvaluation outcome s) := by
  unfold execLoopEvaluation
  rw [keepsTime_done]
  split
  · rfl
  · split
    · rfl
    · split
      · split
        · simp
        · simp only [State.ite_time, State.raise_time, State.postFallbacks_time, ite_self]
          split <;> simp
      · rfl

@[simp] theorem keepsTime_execLoopActuation (l : Fin 32) : KeepsTime s (execLoopActuation l s) := by
  unfold execLoopActuation
  repeat' split
  all_goals simp

@[simp] theorem keepsTime_execCiScrub (outcome : CheckOutcome) : KeepsTime s (execCiScrub outcome s) := by
  unfold execCiScrub
  split <;> simp

@[simp] theorem State.startLoops_time : s.startLoops.time = s.time :=
  State.foldl_time (fun t l => by split <;> rfl) _ s

/-! ### Verge and the Twin -/

@[simp] theorem State.detect_time (code unit : Nat) (r : Reaction) (detail : Nat) :
    (s.detect code unit r detail).time = s.time := by simp [State.detect]

@[simp] theorem keepsTime_execCiCheckerTest (outcome : CheckOutcome) :
    KeepsTime s (execCiCheckerTest outcome s) := by
  unfold execCiCheckerTest
  split <;> simp

@[simp] theorem keepsTime_execPiCheckerTest (outcome : PiCheck) : KeepsTime s (execPiCheckerTest outcome s) := by
  unfold execPiCheckerTest
  split <;> simp

@[simp] theorem State.modTwin_time (g : TwinSt → TwinSt) : (s.modTwin g).time = s.time := rfl

@[simp] theorem keepsTime_execTwinFrameTransmit : KeepsTime s (execTwinFrameTransmit s) := by
  unfold execTwinFrameTransmit
  repeat' split
  all_goals simp

@[simp] theorem State.partnerStopNow_time : s.partnerStopNow.time = s.time := by simp [State.partnerStopNow]

@[simp] theorem State.crossCheck_time (r : Rec) (f : TwinFields) (wasStop : Nat) :
    (s.crossCheck r f wasStop).time = s.time := by simp [State.crossCheck]

@[simp] theorem State.twinValid_time (r : Rec) (f : TwinFields) : (s.twinValid r f).time = s.time := by
  simp [State.twinValid]

@[simp] theorem State.twinFrame_time (r : Rec) (f : TwinFields) : (s.twinFrame r f).time = s.time := by
  simp [State.twinFrame]

@[simp] theorem keepsTime_execTwinFrameReceive (lane : Fin 2) (chunk : BitVec 256) :
    KeepsTime s (execTwinFrameReceive lane chunk s) := by
  unfold execTwinFrameReceive
  dsimp only
  repeat' split
  all_goals simp

@[simp] theorem keepsTime_execTwinMissWindow : KeepsTime s (execTwinMissWindow s) := by
  unfold execTwinMissWindow
  split <;> simp

@[simp] theorem State.startVerge_time : s.startVerge.time = s.time := rfl

@[simp] theorem State.rearm_time : s.rearm.time = s.time := by simp [State.rearm]

/-! ### Bring-up -/

@[simp] theorem State.respond_time (f opcode status detail : Nat) (payload : List Byte) :
    (s.respond f opcode status detail payload).time = s.time := by simp [State.respond]

@[simp] theorem State.stoTest_time (fail : Option TestFail) : (s.stoTest fail).time = s.time := by
  simp [State.stoTest]

@[simp] theorem State.testFailed_time (t : TestFail) : (s.testFailed t).time = s.time := by simp [State.testFailed]

@[simp] theorem State.testsDone_time : s.testsDone.time = s.time := by simp [State.testsDone]

@[simp] theorem keepsTime_execSelftestEnd (obs : SelfTestObs) : KeepsTime s (execSelftestEnd obs s) := by
  unfold execSelftestEnd
  dsimp only
  repeat' split
  all_goals simp

@[simp] theorem State.routeResult_time (e : Report) : (s.routeResult e).time = s.time := by simp [State.routeResult]

@[simp] theorem State.acceptBook_time (recs : List Rec) : (s.acceptBook recs).time = s.time := by
  unfold State.acceptBook
  simp only [State.modTwin_time]
  refine (State.foldl_time (by simp) _ _).trans ?_
  simp

@[simp] theorem State.startPace_time : s.startPace.time = s.time := rfl

@[simp] theorem State.zeroWaymarks_time : s.zeroWaymarks.time = s.time := by simp [State.zeroWaymarks]

@[simp] theorem State.freshWork_time : s.freshWork.time = s.time := by simp [State.freshWork]

@[simp] theorem keepsTime_execClearFaultRetestEnd (obs : SelfTestObs) :
    KeepsTime s (execClearFaultRetestEnd obs s) := by
  unfold execClearFaultRetestEnd
  dsimp only
  repeat' split
  all_goals simp

/-! ### Signpost commands -/

@[simp] theorem State.answer_time (f op : Nat) (payload : List Byte) : (s.answer f op payload).time = s.time := by
  simp [State.answer]

@[simp] theorem State.ifFields_time {f op : Nat} {rules : List (Bool × Nat)} {next : State → State}
    (h : ∀ t, (next t).time = t.time) :
    (s.ifFields f op rules next).time = s.time := by
  unfold State.ifFields
  split <;> simp [h]

@[simp] theorem State.cmdGetInfo_time (f : Nat) : (s.cmdGetInfo f).time = s.time := by simp [State.cmdGetInfo]

@[simp] theorem State.cmdFwLoad_time (b : List Byte) : (s.cmdFwLoad b).time = s.time := by simp [State.cmdFwLoad]

@[simp] theorem State.markOwed_time (t : State) : (t.markOwed s).time = s.time := State.foldl_time (by simp) _ s

@[simp] theorem State.cmdFwCommit_time (b : List Byte) : (s.cmdFwCommit b).time = s.time := by
  simp [State.cmdFwCommit]

@[simp] theorem State.cmdSelftestReport_time : s.cmdSelftestReport.time = s.time := by simp [State.cmdSelftestReport]

@[simp] theorem State.copyBook_time (off n : Nat) : (s.copyBook off n).2.time = s.time := by
  refine (State.foldl_snd_time (fun x k => ?_) _ _).trans (State.readMem_time s .lp none off n)
  dsimp only
  split <;> simp

@[simp] theorem State.cmdRouteCommit_time (b : List Byte) : (s.cmdRouteCommit b).time = s.time := by
  simp [State.cmdRouteCommit]

@[simp] theorem State.cmdRouteReport_time : s.cmdRouteReport.time = s.time := by simp [State.cmdRouteReport]

@[simp] theorem State.startRetest_time : s.startRetest.time = s.time := by simp [State.startRetest]

@[simp] theorem State.cmdClearFault_time : s.cmdClearFault.time = s.time := by simp [State.cmdClearFault]

@[simp] theorem State.cmdPaceSet_time (b : List Byte) : (s.cmdPaceSet b).time = s.time := by simp [State.cmdPaceSet]

@[simp] theorem State.cmdPiReset_time : s.cmdPiReset.time = s.time := by simp [State.cmdPiReset]

@[simp] theorem State.blockRestart_time (blk : Nat) : (s.blockRestart blk).time = s.time := by
  simp [State.blockRestart]

@[simp] theorem State.blockAction_time (blk act : Nat) : (s.blockAction blk act).2.time = s.time := by
  unfold State.blockAction
  split <;> simp

@[simp] theorem State.cmdBlockControl_time (b : List Byte) : (s.cmdBlockControl b).time = s.time := by
  simp [State.cmdBlockControl]

@[simp] theorem State.cmdEventRingSet_time (f : Nat) (b : List Byte) : (s.cmdEventRingSet f b).time = s.time := by
  simp [State.cmdEventRingSet]

@[simp] theorem State.cmdTimeStatus_time (f : Nat) : (s.cmdTimeStatus f).time = s.time := by
  simp [State.cmdTimeStatus]

@[simp] theorem State.cmdFaultRead_time : s.cmdFaultRead.time = s.time := by simp [State.cmdFaultRead]

@[simp] theorem State.cmdEccCounters_time : s.cmdEccCounters.time = s.time := by simp [State.cmdEccCounters]

@[simp] theorem State.withQueue_time {f op : Nat} {b : List Byte} {g : QueueInfo → State → State}
    (h : ∀ i t, (g i t).time = t.time) :
    (s.withQueue f op b g).time = s.time := by
  unfold State.withQueue
  split <;> simp [h]

@[simp] theorem State.cmdQueueState_time (f : Nat) (b : List Byte) : (s.cmdQueueState f b).time = s.time := by
  simp [State.cmdQueueState]

@[simp] theorem State.restartQueue_time (i : QueueInfo) : (s.restartQueue i).2.time = s.time := by
  simp [State.restartQueue]

@[simp] theorem State.cmdQueueRestart_time (f : Nat) (b : List Byte) : (s.cmdQueueRestart f b).time = s.time := by
  simp [State.cmdQueueRestart]

@[simp] theorem State.cmdContextInfo_time (f : Nat) (b : List Byte) : (s.cmdContextInfo f b).time = s.time := by
  unfold State.cmdContextInfo
  split <;> simp

@[simp] theorem State.cmdCountersRead_time (f : Nat) (b : List Byte) : (s.cmdCountersRead f b).time = s.time := by
  simp [State.cmdCountersRead]

@[simp] theorem State.cmdLoopMode_time (b : List Byte) : (s.cmdLoopMode b).time = s.time := by
  simp [State.cmdLoopMode]

@[simp] theorem State.cmdLoopTableWrite_time (b : List Byte) : (s.cmdLoopTableWrite b).time = s.time := by
  simp [State.cmdLoopTableWrite]

@[simp] theorem State.cmdLoopStatus_time (b : List Byte) : (s.cmdLoopStatus b).time = s.time := by
  simp [State.cmdLoopStatus]

@[simp] theorem State.cmdTwinRearm_time : s.cmdTwinRearm.time = s.time := by simp [State.cmdTwinRearm]

@[simp] theorem State.cmdAnnClear_time : s.cmdAnnClear.time = s.time := by simp [State.cmdAnnClear]

@[simp] theorem State.cmdSpurSearch_time : s.cmdSpurSearch.time = s.time := by simp [State.cmdSpurSearch]

@[simp] theorem State.cmdSpurRead_time : s.cmdSpurRead.time = s.time := by simp [State.cmdSpurRead]

/-! ### Registers -/

@[simp] theorem State.writeMsixWord_time (f o v : Nat) : (s.writeMsixWord f o v).time = s.time := by
  simp [State.writeMsixWord]

@[simp] theorem State.writeCanWord_time (p : Requester) (c o v : Nat) : (s.writeCanWord p c o v).time = s.time := by
  simp [State.writeCanWord]

@[simp] theorem State.writeStage_time (c off : Nat) (data : List Byte) : (s.writeStage c off data).time = s.time := by
  simp [State.writeStage]

@[simp] theorem State.readPortWord_time (p : Requester) (o : Nat) : (s.readPortWord p o).2.time = s.time := by
  unfold State.readPortWord
  repeat' split
  all_goals simp

@[simp] theorem State.writePortWord_time (p : Requester) (o v : Nat) : (s.writePortWord p o v).time = s.time := by
  simp [State.writePortWord]

@[simp] theorem State.writeTxbuf_time (m off : Nat) (data : List Byte) : (s.writeTxbuf m off data).time = s.time := by
  simp [State.writeTxbuf]

@[simp] theorem State.writeScript_time (m off : Nat) (data : List Byte) :
    (s.writeScript m off data).time = s.time := by
  simp [State.writeScript]

@[simp] theorem State.readReg_time (p : Requester) (o : Nat) : (s.readReg p o).2.time = s.time := by
  simp [State.readReg]

@[simp] theorem State.writePart_time (p : Requester) (a : Area) (off : Nat) (data : List Byte) :
    (s.writePart p a off data).time = s.time := by
  unfold State.writePart
  split <;> simp

@[simp] theorem State.writeArea_time (p : Requester) (fuel o : Nat) (data : List Byte) :
    (s.writeArea p fuel o data).time = s.time := by
  induction fuel generalizing o data s with
  | zero => rfl
  | succ n ih =>
    unfold State.writeArea
    repeat' split
    all_goals simp [ih]

/-! ### Host links -/

@[simp] theorem State.sendAllPending_time (f : Nat) : (s.sendAllPending f).time = s.time := by
  simp [State.sendAllPending]

@[simp] theorem State.modCfg_time (f : Nat) (g : CfgSt → CfgSt) : (s.modCfg f g).time = s.time := rfl

@[simp] theorem State.writePower_time (f v : Nat) : (s.writePower f v).time = s.time := by simp [State.writePower]

@[simp] theorem State.configWrite_time (f : Nat) (r : CfgReg) (v : BitVec 64) :
    (s.configWrite f r v).time = s.time := by
  unfold State.configWrite
  repeat' split
  all_goals simp

@[simp] theorem keepsTime_execConfigRequest (fn : Fin 16) (req : CfgReq) :
    KeepsTime s (execConfigRequest fn req s) := by
  unfold execConfigRequest
  repeat' split
  all_goals simp

@[simp] theorem State.flrAbort_time (w : Waybill) : (s.flrAbort w).time = s.time := by simp [State.flrAbort]

@[simp] theorem State.flr_time (f : Nat) : (s.flr f).time = s.time := by simp [State.flr]

@[simp] theorem State.mctpAnswer_time (ty cmd : Byte) (body : List Byte) :
    (s.mctpAnswer ty cmd body).time = s.time := by
  simp [State.mctpAnswer]

@[simp] theorem State.scramble_time (p : Pool) (x : PoolPart) : (s.scramble p x).time = s.time := by
  unfold State.scramble
  dsimp only
  repeat' split
  all_goals simp

@[simp] theorem State.poolWritten_time (u n : Nat) : (s.poolWritten u n).time = s.time := by
  have part (p : Pool) (l : List PoolPart) (t : State) : (l.foldl (fun t x => t.scramble p x) t).time = t.time :=
    State.foldl_time (by simp) l t
  unfold State.poolWritten
  generalize s.pools = l
  induction l generalizing s with
  | nil => rfl
  | cons p l ih => rw [List.foldl_cons, ih, part]

@[simp] theorem State.hostWriteLp_time (a : Nat) (data : List Byte) : (s.hostWriteLp a data).time = s.time := by
  simp [State.hostWriteLp]

@[simp] theorem State.hostWriteRun_time (a : Nat) (data : List Byte) : (s.hostWriteRun a data).time = s.time := by
  simp [State.hostWriteRun]

@[simp] theorem State.hostReadRun_time (a n : Nat) : (s.hostReadRun a n).2.2.time = s.time := by
  refine foldl_keeps (fun x : List Byte × Bool × State => x.2.2.time) (fun x p => ?_) _ _
  dsimp only
  split <;> simp

@[simp] theorem keepsTime_execBar4Read (fn : Fin 16) (off : BitVec 64) (len : Nat) :
    KeepsTime s (execBar4Read fn off len s) := by
  unfold execBar4Read
  rw [keepsTime_done]
  dsimp only
  split
  · rfl
  · exact foldl_keeps (fun x : List Byte × Bool × State => x.2.2.time) (fun x p => by simp) _ _

@[simp] theorem State.qspiEnd_time (stat : Nat) : (s.qspiEnd stat).time = s.time := by simp [State.qspiEnd]

@[simp] theorem State.qspiStoreLp_time (n : Nat) (d : List Byte) (a : Nat) :
    (State.qspiStoreLp n d a s).time = s.time := by
  induction n generalizing d a s with
  | zero => rfl
  | succ n ih => simp [State.qspiStoreLp, ih]

@[simp] theorem State.qspiLoad_time (n o : Nat) : (State.qspiLoad n o s).2.time = s.time := by
  induction n generalizing o s with
  | zero => rfl
  | succ n ih => simp [State.qspiLoad, ih]

@[simp] theorem State.qspiLoadLp_time (a n : Nat) : (s.qspiLoadLp a n).2.time = s.time := by simp [State.qspiLoadLp]

@[simp] theorem State.qspiReply_time (r : List Byte × State) : (State.qspiReply r).time = r.2.time := rfl

@[simp] theorem State.qspiReadTake_time (addr n : Nat) : (s.qspiReadTake addr n).time = s.time := by
  unfold State.qspiReadTake
  split <;> simp

@[simp] theorem State.macDrop_time (m : Nat) : (s.macDrop m).time = s.time := rfl

@[simp] theorem keepsTime_execRtpPacketReceive (mac : Fin 2) (pkt : RtpPacket) :
    KeepsTime s (execRtpPacketReceive mac pkt s) := by
  unfold execRtpPacketReceive
  repeat' split
  all_goals simp

end

end Sys2Proof.Machine
end

section
/-! PROOF. The timebase over a step (02 section 2.4, R38, R41): what the PTP discipline does to it, the bounds of the
increment, and that no command moves Milestone back. -/

namespace Sys2Proof.Machine

set_option Elab.async false

/-! ### The discipline -/

/-- The increment that the servo sets for an adjustment in units of 2^-149 ppb, held to ±200 ppm (02 section 2.4.1). -/
def incFor (adj : Int) : Nat :=
  (rneInt ((nominalInc : Int) * ((2 ^ 149 * 1000000000 : Nat) - clampTo (-200000 * ppbUnit) (200000 * ppbUnit) adj))
    (2 ^ 149 * 1000000000)).toNat

@[simp] theorem State.setInc_time (adj : Int) (s : State) : (s.setInc adj).time = { s.time with inc := incFor adj } := rfl

@[simp] theorem State.discipline_time (d : Discipline) (s : State) : (s.discipline d).time = { s.time with disc := d } := by
  unfold State.discipline
  split
  · subst d
    rfl
  · simp

/-- What the servo asks for, from a Sync's offset and the sum of offsets (02 section 2.4.1). -/
def servoInc (r : Rec) (o sum : Int) : Nat := incFor ((fp32Units (r.u 0x10 4) : Int) * o + (fp32Units (r.u 0x14 4) : Int) * sum)

@[simp] theorem State.servo_time (r : Rec) (o : Int) (s : State) :
    (s.servo r o).time = { s.time with inc := servoInc r o s.time.sumOff } := rfl

@[simp] theorem State.jumpMs_time (d : Nat) (s : State) : (s.jumpMs d).time = { s.time with
    ms := s.time.ms + d, lastSync := s.time.lastSync + d, lastMasterSync := s.time.lastMasterSync.map (· + d) } := rfl

/-- A rounded quotient lies within half of the exact one. -/
theorem rneInt_near (n : Int) {d : Nat} (pos : 0 < d) :
    2 * (d * rneInt n d) ≤ 2 * n + d ∧ 2 * n ≤ 2 * (d * rneInt n d) + d := by
  have exact : d * (n / d) + n % d = n := Int.mul_ediv_add_emod n d
  have lo := Int.emod_nonneg n (Int.natCast_ne_zero.2 pos.ne')
  have hi := Int.emod_lt_of_pos n (Int.natCast_pos.2 pos)
  have up : (d : Int) * (n / d + 1) = d * (n / d) + d := by ring
  unfold rneInt
  dsimp only
  split
  · omega
  · split
    · omega
    · rcases Int.emod_two_eq (n / d) with even | odd
      · rw [even, add_zero]
        omega
      · rw [odd]
        omega

/-- An increment within ±200 ppm of the nominal 5 ns (R38). -/
def SlewBounded (inc : Nat) : Prop := nominalInc * 999800 ≤ inc * 1000000 ∧ inc * 1000000 ≤ nominalInc * 1000200

theorem slewBounded_nominal : SlewBounded nominalInc := by
  unfold SlewBounded
  decide

theorem slewBounded_incFor (adj : Int) : SlewBounded (incFor adj) := by
  have near := rneInt_near ((nominalInc : Int) * ((2 ^ 149 * 1000000000 : Nat) - clampTo (-200000 * ppbUnit) (200000 * ppbUnit) adj))
    (d := 2 ^ 149 * 1000000000) (by decide)
  unfold SlewBounded incFor
  generalize rneInt _ _ = q at near ⊢
  have held : -200000 * ppbUnit ≤ clampTo (-200000 * ppbUnit) (200000 * ppbUnit) adj ∧
      clampTo (-200000 * ppbUnit) (200000 * ppbUnit) adj ≤ 200000 * ppbUnit := by
    unfold clampTo
    have : -200000 * ppbUnit ≤ 200000 * ppbUnit := by decide
    omega
  generalize clampTo _ _ adj = a at near held
  norm_num [nominalInc, ppbUnit] at near held ⊢
  omega

@[simp] theorem State.freeRun_time (s : State) : s.freeRun.time = { s.time with
    inc := nominalInc, catchUp := false, takeOver := false, good := 0, sumOff := 0, disc := .free } := by
  simp [State.freeRun]

/-! ### The relation of R38 -/

/-- Milestone's count stands, and its increment stays within its bounds. -/
structure CountStands (s t : State) : Prop where
  ms : t.time.ms = s.time.ms
  frac : t.time.frac = s.time.frac
  bounded : SlewBounded s.time.inc → SlewBounded t.time.inc

theorem CountStands.of_time {s t : State} (h : t.time = s.time) : CountStands s t := by
  constructor <;> simp [h]

theorem CountStands.of_clock {s t : State} (ms : t.time.ms = s.time.ms) (frac : t.time.frac = s.time.frac)
    (inc : t.time.inc = s.time.inc) : CountStands s t := ⟨ms, frac, fun h => inc ▸ h⟩

theorem CountStands.trans {s t u : State} (h : CountStands s t) (k : CountStands t u) : CountStands s u :=
  ⟨k.ms.trans h.ms, k.frac.trans h.frac, k.bounded ∘ h.bounded⟩

theorem countStands_freeRun (s : State) : CountStands s s.freeRun := by
  constructor <;> simp [slewBounded_nominal]

theorem countStands_syncNear (r : Rec) (o : Int) (s : State) : CountStands s (s.syncNear r o) := by
  have servo (sum : Int) : SlewBounded (servoInc r o sum) := slewBounded_incFor _
  unfold State.syncNear
  dsimp only
  split
  case h_1 => constructor <;> simp [servo]
  all_goals split_ifs <;> constructor <;> simp [servo]

/-! ### The Syncs -/

/-- A Sync's offset, interval and time are noted. -/
def State.syncNoted (offset logInterval : Int) (s : State) : State :=
  { s with time := { s.time with lastOff := offset, logSync := logInterval, lastSync := s.now } }

/-- The discipline state after a Sync beyond 1 ms outside RUN (02 R41; log 10). -/
def Discipline.steered : Discipline → Discipline
  | .free | .acquiring => .acquiring
  | .locked | .holdover => .holdover

/-- A Sync beyond 1 ms outside RUN moves the discipline state, and in HOLDOVER the servo takes over (02 R41; log 10). -/
def State.syncSteered (s : State) : State :=
  match s.time.disc with
  | .free => { s with time := { s.time with sumOff := 0, good := 0 } }.discipline .acquiring
  | .acquiring => { s with time := { s.time with good := 0 } }
  | .locked | .holdover => { s with time := { s.time with good := 0, takeOver := true } }.discipline .holdover

/-- What a Sync beyond 1 ms in RUN does (02 R41). -/
def State.syncRefused (offset : Int) (s : State) : State :=
  ({ s with time := { s.time with good := 0, catchUp := false, takeOver := false } }.discipline .holdover).post
    0x0007 (offsetMicros offset) none

/-- What a Sync beyond 1 ms does outside RUN, once the discipline state has moved: Milestone is stepped forward, or
waits for its master. -/
def State.syncStepped (caught : Bool) (offset : Int) (s : State) : State :=
  if offset < 0 then { s with time := { s.time with catchUp := false } }.jumpMs offset.natAbs
  else
    let t := { s with time := { s.time with catchUp := true } }.setInc (200000 * ppbUnit)
    if caught then t else t.post 0x0007 (offsetMicros offset) none

@[simp] theorem State.syncNoted_time (o l : Int) (s : State) :
    (s.syncNoted o l).time = { s.time with lastOff := o, logSync := l, lastSync := s.now } := rfl

@[simp] theorem State.syncRefused_time (o : Int) (s : State) : (s.syncRefused o).time =
    { s.time with good := 0, catchUp := false, takeOver := false, disc := .holdover } := by
  simp [State.syncRefused]

/-- A Sync beyond 1 ms outside RUN leaves the clock to what follows. -/
theorem syncSteered_keeps (s : State) : s.syncSteered.time.ms = s.time.ms ∧ s.syncSteered.time.frac = s.time.frac ∧
    s.syncSteered.time.inc = s.time.inc ∧ s.syncSteered.time.lastOff = s.time.lastOff ∧
    s.syncSteered.time.logSync = s.time.logSync := by
  unfold State.syncSteered
  split <;> simp

theorem disc_syncSteered (s : State) : s.syncSteered.time.disc = s.time.disc.steered := by
  unfold State.syncSteered
  split <;> simp [*, Discipline.steered]

theorem takeOver_syncSteered {s : State} (h : s.time.disc = .locked ∨ s.time.disc = .holdover) :
    s.syncSteered.time.takeOver = true := by
  rcases h with h | h <;> simp [State.syncSteered, h]

theorem syncStepped_behind {o : Int} (h : o < 0) (c : Bool) (s : State) : s.syncStepped c o =
    { s with time := { s.time with catchUp := false } }.jumpMs o.natAbs := if_pos h

theorem syncStepped_ahead {o : Int} (h : 0 ≤ o) (c : Bool) (s : State) : (s.syncStepped c o).time =
    { s.time with catchUp := true, inc := incFor (200000 * ppbUnit) } := by
  unfold State.syncStepped
  rw [if_neg (by omega)]
  dsimp only
  split <;> simp

section
variable {mac : Fin 2} {offset logInterval : Int} {s : State} {r : Rec}

theorem ptpSync_noSource (hr : s.timeRec = none) : exec (.ptpSyncReceive mac offset logInterval) s = .next s := by
  show execPtpSyncReceive mac offset logInterval s = _
  unfold execPtpSyncReceive
  rw [hr]
  exact done_eq rfl

variable (hr : s.timeRec = some r)
include hr

theorem ptpSync_unheard (h : r.u 8 1 ≠ mac ∨ s.isFenced (0x20 + mac) = true ∨ s.mcRuns = false) :
    exec (.ptpSyncReceive mac offset logInterval) s = .next s := by
  show execPtpSyncReceive mac offset logInterval s = _
  unfold execPtpSyncReceive
  rw [hr]
  dsimp only
  rw [if_pos (by simpa using h)]
  exact done_eq rfl

variable (source : r.u 8 1 = mac) (clear : s.isFenced (0x20 + mac) = false) (runs : s.mcRuns = true)
include source clear runs

/-- A Sync that is heard: within 1 ms of the master, beyond it in RUN, and beyond it outside RUN (02 R41). -/
theorem ptpSync_heard : exec (.ptpSyncReceive mac offset logInterval) s = done s (
    let t := s.syncNoted offset logInterval
    if -1000000 ≤ offset ∧ offset ≤ 1000000 then t.syncNear r offset
    else if s.devState = .run then t.syncRefused offset
    else t.syncSteered.syncStepped s.time.catchUp offset) := by
  show execPtpSyncReceive mac offset logInterval s = _
  unfold execPtpSyncReceive
  rw [hr]
  dsimp only
  rw [if_neg (by simp [source, clear, runs])]
  rfl

end

/-- What R38 asks of one step: Milestone does not go back, a step in RUN leaves it, and its increment stays bounded. -/
structure MilestoneKept (s t : State) : Prop where
  rises : s.devState ≠ .off → t.devState ≠ .off → s.time.ms ≤ t.time.ms
  inRun : s.devState = .run → t.devState ≠ .off → t.time.ms = s.time.ms ∧ t.time.frac = s.time.frac
  bounded : SlewBounded s.time.inc → SlewBounded t.time.inc

theorem CountStands.kept {s t : State} (h : CountStands s t) : MilestoneKept s t :=
  ⟨fun _ _ => h.ms.ge, fun _ _ => ⟨h.ms, h.frac⟩, h.bounded⟩

theorem milestoneKept_of_time {s t : State} (h : t.time = s.time) : MilestoneKept s t := (CountStands.of_time h).kept

/-- What comes before and leaves the timebase and the device state. -/
theorem MilestoneKept.after {s t u : State} (k : MilestoneKept t u) (time : t.time = s.time)
    (dev : t.devState = s.devState) : MilestoneKept s u := by
  obtain ⟨rises, inRun, bounded⟩ := k
  rw [time, dev] at *
  exact ⟨rises, inRun, time ▸ bounded⟩

/-- What comes after and leaves the timebase, and OFF where it finds it. -/
theorem MilestoneKept.andThen {s t u : State} (k : MilestoneKept s t) (time : u.time = t.time)
    (off : t.devState = .off → u.devState = .off) : MilestoneKept s u := by
  refine ⟨fun a b => ?_, fun a b => ?_, fun a => ?_⟩ <;> rw [time]
  · exact k.rises a (b ∘ off)
  · exact k.inRun a (b ∘ off)
  · exact k.bounded a

theorem milestoneKept_off {s t : State} (off : t.devState = .off) (inc : t.time.inc = nominalInc) : MilestoneKept s t :=
  ⟨fun _ h => absurd off h, fun _ h => absurd off h, fun _ => inc ▸ slewBounded_nominal⟩

theorem milestoneKept_toOff (s : State) : MilestoneKept s s.toOff := milestoneKept_off rfl rfl

/-- A step of the count forward outside RUN. -/
theorem milestoneKept_jump {s t : State} (outside : s.devState ≠ .run) (ms : s.time.ms ≤ t.time.ms)
    (inc : t.time.inc = s.time.inc) : MilestoneKept s t :=
  ⟨fun _ _ => ms, fun h => absurd h outside, fun h => inc ▸ h⟩

/-! ### The commands that move or steer the count -/

theorem milestoneKept_railLost (r : Rail) (s : State) : MilestoneKept s (s.railLost r) := by
  cases r
  case vctl | vio18 => exact milestoneKept_toOff s
  all_goals
    refine milestoneKept_of_time ?_
    simp [State.railLost]

theorem slewBounded_railLost (r : Rail) {s : State} (h : SlewBounded s.time.inc) : SlewBounded (s.railLost r).time.inc :=
  (milestoneKept_railLost r s).bounded h

theorem slewBounded_foldl_railLost (l : List Rail) : ∀ {s : State}, SlewBounded s.time.inc →
    SlewBounded (l.foldl (fun (t : State) r => t.railLost r) s).time.inc := by
  induction l with
  | nil => exact id
  | cons r l ih => exact fun h => ih (slewBounded_railLost r h)

/-- OFF is left with a new timebase, at the nominal increment. -/
theorem milestoneKept_toRomWait {s : State} (off : s.devState = .off) : MilestoneKept s s.toRomWait := by
  refine ⟨fun h => absurd off h, fun h => by simp [off] at h, fun h => ?_⟩
  unfold State.toRomWait
  split
  · refine slewBounded_foldl_railLost _ ?_
    rw [State.enter_time]
    exact slewBounded_nominal
  · exact h

/-- Where OFF is not left nothing happens. -/
theorem milestoneKept_mayLeaveOff (s : State) : MilestoneKept s s.toRomWait := by
  by_cases off : s.devState = .off
  · exact milestoneKept_toRomWait off
  · rw [toRomWait_stays fun h => off h.1]
    exact milestoneKept_of_time rfl

theorem countStands_dropSource (s : State) : CountStands s s.dropSource := by
  unfold State.dropSource
  split
  · split
    · exact CountStands.of_time rfl
    · exact countStands_freeRun s
  · exact countStands_freeRun s

theorem countStands_startTime (s : State) : CountStands s s.startTime := by
  unfold State.startTime
  split
  · exact CountStands.of_time rfl
  · exact countStands_freeRun s

/-- An accepted START before it comes to the timebase (05 R107). -/
def State.runPrepared (s : State) : State :=
  { s with reachedRun := true, fw := { s.fw with runSinceZero := true, piHeld := false },
           outputsUp := s.fieldPower }.zeroWaymarks.freshWork.startPace

@[simp] theorem State.runPrepared_time (s : State) : s.runPrepared.time = s.time := by simp [State.runPrepared]

theorem State.enterRun_time (s : State) : s.enterRun.time = s.runPrepared.startTime.time := by
  simp [State.enterRun, State.runPrepared]

theorem countStands_enterRun (s : State) : CountStands s s.enterRun :=
  ((CountStands.of_time s.runPrepared_time).trans (countStands_startTime _)).trans (CountStands.of_time s.enterRun_time)

/-! ### Signpost -/

theorem milestoneKept_cmdSetMilestone (b : List Byte) {s : State} (outside : s.devState ≠ .run) :
    MilestoneKept s (s.cmdSetMilestone b) := by
  unfold State.cmdSetMilestone
  dsimp only
  split
  · exact milestoneKept_of_time (by simp)
  · exact milestoneKept_jump outside (by simp) (by simp)

theorem milestoneKept_cmdStart (s : State) : MilestoneKept s s.cmdStart := by
  unfold State.cmdStart
  split
  · exact milestoneKept_of_time (by simp)
  · split
    · exact milestoneKept_of_time (by simp)
    · split
      · exact milestoneKept_of_time (by simp)
      · split
        · exact milestoneKept_of_time (by simp)
        · exact ((countStands_enterRun s).trans (CountStands.of_time (by simp))).kept

theorem milestoneKept_cmdResetDevice (b : List Byte) (s : State) : MilestoneKept s (s.cmdResetDevice b) := by
  unfold State.cmdResetDevice State.ifFields
  split
  · exact milestoneKept_of_time (by simp)
  · exact milestoneKept_off rfl rfl

/-- A command that has passed its checks; SET_MILESTONE is carried out outside RUN alone (06 Table 6.8). -/
theorem milestoneKept_carryOut (f : Nat) (b : List Byte) {s : State}
    (outside : fieldAt b 0 2 = 0x0007 → s.devState ≠ .run) : MilestoneKept s (s.carryOut f b) := by
  unfold State.carryOut
  split
  case h_7 op => exact milestoneKept_cmdSetMilestone b (outside op)
  case h_8 => exact milestoneKept_cmdStart s
  case h_10 => exact milestoneKept_cmdResetDevice b s
  all_goals exact milestoneKept_of_time (by simp)

theorem requestStatus_setMilestone_run (f : Nat) {b : List Byte} {s : State} (op : fieldAt b 0 2 = 0x0007)
    (run : s.devState = .run) : s.requestStatus f b ≠ 0 := by
  have row : commandRow 0x0007 = some { states := inHeld, lenOk := lenIs 8 } := rfl
  have refused : inHeld .run = false := rfl
  unfold State.requestStatus
  rw [op, row]
  simp only [run, refused]
  repeat' split
  all_goals simp_all

theorem milestoneKept_serve (f : Nat) (b : List Byte) (s : State) : MilestoneKept s (s.serve f b) := by
  unfold State.serve
  dsimp only
  split
  · exact milestoneKept_of_time (by simp)
  case isFalse passed =>
    exact milestoneKept_carryOut f b fun op run => passed (requestStatus_setMilestone_run f op run)

theorem milestoneKept_serveLost (f : Nat) (b : List Byte) (s : State) : MilestoneKept s (s.serveLost f b) := by
  unfold State.serveLost
  split
  · exact milestoneKept_off rfl rfl
  · exact milestoneKept_of_time (by simp)

theorem milestoneKept_ring (f : Nat) (s : State) : MilestoneKept s (s.ring f) := by
  unfold State.ring
  split
  · exact milestoneKept_of_time rfl
  · dsimp only
    split
    · exact (milestoneKept_serveLost f _ _).after rfl rfl
    · exact (milestoneKept_serve f _ _).after rfl rfl

theorem milestoneKept_writeDoorbell (p : Requester) (v : Nat) (s : State) : MilestoneKept s (s.writeDoorbell p v) := by
  unfold State.writeDoorbell
  split
  · exact milestoneKept_of_time rfl
  · split
    · split
      · exact milestoneKept_of_time rfl
      · exact (milestoneKept_ring 0 _).after rfl rfl
    · split
      · exact milestoneKept_of_time rfl
      · exact (milestoneKept_ring 0 _).after rfl rfl
    · exact milestoneKept_ring _ s

theorem milestoneKept_submit (p : Requester) (op : Nat) (r : SpReq) (s : State) : MilestoneKept s (s.submit p op r) := by
  unfold State.submit
  split
  · exact milestoneKept_of_time rfl
  · exact (milestoneKept_writeDoorbell p 1 _).after rfl rfl

/-! ### Register writes -/

/-- Only the doorbell register reaches the timebase. -/
theorem State.writeReg_time {p : Requester} {o : Nat} (v : Nat) (s : State) (h : o ≠ 0x1200) :
    (s.writeReg p o v).time = s.time := by
  unfold State.writeReg
  dsimp only
  rw [if_neg h]
  simp

theorem milestoneKept_writeReg (p : Requester) (o v : Nat) (s : State) : MilestoneKept s (s.writeReg p o v) := by
  by_cases h : o = 0x1200
  · subst h
    exact milestoneKept_writeDoorbell p v s
  · exact milestoneKept_of_time (State.writeReg_time v s h)

/-- A write that is not one whole word to the doorbell register leaves the timebase. -/
theorem State.writeBar0_time {p : Requester} {o : Nat} {data : List Byte} (s : State)
    (h : o ≠ 0x1200) : (s.writeBar0 p o data).time = s.time := by
  unfold State.writeBar0
  split
  · rfl
  · split
    · exact State.writeReg_time _ s h
    · split
      case isTrue msix =>
        obtain ⟨-, -, lo, -⟩ := msix
        rw [State.writeReg_time _ _ (by omega), State.writeReg_time _ s h]
      · simp

theorem milestoneKept_writeBar0 (p : Requester) (o : Nat) (data : List Byte) (s : State) :
    MilestoneKept s (s.writeBar0 p o data) := by
  by_cases h : o = 0x1200
  · subst h
    unfold State.writeBar0
    split
    · exact milestoneKept_of_time rfl
    · split
      · exact milestoneKept_writeReg p _ _ s
      · exact milestoneKept_of_time (by simp)
  · exact milestoneKept_of_time (State.writeBar0_time s h)

/-- The rest of a frame, beyond the doorbell register: the timebase stands, and OFF stays. -/
theorem milestoneKept_beyond (n : Nat) : ∀ (d : List Byte) (o : Nat) (s : State), 0x1200 < o →
    (State.qspiStore n d o s).time = s.time ∧ (s.devState = .off → (State.qspiStore n d o s).devState = .off) := by
  induction n with
  | zero => exact fun _ _ _ _ => ⟨rfl, id⟩
  | succ n ih =>
    intro d o s beyond
    obtain ⟨time, off⟩ := ih (d.drop 4) (o + 4) (s.writeBar0 .qspi o (d.take 4)) (by omega)
    refine ⟨time.trans (State.writeBar0_time s (by omega)), fun h => off ?_⟩
    rw [State.writeBar0_off h]
    exact h

@[simp] theorem State.writePart_devState (p : Requester) (a : Area) (off : Nat) (data : List Byte) (s : State) :
    (s.writePart p a off data).devState = s.devState := by
  cases a <;> simp [State.writePart, State.writeTxb, State.writeStage, State.writeTxbuf, State.writeScript, apply_ite State.devState]

theorem State.writeArea_devState (p : Requester) (fuel : Nat) : ∀ (o : Nat) (data : List Byte) (s : State),
    (s.writeArea p fuel o data).devState = s.devState := by
  induction fuel with
  | zero => exact fun _ _ _ => rfl
  | succ n ih =>
    intro o data s
    unfold State.writeArea
    repeat' split
    all_goals simp [ih]

theorem qspiEnd_devState (stat : Nat) (s : State) : (s.qspiEnd stat).devState = s.devState := by
  simp [State.qspiEnd, apply_ite State.devState]

/-- Below the doorbell register a write leaves the device state. -/
theorem State.writeReg_devState_before {p : Requester} {o : Nat} (v : Nat) (s : State) (before : o < 0x1200) :
    (s.writeReg p o v).devState = s.devState := by
  have next (n : Nat) (h : 0x1200 ≤ n) : ¬ o = n := by omega
  have area (n m : Nat) (h : 0x1200 ≤ n) : ¬ (n ≤ o ∧ o < m) := by omega
  unfold State.writeReg
  dsimp only
  rw [if_neg (next 0x1200 (by decide)), if_neg (next 0x1204 (by decide)), if_neg (next 0x1304 (by decide)),
    if_neg (area 0x2000 _ (by decide)), if_neg (area 0x8000 _ (by decide)), if_neg (area 0x9000 _ (by decide))]
  repeat' split
  all_goals rfl

theorem State.writeBar0_devState_before {p : Requester} {o : Nat} {data : List Byte} (s : State) (before : o < 0x1200) :
    (s.writeBar0 p o data).devState = s.devState := by
  unfold State.writeBar0
  split
  · rfl
  · split
    · exact State.writeReg_devState_before _ s before
    · split
      case isTrue msix => omega
      · exact State.writeArea_devState p _ _ _ s

/-- A frame's words in ascending order: at most one of them is the doorbell register. -/
theorem milestoneKept_qspiStore (n : Nat) : ∀ (d : List Byte) (o : Nat) (s : State),
    MilestoneKept s (State.qspiStore n d o s) := by
  induction n with
  | zero => exact fun _ _ s => milestoneKept_of_time rfl
  | succ n ih =>
    intro d o s
    unfold State.qspiStore
    rcases lt_or_ge o 0x1200 with before | at_
    · exact (ih _ _ _).after (State.writeBar0_time s (by omega)) (State.writeBar0_devState_before s before)
    · obtain ⟨time, off⟩ := milestoneKept_beyond n (d.drop 4) (o + 4) (s.writeBar0 .qspi o (d.take 4)) (by omega)
      exact (milestoneKept_writeBar0 .qspi o _ s).andThen time off

theorem milestoneKept_qspiWriteTake (addr : Nat) (d : List Byte) (s : State) :
    MilestoneKept s (s.qspiWriteTake addr d) := by
  unfold State.qspiWriteTake
  split
  · exact milestoneKept_of_time (by simp)
  · exact (milestoneKept_qspiStore (d.length / 4) d _ s).andThen (by simp) fun h => (qspiEnd_devState _ _).trans h
  · exact milestoneKept_of_time (by simp)

/-! ### Every command -/

/-- Whatever state the outcome goes on to keeps Milestone as R38 asks. -/
def KeepsMilestone (s : State) (o : Host.Outcome State Fault Refusal) : Prop := ∀ t, o = .next t → MilestoneKept s t

theorem keepsMilestone_done {s t : State} (h : MilestoneKept s t) : KeepsMilestone s (done s t) := by
  rintro u e
  cases e
  exact h.andThen rfl id

theorem keepsMilestone_checked {c : Instr} {m : String} {s t : State} (h : MilestoneKept s t) :
    KeepsMilestone s (checked c m s t) := by
  unfold checked
  split
  · exact keepsMilestone_done h
  · intro u e
    cases e

theorem KeepsTime.keepsMilestone {s : State} {o : Host.Outcome State Fault Refusal} (h : KeepsTime s o) :
    KeepsMilestone s o := fun t e => milestoneKept_of_time (h t e)

theorem keepsMilestone_supplyLoss (r : Rail) (s : State) : KeepsMilestone s (execSupplyLoss r s) := by
  refine keepsMilestone_done ?_
  split
  · exact milestoneKept_of_time rfl
  · dsimp only
    split
    · exact milestoneKept_of_time rfl
    · exact (milestoneKept_railLost r _).after rfl rfl

theorem keepsMilestone_supplyRestore (r : Rail) (s : State) : KeepsMilestone s (execSupplyRestore r s) := by
  refine keepsMilestone_done ?_
  split
  · exact milestoneKept_of_time rfl
  · dsimp only
    split
    · exact (milestoneKept_mayLeaveOff _).after rfl rfl
    · exact milestoneKept_of_time (by split <;> rfl)

theorem milestoneKept_syncStepped (c : Bool) (offset logInterval : Int) {s : State} (outside : s.devState ≠ .run) :
    MilestoneKept s ((s.syncNoted offset logInterval).syncSteered.syncStepped c offset) := by
  obtain ⟨ms, frac, inc, -, -⟩ := syncSteered_keeps (s.syncNoted offset logInterval)
  rcases lt_or_ge offset 0 with behind | ahead
  · rw [syncStepped_behind behind]
    exact milestoneKept_jump outside (by simp [ms]) (by simp [inc])
  · refine CountStands.kept ⟨?_, ?_, fun _ => ?_⟩ <;> rw [syncStepped_ahead ahead]
    · exact ms
    · exact frac
    · dsimp only
      exact slewBounded_incFor _

theorem keepsMilestone_ptpSyncReceive (mac : Fin 2) (offset logInterval : Int) (s : State) :
    KeepsMilestone s (exec (.ptpSyncReceive mac offset logInterval) s) := by
  rcases hr : s.timeRec with _ | r
  · rw [ptpSync_noSource hr, ← done_eq rfl]
    exact keepsMilestone_done (milestoneKept_of_time rfl)
  · by_cases heard : r.u 8 1 ≠ mac ∨ s.isFenced (0x20 + mac) = true ∨ s.mcRuns = false
    · rw [ptpSync_unheard hr heard, ← done_eq rfl]
      exact keepsMilestone_done (milestoneKept_of_time rfl)
    · obtain ⟨source, clear, runs⟩ : r.u 8 1 = mac ∧ s.isFenced (0x20 + mac) = false ∧ s.mcRuns = true := by
        simpa using heard
      rw [ptpSync_heard hr source clear runs]
      refine keepsMilestone_done ?_
      dsimp only
      split
      · have noted : CountStands s (s.syncNoted offset logInterval) := CountStands.of_clock rfl rfl rfl
        exact (noted.trans (countStands_syncNear r offset _)).kept
      · split
        · exact (CountStands.of_clock (by simp) (by simp) (by simp)).kept
        case isFalse outside => exact milestoneKept_syncStepped _ _ _ outside

theorem keepsMilestone_ptpSyncTimeout (s : State) : KeepsMilestone s (execPtpSyncTimeout s) := by
  refine keepsMilestone_done (CountStands.kept ?_)
  split
  · exact CountStands.of_time rfl
  · split <;> constructor <;> simp [slewBounded_nominal]

theorem keepsMilestone_ptpMasterSync (s : State) : KeepsMilestone s (execPtpMasterSync s) := by
  refine keepsMilestone_done (CountStands.kept ?_)
  split
  · exact CountStands.of_time rfl
  · dsimp only
    repeat' split
    all_goals constructor <;> simp

theorem keepsMilestone_pps (s : State) : KeepsMilestone s (execPtpPpsRise s) ∧ KeepsMilestone s (execPtpPpsFall s) := by
  unfold execPtpPpsRise execPtpPpsFall
  constructor
  all_goals
    refine keepsMilestone_done (CountStands.kept ?_)
    split <;> exact CountStands.of_clock rfl rfl rfl

theorem keepsMilestone_validateEnd (applyFault : Option Nat) (s : State) :
    KeepsMilestone s (execValidateEnd applyFault s) := by
  have reported (t : State) (e : Report) : CountStands t (t.dropSource.routeResult e) :=
    (countStands_dropSource t).trans (CountStands.of_time (by simp))
  refine keepsMilestone_done (CountStands.kept ?_)
  split
  · exact CountStands.of_time rfl
  · split
    · refine CountStands.trans ?_ (reported _ _)
      exact CountStands.of_time rfl
    · refine CountStands.trans ?_ (reported _ _)
      exact CountStands.of_time (by simp)

theorem keepsMilestone_qspiWrite (frame : List Byte) (s : State) : KeepsMilestone s (execQspiWrite frame s) := by
  refine keepsMilestone_done ?_
  dsimp only
  split
  · exact milestoneKept_of_time rfl
  · split
    · exact milestoneKept_of_time (by simp)
    · split
      · exact milestoneKept_of_time (by simp)
      · exact milestoneKept_qspiWriteTake _ _ s

/-- Every command keeps Milestone as R38 asks: the few that reach the timebase by their lemmas, a Signpost request by its
submission, and all the others because they leave the timebase alone. -/
theorem keepsMilestone_exec (c : Instr) (s : State) : KeepsMilestone s (exec c s) := by
  cases c
  case registerWrite p off data => exact keepsMilestone_done (milestoneKept_writeBar0 p _ data s)
  case spDoorbell p value => exact keepsMilestone_done (milestoneKept_writeDoorbell p _ s)
  case qspiWrite frame => exact keepsMilestone_qspiWrite frame s
  case porstNLow => exact keepsMilestone_done (milestoneKept_off rfl rfl)
  case porstNRelease => exact keepsMilestone_done ((milestoneKept_mayLeaveOff _).after rfl rfl)
  case supplyLoss r => exact keepsMilestone_supplyLoss r s
  case supplyRestore r => exact keepsMilestone_supplyRestore r s
  case ptpSyncReceive mac offset log => exact keepsMilestone_ptpSyncReceive mac offset log s
  case ptpSyncTimeout => exact keepsMilestone_ptpSyncTimeout s
  case ptpMasterSync => exact keepsMilestone_ptpMasterSync s
  case ptpPpsRise => exact (keepsMilestone_pps s).1
  case ptpPpsFall => exact (keepsMilestone_pps s).2
  case validateEnd applyFault => exact keepsMilestone_validateEnd applyFault s
  case fwLoad | fwCommit | getInfo | selftestReport | routeCommit | routeReport | setMilestone | start |
      clearFault | resetDevice | paceSet | piReset | blockReset | blockPowerDown | blockPowerUp | blockReload |
      eventRingSet | timeStatus | faultRead | queueState | queueRestart | contextInfo | countersRead |
      eccCounters | loopMode | loopTableWrite | loopStatus | twinRearm | annClear | spurSearch | spurRead =>
    exact keepsMilestone_checked (milestoneKept_submit _ _ _ s)
  all_goals
    refine KeepsTime.keepsMilestone ?_
    simp [exec,
      execMsLoRead, execRingTokenArrive, execRingTokenMiss, execAvsbusResponseMiss, execVcoreWindowMiss,
      execMcHeartbeat, execMcHeartbeatMiss, execOscillatorWatchdogWindow, execSchedulerFault, execNop,
      execWaymarkCommit, execMatmul, execConv2d, execAdd, execSub, execMul, execMax, execMin, execAct,
      execSoftmax, execLayernorm, execRmsnorm, execReduceSum, execReduceMax, execConvert, execMaxabs,
      execMaxpool, execAvgpool, execCopy, execFill, execPlanAdmit, execPoolInit, execSeqReset, execPrefixLookup,
      execAttend, execStreamOpen, execStreamClose, execFeed, execAugSet, execDictLoad, execPackEmit,
      execStreamStats, execCsiFrameStart, execCsiFrameEnd, execCsiPacketDiscard, execTriggerPulseEnd,
      execEncAbEdge, execEvHeadWrite, execSqTailWrite, execCqHeadWrite, execCanReq, execCanAbort, execCanPush,
      execCanTxbWrite, execCanRxHeadWrite, execCanRecover, execCanBusOn, execCanJoinBus, execSpiCmd,
      execSpiRingHeadWrite, execUartRearm, execUartTxdata, execUartRxdataRead, execUartTxCharacterEnd,
      execSpurAnnounce, execAnnToneWrite, execAnnTrip, execAnnRetry, execAnnOpenLoad, execAnnRestored,
      execPwmDutyWrite, execGpioSetWrite, execGpioClrWrite, execGpioEdge, execLinkUp, execFenceExit,
      execSampleMarkEnd, execDiagnosticEvaluation, execVergeHalfMismatch, execStoFeedbackDiscrepancy,
      execStopTimeout, execStoRelease, execFwVerifyEnd, execVfFlr, execFlrDone, execSetEndpointId,
      execGetEndpointId, execGetMctpVersionSupport, execGetMessageTypeSupport, execGetHealth, execGetEcc,
      execGetFaults, execMctpOtherMessage, execBar4Write, execQspiRead, execQspiStatus, execEthFrameReceive]

/-- On a clock the count goes up, and the increment stands. -/
theorem tickClock_counts (s : State) : s.time.ms ≤ s.tickClock.time.ms ∧
    s.tickClock.time.inc = s.time.inc := by
  unfold State.tickClock
  split
  · exact ⟨Nat.le_add_right _ _, rfl⟩
  · exact ⟨le_rfl, rfl⟩

end Sys2Proof.Machine

open Sys2Proof Sys2Proof.Machine

/-- Settles O59: a command keeps Milestone by `keepsMilestone_exec`, and a clock counts by `tickClock_counts`. -/
theorem milestoneNeverDecreases : Obligations.MilestoneNeverDecreases := by
  intro s t goes
  unfold step at goes
  split at goes
  case h_1 idle =>
    obtain ⟨rises, inc⟩ := tickClock_counts s
    cases goes
    exact ⟨fun _ _ => rises, fun _ _ busy => absurd idle busy, fun bounded => inc ▸ bounded⟩
  case h_2 c rest pending =>
    obtain ⟨rises, inRun, bounded⟩ := keepsMilestone_exec c _ t goes
    exact ⟨rises, fun run on _ => inRun run on, bounded⟩

end

section
/-! PROOF. Milestone as it is read (02 section 2.4, R40): a clock adds the increment, and a read of MS_LO latches the high
half for its requester alone. -/

namespace Sys2Proof.Machine

set_option Elab.async false

/-! ### A clock -/

theorem tickClock_running {s : State} (h : s.time.running = true) :
    s.tickClock.time.ms * 2 ^ 32 + s.tickClock.time.frac = s.time.ms * 2 ^ 32 + s.time.frac + s.time.inc ∧
      s.tickClock.time.frac < 2 ^ 32 := by
  unfold State.tickClock
  rw [if_pos h]
  dsimp only
  omega

theorem tickClock_stopped {s : State} (h : s.time.running = false) : s.tickClock = s := if_neg (by simp [h])

theorem Only.tickClock (s : State) : Only [.time] s s.tickClock :=
  Only.ite (fun _ => Only.ofTime s _) fun _ => Only.refl _ s

/-! ### The latch -/

theorem canonical_fns {s : State} (h : s.canonical = true) : Map.wf FnState.init s.fns = true := by
  simp only [State.canonical, Bool.and_eq_true] at h
  simp [h]

theorem exec_msLoRead {p : Requester} {size : Nat} {s : State} (h : size = 4 ∨ size = 8) :
    exec (.msLoRead p size) s = .next ((s.latchMs p).emit (.read (le size s.now) false)) := by
  show execMsLoRead p size s = _
  unfold execMsLoRead
  rw [if_pos h]
  cases p <;> exact done_eq rfl

theorem Only.latchMs_pcie (f : Fin 16) (o : Out) (s : State) : Only [.fns, .events, .out] s ((s.latchMs (.pcie f)).emit o) :=
  Only.trans ((Only.modFn _ _ s).mono (by decide)) ((Only.emit o _).mono (by decide))

theorem Only.latchMs_qspi (o : Out) (s : State) : Only [.link, .out] s ((s.latchMs .qspi).emit o) := by
  have latched : Only [.link] s (s.latchMs .qspi) := Only.ofLinkKeep s _ rfl
  exact (latched.mono (by decide)).trans ((Only.emit o _).mono (by decide))

/-- What a requester reads at MS_HI after some requester's latch (02 R40). -/
theorem msHiWord_latchMs (p q : Requester) {s : State} (wf : Map.wf FnState.init s.fns = true) :
    (s.latchMs p).msHiWord q = if q = p then s.now / 2 ^ 32 % 2 ^ 32 else s.msHiWord q := by
  cases p with
  | qspi =>
    cases q with
    | qspi => exact (BitVec.toNat_ofNat _ 32).trans (if_pos rfl).symm
    | pcie g => rfl
  | pcie f =>
    cases q with
    | qspi => rfl
    | pcie g =>
      simp only [State.latchMs, State.msHiWord, State.fn_modFn _ _ _ _ wf, Requester.pcie.injEq, Fin.val_inj]
      split <;> simp

theorem readReg_msHi (p : Requester) (s : State) : s.readReg p 0x104 = (s.msHiWord p, s) := by
  simp [State.readReg]

theorem msHiWord_emit (p : Requester) (o : Out) (s : State) : (s.emit o).msHiWord p = s.msHiWord p := by
  cases p <;> rfl

end Sys2Proof.Machine

open Sys2Proof Sys2Proof.Machine

/-- Settles O2: a clock by `tickClock_running`, a read by what `latchMs` writes, and MS_HI by `msHiWord_latchMs`. -/
theorem milestoneCountsAndLatches : Obligations.MilestoneCountsAndLatches := by
  refine ⟨fun s idle => ⟨s.tickClock, ?clock, Only.tickClock s, fun running => ?counts, tickClock_stopped⟩,
    fun size s width => ⟨fun f => ?pcie, ?qspi⟩, fun p q size s t canonical width goes => ?latched⟩
  case clock => rw [step, idle]
  case counts =>
    obtain ⟨sum, frac⟩ := tickClock_running running
    exact ⟨sum, frac, (tickClock_counts s).2⟩
  case pcie => exact ⟨_, exec_msLoRead width, rfl, rfl, Only.latchMs_pcie f _ s⟩
  case qspi => exact ⟨_, exec_msLoRead width, rfl, rfl, Only.latchMs_qspi _ s⟩
  case latched =>
    rw [exec_msLoRead width] at goes
    cases goes
    have word (r : Requester) := msHiWord_latchMs p r (canonical_fns canonical)
    simp only [readReg_msHi, msHiWord_emit, word]
    refine ⟨?_, fun other => if_neg other⟩
    rw [if_pos trivial]
    rfl

end

section
/-! PROOF. The Waymark ring's token (02 section 2.3, R34 to R36): it passes on where no station's waybill holds it. -/

namespace Sys2Proof.Machine

set_option Elab.async false

/-- The ring after the token has passed to the next station. -/
def State.tokenPassed (s : State) : SchedSt :=
  let n := (s.sched.tokenAt + 1) % 19
  let t := if n = 0 then s.sched.tick + 1 else s.sched.tick
  { s.sched with tokenAt := n, tick := t, stationTick := s.sched.stationTick.set 0 n t.toNat,
                 lastCircuit := if n = 0 then s.now else s.sched.lastCircuit }

theorem ringTokenArrive_passes {s : State} (free : s.holders s.sched.tokenAt = []) :
    exec .ringTokenArrive s = .next { s with sched := s.tokenPassed } := by
  show execRingTokenArrive s = _
  unfold execRingTokenArrive
  rw [free]
  exact done_eq rfl

theorem ringTokenArrive_stays {s : State} (held : s.holders s.sched.tokenAt ≠ []) : exec .ringTokenArrive s = .next s := by
  show execRingTokenArrive s = _
  unfold execRingTokenArrive
  rw [if_pos (by simpa using held)]
  exact done_eq rfl

end Sys2Proof.Machine

open Sys2Proof Sys2Proof.Machine

/-- Settles O3: the two ways of the token, and no holder at a fenced station. -/
theorem ringTokenPassesOn : Obligations.RingTokenPassesOn :=
  ⟨fun s free => ⟨_, ringTokenArrive_passes free, rfl, rfl, rfl, rfl, Only.ofSched s _⟩,
    fun _ => ringTokenArrive_stays, fun _ _ fenced => if_pos fenced⟩

end

section
/-! PROOF. The Perception Island's monitors and the Pace governor (02 sections 2.5 and 2.6): a loss fences the island and
commands 0.60 V, and one period of the governor follows its law. -/

namespace Sys2Proof.Machine

set_option Elab.async false

/-! ### The loss of the island -/

/-- What leaves the fence lines and the device state leaves a loss as it was. -/
theorem IslandLost.andThen {ps : List Part} {s t u : State} (h : IslandLost s t) (k : Only ps t u)
    (fences : Part.fences ∉ ps) (dev : Part.devState ∉ ps) : IslandLost s u := by
  obtain ⟨island, blocks⟩ := h
  have line (b : Nat) : u.isFenced b = t.isFenced b := isFenced_of_only k fences b
  have state : u.devState = t.devState := k.2 .devState dev
  exact ⟨(line _).trans island, fun up => ⟨fun b hb => (line b).trans ((blocks up).1 b hb), fun run =>
    state.trans ((blocks up).2 run)⟩⟩

theorem goes_piLoss (s : State) : Goes (done s s.piLoss) fun t =>
    IslandLost s t ∧ VcoreAsked 600 s t ∧ Only (.pace :: fenceParts) s t := by
  obtain ⟨lost, asked, frame⟩ := islandLost_piLoss s
  exact goes_done frame ⟨lost, asked, frame⟩

theorem ringTokenMiss_due {s : State} (runs : 3 ≤ s.devState.code) (due : s.sched.lastCircuit + 2000000 ≤ s.now)
    (station : ∃ e < 19, s.stationFenced e = false) : exec .ringTokenMiss s = done s s.piLoss := by
  have any : (List.range 19).any (fun e => !s.stationFenced e) = true := by simpa using station
  exact congrArg (done s) (if_pos (by simp [runs, due, any]))

/-- The supply stands within `tol` of the command. -/
theorem within_iff (p : PaceSt) (tol mV : Nat) : p.within tol mV = true ↔ mV ≤ p.vcore + tol ∧ p.vcore ≤ mV + tol := by
  simp [PaceSt.within]

theorem within_false_iff (p : PaceSt) (tol mV : Nat) :
    p.within tol mV = false ↔ p.vcore + tol < mV ∨ mV + tol < p.vcore := by
  rw [← Bool.not_eq_true, within_iff]
  omega

theorem vcoreWindowMiss_due {mV forNs : Nat} {s : State} (runs : 3 ≤ s.devState.code)
    (out : s.pace.vcore + 25 < mV ∨ mV + 25 < s.pace.vcore) (long : 10000 ≤ forNs)
    (due : s.pace.cmdAt + 200000 ≤ s.now) : exec (.vcoreWindowMiss mV forNs) s = done s s.piLoss :=
  congrArg (done s) (if_pos ⟨runs, by simp [(within_false_iff _ _ _).2 out], long, due⟩)

theorem vcoreWindowMiss_none {mV forNs : Nat} {s : State} (none : (mV ≤ s.pace.vcore + 25 ∧ s.pace.vcore ≤ mV + 25) ∨
    forNs < 10000 ∨ s.now < s.pace.cmdAt + 200000) : exec (.vcoreWindowMiss mV forNs) s = .next s := by
  refine (congrArg (done s) (if_neg ?_)).trans (done_eq rfl)
  rintro ⟨-, out, long, due⟩
  rcases none with within | short | early
  · simp [(within_iff _ _ _).2 within] at out
  · omega
  · omega

/-- The response monitor's miss: the write is given up and the island lost. -/
theorem avsbusResponseMiss_missed {cause : AvsMiss} {s : State} (unconfirmed : s.pace.unconfirmed = true)
    (missed : s.avsMissed cause = true) : exec (.avsbusResponseMiss cause) s =
      done s { s with pace := { s.pace with unconfirmed := false, pending := none } }.piLoss :=
  congrArg (done s) (if_pos (by simp [unconfirmed, missed]))

theorem avsbusResponseMiss_none {cause : AvsMiss} {s : State}
    (none : s.pace.unconfirmed = false ∨ s.avsMissed cause = false) : exec (.avsbusResponseMiss cause) s = .next s :=
  (congrArg (done s) (if_neg (by simpa [or_iff_not_imp_left] using none))).trans (done_eq rfl)

theorem avsMissed_of_due {cause : AvsMiss} {s : State} (h : cause = .badCrc ∨ (s.pace.cmdAt + 200000 ≤ s.now ∧
    (cause = .noAck ∨ ∃ mV, cause = .readBack mV ∧ (s.pace.vcore + 15 < mV ∨ mV + 15 < s.pace.vcore)))) :
    s.avsMissed cause = true := by
  rcases h with rfl | ⟨due, rfl | ⟨mV, rfl, out⟩⟩
  · rfl
  · exact decide_eq_true due
  · simp [State.avsMissed, due, (within_false_iff _ _ _).2 out]

theorem avsMissed_early {cause : AvsMiss} {s : State} (crc : cause ≠ .badCrc) (early : s.now < s.pace.cmdAt + 200000) :
    s.avsMissed cause = false := by
  cases cause with
  | badCrc => exact absurd rfl crc
  | noAck => exact decide_eq_false (by omega)
  | readBack mV => simp [State.avsMissed, early]

theorem Only.ofLostRails (s : State) (l : List Rail) : Only [.lostRails] s { s with lostRails := l } :=
  ⟨rfl, fun p hp => by cases p <;> first | rfl | exact fun _ => rfl | exact absurd (by decide) hp⟩

theorem goes_avsMissed {cause : AvsMiss} {s : State} (unconfirmed : s.pace.unconfirmed = true)
    (missed : s.avsMissed cause = true) : Goes (exec (.avsbusResponseMiss cause) s) fun t => IslandLost s t ∧
      t.pace = { s.pace with vcore := 600, unconfirmed := true, pending := none, cmdAt := s.now } ∧
      t.out.getLast? = some (.avs (s.recField 3 8 1) 600) ∧ Only (.pace :: fenceParts) s t := by
  obtain ⟨lost, ⟨-, asked⟩, frame⟩ :=
    islandLost_piLoss { s with pace := { s.pace with unconfirmed := false, pending := none } }
  obtain ⟨pace, sent⟩ := asked rfl
  have whole := ((Only.ofPace s _).mono (qs := .pace :: fenceParts) (by decide)).trans frame
  rw [avsbusResponseMiss_missed unconfirmed missed]
  exact goes_done whole ⟨lost, pace, sent, whole⟩

theorem goes_vcoreLost {s : State} (runs : 3 ≤ s.devState.code) (new : Rail.vcore ∉ s.lostRails) :
    Goes (exec (.supplyLoss .vcore) s) fun t => IslandLost s t ∧ VcoreAsked 600 s t ∧
      t.lostRails = s.lostRails ++ [.vcore] ∧ Only (.lostRails :: .pace :: fenceParts) s t := by
  obtain ⟨lost, asked, frame⟩ := islandLost_piLoss { s with lostRails := s.lostRails ++ [.vcore] }
  have on : s.devState ≠ .off := by
    intro off
    simp [off, DevState.code] at runs
  have whole := ((Only.ofLostRails s _).mono (qs := .lostRails :: .pace :: fenceParts) (by decide)).trans
    (frame.mono (by decide))
  rw [supplyLoss_lost new, if_neg on, State.railLost, if_pos runs]
  exact goes_done whole ⟨lost, asked, frame.get .lostRails, whole⟩

end Sys2Proof.Machine

open Sys2Proof Sys2Proof.Machine

/-- Settles O4: each monitor's miss ends in `piLoss`, and what is no miss ends where it began. -/
theorem perceptionLossFencesIsland : Obligations.PerceptionLossFencesIsland := by
  intro s runs
  refine ⟨fun due station => ?ring, fun mV forNs => ⟨fun out long due => ?window, vcoreWindowMiss_none⟩,
    fun cause unconfirmed due => goes_avsMissed unconfirmed (avsMissed_of_due due),
    fun cause none => avsbusResponseMiss_none (none.imp_right fun ⟨crc, early⟩ => avsMissed_early crc early),
    goes_vcoreLost runs⟩
  case ring =>
    rw [ringTokenMiss_due runs due station]
    exact goes_piLoss s
  case window =>
    rw [vcoreWindowMiss_due runs out long due]
    exact goes_piLoss s

end

section
/-! PROOF. The Pace governor (02 section 2.6): its law, one period of it, and the read-back of its command. -/

namespace Sys2Proof.Machine

set_option Elab.async false

/-! ### The law -/

section
variable {p : PaceSt} {tj : Int} {rate : Nat}

theorem paceLaw_thermal (h : (paceLaw p tj rate).1 = true) : (paceLaw p tj rate).2.1 = max (p.vcore - 10) 650 := by
  unfold paceLaw at h ⊢
  dsimp only at h ⊢
  generalize (if p.thermal then decide (200 < tj) else decide (210 < tj)) = hot at h ⊢
  cases hot with
  | true => rfl
  | false => exact absurd h Bool.false_ne_true

/-- Without the override the target's step is held between the floor and the ceiling. -/
theorem paceLaw_held (h : (paceLaw p tj rate).1 = false) :
    ∃ want, (paceLaw p tj rate).2.1 = max (min want p.ceiling) p.floor := by
  unfold paceLaw at h ⊢
  dsimp only at h ⊢
  generalize (if p.thermal then decide (200 < tj) else decide (210 < tj)) = hot at h ⊢
  cases hot with
  | true => exact absurd h.symm Bool.false_ne_true
  | false => exact ⟨_, rfl⟩

end

/-! ### What has been sent stays sent -/

theorem Sent.of_only {ps : List Part} {s t : State} (h : Only ps s t) (out : Part.out ∉ ps) : Sent s t := by
  have same : t.out = s.out := h.2 .out out
  exact fun o ho => same ▸ ho

theorem Sent.signal (f v : Nat) (s : State) : Sent s (s.signal f v) := by
  unfold State.signal
  dsimp only
  split
  · exact Sent.emit _ s
  · exact Sent.refl s

theorem Sent.post (code payload : Nat) (ctx : Option Nat) (s : State) : Sent s (s.post code payload ctx) := by
  unfold State.post
  have posted := Sent.foldl (fun (t : State) f => t.postTo
    { code := BitVec.ofNat 16 code, payload := BitVec.ofNat 32 payload, stamp := s.now, ctx := ctx } f)
    (fun t f => Sent.of_only (Only.postTo _ f t) (by decide)) (s.receivers code ctx) s
  split
  · exact (posted.trans (Sent.signal 0 1026 _)).trans (Sent.of_only (Only.qspiSet 4#4 _) (by decide))
  · exact posted

/-! ### A command to VCORE -/

theorem vcoreCommand_waits {s : State} (h : s.pace.unconfirmed = true) (mV : Nat) :
    s.vcoreCommand mV = { s with pace := { s.pace with pending := some mV } } := if_pos h

theorem vcoreCommand_sent {s : State} (h : s.pace.unconfirmed = false) (mV : Nat) : s.vcoreCommand mV =
    { s with pace := { s.pace with vcore := mV, unconfirmed := true, cmdAt := s.now },
             out := s.out ++ [.avs (s.recField 3 8 1) mV] } := if_neg (by simp [h])

/-! ### One period -/

/-- The temperature and the override and conflict of a law that gave `l` are taken. -/
def State.lawTaken (tj : Int) (l : Bool × Nat × Option PaceSide) (s : State) : State :=
  { s with pace := { s.pace with tjHalf := tj, thermal := l.1, conflict := l.2.2 } }

/-- A period whose law gave `l`: besides what is taken, its command where it differs. -/
def State.lawApplied (tj : Int) (l : Bool × Nat × Option PaceSide) (s : State) : State :=
  if l.2.1 ≠ s.pace.vcore then (s.lawTaken tj l).vcoreCommand l.2.1 else s.lawTaken tj l

/-- A conflict that was not there before is posted (02 R48). -/
def State.conflictPosted (old : Option PaceSide) (l : Bool × Nat × Option PaceSide) (s : State) : State :=
  match l.2.2 with
  | some side => if old = some side then s
      else s.post 0x0008 ((if side = .hostFloor then 1 else 0) + l.2.1 * 65536) none
  | none => s

theorem Only.lawApplied (tj : Int) (l : Bool × Nat × Option PaceSide) (s : State) :
    Only [.pace, .out] s (s.lawApplied tj l) :=
  Only.when ((Only.ofPace s _).mono (by decide)) (Only.vcoreCommand _)

theorem Only.conflictPosted (old : Option PaceSide) (l : Bool × Nat × Option PaceSide) (s : State) :
    Only [.events, .irq, .out] s (s.conflictPosted old l) := by
  unfold State.conflictPosted
  split
  · exact Only.ite (fun _ => Only.refl _ s) fun _ => Only.post _ _ _ s
  · exact Only.refl _ s

theorem Sent.conflictPosted (old : Option PaceSide) (l : Bool × Nat × Option PaceSide) (s : State) :
    Sent s (s.conflictPosted old l) := by
  unfold State.conflictPosted
  split
  · split
    · exact Sent.refl s
    · exact Sent.post _ _ _ s
  · exact Sent.refl s

theorem conflictPosted_new {old : Option PaceSide} {l : Bool × Nat × Option PaceSide} {side : PaceSide}
    (now : l.2.2 = some side) (new : old ≠ some side) (s : State) : s.conflictPosted old l =
      s.post 0x0008 ((if side = .hostFloor then 1 else 0) + l.2.1 * 65536) none := by
  unfold State.conflictPosted
  rw [now]
  exact if_neg new

/-- The override and the conflict are taken whether the command waits, is sent, or stands. -/
theorem lawApplied_pace (tj : Int) (l : Bool × Nat × Option PaceSide) (s : State) :
    (s.lawApplied tj l).pace.tjHalf = tj ∧ (s.lawApplied tj l).pace.thermal = l.1 ∧
    (s.lawApplied tj l).pace.conflict = l.2.2 := by
  unfold State.lawApplied State.vcoreCommand
  split
  · split <;> exact ⟨rfl, rfl, rfl⟩
  · exact ⟨rfl, rfl, rfl⟩

section
variable {tj : Int} {l : Bool × Nat × Option PaceSide} {s : State}

theorem lawApplied_stands (same : l.2.1 = s.pace.vcore) : (s.lawApplied tj l).pace.vcore = s.pace.vcore ∧
    (s.lawApplied tj l).pace.pending = s.pace.pending := by
  unfold State.lawApplied
  rw [if_neg (not_not.2 same)]
  exact ⟨rfl, rfl⟩

theorem lawApplied_waits (new : l.2.1 ≠ s.pace.vcore) (unconfirmed : s.pace.unconfirmed = true) :
    (s.lawApplied tj l).pace.vcore = s.pace.vcore ∧ (s.lawApplied tj l).pace.pending = some l.2.1 := by
  unfold State.lawApplied
  rw [if_pos new, vcoreCommand_waits (s := s.lawTaken tj l) unconfirmed]
  exact ⟨rfl, rfl⟩

theorem lawApplied_sent (new : l.2.1 ≠ s.pace.vcore) (confirmed : s.pace.unconfirmed = false) :
    (s.lawApplied tj l).pace.vcore = l.2.1 ∧ (s.lawApplied tj l).pace.unconfirmed = true ∧
    (s.lawApplied tj l).pace.cmdAt = s.now ∧ Out.avs (s.recField 3 8 1) l.2.1 ∈ (s.lawApplied tj l).out := by
  unfold State.lawApplied
  rw [if_pos new, vcoreCommand_sent (s := s.lawTaken tj l) confirmed]
  exact ⟨rfl, rfl, rfl, List.mem_append_right _ (List.mem_singleton.2 rfl)⟩

end

section
variable {tj : Int} {rate : Nat} {s : State} (runs : s.mcRuns = true)
include runs

theorem governor_inRun (cool : tj < 220) (run : s.devState = .run) : exec (.paceGovernorPeriod tj rate) s =
    done s ((s.lawApplied tj (paceLaw s.pace tj rate)).conflictPosted s.pace.conflict (paceLaw s.pace tj rate)) := by
  show execPaceGovernorPeriod tj rate s = _
  unfold execPaceGovernorPeriod
  rw [if_neg (by simp [runs]), if_neg (fun h => by omega), if_pos run]
  rfl

theorem governor_outside (cool : tj < 220) (outside : s.devState ≠ .run) : exec (.paceGovernorPeriod tj rate) s =
    .next { s with pace := { s.pace with tjHalf := tj } } := by
  show execPaceGovernorPeriod tj rate s = _
  unfold execPaceGovernorPeriod
  rw [if_neg (by simp [runs]), if_neg (fun h => by omega), if_neg outside]
  exact done_eq rfl

/-- The island is fenced at 110 °C, and the governor notes that the fence is thermal. -/
def State.overheated (tj : Int) (s : State) : State :=
  { State.raise 0x8A0A 0xFF .fencePi 0 { s with pace := { s.pace with tjHalf := tj } } with
    pace := { s.pace with tjHalf := tj, thermalFence := true, hostReset := false } }

theorem governor_hot (hot : 220 ≤ tj) (new : s.pace.thermalFence = false) : exec (.paceGovernorPeriod tj rate) s =
    done s (((s.overheated tj).vcoreCommand 600).post 0x0009 (unsigned 16 tj) none) := by
  show execPaceGovernorPeriod tj rate s = _
  unfold execPaceGovernorPeriod
  rw [if_neg (by simp [runs]), if_pos ⟨hot, by simp [new]⟩]
  rfl

end

theorem overheated_lost (tj : Int) (s : State) : IslandLost s (s.overheated tj) ∧
    Only (.pace :: fenceParts) s (s.overheated tj) := by
  obtain ⟨lost, frame⟩ := islandLost_raise 0x8A0A 0xFF 0 { s with pace := { s.pace with tjHalf := tj } } rfl
  refine ⟨lost, ((Only.ofPace s _).mono (by decide)).trans ((frame.mono (by decide)).trans ?_)⟩
  exact (Only.ofPace _ _).mono (by decide)

theorem goes_overheated (tj : Int) (s : State) :
    Goes (done s (((s.overheated tj).vcoreCommand 600).post 0x0009 (unsigned 16 tj) none)) fun t =>
      IslandLost s t ∧ t.pace.thermalFence = true ∧ t.pace.hostReset = false ∧
      (s.pace.unconfirmed = false → t.pace.vcore = 600) ∧ (s.pace.unconfirmed = true → t.pace.pending = some 600) ∧
      (∃ u : State, t = u.post 0x0009 (unsigned 16 tj) none) ∧ Only (.pace :: fenceParts) s t := by
  obtain ⟨lost, frame⟩ := overheated_lost tj s
  have commanded := Only.vcoreCommand 600 (s.overheated tj)
  have posted := Only.post 0x0009 (unsigned 16 tj) none ((s.overheated tj).vcoreCommand 600)
  have whole := (frame.trans (commanded.mono (by decide))).trans (posted.mono (by decide))
  have pace := posted.get .pace
  refine goes_done whole ⟨(lost.andThen commanded (by decide) (by decide)).andThen posted (by decide) (by decide),
    ?fence, ?reset, fun confirmed => ?sent, fun unconfirmed => ?waits, ⟨_, rfl⟩, whole⟩
  all_goals rw [pace]
  case fence | reset => unfold State.vcoreCommand; split <;> rfl
  case sent => rw [vcoreCommand_sent (s := s.overheated tj) confirmed]
  case waits => rw [vcoreCommand_waits (s := s.overheated tj) unconfirmed]

/-! ### The read-back -/

section
variable {mV : Nat} {s : State} (unconfirmed : s.pace.unconfirmed = true)
include unconfirmed

theorem readBack_confirms (within : s.pace.within 15 mV = true) (nothing : s.pace.pending = none) :
    exec (.avsbusReadBack mV none) s = .next { s with pace := { s.pace with unconfirmed := false } } := by
  show execAvsbusReadBack mV none s = _
  unfold execAvsbusReadBack
  dsimp only
  rw [if_pos (by simp [unconfirmed, within]), nothing]
  exact done_eq rfl

theorem readBack_sends {v : Nat} (within : s.pace.within 15 mV = true) (waits : s.pace.pending = some v) :
    exec (.avsbusReadBack mV none) s = .next { s with
      pace := { s.pace with vcore := v, unconfirmed := true, pending := none, cmdAt := s.now },
      out := s.out ++ [.avs (s.recField 3 8 1) v] } := by
  show execAvsbusReadBack mV none s = _
  unfold execAvsbusReadBack
  dsimp only
  rw [if_pos (by simp [unconfirmed, within]), waits]
  exact done_eq rfl

end

theorem readBack_outside {mV : Nat} {s : State} (out : s.pace.within 15 mV = false) :
    exec (.avsbusReadBack mV none) s = .next s := by
  show execAvsbusReadBack mV none s = _
  unfold execAvsbusReadBack
  dsimp only
  rw [if_neg (by simp [out])]
  exact done_eq rfl

theorem readBack_alert {mV : Nat} {s : State} (out : s.pace.within 15 mV = false) (a : BitVec 16) :
    exec (.avsbusReadBack mV (some a)) s = .next (s.post 0x000A a.toNat none) := by
  show execAvsbusReadBack mV (some a) s = _
  unfold execAvsbusReadBack
  dsimp only
  rw [if_neg (by simp [out])]
  exact done_eq (Only.post _ _ _ s).1

end Sys2Proof.Machine

open Sys2Proof Sys2Proof.Machine

/-- Settles O5: the override gives `paceLaw_thermal`, and without it the command is held between floor and ceiling. -/
theorem hostCeilingAndThermalOverrideWin : Obligations.HostCeilingAndThermalOverrideWin := by
  intro p tj rate bounds
  refine ⟨fun hot => ⟨paceLaw_thermal hot, ?_⟩, fun cool => ?_⟩
  · rw [paceLaw_thermal hot]
    exact le_max_right _ _
  · obtain ⟨want, held⟩ := paceLaw_held cool
    rw [held]
    exact ⟨le_max_right _ _, max_le (min_le_right _ _) bounds⟩

/-- Settles O6: a period in RUN applies its law and posts a new conflict, at 110 °C it is `goes_overheated`, and outside
RUN it reads the temperature; the read-back confirms, sends what waited, or leaves the write open. -/
theorem paceGovernorActs : Obligations.PaceGovernorActs := by
  refine ⟨fun tj rate s runs => ⟨fun cool run => ?law, governor_outside runs, fun hot new => ?hot⟩,
    fun mV s unconfirmed => ⟨fun lo hi nothing => ?confirms, fun v lo hi waits => ?sends, fun out => ?outside,
      fun a out => ?alert⟩⟩
  case law =>
    rw [governor_inRun runs cool run]
    generalize hl : paceLaw s.pace tj rate = l
    have applied := Only.lawApplied tj l s
    have posted := Only.conflictPosted s.pace.conflict l (s.lawApplied tj l)
    have whole := (applied.mono (qs := [.pace, .events, .irq, .out]) (by decide)).trans (posted.mono (by decide))
    obtain ⟨read, thermal, conflict⟩ := lawApplied_pace tj l s
    refine goes_done whole ?_
    rw [show ((s.lawApplied tj l).conflictPosted s.pace.conflict l).pace = (s.lawApplied tj l).pace from posted.get .pace]
    refine ⟨read, thermal, conflict, lawApplied_stands, lawApplied_waits, fun new confirmed => ?_,
      fun side now new => ⟨_, conflictPosted_new now new _⟩, whole⟩
    obtain ⟨vcore, unconfirmed, atNow, sent⟩ := lawApplied_sent (tj := tj) new confirmed
    exact ⟨vcore, unconfirmed, atNow, Sent.conflictPosted _ _ _ _ sent⟩
  case hot =>
    rw [governor_hot runs hot new]
    exact goes_overheated tj s
  case confirms => exact readBack_confirms unconfirmed ((within_iff _ _ _).2 ⟨lo, hi⟩) nothing
  case sends => exact readBack_sends unconfirmed ((within_iff _ _ _).2 ⟨lo, hi⟩) waits
  case outside => exact readBack_outside ((within_false_iff _ _ _).2 out)
  case alert => exact readBack_alert ((within_false_iff _ _ _).2 out) a

end

section
/-! PROOF. PTP disciplines Milestone (02 section 2.4.1 and Table 2.6, R41): where each Sync and the lack of one lead the
discipline state, and what they leave. -/

namespace Sys2Proof.Machine

set_option Elab.async false

/-! ### A Sync within 1 ms of the master -/

/-- The discipline state after a Sync at offset `o` within 1 ms, with `good` good Syncs before it (02 Table 2.6). -/
def Discipline.near (o : Int) (good : Nat) : Discipline → Discipline
  | .free => .acquiring
  | .acquiring => if -1000 < o ∧ o < 1000 ∧ 8 ≤ good + 1 then .locked else .acquiring
  | .locked => if o < -10000 ∨ 10000 < o then .holdover else .locked
  | .holdover => if -1000 < o ∧ o < 1000 ∧ 8 ≤ good + 1 then .locked else .holdover

/-- The good Syncs reach 8 only by one within 1 µs. -/
theorem eight_good_iff (o : Int) (good : Nat) :
    8 ≤ (if (decide (-1000 < o) && decide (o < 1000)) = true then good + 1 else 0) ↔ -1000 < o ∧ o < 1000 ∧ 8 ≤ good + 1 := by
  split
  case isTrue near =>
    rw [Bool.and_eq_true, decide_eq_true_iff, decide_eq_true_iff] at near
    omega
  case isFalse near =>
    rw [Bool.and_eq_true, decide_eq_true_iff, decide_eq_true_iff] at near
    omega

theorem disc_syncNear (r : Rec) (o : Int) (s : State) : (s.syncNear r o).time.disc = s.time.disc.near o s.time.good := by
  unfold State.syncNear Discipline.near
  simp only [eight_good_iff]
  cases s.time.disc
  case free => simp
  all_goals
    dsimp only
    split_ifs <;> simp

theorem syncNear_keeps (r : Rec) (o : Int) (s : State) : (s.syncNear r o).time.lastOff = s.time.lastOff ∧
    (s.syncNear r o).time.logSync = s.time.logSync := by
  unfold State.syncNear
  dsimp only
  cases s.time.disc
  case free => simp
  all_goals
    dsimp only
    split_ifs <;> simp

/-- HOLDOVER holds its increment until the servo takes over. -/
theorem inc_syncNear_holdover {r : Rec} {o : Int} {s : State} (held : s.time.disc = .holdover)
    (own : s.time.takeOver = false) (stays : (s.syncNear r o).time.disc = .holdover) :
    (s.syncNear r o).time.inc = s.time.inc := by
  rw [disc_syncNear, held] at stays
  unfold State.syncNear
  simp only [held, own, eight_good_iff]
  rw [if_neg fun good => by simp [Discipline.near, good] at stays, if_neg Bool.false_ne_true]

/-! ### What each leaves -/

theorem Only.discipline (d : Discipline) (s : State) : Only [.time, .events, .irq, .out] s (s.discipline d) :=
  Only.ite (fun _ => Only.refl _ s) fun _ =>
    ((Only.ofTime s _).mono (by decide)).trans ((Only.post _ _ _ _).mono (by decide))

/-- The timebase is written before the discipline state moves. -/
theorem Only.timeThenDiscipline (d : Discipline) (t : TimeSt) (s : State) :
    Only [.time, .events, .irq, .out] s ({ s with time := t }.discipline d) :=
  ((Only.ofTime s t).mono (by decide)).trans (Only.discipline d _)

theorem Only.syncNear (r : Rec) (o : Int) (s : State) : Only [.time, .events, .irq, .out] s (s.syncNear r o) := by
  have timed (t : TimeSt) (u : State) : Only [.time, .events, .irq, .out] u { u with time := t } :=
    (Only.ofTime u t).mono (by decide)
  have moved (d : Discipline) (t : TimeSt) := Only.timeThenDiscipline d t s
  unfold State.syncNear
  dsimp only
  split
  · exact (moved .acquiring _).trans (timed _ _)
  · exact Only.ite (fun _ => (moved .locked _).trans (timed _ _)) fun _ => timed _ s
  · exact Only.ite (fun _ => moved .holdover _) fun _ => timed _ s
  · exact Only.ite (fun _ => (moved .locked _).trans (timed _ _)) fun _ =>
      Only.ite (fun _ => timed _ s) fun _ => timed _ s

theorem Only.syncRefused (o : Int) (s : State) : Only [.time, .events, .irq, .out] s (s.syncRefused o) :=
  (Only.timeThenDiscipline .holdover _ s).trans ((Only.post _ _ _ _).mono (by decide))

theorem Only.syncSteered (s : State) : Only [.time, .events, .irq, .out] s s.syncSteered := by
  unfold State.syncSteered
  split
  · exact Only.timeThenDiscipline .acquiring _ s
  · exact (Only.ofTime s _).mono (by decide)
  all_goals exact Only.timeThenDiscipline .holdover _ s

/-- The parts that hold a moment from which elapsed time is measured. -/
theorem Only.jumpMs (d : Nat) (s : State) : Only [.time, .mc, .pace, .sched, .verge, .ports] s (s.jumpMs d) := by
  refine ⟨rfl, fun p other => ?_⟩
  cases p
  case time | mc | pace | sched | verge | ports => exact absurd (by decide) other
  case fns | events => exact fun _ => rfl
  all_goals exact rfl

/-- The parts that a Sync may change. -/
def syncParts : List Part := [.time, .mc, .pace, .sched, .verge, .ports, .events, .irq, .out]

theorem Only.syncStepped (caught : Bool) (o : Int) (s : State) : Only syncParts s (s.syncStepped caught o) := by
  have timed (t : TimeSt) : Only syncParts s { s with time := t } := (Only.ofTime s t).mono (by decide)
  refine Only.ite (fun _ => (timed _).trans ((Only.jumpMs _ _).mono (by decide))) fun _ => ?_
  exact Only.ite (fun _ => timed _) fun _ => (timed _).trans ((Only.post _ _ _ _).mono (by decide))

theorem Only.syncNoted (o l : Int) (s : State) : Only [.time] s (s.syncNoted o l) := Only.ofTime s _

/-! ### A Sync beyond 1 ms outside RUN -/

/-- It is noted, and only a discipline state that had a source falls to HOLDOVER. -/
theorem syncStepped_leads (caught : Bool) (o : Int) (s : State) :
    (s.syncStepped caught o).time.disc = s.time.disc ∧ (s.syncStepped caught o).time.takeOver = s.time.takeOver ∧
    (s.syncStepped caught o).time.lastOff = s.time.lastOff ∧ (s.syncStepped caught o).time.logSync = s.time.logSync := by
  rcases lt_or_ge o 0 with behind | ahead
  · rw [syncStepped_behind behind]
    exact ⟨rfl, rfl, rfl, rfl⟩
  · rw [syncStepped_ahead ahead]
    exact ⟨rfl, rfl, rfl, rfl⟩

/-! ### A Sync that is heard -/

section
variable {mac : Fin 2} {offset logInterval : Int} {s : State} {r : Rec}
variable (hr : s.timeRec = some r) (source : r.u 8 1 = mac) (clear : s.isFenced (0x20 + mac) = false) (runs : s.mcRuns = true)
include hr source clear runs

theorem ptpSync_near (lo : -1000000 ≤ offset) (hi : offset ≤ 1000000) : exec (.ptpSyncReceive mac offset logInterval) s =
    .next ((s.syncNoted offset logInterval).syncNear r offset) := by
  rw [ptpSync_heard hr source clear runs]
  dsimp only
  rw [if_pos ⟨lo, hi⟩]
  exact done_eq (Only.syncNear r offset _).1

theorem ptpSync_beyondInRun (far : offset < -1000000 ∨ 1000000 < offset) (run : s.devState = .run) :
    exec (.ptpSyncReceive mac offset logInterval) s = .next ((s.syncNoted offset logInterval).syncRefused offset) := by
  rw [ptpSync_heard hr source clear runs]
  dsimp only
  rw [if_neg (by omega), if_pos run]
  exact done_eq (Only.syncRefused offset _).1

theorem ptpSync_beyondOutside (far : offset < -1000000 ∨ 1000000 < offset) (outside : s.devState ≠ .run) :
    exec (.ptpSyncReceive mac offset logInterval) s =
      .next ((s.syncNoted offset logInterval).syncSteered.syncStepped s.time.catchUp offset) := by
  rw [ptpSync_heard hr source clear runs]
  dsimp only
  rw [if_neg (by omega), if_neg outside]
  have steered := (Only.syncSteered (s.syncNoted offset logInterval)).1
  exact done_eq ((Only.syncStepped s.time.catchUp offset _).1.trans steered)

end

/-! ### Four Sync intervals without a Sync -/

section
variable {s : State} (late : s.time.lastSync + 4 * syncInterval s.time.logSync ≤ s.now)
include late

theorem ptpSyncTimeout_acquiring (h : s.time.disc = .acquiring) : exec .ptpSyncTimeout s =
    .next ({ s with time := { s.time with inc := nominalInc, catchUp := false } }.discipline .free) := by
  show execPtpSyncTimeout s = _
  unfold execPtpSyncTimeout
  rw [if_neg (by omega), h]
  exact done_eq (Only.timeThenDiscipline .free _ s).1

theorem ptpSyncTimeout_locked (h : s.time.disc = .locked) : exec .ptpSyncTimeout s =
    .next ({ s with time := { s.time with good := 0, takeOver := false } }.discipline .holdover) := by
  show execPtpSyncTimeout s = _
  unfold execPtpSyncTimeout
  rw [if_neg (by omega), h]
  exact done_eq (Only.timeThenDiscipline .holdover _ s).1

theorem ptpSyncTimeout_sourceless (h : s.time.disc = .free ∨ s.time.disc = .holdover) : exec .ptpSyncTimeout s = .next s := by
  show execPtpSyncTimeout s = _
  unfold execPtpSyncTimeout
  rw [if_neg (by omega)]
  rcases h with h | h <;> rw [h] <;> exact done_eq rfl

end

end Sys2Proof.Machine

open Sys2Proof Sys2Proof.Machine

/-- Settles O9: a Sync that is heard is near, beyond 1 ms in RUN or beyond it outside RUN, and of the four discipline
states only ACQUIRING and LOCKED wait for the next one. -/
theorem ptpDisciplinesMilestone : Obligations.PtpDisciplinesMilestone := by
  refine ⟨fun mac offset logInterval s r hr => ⟨fun other => ptpSync_unheard hr (.inl other), fun source clear runs => ?sync⟩,
    fun s late => ?timeout⟩
  case sync =>
    have noted : Only syncParts s (s.syncNoted offset logInterval) := (Only.syncNoted offset logInterval s).mono (by decide)
    rcases em (-1000000 ≤ offset ∧ offset ≤ 1000000) with ⟨lo, hi⟩ | beyond
    · refine ⟨_, ptpSync_near hr source clear runs lo hi, ?_⟩
      obtain ⟨lastOff, logSync⟩ := syncNear_keeps r offset (s.syncNoted offset logInterval)
      have ms := (countStands_syncNear r offset (s.syncNoted offset logInterval)).ms
      have leads := disc_syncNear r offset (s.syncNoted offset logInterval)
      have frame := noted.trans ((Only.syncNear r offset _).mono (by decide))
      refine ⟨lastOff, logSync, fun _ _ => ⟨ms, ?_, ?_, ?_, ?_, ?_⟩, by omega, by omega, by omega, by omega, frame⟩
      case refine_5 => exact fun held own stays => inc_syncNear_holdover held own stays
      all_goals
        intro from_
        rw [leads]
        exact congrArg (Discipline.near offset s.time.good) from_
    · have far : offset < -1000000 ∨ 1000000 < offset := by omega
      rcases em (s.devState = .run) with run | outside
      · refine ⟨_, ptpSync_beyondInRun hr source clear runs far run, ?_⟩
        have frame := noted.trans ((Only.syncRefused offset _).mono (by decide))
        have time := State.syncRefused_time offset (s.syncNoted offset logInterval)
        beta_reduce
        rw [time]
        exact ⟨rfl, rfl, by omega, fun _ out => absurd run out, fun _ out => absurd run out, fun _ out => absurd run out,
          fun _ _ => ⟨rfl, rfl, rfl⟩, frame⟩
      · refine ⟨_, ptpSync_beyondOutside hr source clear runs far outside, ?_⟩
        obtain ⟨ms, -, inc, lastOff, logSync⟩ := syncSteered_keeps (s.syncNoted offset logInterval)
        have steered := disc_syncSteered (s.syncNoted offset logInterval)
        obtain ⟨disc, takeOver, off, log⟩ := syncStepped_leads s.time.catchUp offset (s.syncNoted offset logInterval).syncSteered
        have frame := (noted.trans ((Only.syncSteered _).mono (by decide))).trans (Only.syncStepped s.time.catchUp offset _)
        refine ⟨off.trans lastOff, log.trans logSync, by omega, fun behind _ => ?_, fun ahead _ => ?_,
          fun _ _ => ⟨fun from_ => ?_, fun from_ => ⟨?_, ?_⟩⟩, fun _ run => absurd run outside, frame⟩
        · rw [syncStepped_behind (by omega)]
          exact congrArg (· + offset.natAbs) ms
        · rw [syncStepped_ahead (by omega)]
          exact ⟨ms, rfl⟩
        · rw [disc, steered]
          rcases from_ with h | h <;> exact congrArg Discipline.steered h
        · rw [disc, steered]
          rcases from_ with h | h <;> exact congrArg Discipline.steered h
        · exact takeOver.trans (takeOver_syncSteered from_)
  case timeout =>
    cases h : s.time.disc
    case acquiring =>
      refine ⟨_, ptpSyncTimeout_acquiring late h, ?_⟩
      have frame := Only.timeThenDiscipline .free { s.time with inc := nominalInc, catchUp := false } s
      beta_reduce
      rw [State.discipline_time]
      exact ⟨fun _ => ⟨rfl, rfl⟩, by simp, by simp, rfl, frame⟩
    case locked =>
      refine ⟨_, ptpSyncTimeout_locked late h, ?_⟩
      have frame := Only.timeThenDiscipline .holdover { s.time with good := 0, takeOver := false } s
      beta_reduce
      rw [State.discipline_time]
      exact ⟨by simp, fun _ => ⟨rfl, rfl⟩, by simp, rfl, frame⟩
    all_goals exact ⟨s, ptpSyncTimeout_sourceless late (by simp [h]), by simp, by simp, fun _ => rfl, rfl, Only.refl _ s⟩

end

section
/-! PROOF. The loss of a supply outside OFF (03 section 3.2, Table 3.4): the outputs in their reset state, the blocks
that are fenced, and LPDDR5, whose stuck bits and fitted capacity no write changes and whose content is gone. -/

namespace Sys2Proof.Machine

/-! ### What no write changes in the memories -/

/-- The memories as built: stuck bits and fitted capacity. -/
def State.built (s : State) : MemSt :=
  { MemSt.init with
    sward := s.mem.sward.hardOnly, lpddr := s.mem.lpddr.hardOnly, tag := s.mem.tag.hardOnly,
    pic := s.mem.pic.hardOnly, fittedGiB := s.mem.fittedGiB }

theorem hard_of_built {s t : State} (h : t.built = s.built) : t.mem.lpddr.hard = s.mem.lpddr.hard :=
  (congrArg (fun m : MemSt => m.lpddr.hard) h :)

theorem usable_of_built {s t : State} (h : t.built = s.built) : t.usable = s.usable := by
  have fitted : t.mem.fittedGiB = s.mem.fittedGiB := (congrArg MemSt.fittedGiB h :)
  rw [State.usable, State.usable, fitted]

theorem built_of_only {ps : List Part} {s t : State} (h : Only ps s t) (hp : Part.mem ∉ ps := by decide) :
    t.built = s.built := by
  have mem : t.mem = s.mem := h.2 .mem hp
  rw [State.built, State.built, mem]

theorem built_foldl {α : Type} {f : State → α → State} (h : ∀ s a, (f s a).built = s.built) (l : List α) (s : State) :
    (l.foldl f s).built = s.built := foldl_keeps State.built h l s

theorem built_foldl_snd {α β : Type} {f : α × State → β → α × State} (h : ∀ x b, (f x b).2.built = x.2.built)
    (l : List β) (x : α × State) : (l.foldl f x).2.built = x.2.built :=
  foldl_keeps (fun p : α × State => p.2.built) h l x

theorem built_setSpace {m : Mem} {p : MemSpace} {s : State} (h : p.hard = (s.space m).hard) :
    (s.setSpace m p).built = s.built := by
  have only : p.hardOnly = (s.space m).hardOnly := by rw [MemSpace.hardOnly, MemSpace.hardOnly, h]
  cases m <;> simp only [State.built, State.setSpace, only] <;> rfl

section
variable (s : State)

@[simp] theorem built_draw : s.draw.2.built = s.built := rfl

@[simp] theorem built_setMark (m : Mem) (w : Nat) (e : Ecc) : (s.setMark m w e).built = s.built := built_setSpace rfl

@[simp] theorem built_setWord (m : Mem) (w v : Nat) : (s.setWord m w v).built = s.built := built_setSpace rfl

@[simp] theorem built_reMark (m : Mem) (w : Nat) (poison : Bool) : (s.reMark m w poison).built = s.built := by
  unfold State.reMark
  dsimp only
  repeat' split
  all_goals simp

@[simp] theorem built_memUe (m : Mem) (a : Nat) : (s.memUe m a).built = s.built := by
  unfold State.memUe
  split
  · exact (built_of_only (Only.post _ _ _ _)).trans (built_draw s)
  · refine (built_of_only (Only.post _ _ _ _)).trans ((built_of_only (Only.record _ _ _ _ _)).trans ?_)
    split <;> rfl

@[simp] theorem built_memCorr (m : Mem) (who : Option Nat) (a : Nat) : (s.memCorr m who a).built = s.built := by
  unfold State.memCorr
  split
  · rfl
  · cases who with
    | none => dsimp only; split <;> rfl
    | some c => refine (built_of_only (Only.count _ _ _ _)).trans ?_; split <;> rfl

@[simp] theorem built_cleanRange (m : Mem) (a n : Nat) : (s.cleanRange m a n).built = s.built :=
  (built_foldl (fun t _ => built_reMark t _ _ _) _ _).trans (built_setSpace rfl)

@[simp] theorem built_zeroRange (m : Mem) (a n : Nat) : (s.zeroRange m a n).built = s.built :=
  (built_cleanRange _ _ _ _).trans (built_setSpace rfl)

@[simp] theorem built_zeroDone : s.zeroDone.built = s.built := by
  unfold State.zeroDone
  split
  · exact (built_of_only (Only.post _ _ _ _)).trans rfl
  · rfl

@[simp] theorem built_markPending (gs : List Nat) : (s.markPending gs).built = s.built := built_zeroDone _

@[simp] theorem built_zeroGranule (g : Nat) : (s.zeroGranule g).built = s.built :=
  (built_zeroDone _).trans (built_zeroRange s _ _ _)

@[simp] theorem built_touch (m : Mem) (a n : Nat) : (s.touch m a n).built = s.built := by
  unfold State.touch
  split
  · rfl
  · exact built_foldl built_zeroGranule _ _

@[simp] theorem built_partialWord (m : Mem) (who : Option Nat) (poison : Bool) (w : Nat) :
    (s.partialWord m who poison w).2.built = s.built := by
  unfold State.partialWord
  split
  · cases poison <;> simp
  all_goals simp

@[simp] theorem built_writeMem (m : Mem) (who : Option Nat) (poison : Bool) (a : Nat) (bs : List Byte) :
    (s.writeMem m who poison a bs).2.built = s.built := by
  unfold State.writeMem
  dsimp only
  split <;> simp [built_foldl, built_foldl_snd, built_setSpace]

@[simp] theorem built_writeDev (who : Option Nat) (a : Nat) (bs : List Byte) : (s.writeDev who a bs).built = s.built := by
  unfold State.writeDev
  split
  · refine built_foldl (fun t p => ?_) _ _
    split
    · rfl
    · exact built_writeMem _ _ _ _ _ _
  · rfl
  · rfl

/-! ### Completions and fences -/

@[simp] theorem built_writeRecord (i : QueueInfo) (bs : List Byte) : (s.writeRecord i bs).built = s.built := by
  have counted (t : State) (a b c d : Nat) (g : QueueSt → QueueSt) :
      (((t.count i.ctx a b).count i.ctx c d).modQueue i.ctx i.queue g).built = t.built :=
    (built_of_only (Only.modQueue _ _ _ _)).trans
      ((built_of_only (Only.count _ _ _ _)).trans (built_of_only (Only.count _ _ _ _)))
  unfold State.writeRecord
  dsimp only
  split
  · exact (built_of_only (Only.signal _ _ _)).trans ((counted _ _ _ _ _ _).trans (built_writeDev _ _ _ _))
  · exact (counted _ _ _ _ _ _).trans (built_writeDev _ _ _ _)

@[simp] theorem built_deliver (c q : Nat) (bs : List Byte) : (s.deliver c q bs).built = s.built := by
  unfold State.deliver
  split
  · rfl
  · split
    · exact built_of_only (Only.modQueue _ _ _ _)
    · exact built_writeRecord _ _ _

@[simp] theorem built_unregister (f : Pool → Bool) : (s.unregister f).built = s.built :=
  built_foldl (fun t _ => built_markPending t _) _ _

@[simp] theorem built_poolFailed (w : Waybill) (status : Nat) : (s.poolFailed w status).built = s.built := by
  unfold State.poolFailed
  split
  · rfl
  · split
    · exact (built_of_only (Only.ofSched _ _)).trans (built_unregister _ _)
    · rfl

@[simp] theorem built_finish (w : Waybill) (status detail : Nat) (f : DoneFlags) (descFault : Bool) :
    (s.finish w status detail f descFault).built = s.built :=
  (built_deliver _ _ _ _).trans ((built_of_only (Only.countDone _ _ _ _ _ _)).trans
    ((built_of_only (Only.ofSched _ _)).trans ((built_of_only (Only.setOutcomes _ _ _)).trans (built_poolFailed _ _ _))))

end

theorem built_settle (n : Nat) : ∀ s : State, (s.settle n).built = s.built := by
  induction n with
  | zero => exact fun _ => rfl
  | succ n ih =>
    intro s
    unfold State.settle
    dsimp only
    repeat' split
    · rfl
    · exact (ih _).trans (built_finish _ _ _ _ _ _)
    · exact (ih _).trans (built_finish _ _ _ _ _ _)
    · exact (ih _).trans (built_of_only (Only.ofSched s _))

theorem built_abortRunning (p : Waybill → Bool) (s : State) : (s.abortRunning p).built = s.built :=
  (built_settle _ _).trans (built_foldl (fun t w => built_finish t w _ _ _ _) _ _)

theorem built_enterFence (b : Nat) (s : State) : (s.enterFence b).built = s.built := by
  unfold State.enterFence
  split
  · rfl
  · exact (built_of_only (Only.postFence _ _ _)).trans
      ((built_abortRunning _ _).trans (built_of_only (Only.raiseFence b s)))

theorem built_fenceBlocks (bs : List Nat) (s : State) : (s.fenceBlocks bs).built = s.built :=
  built_foldl (fun t b => built_enterFence b t) bs s

/-- Blocks that are fenced in turn stand FENCED, and the other lines stand as they stood. -/
theorem isFenced_fenceBlocks (bs : List Nat) (c : Nat) : ∀ s : State,
    (s.fenceBlocks bs).isFenced c = (decide (c ∈ bs) || s.isFenced c) := by
  induction bs with
  | nil => exact fun _ => by simp [State.fenceBlocks]
  | cons b r ih =>
    intro s
    refine (ih _).trans ?_
    rw [isFenced_enterFence]
    by_cases e : c = b <;> simp [e]

theorem isFenced_fenceBlocks_of_mem {bs : List Nat} {c : Nat} (h : c ∈ bs) (s : State) :
    (s.fenceBlocks bs).isFenced c = true := by simp [isFenced_fenceBlocks, h]

/-! ### The outputs -/

theorem gpio_pwmLow (s : State) : s.pwmLow.ports.gpio = s.ports.gpio := by
  rw [pwmLow_eq]
  refine foldl_keeps (fun t : State => t.ports.gpio) (fun t n => ?_) _ _
  unfold State.pwmOff
  split <;> rfl

/-- The outputs in their reset state (03 Table 3.7). -/
theorem outputsDown_low (s : State) : s.outputsDown.outputsUp = false ∧ s.outputsDown.verge.stoA = false ∧
    s.outputsDown.verge.stoB = false ∧ s.outputsDown.verge.twin.on = false ∧ s.outputsDown.ports.gpio.drive = 0 := by
  have gpio := gpio_pwmLow s.stoFallen.camsFallen.gpioInputs
  rw [outputsDown_eq]
  generalize s.stoFallen.camsFallen.gpioInputs.pwmLow = t at gpio
  exact ⟨rfl, rfl, rfl, rfl, congrArg GpioSt.drive gpio⟩

/-! ### The rails -/

/-- The loss of VIO33 or VFIELD is an immediate stop that ends with every output in its reset state. -/
theorem railLost_stops {r : Rail} (h : r = .vio33 ∨ r = .vfield) (s : State) :
    s.railLost r = (s.raise 0x8A07 (railIndex r) .immediate 0).outputsDown := by
  rcases h with rfl | rfl <;> rfl

/-- The loss of VDDQ or VDD2H fences the four LPDDR5 channels and clears what they held. -/
theorem railLost_lpddr {r : Rail} (h : r = .vddq ∨ r = .vdd2h) (s : State) :
    s.railLost r = (s.fenceBlocks [0x54, 0x55, 0x56, 0x57]).lpddrCleared := by
  rcases h with rfl | rfl <;> rfl

/-- Cleared LPDDR5 reads 0 where no word has more than two stuck bits (08 R396). -/
theorem get_lpddrCleared {s : State} (hard : ∀ w, Map.get 0 s.mem.lpddr.hard w ≤ 2) {a : Nat} (ha : a < s.usable) :
    Map.get 0 s.lpddrCleared.mem.lpddr.cells a = 0 :=
  get_zeroRange (m := .lp) (s := s) hard (Nat.zero_le a) (by omega)

theorem link_haltHostQueues (s : State) : s.haltHostQueues.link = s.link := by
  unfold State.haltHostQueues
  refine foldl_keeps State.link (fun t a => ?_) _ _
  rfl

theorem link_holdEvents (hold : Bool) (fs : List Nat) (s : State) : (s.holdEvents hold fs).link = s.link := by
  unfold State.holdEvents
  refine foldl_keeps State.link (fun t a => ?_) _ _
  rfl

theorem up_linkHalted (s : State) : s.linkHalted.link.up = false := by
  unfold State.linkHalted
  split
  · rw [link_holdEvents, link_haltHostQueues]
  · exact Bool.eq_false_iff.2 ‹_›

theorem up_of_only {ps : List Part} {s t : State} (h : Only ps s t) (hp : Part.link ∉ ps := by decide) :
    t.link.up = s.link.up := by
  have link : { t.link with qspiStat := 0 } = { s.link with qspiStat := 0 } := h.2 .link hp
  exact (congrArg LinkSt.up link :)

theorem up_linkLost (s : State) : s.linkLost.link.up = false := by
  rw [linkLost_eq, up_of_only (Only.enterFence _ _)]
  exact up_linkHalted s

/-- The loss of VPHY_HS takes the link down and fences the endpoint and both MACs. -/
theorem railLost_link (s : State) : (s.railLost .vphyHs).isFenced 0x50 = true ∧
    (s.railLost .vphyHs).isFenced 0x20 = true ∧ (s.railLost .vphyHs).isFenced 0x21 = true ∧
    (s.railLost .vphyHs).link.up = false ∧ Only (.link :: .fns :: fenceParts) s (s.railLost .vphyHs) := by
  have endpoint : s.linkLost.isFenced 0x50 = true := by rw [linkLost_eq, isFenced_enterFence, if_pos rfl]
  have macs := Only.fenceBlocks [0x20, 0x21] s.linkLost
  refine ⟨(isFenced_fenceBlocks _ _ _).trans ?_, isFenced_fenceBlocks_of_mem (by decide) _,
    isFenced_fenceBlocks_of_mem (by decide) _, (up_of_only macs).trans (up_linkLost s),
    (Only.linkLost s).trans (macs.mono (by decide))⟩
  rw [endpoint, Bool.or_true]

theorem supplyLoss_on {r : Rail} {s : State} (new : r ∉ s.lostRails) (on : s.devState ≠ .off) :
    exec (.supplyLoss r) s = done s ({ s with lostRails := s.lostRails ++ [r] }.railLost r) := by
  rw [supplyLoss_lost new, if_neg on]

end Sys2Proof.Machine

open Sys2Proof Sys2Proof.Machine

/-- Settles O13: a field supply by `railLost_stops`, LPDDR5's by `railLost_lpddr` with the stuck bits and the capacity
that no fence changes, the link's by `railLost_link`, the receivers' by the four fences. -/
theorem supplyLossFences : Obligations.SupplyLossFences := by
  intro r s new on
  rw [supplyLoss_on new on]
  have rails := Only.ofLostRails s (s.lostRails ++ [r])
  generalize { s with lostRails := s.lostRails ++ [r] } = u at rails
  refine ⟨_, rfl, fun h => ?field, fun h => ?lpddr, fun h => ?link, fun h => ?receivers⟩
  case field =>
    have raised := Only.raise 0x8A07 (railIndex r) .immediate 0 u
    rw [railLost_stops h, pending_restored ((Only.outputsDown _).1.trans (raised.1.trans rails.1))]
    exact ⟨rfl, outputsDown_low _⟩
  case lpddr =>
    have fenced := Only.fenceBlocks [0x54, 0x55, 0x56, 0x57] u
    have cleared := Only.lpddrCleared (u.fenceBlocks [0x54, 0x55, 0x56, 0x57])
    have built := (built_fenceBlocks [0x54, 0x55, 0x56, 0x57] u).trans (built_of_only rails)
    have whole := ((rails.mono (qs := .lostRails :: fenceParts) (by decide)).trans (fenced.mono (by decide))).trans
      (cleared.mono (by decide))
    rw [railLost_lpddr h, pending_restored whole.1]
    refine ⟨fun b lo hi => ?_, fun _ hard a ha => get_lpddrCleared (fun w => ?_) ?_, whole⟩
    · rw [isFenced_of_only cleared (by decide)]
      refine isFenced_fenceBlocks_of_mem ?_ u
      simp only [List.mem_cons, List.not_mem_nil, or_false]
      omega
    · rw [hard_of_built built]
      exact hard w
    · rwa [usable_of_built built]
  case link =>
    obtain ⟨endpoint, mac0, mac1, down, frame⟩ := railLost_link u
    have whole := (rails.mono (qs := .lostRails :: .link :: .fns :: fenceParts) (by decide)).trans
      (frame.mono (by decide))
    rw [h, pending_restored whole.1]
    exact ⟨endpoint, mac0, mac1, down, whole⟩
  case receivers =>
    have whole := (rails.mono (qs := .lostRails :: fenceParts) (by decide)).trans
      ((Only.fenceBlocks [0x22, 0x23, 0x24, 0x25] u).mono (by decide))
    have lost : u.railLost r = u.fenceBlocks [0x22, 0x23, 0x24, 0x25] := h ▸ rfl
    rw [lost, pending_restored whole.1]
    refine ⟨fun b lo hi => isFenced_fenceBlocks_of_mem ?_ u, whole⟩
    simp only [List.mem_cons, List.not_mem_nil, or_false]
    omega

/-- Settles O11: each part at the value that its field takes at reset; no map has an entry yet. -/
theorem resetLeavesOff : Obligations.ResetLeavesOff := by
  have maps : State.reset.canonical = true := by
    rw [State.canonical, reset_mem_canonical]
    rfl
  exact ⟨rfl, rfl, rfl, rfl, rfl, rfl, rfl, rfl, rfl, maps, rfl⟩

end

section
/-! PROOF. The PTP master port (04 section 4.3.1, R83, R87) and the one-second pulse (R88). -/

namespace Sys2Proof.Machine

section
variable {m : Nat} {r e : Rec} {s : State}

/-- A message of the master's MAC `m`, whose ETH record is `e` (R83, R87). -/
def masterMsg (m : Nat) (r e : Rec) (ty seq stamp : Nat) (oneStep : Bool) : Out :=
  .ptp (PtpOut.mk m ty seq stamp ((e.bytes.drop 0x10).take 6) (r.u 0xA 1 == 1)
    (if r.u 0xA 1 == 1 then e.u 0xC 4 else 0) (r.u 0xA 1 == 1 && oneStep))

theorem ptpMessage_eq (he : s.recN 0x60 m = some e) (ty seq stamp : Nat) (oneStep : Bool) :
    s.ptpMessage m ty seq stamp oneStep r = masterMsg m r e ty seq stamp oneStep := by
  simp [State.ptpMessage, masterMsg, he]

/-- A Sync that is due leaves, with its Follow_Up when two-step. -/
theorem ptpMasterSync_due (hm : s.masterMac = some (m, r)) (he : s.recN 0x60 m = some e) (runs : s.mcRuns = true)
    (due : s.time.lastMasterSync = none ∨ ∃ u, s.time.lastMasterSync = some u ∧ u + syncInterval (r.i 0xD 1) ≤ s.now) :
    exec .ptpMasterSync s = .next { s with
      time := { s.time with masterSeq := s.time.masterSeq + 1, lastMasterSync := some s.now },
      out := s.out ++ (if (r.u 0xB 1).testBit 0 then [masterMsg m r e 0 s.time.masterSeq.toNat s.now true]
        else [masterMsg m r e 0 s.time.masterSeq.toNat 0 false, masterMsg m r e 8 s.time.masterSeq.toNat s.now false]) } := by
  change execPtpMasterSync s = _
  unfold execPtpMasterSync
  rcases due with never | ⟨u, last, late⟩
  · simp only [hm, never, runs, ptpMessage_eq he]
    cases (r.u 0xB 1).testBit 0 <;> simp [done, State.emit]
  · simp only [hm, last, runs, ptpMessage_eq he, late]
    cases (r.u 0xB 1).testBit 0 <;> simp [done, State.emit]

theorem ptpMasterSync_early {u : Nat} (hm : s.masterMac = some (m, r)) (last : s.time.lastMasterSync = some u)
    (early : s.now < u + syncInterval (r.i 0xD 1)) : exec .ptpMasterSync s = .next s := by
  change execPtpMasterSync s = _
  have undue : decide (u + syncInterval (r.i 0xD 1) ≤ s.now) = false := decide_eq_false (by omega)
  simp [execPtpMasterSync, hm, last, undue, done]

theorem ptpDelayReq_answered (mac : Fin 2) (seq : BitVec 16) (hm : s.masterMac = some (mac.val, r))
    (he : s.recN 0x60 mac = some e) (runs : s.mcRuns = true) : exec (.ptpDelayReqReceive mac seq) s =
    .next { s with out := s.out ++ [masterMsg mac r e 9 seq.toNat s.now false] } := by
  change execPtpDelayReqReceive mac seq s = _
  simp [execPtpDelayReqReceive, hm, runs, ptpMessage_eq he, done, State.emit]

theorem ptpDelayReq_otherMac (mac : Fin 2) (seq : BitVec 16) (hm : s.masterMac = some (m, r)) (other : m ≠ mac) :
    exec (.ptpDelayReqReceive mac seq) s = .next s := by
  change execPtpDelayReqReceive mac seq s = _
  simp [execPtpDelayReqReceive, hm, other, done]

end

theorem ptpPpsRise_inFirstMs {s : State} (runs : s.time.running = true) (low : s.time.pps = false)
    (first : s.now % 1000000000 < 1000000) : exec .ptpPpsRise s =
    .next { s with time := { s.time with pps := true }, out := s.out ++ [.pps true] } := by
  change execPtpPpsRise s = _
  simp [execPtpPpsRise, runs, low, first, done, State.emit]

theorem ptpPpsFall_afterFirstMs {s : State} (high : s.time.pps = true) (after : 1000000 ≤ s.now % 1000000000) :
    exec .ptpPpsFall s = .next { s with time := { s.time with pps := false }, out := s.out ++ [.pps false] } := by
  change execPtpPpsFall s = _
  simp [execPtpPpsFall, high, after, done, State.emit]

end Sys2Proof.Machine

open Sys2Proof Sys2Proof.Machine

/-- Settles O10: the port's three messages by whether a Sync is due and by the MAC of the request, each message
`masterMsg`; the pulse by the millisecond within the second. -/
theorem ptpMasterAndPulse : Obligations.PtpMasterAndPulse := by
  refine ⟨fun m r e s hm he runs => ⟨ptpMasterSync_due hm he runs, fun u => ptpMasterSync_early hm, fun mac seq => ⟨?_, ?_⟩⟩,
    fun s => ⟨ptpPpsRise_inFirstMs, ptpPpsFall_afterFirstMs⟩⟩
  · rintro rfl
    exact ptpDelayReq_answered mac seq hm he runs
  · exact ptpDelayReq_otherMac mac seq hm

end

section
/-! PROOF. MCTP over the link (04 R74, Table 4.6): each message that has an answer gets it while the device is live. -/

namespace Sys2Proof.Machine

theorem mctpAnswer_live {s : State} (live : s.mctpLive = true) (ty cmd : Byte) (body : List Byte) :
    s.mctpAnswer ty cmd body = s.emit (.mctp ty cmd body) := if_pos live

/-- A command whose effect is one MCTP answer. -/
theorem done_mctpAnswer {s : State} (live : s.mctpLive = true) (ty cmd : Byte) (body : List Byte) :
    done s (s.mctpAnswer ty cmd body) = .next { s with out := s.out ++ [.mctp ty cmd body] } := by
  rw [mctpAnswer_live live]
  exact done_eq rfl

theorem telemetry_running {s : State} (h : s.reachedRun = true) (l : List Byte) : s.telemetry l = l := if_pos h

/-- Before RUN telemetry is as many zeros (R74). -/
theorem telemetry_before {s : State} (h : s.reachedRun = false) (l : List Byte) :
    s.telemetry l = List.replicate l.length 0 := by
  simp [State.telemetry, h]

theorem setEndpointId_taken {s : State} (live : s.mctpLive = true) {op eid : Byte} (ho : op.toNat ≤ 1) (h0 : eid ≠ 0)
    (hf : eid ≠ 0xFF) : exec (.setEndpointId op eid) s =
    .next { s with link := { s.link with eid := eid }, out := s.out ++ [.mctp 0 1 [0, 0, eid, 0]] } := by
  change execSetEndpointId op eid s = _
  have live' : { s with link := { s.link with eid := eid } }.mctpLive = true := live
  unfold execSetEndpointId
  rw [live, if_neg (by simp), if_neg (by simp only [h0, hf, or_false]; omega), mctpAnswer_live live']
  rfl

theorem getMctpVersionSupport_known {s : State} (live : s.mctpLive = true) {ty : Byte}
    (known : ty = 0 ∨ ty = 0x7E ∨ ty = 0xFF) : exec (.getMctpVersionSupport ty) s =
    .next { s with free := s.free + 1, out := s.out ++ [.mctp 0 4 ([0, 1] ++ le 4 s.draw.1)] } := by
  change execGetMctpVersionSupport ty s = _
  unfold execGetMctpVersionSupport
  rw [if_pos known]
  exact congrArg (done s) (mctpAnswer_live (s := s.draw.2) live ..)

end Sys2Proof.Machine

open Sys2Proof Sys2Proof.Machine

/-- Settles O20: each answer is one output of the live device; telemetry by whether RUN has been reached. -/
theorem mctpAnswers : Obligations.MctpAnswers := by
  intro s live
  refine ⟨fun op eid ho h0 hf => setEndpointId_taken live ho h0 hf, done_mctpAnswer live ..,
    fun ty known => ⟨_, getMctpVersionSupport_known live known⟩, done_mctpAnswer live .., fun run => ?_, fun before => ?_, fun run => ?_, fun run => ?_, fun ty => rfl⟩
  · exact (done_mctpAnswer live ..).trans (by rw [telemetry_running run])
  · exact (done_mctpAnswer live ..).trans (by rw [telemetry_before before]; rfl)
  · exact (done_mctpAnswer live ..).trans (by rw [telemetry_running run])
  · exact (done_mctpAnswer live ..).trans (by rw [telemetry_running run])

end

section
/-! PROOF. A function's registers through writes of one function and through what leaves them alone, whatever the form of
the map they are kept in. -/

namespace Sys2Proof.Machine

theorem State.fn_modFn_self {f : Nat} {g : FnState → FnState} {s : State} (h : g (s.fn f) ≠ FnState.init) :
    (s.modFn f g).fn f = g (s.fn f) := Map.get_set_self _ _ _ _ h

theorem State.fn_modFn_ne {f j : Nat} {g : FnState → FnState} {s : State} (h : g (s.fn f) ≠ FnState.init) (hj : j ≠ f) :
    (s.modFn f g).fn j = s.fn j := Map.get_set_ne _ _ _ _ _ h hj

/-- A function register that is none of the events, through a frame that leaves the registers. -/
theorem regs_of_only {α : Type} {ps : List Part} {s t : State} (h : Only ps s t) (g : FnState → α)
    (reg : ∀ x : FnState, g x.regs = g x) (hp : Part.fns ∉ ps := by decide) (f : Nat) : g (t.fn f) = g (s.fn f) := by
  have same : (t.fn f).regs = (s.fn f).regs := h.2 .fns hp f
  rw [← reg (t.fn f), same, reg]

theorem fn_ne_init {x : FnState} {α : Type} (g : FnState → α) (h : g x ≠ g FnState.init) : x ≠ FnState.init :=
  fun e => h (congrArg g e)

end Sys2Proof.Machine
end

section
/-! PROOF. The Signpost doorbell (06 Table 6.7, R109, R113) and the one host port of PF0's (04 R80). -/

namespace Sys2Proof.Machine

/-! ### Which port rings -/

section
variable {s : State}

theorem withPort_vf {f : Fin 16} (h : f ≠ 0) : s.withPort (.pcie f) = s := by
  unfold State.withPort
  split
  · rename_i e; exact absurd (Requester.pcie.inj e) h
  · rename_i e; cases e
  · rfl

theorem withPort_fns (p : Requester) : (s.withPort p).fns = s.fns := by
  unfold State.withPort; split <;> rfl

theorem withPort_mc (p : Requester) : (s.withPort p).mc = s.mc := by
  unfold State.withPort; split <;> rfl

theorem withPort_pending (p : Requester) : (s.withPort p).pending = s.pending := by
  unfold State.withPort; split <;> rfl

theorem Only.withPort (p : Requester) : Only [.link] s (s.withPort p) := by
  unfold State.withPort
  split
  · exact Only.ofLinkKeep s _ rfl
  · exact Only.ofLinkKeep s _ rfl
  · exact Only.refl _ s

variable {v : Nat}

theorem writeDoorbell_silent (p : Requester) (h : s.devState = .off ∨ v % 2 = 0) : s.writeDoorbell p v = s :=
  if_pos h.symm

theorem writeDoorbell_qspiRefused (on : s.devState ≠ .off) (rings : v % 2 = 1) (host : s.link.hostPort = some .pcie) :
    s.writeDoorbell .qspi v = { s with link := { s.link with qspiRefused := true } } := by
  unfold State.writeDoorbell
  rw [if_neg (by simp [on, rings])]
  exact if_pos host

theorem writeDoorbell_pcieRefused (on : s.devState ≠ .off) (rings : v % 2 = 1) (host : s.link.hostPort = some .qspi) :
    s.writeDoorbell (.pcie 0) v = { s with link := { s.link with pcieRefused := true } } := by
  unfold State.writeDoorbell
  rw [if_neg (by simp [on, rings])]
  exact if_pos host

/-- A port that may ring is the host port from then on, and rings its function's Signpost. -/
theorem writeDoorbell_rings {p : Requester} (on : s.devState ≠ .off) (rings : v % 2 = 1)
    (pf0 : p = .pcie 0 → s.link.hostPort ≠ some .qspi) (qspi : p = .qspi → s.link.hostPort ≠ some .pcie) :
    s.writeDoorbell p v = (s.withPort p).ring (fnOf p) := by
  have passes : ¬(v % 2 = 0 ∨ s.devState = .off) := by simp [on, rings]
  unfold State.writeDoorbell
  rw [if_neg passes]
  cases p with
  | qspi => exact if_neg (qspi rfl)
  | pcie f =>
    by_cases vf : f = 0
    · subst vf
      exact if_neg (pf0 rfl)
    · rw [withPort_vf vf]
      split
      · rename_i e; exact absurd (Requester.pcie.inj e) vf
      · rename_i e; cases e
      · rename_i e; cases e; rfl

end

/-! ### What SP_STATUS reads -/

theorem readReg_spStatus (p : Requester) (s : State) : (s.readReg p 0x1204).1 = s.spStatusWord p := by
  simp [State.readReg]

/-! ### The ring -/

/-- The Signpost of `f` is BUSY with the request's TAG (R109). -/
def State.rung (f : Nat) (s : State) : State :=
  s.modFn f fun x => { x with spState := .busy, spTag := BitVec.ofNat 8 (byteAt (s.request f) 2) }

theorem ring_busy {f : Nat} {s : State} (h : (s.fn f).spState = .busy) :
    s.ring f = s.modFn f fun x => { x with spOverrun := true } := if_pos h

theorem ring_served {f : Nat} {s : State} (h : (s.fn f).spState ≠ .busy) (mc : s.mc.lost = false) :
    s.ring f = (s.rung f).serve f (s.request f) := by
  simp [State.ring, h, mc, State.rung]

theorem ring_lost {f : Nat} {s : State} (h : (s.fn f).spState ≠ .busy) (mc : s.mc.lost = true) :
    s.ring f = (s.rung f).serveLost f (s.request f) := by
  simp [State.ring, h, mc, State.rung]

theorem spState_rung (f : Nat) (s : State) : ((s.rung f).fn f).spState = .busy := by
  have rung : (s.rung f).fn f = { s.fn f with spState := .busy, spTag := BitVec.ofNat 8 (byteAt (s.request f) 2) } :=
    State.fn_modFn_self (fn_ne_init FnState.spState nofun)
  rw [rung]

/-- A BUSY Signpost without its MC answers 0x8001 (R113). -/
theorem mcLostAnswer_busy {f : Nat} {s : State} (h : (s.fn f).spState = .busy) :
    ((s.mcLostAnswer f).fn f).spState = .done ∧ ((s.mcLostAnswer f).fn f).spStatus = 0x8001#16 ∧
    Only [.irq, .fns, .events, .out] s (s.mcLostAnswer f) := by
  have answered : (s.modFn f fun x => { x with spStatus := 0x8001#16, spState := .done, spOwed := none }).fn f =
      { s.fn f with spStatus := 0x8001#16, spState := .done, spOwed := none } :=
    State.fn_modFn_self (fn_ne_init FnState.spState nofun)
  have written := Only.modFn f (fun x => { x with spStatus := 0x8001#16, spState := .done, spOwed := none }) s
  have signalled := Only.signal f 1024 (s.modFn f fun x =>
    { x with spStatus := 0x8001#16, spState := .done, spOwed := none })
  unfold State.mcLostAnswer
  rw [if_pos h]
  generalize s.modFn f _ = t at answered written signalled
  have rest : Only [.irq, .events, .out] t
      (if f = 0 ∧ s.link.hostPort = some .qspi then (t.signal f 1024).qspiSet 1#4 else t.signal f 1024) :=
    Only.when (signalled.mono (by decide)) fun x => (Only.qspiSet 1#4 x).mono (by decide)
  refine ⟨(regs_of_only rest FnState.spState (fun _ => rfl) (by decide) f).trans ?_,
    (regs_of_only rest FnState.spStatus (fun _ => rfl) (by decide) f).trans ?_,
    (written.mono (by decide)).trans (rest.mono (by decide))⟩
  · rw [answered]
  · rw [answered]

theorem serveLost_reset {f : Nat} {b : List Byte} {s : State} (pf0 : f = 0) (op : fieldAt b 0 2 = 0x000A)
    (len : fieldAt b 4 2 = 8) (word : fieldAt b 8 4 = confirmWord) :
    s.serveLost f b = (s.respond 0 0x000A 0 0 []).toOff := if_pos ⟨pf0, op, len, word⟩

theorem serveLost_other {f : Nat} {b : List Byte} {s : State}
    (h : f ≠ 0 ∨ fieldAt b 0 2 ≠ 0x000A ∨ fieldAt b 4 2 ≠ 8 ∨ fieldAt b 8 4 ≠ confirmWord) :
    s.serveLost f b = s.mcLostAnswer f := if_neg (by tauto)

theorem exec_spDoorbell (p : Requester) (v : BitVec 32) (s : State) :
    exec (.spDoorbell p v) s = done s (s.writeDoorbell p v.toNat) := rfl

end Sys2Proof.Machine

open Sys2Proof Sys2Proof.Machine

/-- Settles O34: the port by `writeDoorbell_rings` and the two refusals, then the ring by whether the Signpost is BUSY
and whether the MC is lost. -/
theorem doorbellHasOneHostPort : Obligations.DoorbellHasOneHostPort := by
  refine ⟨fun s v on rings => ⟨fun host => ⟨_, ?_, rfl, ?_, ?_⟩, fun host => ⟨_, ?_, rfl, ?_, ?_⟩, fun p pf0 qspi => ?_⟩,
    fun s p w h => ?silent⟩
  · rw [exec_spDoorbell, writeDoorbell_qspiRefused on rings host]
    exact done_eq rfl
  · rw [readReg_spStatus]; rfl
  · simp only [readReg_spStatus]; rfl
  · rw [exec_spDoorbell, writeDoorbell_pcieRefused on rings host]
    exact done_eq rfl
  · rw [readReg_spStatus]; rfl
  · simp only [readReg_spStatus]; rfl
  case silent =>
    rw [exec_spDoorbell, writeDoorbell_silent p h]
    exact done_eq rfl
  have fn : ∀ f, (s.withPort p).fn f = s.fn f := fun f => by rw [State.fn, State.fn, withPort_fns]
  have req : ∀ f, (s.withPort p).request f = s.request f := fun f => by rw [State.request, State.request, fn]
  rw [exec_spDoorbell, writeDoorbell_rings on rings pf0 qspi]
  refine ⟨fun busy => ?busy, fun idle => ⟨(s.withPort p).rung (fnOf p), s.request (fnOf p), rfl, ?_, fun mc => ?served,
    fun mc f0 op len word => ?reset, fun mc other => ?refused⟩⟩
  case busy =>
    rw [ring_busy (by rwa [fn])]
    exact done_eq (withPort_pending p)
  · rw [State.rung, req]
  case served =>
    rw [ring_served (by rwa [fn]) (by rwa [withPort_mc]), req]
    rfl
  all_goals rw [ring_lost (by rwa [fn]) (by rwa [withPort_mc]), req]
  case reset =>
    rw [serveLost_reset f0 op len word]
    rfl
  case refused =>
    rw [serveLost_other other]
    obtain ⟨state, status, only⟩ := mcLostAnswer_busy (spState_rung (fnOf p) (s.withPort p))
    have whole : Only [.link, .irq, .fns, .events, .out] s (((s.withPort p).rung (fnOf p)).mcLostAnswer (fnOf p)) :=
      ((Only.withPort p).mono (by decide)).trans (((Only.modFn _ _ _).mono (by decide)).trans (only.mono (by decide)))
    exact goes_done whole ⟨state, status, whole⟩

end

section
/-! PROOF. Configuration requests (04 Tables 4.2, 4.3, R71) and the sending of a vector that is unmasked (06 R127). -/

namespace Sys2Proof.Machine

/-! ### Who answers -/

section
variable {fn : Fin 16} {s : State}

theorem configRequest_unanswered (h : s.devState = .off ∨ (s.link.up = false ∧ (s.fn 0).cfg.d3hot = false) ∨
    s.fnExists fn = false) (req : CfgReq) : exec (.configRequest fn req) s = .next s := by
  change execConfigRequest fn req s = _
  unfold execConfigRequest
  rw [if_pos (by rcases h with h | ⟨h, d⟩ | h <;> simp [*])]
  exact done_eq rfl

/-- A request is answered while PF0 is reached and the function exists. -/
theorem configRequest_answered (on : s.devState ≠ .off) (reached : s.link.up = true ∨ (s.fn 0).cfg.d3hot = true)
    (ex : s.fnExists fn = true) (req : CfgReq) : exec (.configRequest fn req) s = done s (match req with
      | .read r => s.emit (.config (s.configValue fn r))
      | .write r v => s.configWrite fn r v) := by
  change execConfigRequest fn req s = _
  unfold execConfigRequest
  have answers : ¬ (s.devState = .off ∨ (!(s.link.up || (s.fn 0).cfg.d3hot)) = true ∨ (!s.fnExists fn) = true) := by
    rcases reached with h | h <;> simp [*]
  cases req <;> exact congrArg (done s) (if_neg answers)

end

theorem configWrite_vfBar4 (v : BitVec 64) (s : State) : s.configWrite (0 : Fin 16) .vfBar4 v =
    { s with link := { s.link with vfBar4 := barBase 35 v } } := rfl

/-! ### PF0's entry to D3hot -/

/-- PF0 in D3hot has lost the link, and the endpoint is FENCED (04 section 4.1.4). -/
theorem writePower_d3hot {v : Nat} (h : v % 4 = 3) (s : State) : ((s.writePower 0 v).fn 0).cfg.d3hot = true ∧
    (s.writePower 0 v).link.up = false ∧ (s.writePower 0 v).isFenced 0x50 = true ∧
    (s.writePower 0 v).pending = s.pending := by
  have entered : s.writePower 0 v = s.linkLost.modCfg 0 fun c => { c with d3hot := true } := by
    unfold State.writePower
    rw [if_neg (by omega), if_pos h, if_pos rfl]
  have fenced : s.linkLost.isFenced 0x50 = true := by rw [linkLost_eq, isFenced_enterFence, if_pos rfl]
  have hot : (s.linkLost.modCfg 0 fun c => { c with d3hot := true }).fn 0 =
      { s.linkLost.fn 0 with cfg := { (s.linkLost.fn 0).cfg with d3hot := true } } :=
    State.fn_modFn_self (fn_ne_init (fun x => x.cfg.d3hot) nofun)
  rw [entered]
  exact ⟨by rw [hot], up_linkLost s, fenced, (Only.linkLost s).1⟩

/-! ### MSI-X -/

theorem sendPending_sends {f v : Nat} {s : State} (on : (s.fn f).msixEnable = true) (clear : (s.fn f).msixFnMask = false)
    (up : s.link.up = true) (waits : Map.get false (s.fn f).msixPending v = true)
    (opened : Map.get false (s.fn f).msixOpen v = true) (answered : v = 1024 → (s.fn f).spState = .done) :
    s.sendPending f v =
      (s.modFn f fun y => { y with msixPending := y.msixPending.set false v false }).emit (.msix f v) := by
  unfold State.sendPending
  dsimp only
  rw [if_pos (by simp [*]), if_neg fun h => h.2 (answered h.1)]

/-- Unmasking a vector that was left pending sends it (R127). -/
theorem msixUnmask_sends {fn : Fin 16} {v : Fin 1088} {s : State} (on : (s.fn fn).msixEnable = true)
    (clear : (s.fn fn).msixFnMask = false) (up : s.link.up = true)
    (waits : Map.get false (s.fn fn).msixPending v = true) (answered : v.val = 1024 → (s.fn fn).spState = .done) :
    ∃ t, exec (.msixUnmask fn (some v)) s = .next t ∧ t.out = s.out ++ [.msix fn v] ∧ Only [.fns, .events, .out] s t := by
  have opened : (s.modFn fn fun x => { x with msixOpen := x.msixOpen.set false v true }).fn fn =
      { s.fn fn with msixOpen := (s.fn fn).msixOpen.set false v true } :=
    State.fn_modFn_self (fn_ne_init FnState.msixEnable (by rw [on]; nofun))
  have only := Only.modFn fn (fun x => { x with msixOpen := x.msixOpen.set false v true }) s
  have same : (s.modFn fn fun x => { x with msixOpen := x.msixOpen.set false v true }).out = s.out := rfl
  have link : (s.modFn fn fun x => { x with msixOpen := x.msixOpen.set false v true }).link = s.link := rfl
  change ∃ t, done s ((s.modFn fn fun x => { x with msixOpen := x.msixOpen.set false v true }).sendPending fn v) = _ ∧ _
  generalize s.modFn fn _ = u at opened only same link ⊢
  have sent : u.sendPending fn v = (u.modFn fn fun y => { y with msixPending := y.msixPending.set false v false }).emit
      (.msix fn v) := by
    refine sendPending_sends ?_ ?_ (by rw [link, up]) ?_ ?_ ?_ <;> rw [opened]
    · exact on
    · exact clear
    · exact waits
    · exact Map.get_set_self _ _ _ _ nofun
    · exact answered
  have whole : Only [.fns, .events, .out] s (u.sendPending fn v) := by
    rw [sent]
    exact (only.mono (by decide)).trans (((Only.modFn _ _ u).mono (by decide)).trans ((Only.emit _ _).mono (by decide)))
  refine ⟨_, done_eq whole.1, ?_, whole⟩
  rw [sent, State.emit_out, State.modFn_out, same]

end Sys2Proof.Machine

open Sys2Proof Sys2Proof.Machine

/-- Settles O18: a request by `configRequest_answered`, PF0's D3hot by `writePower_d3hot`, a vector by
`msixUnmask_sends`. -/
theorem configurationAnswers : Obligations.ConfigurationAnswers := by
  refine ⟨fun fn s on reached ex => ?_, fun s => ⟨rfl, rfl, rfl, rfl⟩, fun fn req s h => configRequest_unanswered h req,
    fun fn v s on clear up waits answered => msixUnmask_sends on clear up waits fun h => answered (Fin.ext h)⟩
  have answer := configRequest_answered on reached ex
  refine ⟨fun r => (answer _).trans (done_eq rfl), fun v pf0 => ?_, fun v vf => ?_, fun v pf0 => ?_, fun v pf0 d3 => ?_,
    fun v => (answer _).trans (done_eq rfl)⟩
  · subst pf0
    exact (answer _).trans (done_eq rfl)
  · have other : fn.val ≠ 0 := fun h => vf (Fin.ext h)
    exact (answer _).trans ((congrArg (done s) (if_neg other)).trans (done_eq rfl))
  · subst pf0
    refine (answer _).trans ?_
    dsimp only
    rw [configWrite_vfBar4]
    exact done_eq rfl
  · subst pf0
    obtain ⟨hot, down, fenced, queue⟩ := writePower_d3hot d3 s
    exact ⟨_, (answer _).trans (done_eq queue), hot, down, fenced⟩

end

section
/-! PROOF. What an Ethernet MAC takes (04 section 4.3, R83 to R86): PTP, the frames of its RTP records, and an RTP packet
that ends its access unit in order. -/

namespace Sys2Proof.Machine

/-! ### Frames -/

/-- The frame that a MAC passes on: PTP over Ethernet or over UDP/IPv4, or RTP of one of its records (R83 to R85). -/
def State.passes (mac : Fin 2) (f : EthFrame) (s : State) : Prop :=
  f.etherType = 0x88F7#16 ∨ (f.udp4 = true ∧ (f.dstPort = 319#16 ∨ f.dstPort = 320#16)) ∨
    (f.udp4 = true ∧ s.macAccepts mac f.dstMac.toNat = true ∧
      ∃ r ∈ s.recs 0x61, r.u 8 1 = mac ∧ r.u 0xC 4 = f.dstIp.toNat ∧ r.u 0xA 2 = f.dstPort.toNat)

theorem rtpNames_iff (r : Rec) (m ip port : Nat) :
    rtpNames r m ip port = true ↔ r.u 8 1 = m ∧ r.u 0xC 4 = ip ∧ r.u 0xA 2 = port := by
  simp [rtpNames, and_assoc]

section
variable {mac : Fin 2} {f : EthFrame} {pkt : RtpPacket} {s : State}

theorem ethFrame_dead (dead : s.macLive mac = false) : exec (.ethFrameReceive mac f) s = .next s := by
  change execEthFrameReceive mac f s = _
  simp [execEthFrameReceive, dead, done]

theorem ethFrame_passed (live : s.macLive mac = true) (h : s.passes mac f) :
    exec (.ethFrameReceive mac f) s = .next s := by
  change execEthFrameReceive mac f s = _
  unfold execEthFrameReceive
  rw [if_neg (by simp [live]), if_pos]
  · exact done_eq rfl
  · simpa [State.passes, List.any_eq_true, rtpNames_iff] using h

theorem ethFrame_dropped (live : s.macLive mac = true) (h : ¬ s.passes mac f) :
    exec (.ethFrameReceive mac f) s = .next (s.macDrop mac) := by
  change execEthFrameReceive mac f s = _
  unfold execEthFrameReceive
  rw [if_neg (by simp [live]), if_neg]
  · exact done_eq rfl
  · simpa [State.passes, List.any_eq_true, rtpNames_iff] using h

/-- A frame of another protocol, to another port, or to an address that the MAC does not take is none that it passes. -/
theorem not_passes (other : f.etherType ≠ 0x88F7#16) (h : f.udp4 = false ∨ (f.dstPort ≠ 319#16 ∧ f.dstPort ≠ 320#16 ∧
    (s.macAccepts mac f.dstMac.toNat = false ∨
      ∀ r ∈ s.recs 0x61, r.u 8 1 ≠ mac ∨ r.u 0xC 4 ≠ f.dstIp.toNat ∨ r.u 0xA 2 ≠ f.dstPort.toNat))) :
    ¬ s.passes mac f := by
  rintro (ptp | ⟨udp, port⟩ | ⟨udp, acc, r, mem, m, ip, port⟩)
  · exact other ptp
  · obtain h | ⟨p, q, _⟩ := h
    · exact Bool.false_ne_true (h.symm.trans udp)
    · exact port.elim p q
  · obtain h | ⟨_, _, h | h⟩ := h
    · exact Bool.false_ne_true (h.symm.trans udp)
    · exact Bool.false_ne_true (h.symm.trans acc)
    · rcases h r mem with h | h | h
      · exact h m
      · exact h ip
      · exact h port

/-! ### RTP packets -/

theorem rtpPacket_dead (dead : s.macLive mac = false) : exec (.rtpPacketReceive mac pkt) s = .next s := by
  change execRtpPacketReceive mac pkt s = _
  simp [execRtpPacketReceive, dead, done]

theorem rtpPacket_dropped (live : s.macLive mac = true) (h : s.macAccepts mac pkt.dstMac.toNat = false ∨
    (s.rtpMatch mac pkt).bind s.rtpStream = none ∨ s.stationFenced 18 = true) :
    exec (.rtpPacketReceive mac pkt) s = .next (s.macDrop mac) := by
  change execRtpPacketReceive mac pkt s = _
  unfold execRtpPacketReceive
  rw [if_neg (by simp [live])]
  rcases h with acc | none | fenced
  · rw [if_neg (by simp [acc])]
    exact done_eq rfl
  · rw [none, ite_self]
    exact done_eq rfl
  · rw [fenced]
    split <;> exact done_eq rfl

/-- A packet of an open stream joins that stream. -/
theorem rtpPacket_taken {key : Nat} {x : Stream} (live : s.macLive mac = true)
    (acc : s.macAccepts mac pkt.dstMac.toNat = true) (open_ : (s.rtpMatch mac pkt).bind s.rtpStream = some (key, x))
    (free : s.stationFenced 18 = false) : exec (.rtpPacketReceive mac pkt) s = .next { s with
      intake := { s.intake with streams := s.intake.streams.set none key (some (x.rtpArrive s.now pkt)) } } := by
  change execRtpPacketReceive mac pkt s = _
  unfold execRtpPacketReceive
  rw [if_neg (by simp [live]), if_pos acc, open_]
  simp only [free]
  exact done_eq rfl

end

theorem Only.ofIntake (s : State) (m : IntakeSt) : Only [.intake] s { s with intake := m } :=
  ⟨rfl, fun p hp => by cases p <;> first | rfl | exact fun _ => rfl | exact absurd (by decide) hp⟩

/-! ### A packet that ends its access unit in order -/

/-- A packet as it lies in the reorder window. -/
abbrev RtpWaiting := Nat × Nat × Nat × Bool × List Byte

/-- The stream is between access units and waits for sequence number `seq` with an empty window. -/
structure Stream.AwaitsUnit (x : Stream) (seq : Nat) : Prop where
  next : x.rtpNext = some seq
  window : x.rtpBuf = []
  stamp : x.rtpStamp = none
  whole : x.rtpLost = false
  empty : x.openUnit = []

theorem Stream.rtpDrain_empty (fuel : Nat) {x : Stream} (h : x.rtpBuf = []) : x.rtpDrain fuel 0 = x := by
  cases fuel with
  | zero => rfl
  | succ n => rw [Stream.rtpDrain, h]; rfl

/-- The packet that the stream waits for leaves the window at once. -/
theorem Stream.rtpArrive_next {x : Stream} {k : RtpPacket} (now : Nat) (h : x.AwaitsUnit k.seq.toNat) :
    x.rtpArrive now k =
      (x.rtpTake (k.seq.toNat, k.timestamp.toNat, now, k.lastOfUnit, k.payload)).rtpDrain 3 0 := by
  have inOrder : (k.seq.toNat + 65536 - k.seq.toNat) % 65536 = 0 := by omega
  have again : { x with rtpNext := some k.seq.toNat, rtpBuf := [] } = x := by rw [← h.next, ← h.window]
  simp only [Stream.rtpArrive, h.next, h.window, Option.getD_some, inOrder, List.any_nil, rtpInsert, Stream.rtpDrain,
    List.length_singleton]
  simp [again]

/-- The unit that one packet makes: its bytes where the buffer and the unit hold them (13 Table 13.5). -/
def Stream.lone (x : Stream) (stamp : Nat) (payload : List Byte) : List Byte × Nat × Bool :=
  let data := (x.payloadBytes payload).getD []
  let full := decide (x.capacity < x.buffered + data.length) || decide (x.unitLimit < data.length)
  (if full then [] else data, stamp, full || (x.payloadBytes payload).isNone)

theorem Stream.bump_keeps {α : Type} (g : Stream → α) (h : ∀ (x : Stream) (c : Map Nat), g { x with counters := c } = g x)
    (i n : Nat) (x : Stream) : g (x.bump i n) = g x := by
  unfold Stream.bump
  split
  · rfl
  · exact h _ _

/-- The last packet of a unit that is not begun makes a unit by itself. -/
theorem Stream.rtpTake_lone {x : Stream} {seq : Nat} (ts stamp : Nat) (payload : List Byte) (h : x.AwaitsUnit seq) :
    (x.rtpTake (seq, ts, stamp, true, payload)).units = x.units ++ [x.lone stamp payload] ∧
    (x.rtpTake (seq, ts, stamp, true, payload)).openUnit = [] ∧
    (x.rtpTake (seq, ts, stamp, true, payload)).rtpNext = some ((seq + 1) % 65536) ∧
    (x.rtpTake (seq, ts, stamp, true, payload)).rtpBuf = [] := by
  have units := Stream.bump_keeps Stream.units fun _ _ => rfl
  have next := Stream.bump_keeps Stream.rtpNext fun _ _ => rfl
  have window := Stream.bump_keeps Stream.rtpBuf fun _ _ => rfl
  simp [Stream.rtpTake, Stream.closeRtp, units, next, window, h.stamp, h.whole, h.empty, h.window, Stream.lone]

theorem Stream.lone_fits {x : Stream} {payload data : List Byte} (stamp : Nat)
    (bytes : x.payloadBytes payload = some data) (room : x.buffered + data.length ≤ x.capacity)
    (short : data.length ≤ x.unitLimit) : x.lone stamp payload = (data, stamp, false) := by
  simp [Stream.lone, bytes, Nat.not_lt.2 room, Nat.not_lt.2 short]

/-- A payload of another packetisation mode adds nothing and leaves its unit incomplete (log 39). -/
theorem Stream.lone_otherMode {x : Stream} {payload : List Byte} (stamp : Nat) (none : x.payloadBytes payload = none) :
    x.lone stamp payload = ([], stamp, true) := by
  simp [Stream.lone, none]

end Sys2Proof.Machine

open Sys2Proof Sys2Proof.Machine

/-- Settles O24: a frame by `State.passes`, a packet by the stream that takes it, and the unit that it ends by
`Stream.rtpTake_lone`. -/
theorem ethernetDropsAllElse : Obligations.EthernetDropsAllElse := by
  intro mac s
  refine ⟨fun dead => ⟨fun f => ethFrame_dead dead, fun pkt => rtpPacket_dead dead⟩, fun live => ⟨fun f other h =>
    ethFrame_dropped live (not_passes other h), fun f h => ethFrame_passed live h, fun pkt h => rtpPacket_dropped live h,
    ?_⟩⟩
  intro pkt key x acc open_ free next window stamp whole empty last
  have waits : x.AwaitsUnit pkt.seq.toNat := ⟨next, window, stamp, whole, empty⟩
  obtain ⟨units, closed, after, drained⟩ := Stream.rtpTake_lone pkt.timestamp.toNat s.now pkt.payload waits
  have arrived : x.rtpArrive s.now pkt = x.rtpTake (pkt.seq.toNat, pkt.timestamp.toNat, s.now, true, pkt.payload) := by
    rw [Stream.rtpArrive_next _ waits, last, Stream.rtpDrain_empty 3 drained]
  refine ⟨_, rtpPacket_taken live acc open_ free, ⟨x.rtpArrive s.now pkt, rfl, ?_⟩, Only.ofIntake s _⟩
  rw [arrived]
  refine ⟨closed, after, fun data bytes room short => ?_, fun other => ?_⟩
  · rw [units, Stream.lone_fits _ bytes room short]
    rfl
  · rw [units, Stream.lone_otherMode _ other]
    rfl

end

section
/-! PROOF. The reset of a virtual function (04 R78): its waybills leave the Scoreboard, and its queues, counters and
registers start anew. -/

namespace Sys2Proof.Machine

/-! ### The pools that go -/

/-- Pools that are unregistered leave pending granules and the event that these are zeroed, and no more (12 R243). -/
theorem Only.unregister_pending (f : Pool → Bool) (s : State) :
    Only [.pools, .mem, .events, .irq, .out] s (s.unregister f) := by
  have zeroDone (t : State) : Only [.mem, .events, .irq, .out] t t.zeroDone :=
    Only.ite (fun _ => ((Only.ofMem t _).mono (by decide)).trans ((Only.post _ _ _ _).mono (by decide)))
      fun _ => Only.refl _ t
  have pending (t : State) (p : Pool) : Only [.mem, .events, .irq, .out] t (t.markPending p.granules) :=
    ((Only.ofMem t _).mono (by decide)).trans (zeroDone _)
  exact ((Only.ofPools s _).mono (by decide)).trans ((Only.foldl _ pending _ _).mono (by decide))

theorem Only.poolFailed_pending (w : Waybill) (status : Nat) (s : State) :
    Only [.pools, .mem, .events, .irq, .out, .sched] s (s.poolFailed w status) := by
  unfold State.poolFailed
  split
  · exact Only.refl _ s
  · exact Only.ite (fun _ => ((Only.unregister_pending _ s).mono (by decide)).trans ((Only.ofSched _ _).mono (by decide)))
      fun _ => Only.refl _ s

theorem space_poolFailed (w : Waybill) (status : Nat) (m : Mem) (s : State) :
    (s.poolFailed w status).space m = s.space m := by
  unfold State.poolFailed
  split
  · rfl
  · split
    · exact (space_of_only (Only.ofSched _ _) (by decide) m).trans (space_unregister _ m s)
    · rfl

/-! ### The waybills that are aborted -/

/-- What names the waybills in flight: their fetch ordinals and their contexts. -/
def State.flightTags (s : State) : List (Nat × Nat) := s.sched.flight.map fun w => (w.id, w.ctx)

theorem flightTags_of_only {ps : List Part} {s t : State} (h : Only ps s t) (hp : Part.sched ∉ ps := by decide) :
    t.flightTags = s.flightTags :=
  congrArg (fun x : SchedSt => x.flight.map fun w : Waybill => (w.id, w.ctx)) (h.2 .sched hp : t.sched = s.sched)

/-- A change of each waybill that keeps what names it. -/
theorem map_tags (g : Waybill → Waybill) (h : ∀ v, ((g v).id, (g v).ctx) = (v.id, v.ctx)) (l : List Waybill) :
    (l.map g).map (fun w : Waybill => (w.id, w.ctx)) = l.map fun w : Waybill => (w.id, w.ctx) := by
  rw [List.map_map]
  exact List.map_congr_left fun v _ => h v

theorem flightTags_poolFailed (w : Waybill) (status : Nat) (s : State) :
    (s.poolFailed w status).flightTags = s.flightTags := by
  unfold State.poolFailed
  split
  · rfl
  · split
    · refine (map_tags _ (fun v => ?_) _).trans (flightTags_of_only (Only.unregister_pending _ s))
      split <;> rfl
    · rfl

theorem flightTags_flrAbort (w : Waybill) (s : State) :
    (s.flrAbort w).flightTags = s.flightTags.filter (·.1 != w.id) := by
  rw [← flightTags_poolFailed w 0x4D01 s]
  simp only [State.flrAbort, State.flightTags, List.map_map, List.filter_map]
  rfl

theorem flightTags_foldl_flrAbort (l : List Waybill) : ∀ s : State,
    (l.foldl (fun (t : State) w => t.flrAbort w) s).flightTags ⊆ s.flightTags ∧
    ∀ x ∈ (l.foldl (fun (t : State) w => t.flrAbort w) s).flightTags, ∀ w ∈ l, x.1 ≠ w.id := by
  induction l with
  | nil => exact fun s => ⟨List.Subset.refl _, fun _ _ w h => absurd h List.not_mem_nil⟩
  | cons v r ih =>
    intro s
    obtain ⟨sub, gone⟩ := ih (s.flrAbort v)
    rw [flightTags_flrAbort] at sub
    refine ⟨List.Subset.trans sub (List.filter_subset_self _), fun x hx w hw => ?_⟩
    rcases List.mem_cons.1 hw with rfl | hw
    · simpa using (List.mem_filter.1 (sub hx)).2
    · exact gone x hx w hw

theorem Only.flrAbort (w : Waybill) (s : State) :
    Only [.pools, .mem, .events, .irq, .out, .sched] s (s.flrAbort w) :=
  (Only.poolFailed_pending w 0x4D01 s).trans ((Only.ofSched _ _).mono (by decide))

theorem space_flrAbort (w : Waybill) (m : Mem) (s : State) : (s.flrAbort w).space m = s.space m :=
  (space_of_only (Only.ofSched _ _) (by decide) m).trans (space_poolFailed w _ m s)

/-! ### The parts of the reset -/

/-- Context `c` belongs to function `f`. -/
def State.ownedBy (s : State) (f c : Nat) : Bool := s.ctxFn c == some f

/-- The waybills of the function's contexts have been aborted. -/
def State.flrAborted (f : Nat) (s : State) : State :=
  (s.sched.flight.filter fun w => s.ownedBy f w.ctx).foldl (fun (t : State) w => t.flrAbort w) s

/-- How many waybills an FLR aborts: those in flight and those not fetched yet. -/
def State.flrCount (f : Nat) (s : State) : Nat :=
  (s.sched.flight.filter fun w => s.ownedBy f w.ctx).length +
    ((s.queueInfos.filter fun i => s.ownedBy f i.ctx).map fun i =>
      ((s.queue i.ctx i.queue).sqTail - (s.queue i.ctx i.queue).fetched).toNat).sum

/-- The queues, counters and writer outcomes of the function's contexts have started anew, and the FLR is noted. -/
def State.flrCleared (f : Nat) (s : State) : State :=
  let t := s.flrAborted f
  { t with
    queues := t.queues.filter fun p => !s.ownedBy f (p.1 / 4),
    counters := t.counters.filter fun p => !s.ownedBy f (p.1 / 32),
    sched := { t.sched with outcomes := t.sched.outcomes.filter fun p => !s.ownedBy f (p.1 / 16384),
                            lastWriter := t.sched.lastWriter.filter fun p => !s.ownedBy f (p.1 / 16384) },
    link := { t.link with flrBusy := t.link.flrBusy.set 0 f (s.flrCount f + 1) } }

/-- The pools, streams and dictionaries of the function's contexts are gone too. -/
def State.flrEmptied (f : Nat) (s : State) : State :=
  ((s.flrCleared f).unregister fun p => ((s.ctxs.filter fun c => c.fn == f).map poolKey).contains p.key).closeIntake
    (s.ownedBy f)

theorem flr_eq (f : Nat) (s : State) : s.flr f = ((s.flrEmptied f).modFn f FnState.afterFlr).settleAll := rfl

section
variable (f : Nat) (s : State)

/-- What the FLR of a VF may change before the waits that it ends are settled. -/
def flrParts : List Part :=
  [.pools, .mem, .events, .irq, .out, .sched, .queues, .counters, .link, .intake, .fns]

theorem Only.flrAborted : Only [.pools, .mem, .events, .irq, .out, .sched] s (s.flrAborted f) :=
  Only.foldl _ (fun t w => Only.flrAbort w t) _ s

theorem Only.flrCleared : Only [.pools, .mem, .events, .irq, .out, .sched, .queues, .counters, .link] s (s.flrCleared f) := by
  refine ((Only.flrAborted f s).mono (by decide)).trans (Only.mono (ps := [.sched, .queues, .counters, .link]) ?_ (by decide))
  exact ⟨rfl, fun p hp => by cases p <;> first | rfl | exact fun _ => rfl | exact absurd (by decide) hp⟩

theorem Only.flrEmptied : Only flrParts s (s.flrEmptied f) :=
  ((Only.flrCleared f s).mono (by decide)).trans (((Only.unregister_pending _ _).mono (by decide)).trans
    ((Only.closeIntake _ _).mono (by decide)))

theorem space_flrEmptied (m : Mem) : (s.flrEmptied f).space m = s.space m := by
  have aborted : (s.flrAborted f).space m = s.space m :=
    foldl_keeps (fun t : State => t.space m) (fun t w => space_flrAbort w m t) _ s
  have cleared : (s.flrCleared f).space m = (s.flrAborted f).space m := by cases m <;> rfl
  exact (space_of_only (Only.closeIntake _ _) (by decide) m).trans ((space_unregister _ m _).trans (cleared.trans aborted))

theorem queues_flrEmptied : (s.flrEmptied f).queues = (s.flrAborted f).queues.filter fun p => !s.ownedBy f (p.1 / 4) :=
  (Only.unregister_pending _ (s.flrCleared f)).get .queues

theorem counters_flrEmptied :
    (s.flrEmptied f).counters = (s.flrAborted f).counters.filter fun p => !s.ownedBy f (p.1 / 32) :=
  (Only.unregister_pending _ (s.flrCleared f)).get .counters

theorem flightTags_flrEmptied : (s.flrEmptied f).flightTags = (s.flrAborted f).flightTags :=
  (flightTags_of_only (Only.unregister_pending _ (s.flrCleared f)) :)

/-- The FLR is in progress. -/
theorem flrBusy_flrEmptied : (s.flrEmptied f).link.flrBusy.get 0 f ≠ 0 := by
  have link : { (s.flrEmptied f).link with qspiStat := 0 } = { (s.flrCleared f).link with qspiStat := 0 } :=
    (Only.unregister_pending _ (s.flrCleared f)).get .link
  have busy : (s.flrEmptied f).link.flrBusy = (s.flrAborted f).link.flrBusy.set 0 f (s.flrCount f + 1) :=
    (congrArg LinkSt.flrBusy link :)
  rw [busy, Map.get_set_self _ _ _ _ (Nat.succ_ne_zero _)]
  exact Nat.succ_ne_zero _

/-- No waybill of the function's contexts is left in flight. -/
theorem flight_flrEmptied : ∀ w ∈ (s.flrEmptied f).sched.flight, s.ctxFn w.ctx ≠ some f := by
  intro w hw mine
  obtain ⟨sub, gone⟩ := flightTags_foldl_flrAbort (s.sched.flight.filter fun w => s.ownedBy f w.ctx) s
  have tag : (w.id, w.ctx) ∈ (s.flrAborted f).flightTags := by
    rw [← flightTags_flrEmptied]
    exact List.mem_map.2 ⟨w, hw, rfl⟩
  obtain ⟨v, hv, same⟩ := List.mem_map.1 (sub tag)
  obtain ⟨id, ctx⟩ := Prod.mk.inj same
  refine gone _ tag v (List.mem_filter.2 ⟨hv, ?_⟩) id.symm
  simp [State.ownedBy, ctx, mine]

end

theorem vfFlr_taken {vf : Fin 16} {s : State} (vf0 : vf ≠ 0) (on : s.devState ≠ .off) (up : s.link.up = true)
    (ex : s.fnExists vf = true) (free : s.link.flrBusy.get 0 vf = 0) : exec (.vfFlr vf) s = done s (s.flr vf) := by
  change execVfFlr vf s = _
  simp [execVfFlr, vf0, on, up, ex, free]

theorem flrDone_posted {vf : Fin 16} {s : State} (busy : s.link.flrBusy.get 0 vf ≠ 0) : exec (.flrDone vf) s =
    .next (State.post 0x0D02 (vf + min 0xFFFF (s.link.flrBusy.get 0 vf - 1) * 65536) none
      { s with link := { s.link with flrBusy := s.link.flrBusy.set 0 vf 0 } }) := by
  change execFlrDone vf s = _
  unfold execFlrDone
  dsimp only
  rw [if_neg busy]
  exact done_eq (Only.post _ _ _ _).1

end Sys2Proof.Machine

open Sys2Proof Sys2Proof.Machine

/-- Settles O19: the reset by its parts up to `State.flrEmptied`, whose Scoreboard, queues and counters hold nothing of
the VF, and FLR_DONE by `flrDone_posted`. -/
theorem vfResetEmptiesItsContexts : Obligations.VfResetEmptiesItsContexts := by
  refine ⟨fun vf s vf0 on up ex free => ?_, fun vf s busy => flrDone_posted busy⟩
  have only : Only flrParts s ((s.flrEmptied vf).modFn vf FnState.afterFlr) :=
    (Only.flrEmptied vf s).trans ((Only.modFn _ _ _).mono (by decide))
  have settled : ((s.flrEmptied vf).modFn vf FnState.afterFlr).settleAll.pending = s.pending :=
    (Only.settle _ _).1.trans only.1
  refine ⟨_, s.flrEmptied vf, ?_, rfl, flight_flrEmptied vf s, fun e he => ?queues, fun e he => ?counters,
    flrBusy_flrEmptied vf s, only.mono (by decide), space_flrEmptied vf s .sw, space_flrEmptied vf s .lp⟩
  · rw [vfFlr_taken vf0 on up ex free, flr_eq]
    exact done_eq settled
  case queues =>
    rw [State.modFn_queues, queues_flrEmptied] at he
    simpa [State.ownedBy] using (List.mem_filter.1 he).2
  case counters =>
    rw [State.modFn_counters, counters_flrEmptied] at he
    simpa [State.ownedBy] using (List.mem_filter.1 he).2

end

section
/-! PROOF. The PCIe link goes down (04 R75, Table 4.7): HALTED queues stay so through what the endpoint's fence does, and
the held events through a PF FLR. -/

namespace Sys2Proof.Machine

/-! ### Queues that are HALTED -/

/-- An entry that is listed stays through a write at another key, whatever the form of the map. -/
theorem Map.get_set_kept {α : Type} [DecidableEq α] (d : α) (m : Map α) {k j : Nat} (v : α) (listed : Map.get d m k ≠ d)
    (ne : k ≠ j) : Map.get d (Map.set d m j v) k = Map.get d m k := by
  induction m with
  | nil => exact absurd rfl listed
  | cons p r ih =>
    obtain ⟨i, x⟩ := p
    simp only [Map.get] at listed ih
    simp only [Map.set]
    by_cases here : i = k
    · split
      · split
        · rfl
        · simp only [Map.get]
          rw [if_neg (by omega), if_neg (by omega)]
      · rw [if_neg (by omega)]
        simp [Map.get, here]
    · rw [if_neg here] at listed
      split at listed
      · exact absurd rfl listed
      · have below : i < k := by omega
        split
        · split
          · rfl
          · simp only [Map.get]
            rw [if_neg (by omega), if_neg (by omega)]
        · split
          · split
            · simp [Map.get, here, Nat.not_lt.2 below.le]
            · simp only [Map.get]
              rw [if_neg (by omega), if_neg (by omega), if_neg here, if_neg (by omega)]
          · simp only [Map.get, if_neg here, if_neg (Nat.not_lt.2 below.le)]
            exact ih listed

/-- Queues that are HALTED in `s` are so in `t`. -/
def HaltKept (s t : State) : Prop := ∀ c q, (s.queue c q).halted = true → (t.queue c q).halted = true

theorem HaltKept.refl (s : State) : HaltKept s s := fun _ _ h => h

theorem HaltKept.trans {s t u : State} (h : HaltKept s t) (k : HaltKept t u) : HaltKept s u :=
  fun c q x => k c q (h c q x)

theorem HaltKept.foldl {α : Type} {f : State → α → State} (h : ∀ s a, HaltKept s (f s a)) (l : List α) :
    ∀ s, HaltKept s (l.foldl f s) := by
  induction l with
  | nil => exact HaltKept.refl
  | cons a r ih => exact fun s => (h s a).trans (ih _)

theorem HaltKept.of_only {ps : List Part} {s t : State} (h : Only ps s t) (hp : Part.queues ∉ ps := by decide) :
    HaltKept s t := fun c q x => by
  have same : t.queues = s.queues := h.2 .queues hp
  rwa [State.queue, same]

theorem halted_ne_init {x : QueueSt} (h : x.halted = true) : x ≠ QueueSt.init := fun e => by
  rw [e] at h
  exact absurd h (by decide)

theorem queue_modQueue_halted {c q : Nat} {g : QueueSt → QueueSt} {s : State} (h : (g (s.queue c q)).halted = true) :
    (s.modQueue c q g).queue c q = g (s.queue c q) := Map.get_set_self _ _ _ _ (halted_ne_init h)

theorem HaltKept.modQueue (c q : Nat) {g : QueueSt → QueueSt} (h : ∀ x : QueueSt, x.halted = true → (g x).halted = true)
    (s : State) : HaltKept s (s.modQueue c q g) := fun d r x => by
  by_cases same : d * 4 + r = c * 4 + q
  · have sameQueue (t : State) : t.queue d r = t.queue c q := congrArg (Map.get QueueSt.init t.queues) same
    have kept : (g (s.queue c q)).halted = true := h _ (sameQueue s ▸ x)
    rwa [sameQueue, queue_modQueue_halted kept]
  · have other : (s.modQueue c q g).queue d r = s.queue d r := Map.get_set_kept _ _ _ (halted_ne_init x) same
    rwa [other]

theorem HaltKept.writeRecord (i : QueueInfo) (bs : List Byte) (s : State) : HaltKept s (s.writeRecord i bs) := by
  have counted : Only memParts s (((s.writeDev (some i.ctx)
      (i.cqBase + (s.queue i.ctx i.queue).cqTail.toNat % i.depth * 32) bs).count i.ctx 1 1).count i.ctx
      (if hostBase ≤ i.cqBase + (s.queue i.ctx i.queue).cqTail.toNat % i.depth * 32 then 21 else 20) 32) :=
    (Only.writeDev _ _ bs s).trans (((Only.count _ _ _ _).mono (by decide)).trans ((Only.count _ _ _ _).mono (by decide)))
  have written := (HaltKept.of_only counted).trans
    (HaltKept.modQueue i.ctx i.queue (g := fun x => { x with cqTail := x.cqTail + 1 }) (fun _ h => h) _)
  unfold State.writeRecord
  dsimp only
  split
  · exact written.trans (HaltKept.of_only (Only.signal _ _ _))
  · exact written

theorem HaltKept.deliver (c q : Nat) (bs : List Byte) (s : State) : HaltKept s (s.deliver c q bs) := by
  unfold State.deliver
  split
  · exact HaltKept.refl s
  · split
    · exact HaltKept.modQueue c q (g := fun x => { x with held := x.held ++ [bs] }) (fun _ h => h) s
    · exact HaltKept.writeRecord _ bs s

theorem HaltKept.finish (w : Waybill) (status detail : Nat) (f : DoneFlags) (b : Bool) (s : State) :
    HaltKept s (s.finish w status detail f b) := by
  unfold State.finish
  refine (HaltKept.of_only (Only.poolFailed_pending w status s)).trans ?_
  refine (HaltKept.of_only (Only.setOutcomes w (outcomeOf status b) _)).trans ?_
  exact (HaltKept.of_only (Only.ofSched _ _)).trans ((HaltKept.of_only (Only.countDone _ _ _ _ _ _)).trans
    (HaltKept.deliver _ _ _ _))

theorem HaltKept.settle (n : Nat) : ∀ s, HaltKept s (State.settle n s) := by
  induction n with
  | zero => exact HaltKept.refl
  | succ n ih =>
    intro s
    unfold State.settle
    split
    · exact HaltKept.refl s
    · dsimp only
      split
      · exact (HaltKept.finish _ _ _ _ _ s).trans (ih _)
      · split
        · exact (HaltKept.finish _ _ _ _ _ s).trans (ih _)
        · exact (HaltKept.of_only (Only.ofSched s _)).trans (ih _)

theorem HaltKept.enterFence (b : Nat) (s : State) : HaltKept s (s.enterFence b) := by
  unfold State.enterFence
  split
  · exact HaltKept.refl s
  · refine (HaltKept.of_only (Only.raiseFence b s)).trans (HaltKept.trans ?_ (HaltKept.of_only (Only.postFence 4 b _)))
    exact (HaltKept.foldl (fun t w => HaltKept.finish w _ _ _ _ t) _ _).trans (HaltKept.settle _ _)

/-- Of the queues that are halted in turn, each ends HALTED. -/
theorem halted_foldl (l : List QueueInfo) : ∀ s : State, ∀ i ∈ l, ((l.foldl (fun (t : State) (i : QueueInfo) =>
    t.modQueue i.ctx i.queue fun x => { x with halted := true }) s).queue i.ctx i.queue).halted = true := by
  have halts (i : QueueInfo) (t : State) : HaltKept t (t.modQueue i.ctx i.queue fun x => { x with halted := true }) :=
    HaltKept.modQueue _ _ (fun _ _ => rfl) t
  induction l with
  | nil => exact fun _ i h => absurd h List.not_mem_nil
  | cons j r ih =>
    intro s i hi
    rcases List.mem_cons.1 hi with rfl | hi
    · refine HaltKept.foldl (fun t i => halts i t) r _ _ _ ?_
      rw [queue_modQueue_halted rfl]
    · exact ih _ i hi

/-! ### Events that are held -/

/-- The events of every function are held. -/
def State.allHeld (s : State) : Prop := ∀ f < 16, (s.fn f).evHold = true

theorem held_ne_init {x : FnState} (h : x.evHold = true) : x ≠ FnState.init := fun e => by
  rw [e] at h
  exact absurd h (by decide)

/-- A function whose events are held is changed as a canonical map would have it. -/
theorem evHold_modFn {f j : Nat} {g : FnState → FnState} {s : State} (h : (g (s.fn f)).evHold = true)
    (hj : (s.fn j).evHold = true) : ((s.modFn f g).fn j).evHold = true := by
  by_cases e : j = f
  · subst e
    rw [State.fn_modFn_self (held_ne_init h)]
    exact h
  · rwa [State.fn_modFn_ne (held_ne_init h) e]

theorem allHeld_modFn {f : Nat} {g : FnState → FnState} {s : State} (h : s.allHeld)
    (keeps : ∀ x : FnState, x.evHold = true → (g x).evHold = true) (lt : f < 16) : (s.modFn f g).allHeld :=
  fun _ hj => evHold_modFn (keeps _ (h f lt)) (h _ hj)

theorem allHeld_of_only {ps : List Part} {s t : State} (h : s.allHeld) (k : Only ps s t)
    (hp : Part.fns ∉ ps := by decide) : t.allHeld := fun f lt =>
  (regs_of_only k FnState.evHold (fun _ => rfl) hp f).trans (h f lt)

theorem evHold_holdEvents (l : List Nat) : ∀ s : State, ∀ j, (j ∈ l ∨ (s.fn j).evHold = true) →
    ((s.holdEvents true l).fn j).evHold = true := by
  induction l with
  | nil => exact fun _ _ h => h.resolve_left List.not_mem_nil
  | cons f r ih =>
    intro s j h
    refine ih _ j ?_
    by_cases e : j = f
    · subst e
      right
      rw [State.fn_modFn_self (held_ne_init rfl)]
    · exact h.imp (fun m => (List.mem_cons.1 m).resolve_left e) fun held => evHold_modFn rfl held

/-! ### The loss of the link -/

/-- What the loss of the link leaves (04 Table 4.7 steps 1 to 4). -/
theorem linkLost_leaves {s : State} (up : s.link.up = true) : s.linkLost.isFenced 0x50 = true ∧ s.linkLost.allHeld ∧
    ∀ i ∈ s.queueInfos, hostBase ≤ i.sqBase ∨ hostBase ≤ i.cqBase →
      (s.linkLost.queue i.ctx i.queue).halted = true := by
  have halted : s.linkHalted =
      ({ s with link := { s.link with up := false } }.haltHostQueues).holdEvents true (List.range 16) := if_pos up
  rw [linkLost_eq]
  refine ⟨by rw [isFenced_enterFence, if_pos rfl], fun f lt => ?held, fun i hi host => ?halted⟩
  case held =>
    refine (regs_of_only (Only.enterFence 0x50 _) FnState.evHold (fun _ => rfl) (by decide) f).trans ?_
    rw [halted]
    exact evHold_holdEvents _ _ f (.inl (List.mem_range.2 lt))
  case halted =>
    refine HaltKept.enterFence 0x50 _ _ _ ?_
    rw [halted]
    refine HaltKept.foldl (fun t f => HaltKept.of_only (Only.modFn f _ t)) _ _ _ _ ?_
    refine halted_foldl _ _ i (List.mem_filter.2 ⟨hi, ?_⟩)
    simpa using host

/-! ### What each cause adds -/

theorem ctxFn_of_only {ps : List Part} {s t : State} (h : Only ps s t) (hp : Part.fw ∉ ps := by decide) :
    t.ctxFn = s.ctxFn := by
  have fw : t.fw = s.fw := h.2 .fw hp
  funext c
  simp only [State.ctxFn, State.ctx, State.ctxs, State.recs, fw]

theorem Only.ofCounters (s : State) (m : Map Nat) : Only [.counters] s { s with counters := m } :=
  ⟨rfl, fun p hp => by cases p <;> first | rfl | exact fun _ => rfl | exact absurd (by decide) hp⟩

/-- After PF0's ring a PF FLR leaves the registers of every function. -/
theorem Only.pfFlr_dropRing (s : State) :
    Only [.counters, .pools, .mem, .events, .irq, .out, .intake, .sched] (s.dropRing 0) s.pfFlr := by
  refine Only.trans ?_ ((Only.ofSched _ _).mono (by decide))
  exact ((Only.ofCounters _ _).mono (by decide)).trans (((Only.unregister_pending _ _).mono (by decide)).trans
    ((Only.closeIntake _ _).mono (by decide)))

theorem Only.dropRing (s : State) : Only [.fns, .events] s (s.dropRing 0) := Only.modFn 0 _ s

theorem counters_pfFlr (s : State) : s.pfFlr.counters = s.counters.filter fun p => s.ctxFn (p.1 / 32) != some 0 :=
  ((Only.unregister_pending _ ((s.dropRing 0).clearCounters 0)).get .counters).trans
    (by rw [State.clearCounters, ctxFn_of_only (Only.dropRing s)]; rfl)

/-- No counter of PF0's contexts is left. -/
theorem counter_pfFlr {s : State} {c k : Nat} (hk : k < 32) (pf0 : s.ctxFn c = some 0) : s.pfFlr.counter c k = 0 := by
  by_contra listed
  have entry := Map.mem_of_get_ne listed
  rw [counters_pfFlr] at entry
  have own := (List.mem_filter.1 entry).2
  have key : (c * 32 + k) / 32 = c := by omega
  simp only [key, pf0, bne_self_eq_false, Bool.false_eq_true] at own

theorem evSet_pfFlr {s : State} (held : (s.fn 0).evHold = true) : (s.pfFlr.fn 0).evSet = false := by
  have ring : (s.dropRing 0).fn 0 =
      { s.fn 0 with evSet := false, evBase := 0, evEntries := 0, evTail := 0, evHead := 0, evPhase := true } :=
    State.fn_modFn_self (held_ne_init held)
  rw [regs_of_only (Only.pfFlr_dropRing s) FnState.evSet (fun _ => rfl), ring]

/-- What the cause of a link-down does besides it (04 R75). -/
def State.linkCause (cause : LinkDownCause) (s : State) : State :=
  match cause with
  | .pfFlr => s.pfFlr
  | .d3hot => s.modFn 0 fun x => { x with cfg := { x.cfg with d3hot := true } }
  | _ => s

theorem linkDown_down {cause : LinkDownCause} {s : State} (up : s.link.up = true) :
    exec (.linkDown cause) s = done s (s.linkLost.linkCause cause) := by
  change execLinkDown cause s = _
  unfold execLinkDown
  rw [if_pos up]
  cases cause <;> rfl

theorem Only.linkCause (cause : LinkDownCause) (s : State) :
    Only [.fns, .counters, .pools, .mem, .events, .irq, .out, .intake, .sched] s (s.linkCause cause) := by
  cases cause with
  | pfFlr => exact ((Only.dropRing s).mono (by decide)).trans ((Only.pfFlr_dropRing s).mono (by decide))
  | d3hot => exact (Only.modFn 0 _ s).mono (by decide)
  | dlDown => exact Only.refl _ s
  | hotReset => exact Only.refl _ s

theorem allHeld_dropRing {s : State} (h : s.allHeld) : (s.dropRing 0).allHeld := allHeld_modFn h (fun _ x => x) (by decide)

theorem allHeld_linkCause (cause : LinkDownCause) {s : State} (h : s.allHeld) : (s.linkCause cause).allHeld := by
  cases cause with
  | pfFlr => exact allHeld_of_only (allHeld_dropRing h) (Only.pfFlr_dropRing s)
  | d3hot => exact allHeld_modFn h (fun _ x => x) (by decide)
  | dlDown => exact h
  | hotReset => exact h

theorem d3hot_linkCause (s : State) : ((s.linkCause .d3hot).fn 0).cfg.d3hot = true := by
  have hot : (s.linkCause .d3hot).fn 0 = { s.fn 0 with cfg := { (s.fn 0).cfg with d3hot := true } } :=
    State.fn_modFn_self (fn_ne_init (fun x => x.cfg.d3hot) nofun)
  rw [hot]

end Sys2Proof.Machine
end

section
/-! PROOF. The PCIe link comes up again (04 Table 4.7 step 5): configuration registers at reset, the endpoint out of
FENCED, and the hold of a function that no HALTED queue keeps. -/

namespace Sys2Proof.Machine

/-! ### Changes of many functions -/

/-- The functions' registers are in canonical form. -/
abbrev State.fnsWf (s : State) : Prop := Map.wf FnState.init s.fns = true

theorem fnsWf_modFn {s : State} (f : Nat) (g : FnState → FnState) (wf : s.fnsWf) : (s.modFn f g).fnsWf :=
  Map.wf_set _ _ _ _ wf

theorem fnsWf_foldl {α : Type} {f : State → α → State} (h : ∀ s a, s.fnsWf → (f s a).fnsWf) (l : List α) :
    ∀ s : State, s.fnsWf → (l.foldl f s).fnsWf := by
  induction l with
  | nil => exact fun _ wf => wf
  | cons a r ih => exact fun s wf => ih _ (h s a wf)

theorem fnsWf_signal {s : State} (f v : Nat) (wf : s.fnsWf) : (s.signal f v).fnsWf := by
  unfold State.signal
  dsimp only
  split
  · exact wf
  · exact fnsWf_modFn _ _ wf

theorem fnsWf_post {s : State} (code payload : Nat) (ctx : Option Nat) (wf : s.fnsWf) :
    (s.post code payload ctx).fnsWf := by
  have posted := fnsWf_foldl (f := fun (t : State) f => t.postTo
      { code := BitVec.ofNat 16 code, payload := BitVec.ofNat 32 payload, stamp := s.now, ctx := ctx } f)
    (fun t f w => by unfold State.postTo; split <;> exact fnsWf_modFn _ _ w) (s.receivers code ctx) s wf
  unfold State.post
  dsimp only
  split
  · exact fnsWf_signal 0 1026 posted
  · exact posted

/-- One change made to each function of a list, where making it twice is making it once. -/
theorem fn_foldl_modFn {g : FnState → FnState} (idem : ∀ x, g (g x) = g x) (l : List Nat) : ∀ s : State, s.fnsWf →
    (l.foldl (fun (t : State) f => t.modFn f g) s).fnsWf ∧
    ∀ j, (l.foldl (fun (t : State) f => t.modFn f g) s).fn j = if j ∈ l then g (s.fn j) else s.fn j := by
  induction l with
  | nil => exact fun s wf => ⟨wf, fun j => (if_neg List.not_mem_nil).symm⟩
  | cons f r ih =>
    intro s wf
    obtain ⟨wf', fns⟩ := ih (s.modFn f g) (fnsWf_modFn f g wf)
    refine ⟨wf', fun j => (fns j).trans ?_⟩
    rw [State.fn_modFn _ _ _ _ wf]
    by_cases e : j = f
    · subst e
      simp [idem]
    · simp [e]

/-! ### The parts of a link-up -/

/-- A function's configuration registers at reset (04 Table 4.7 step 5). -/
def FnState.configReset (x : FnState) : FnState :=
  { x with msixEnable := false, msixFnMask := false, msixTable := [], msixOpen := [], bar0 := 0, bar2 := 0, bar4 := 0,
           cfg := CfgSt.init }

/-- The configuration registers of every function are at reset. -/
def State.configCleared (s : State) : State :=
  (List.range 16).foldl (fun (t : State) f => t.modFn f FnState.configReset) s

/-- Configuration state is at reset and the link is up. -/
def State.linkTrained (s : State) : State :=
  { s.configCleared with link := { s.configCleared.link with
    vfEnable := false, numVfs := 0, vfBar0 := 0, vfBar2 := 0, vfBar4 := 0, up := true } }

theorem linkTrained_eq (s : State) :
    s.linkTrained = { s.resetConfig with link := { s.resetConfig.link with up := true } } := rfl

/-- The endpoint has left FENCED too. -/
def State.endpointUp (s : State) : State := s.linkTrained.lowerFence 0x50

/-- LINK_UP has been posted. -/
def State.linkUpPosted (width rate : BitVec 4) (s : State) : State :=
  s.endpointUp.post 0x0D01 (width.toNat + rate.toNat * 16) none

theorem linkUp_taken {width rate : BitVec 4} {s : State} (down : s.link.up = false) (on : s.devState ≠ .off)
    (rail : Rail.vphyHs ∉ s.lostRails) : exec (.linkUp width rate) s =
    done s ((s.linkUpPosted width rate).holdEvents false (s.linkUpPosted width rate).nothingHalted) := by
  change execLinkUp width rate s = _
  unfold execLinkUp
  rw [if_neg (by simp [down, on, rail]), ← linkTrained_eq]
  rfl

theorem Only.linkTrained (s : State) : Only [.link, .fns, .events] s s.linkTrained := by
  have cleared : Only [.fns, .events] s s.configCleared :=
    Only.foldl _ (fun t f => Only.modFn f FnState.configReset t) (List.range 16) s
  have link : Only [.link] s.configCleared s.linkTrained := Only.ofLinkKeep s.configCleared _ rfl
  exact (cleared.mono (by decide)).trans (link.mono (by decide))

theorem configCleared_fns {s : State} (wf : s.fnsWf) : s.configCleared.fnsWf ∧
    ∀ j, s.configCleared.fn j = if j ∈ List.range 16 then (s.fn j).configReset else s.fn j :=
  fn_foldl_modFn (g := FnState.configReset) (fun _ => rfl) _ s wf

theorem linkTrained_fns (s : State) : s.linkTrained.fns = s.configCleared.fns := rfl

theorem fnsWf_linkTrained {s : State} (wf : s.fnsWf) : s.linkTrained.fnsWf := by
  rw [State.fnsWf, linkTrained_fns]
  exact (configCleared_fns wf).1

theorem fn_linkTrained {f : Nat} {s : State} (wf : s.fnsWf) (lt : f < 16) : s.linkTrained.fn f = (s.fn f).configReset := by
  rw [State.fn, linkTrained_fns]
  exact ((configCleared_fns wf).2 f).trans (if_pos (List.mem_range.2 lt))

/-- The endpoint is no station of the ring, so its line falls without the ring's monitor. -/
theorem Only.lowerEndpoint {s : State} (wf : Map.wf ({} : Fence) s.fences = true) :
    Only [.fences, .events, .irq, .out] s (s.lowerFence 0x50) := by
  cases on : s.isFenced 0x50 with
  | false =>
    rw [lowerFence_of_down on]
    exact Only.refl _ s
  | true =>
    rw [lowerFence_eq on, ringWakes_false wf (.inr (by decide))]
    exact Only.fenceFallen _ s

theorem fnsWf_lowerFence {s : State} (b : Nat) (wf : s.fnsWf) : (s.lowerFence b).fnsWf := by
  have fallen : (s.fenceFallen b).fnsWf := fnsWf_post _ _ _ wf
  cases on : s.isFenced b with
  | false => rwa [lowerFence_of_down on]
  | true =>
    rw [lowerFence_eq on]
    split <;> exact fallen

theorem queueInfos_of_only {ps : List Part} {s t : State} (h : Only ps s t) (hp : Part.fw ∉ ps := by decide) :
    t.queueInfos = s.queueInfos := by
  have fw : t.fw = s.fw := h.2 .fw hp
  simp only [State.queueInfos, State.recs, fw]

theorem nothingHalted_of_only {ps : List Part} {s t : State} (h : Only ps s t) (fw : Part.fw ∉ ps := by decide)
    (queues : Part.queues ∉ ps := by decide) : t.nothingHalted = s.nothingHalted := by
  have same : t.queues = s.queues := h.2 .queues queues
  simp only [State.nothingHalted, queueInfos_of_only h fw, ctxFn_of_only h fw, State.queue, same]

/-- The functions that hold no further are those that no HALTED queue concerns. -/
theorem mem_nothingHalted {s : State} {f : Nat} (lt : f < 16) : f ∈ s.nothingHalted ↔
    ¬ ∃ i ∈ s.queueInfos, (s.queue i.ctx i.queue).halted = true ∧ (f = 0 ∨ s.ctxFn i.ctx = some f) := by
  simp only [State.nothingHalted, List.mem_filter, List.mem_range, lt, true_and, List.all_eq_true, Bool.or_eq_true,
    Bool.not_eq_true', Bool.or_eq_false_iff, beq_eq_false_iff_ne, not_exists, not_and, not_or]
  refine forall₂_congr fun i _ => ?_
  cases (s.queue i.ctx i.queue).halted <;> simp

theorem Only.holdEvents (hold : Bool) (fs : List Nat) (s : State) : Only [.fns, .events] s (s.holdEvents hold fs) :=
  Only.foldl _ (fun t f => Only.modFn f _ t) fs s

theorem fn_holdEvents {s : State} (wf : s.fnsWf) (hold : Bool) (fs : List Nat) (f : Nat) : (s.holdEvents hold fs).fn f =
    if f ∈ fs then { s.fn f with evHold := hold } else s.fn f :=
  (fn_foldl_modFn (g := fun x => { x with evHold := hold }) (fun _ => rfl) fs s wf).2 f

section
variable (width rate : BitVec 4) {s : State} (canonical : s.canonical = true)
include canonical

theorem fences_linkTrained : Map.wf ({} : Fence) s.linkTrained.fences = true :=
  ((Only.linkTrained s).get .fences).symm ▸ canonical_fences canonical

theorem Only.endpointUp : Only [.fences, .events, .irq, .out] s.linkTrained s.endpointUp :=
  Only.lowerEndpoint (fences_linkTrained canonical)

theorem Only.linkUpPosted : Only [.fences, .events, .irq, .out] s.linkTrained (s.linkUpPosted width rate) :=
  (Only.endpointUp canonical).trans ((Only.post _ _ _ _).mono (by decide))

theorem fnsWf_linkUpPosted : (s.linkUpPosted width rate).fnsWf :=
  fnsWf_post _ _ _ (fnsWf_lowerFence _ (fnsWf_linkTrained (canonical_fns canonical)))

theorem isFenced_linkUpPosted : (s.linkUpPosted width rate).isFenced 0x50 = false := by
  rw [State.linkUpPosted, isFenced_of_only (Only.post _ _ _ _) (by decide), State.endpointUp, State.isFenced,
    fenceOf_lowerFence _ _ (fences_linkTrained canonical), if_pos rfl]

theorem Only.linkUpWhole : Only [.link, .fns, .events, .irq, .fences, .out] s (s.linkUpPosted width rate) :=
  ((Only.linkTrained s).mono (by decide)).trans ((Only.linkUpPosted width rate canonical).mono (by decide))

/-- A function's register that is none of the events, as the link has come up: at its reset value or as it was. -/
theorem fn_linkUpPosted {f : Nat} (lt : f < 16) {α : Type} (g : FnState → α) (reg : ∀ x : FnState, g x.regs = g x) :
    g ((s.linkUpPosted width rate).fn f) = g (s.fn f).configReset :=
  (regs_of_only (Only.linkUpPosted width rate canonical) g reg (by decide) f).trans
    (congrArg g (fn_linkTrained (canonical_fns canonical) lt))

/-- So too once events are released, but for the hold. -/
theorem fn_linkUpHeld {f : Nat} (lt : f < 16) (hold : Bool) (fs : List Nat) {α : Type} (g : FnState → α)
    (reg : ∀ x : FnState, g x.regs = g x) (free : ∀ x : FnState, g { x with evHold := hold } = g x) :
    g (((s.linkUpPosted width rate).holdEvents hold fs).fn f) = g (s.fn f).configReset := by
  rw [fn_holdEvents (fnsWf_linkUpPosted width rate canonical), ← fn_linkUpPosted width rate canonical lt g reg]
  split
  · exact free _
  · rfl

theorem evHold_linkUpHeld {f : Nat} (lt : f < 16) (fs : List Nat) :
    (((s.linkUpPosted width rate).holdEvents false fs).fn f).evHold = if f ∈ fs then false else (s.fn f).evHold := by
  rw [fn_holdEvents (fnsWf_linkUpPosted width rate canonical)]
  split
  · rfl
  · exact fn_linkUpPosted width rate canonical lt FnState.evHold fun _ => rfl

/-- A field of the host links other than QSPI_STAT, as the link has come up. -/
theorem link_linkUpHeld (hold : Bool) (fs : List Nat) {α : Type} (g : LinkSt → α)
    (free : ∀ x : LinkSt, g { x with qspiStat := 0 } = g x) :
    g ((s.linkUpPosted width rate).holdEvents hold fs).link = g s.linkTrained.link := by
  have link : { (s.linkUpPosted width rate).link with qspiStat := 0 } = { s.linkTrained.link with qspiStat := 0 } :=
    (Only.linkUpPosted width rate canonical).get .link
  rw [link_holdEvents, ← free, link, free]

end

end Sys2Proof.Machine

open Sys2Proof Sys2Proof.Machine

/-- Settles O16: the loss by `linkLost_leaves` and what each cause adds to it; the return by the reset of the
configuration registers, the endpoint's line and the functions that `mem_nothingHalted` picks. -/
theorem linkDownHaltsAndFences : Obligations.LinkDownHaltsAndFences := by
  refine ⟨fun cause s up => ?down, fun width rate s canonical down on rail => ?up⟩
  case down =>
    obtain ⟨fenced, held, halted⟩ := linkLost_leaves up
    have lost := Only.linkLost s
    have caused := Only.linkCause cause s.linkLost
    have whole := (lost.mono (qs := .link :: .fns :: .intake :: fenceParts) (by decide)).trans (caused.mono (by decide))
    rw [linkDown_down up]
    refine goes_done whole ⟨(up_of_only caused).trans (up_linkLost s), (isFenced_of_only caused (by decide) _).trans fenced,
      allHeld_linkCause cause held, fun i hi host => HaltKept.of_only caused (by decide) _ _ (halted i hi host), ?_, ?_,
      (caused.get .devState).trans (devState_linkLost s), whole.get .time, whole.get .loops, whole.get .ports,
      whole.get .cans, ?_⟩
    · rintro rfl
      exact ⟨evSet_pfFlr (held 0 (by decide)), fun c k hk pf0 =>
        counter_pfFlr hk ((congrFun (ctxFn_of_only lost) c).trans pf0)⟩
    · rintro rfl
      exact d3hot_linkCause _
    · exact (stop_of_only whole (by decide)).1
  case up =>
    have posted := Only.linkUpWhole width rate canonical
    have held := Only.holdEvents false s.nothingHalted (s.linkUpPosted width rate)
    have whole := posted.trans (held.mono (by decide))
    have reset {α : Type} {f : Nat} (lt : f < 16) (g : FnState → α) :=
      fn_linkUpHeld width rate canonical lt false s.nothingHalted g
    have link {α : Type} (g : LinkSt → α) := link_linkUpHeld width rate canonical false s.nothingHalted g
    rw [linkUp_taken down on rail, nothingHalted_of_only posted]
    refine goes_done whole ⟨link LinkSt.up fun _ => rfl,
      (isFenced_of_only held (by decide) _).trans (isFenced_linkUpPosted width rate canonical),
      link LinkSt.vfEnable fun _ => rfl, link LinkSt.numVfs fun _ => rfl, fun f lt => ⟨?_, ?_, ?_, ?_, ?_, ?_⟩,
      ⟨s.endpointUp, rfl, fun f lt => ?_⟩, whole⟩
    · exact reset lt FnState.msixEnable (fun _ => rfl) fun _ => rfl
    · exact reset lt FnState.bar0 (fun _ => rfl) fun _ => rfl
    · exact reset lt FnState.bar2 (fun _ => rfl) fun _ => rfl
    · exact reset lt FnState.bar4 (fun _ => rfl) fun _ => rfl
    · exact reset lt FnState.cfg (fun _ => rfl) fun _ => rfl
    · rw [evHold_linkUpHeld width rate canonical lt]
      by_cases waits : f ∈ s.nothingHalted
      · rw [if_pos waits, if_neg ((mem_nothingHalted lt).1 waits)]
      · rw [if_neg waits, if_pos (by_contra fun none => waits ((mem_nothingHalted lt).2 none))]
    · rw [regs_of_only (Only.endpointUp canonical) FnState.evHold (fun _ => rfl),
        fn_linkTrained (canonical_fns canonical) lt]
      rfl

end

section
/-! PROOF. A memory at rest, with no granule pending and no word that has two stuck bits (08 R160, R164, R396): a read
leaves its bytes and which of its words are bad, and a write of one access stores its bytes. -/

namespace Sys2Proof.Machine

/-! ### Memories at rest -/

/-- Every access to the memory has a determined outcome: no granule is pending, and no word has two stuck bits. -/
structure MemReady (m : Mem) (s : State) : Prop where
  canonical : s.mem.canonical = true
  settled : s.mem.pendGran = []
  single : ∀ w, Map.get 0 (s.space m).hard w ≤ 1

/-- The word is uncorrectable or poisoned. -/
def Ecc.bad : Ecc → Bool
  | .ue | .poison => true
  | .clean | .corr => false

/-- Word `w` of a memory is uncorrectable or poisoned. -/
def State.badWord (s : State) (m : Mem) (w : Nat) : Bool := (Map.get Ecc.clean (s.space m).marks w).bad

theorem Ecc.bad_iff (e : Ecc) : e.bad = true ↔ e = .ue ∨ e = .poison := by cases e <;> simp [Ecc.bad]

section
variable {m : Mem} {s t : State}

theorem MemReady.after (h : MemReady m s) (keeps : KeepsMem s t) (pend : t.mem.pendGran = s.mem.pendGran)
    (hard : (t.space m).hard = (s.space m).hard) : MemReady m t :=
  ⟨keeps.1 h.canonical, pend.trans h.settled, fun w => by rw [hard]; exact h.single w⟩

theorem MemReady.marks (h : MemReady m s) : Map.wf Ecc.clean (s.space m).marks = true :=
  ((MemSpace.canonical_iff _).1 (canonical_space h.canonical m)).2.1

theorem MemReady.cells (h : MemReady m s) : Memory.wf (s.space m).cells = true :=
  ((MemSpace.canonical_iff _).1 (canonical_space h.canonical m)).1

/-- What keeps a memory at rest, its bytes and which of its words are bad. -/
def ReadKept (m : Mem) (s t : State) : Prop := MemReady m s →
  MemReady m t ∧ (t.space m).cells = (s.space m).cells ∧ ∀ w, t.badWord m w = s.badWord m w

theorem ReadKept.refl (m : Mem) (s : State) : ReadKept m s s := fun h => ⟨h, rfl, fun _ => rfl⟩

theorem ReadKept.trans {u : State} (h : ReadKept m s t) (k : ReadKept m t u) : ReadKept m s u := fun ready => by
  obtain ⟨ready', cells, bad⟩ := h ready
  obtain ⟨ready'', cells', bad'⟩ := k ready'
  exact ⟨ready'', cells'.trans cells, fun w => (bad' w).trans (bad w)⟩

theorem ReadKept.of_space (keeps : KeepsMem s t) (pend : t.mem.pendGran = s.mem.pendGran)
    (space : t.space m = s.space m) : ReadKept m s t := fun ready =>
  ⟨ready.after keeps pend (by rw [space]), by rw [space], fun w => by rw [State.badWord, State.badWord, space]⟩

theorem ReadKept.of_only {ps : List Part} (h : Only ps s t) (hp : Part.mem ∉ ps := by decide) : ReadKept m s t :=
  .of_space (.of_only h hp) (congrArg MemSt.pendGran (h.2 .mem hp)) (space_of_only h hp m)

theorem ReadKept.foldl {α : Type} {f : State → α → State} (h : ∀ s a, ReadKept m s (f s a)) (l : List α) :
    ∀ s, ReadKept m s (l.foldl f s) := by
  induction l with
  | nil => exact ReadKept.refl m
  | cons a r ih => exact fun s => (h s a).trans (ih _)

theorem ReadKept.foldl_snd {α β : Type} {f : α × State → β → α × State} (h : ∀ x b, ReadKept m x.2 (f x b).2)
    (l : List β) : ∀ x, ReadKept m x.2 (l.foldl f x).2 := by
  induction l with
  | nil => exact fun x => ReadKept.refl m x.2
  | cons b r ih => exact fun x => (h x b).trans (ih _)

end

/-! ### What pends -/

section
variable (m : Mem) (s : State)

theorem pendGran_setSpace (p : MemSpace) : (s.setSpace m p).mem.pendGran = s.mem.pendGran := by cases m <;> rfl

theorem pendGran_draw : s.draw.2.mem.pendGran = s.mem.pendGran := rfl

theorem pendGran_reMark (w : Nat) (b : Bool) : (s.reMark m w b).mem.pendGran = s.mem.pendGran := by
  unfold State.reMark State.setMark State.setWord
  dsimp only
  repeat' split
  all_goals simp only [pendGran_setSpace, pendGran_draw]

theorem pendGran_memUe (a : Nat) : (s.memUe m a).mem.pendGran = s.mem.pendGran := by
  unfold State.memUe State.storeUe
  split
  · exact congrArg MemSt.pendGran ((Only.post _ _ _ _).get .mem)
  · refine (congrArg MemSt.pendGran ((Only.post _ _ _ _).get .mem)).trans
      ((congrArg MemSt.pendGran ((Only.record _ _ _ _ _).get .mem)).trans ?_)
    split <;> rfl

theorem pendGran_memCorr (who : Option Nat) (a : Nat) : (s.memCorr m who a).mem.pendGran = s.mem.pendGran := by
  unfold State.memCorr
  split
  · rfl
  · cases who with
    | none => dsimp only; split <;> rfl
    | some c =>
      refine (congrArg MemSt.pendGran ((Only.count c 22 1 _).get .mem)).trans ?_
      split <;> rfl

theorem pendGran_cleanRange (a n : Nat) : (s.cleanRange m a n).mem.pendGran = s.mem.pendGran :=
  (foldl_keeps (fun t : State => t.mem.pendGran) (fun t (h : Nat × Nat) => pendGran_reMark m t h.1 false) _ _).trans
    (pendGran_setSpace m s _)

theorem hard_cleanRange (a n : Nat) : ((s.cleanRange m a n).space m).hard = (s.space m).hard := by
  refine (foldl_keeps (fun t : State => (t.space m).hard) (fun t (h : Nat × Nat) => hard_reMark m h.1 false t) _ _).trans ?_
  rw [space_setSpace, if_pos rfl]

end

/-! ### Words that are read, or written in part -/

section
variable {m : Mem} {s : State}

/-- One stuck bit at most is corrected at every read or leaves poison poisoned (08 R164). -/
theorem reMark_ready (h : MemReady m s) (w : Nat) (b : Bool) : s.reMark m w b =
    s.setMark m w (if b then .poison else if Map.get 0 (s.space m).hard w = 0 then .clean else .corr) := by
  have one := h.single w
  unfold State.reMark
  dsimp only
  split
  · cases b <;> simp
  · rw [if_pos (by omega)]

theorem ReadKept.reMark {w : Nat} {b : Bool} (h : s.badWord m w = b) : ReadKept m s (s.reMark m w b) := fun ready => by
  refine ⟨ready.after (KeepsMem.reMark m w b s) (pendGran_reMark m s w b) (hard_reMark m w b s), ?_, fun v => ?_⟩
  · rw [reMark_ready ready, State.cells_setMark]
  · rw [reMark_ready ready, State.badWord, State.setMark, space_setSpace, if_pos rfl, Map.get_set _ _ _ _ _ ready.marks]
    split
    · next here =>
        rw [here, h]
        cases b
        · rw [if_neg Bool.false_ne_true]
          split <;> rfl
        · rfl
    · rfl

theorem ReadKept.memUe (a : Nat) : ReadKept m s (s.memUe m a) :=
  .of_space (.memUe m a s) (pendGran_memUe m s a) (space_memUe m m a s)

theorem ReadKept.memCorr (who : Option Nat) (a : Nat) : ReadKept m s (s.memCorr m who a) :=
  .of_space (.memCorr m who a s) (pendGran_memCorr m s who a) (space_memCorr m m who a s)

theorem badWord_of_get {w : Nat} {e : Ecc} (h : Map.get Ecc.clean (s.space m).marks w = e) : s.badWord m w = e.bad :=
  congrArg Ecc.bad h

theorem ReadKept.readWord (who : Option Nat) (w : Nat) : ReadKept m s (s.readWord m who w).2 := by
  unfold State.readWord
  dsimp only
  split
  · exact .refl m s
  · next e => exact (ReadKept.reMark (b := false) (badWord_of_get e)).trans (.memCorr who _)
  · next e => exact (ReadKept.reMark (b := true) (badWord_of_get e)).trans (.memUe _)
  · exact .refl m s

theorem ReadKept.partialWord (who : Option Nat) (w : Nat) : ReadKept m s (s.partialWord m who false w).2 := by
  unfold State.partialWord
  split
  · exact .refl m s
  · next e => exact (ReadKept.reMark (b := false) (badWord_of_get e)).trans (.memCorr who _)
  · next e => exact (ReadKept.reMark (b := true) (badWord_of_get e)).trans (.memUe _)
  · exact .refl m s

theorem Seen.ok_add_eq (x : Seen) (a : Nat) (e : Ecc) : (x.add a e).ok = (x.ok && !e.bad) := by
  cases h : e.bad with
  | true => rw [Seen.ok_add_bad x a ((Ecc.bad_iff e).1 h)]; simp
  | false => cases e <;> simp_all [Ecc.bad, Seen.add, Seen.ok]

/-- What a run of reads meets is what was bad before it. -/
theorem readWords_ready (who : Option Nat) (l : List Nat) : ∀ (s : State) (x : Seen), MemReady m s →
    ReadKept m s (State.readWords m who l s x).2 ∧
    (State.readWords m who l s x).1.ok = (x.ok && !l.any (s.badWord m)) := by
  induction l with
  | nil => exact fun s x _ => ⟨.refl m s, by simp [State.readWords]⟩
  | cons w r ih =>
    intro s x ready
    have step : ReadKept m s (s.readWord m who w).2 := .readWord who w
    obtain ⟨ready', -, bad⟩ := step ready
    obtain ⟨rest, ok⟩ := ih _ (x.add (w * 8) (Map.get Ecc.clean (s.space m).marks w)) ready'
    rw [readWords_cons]
    refine ⟨step.trans rest, ?_⟩
    rw [ok, Seen.ok_add_eq, funext bad, List.any_cons, Bool.not_or, Bool.and_assoc]
    rfl

/-- A bad word of a byte range is one in which a byte of the range lies. -/
theorem any_bad_markedIn (a n : Nat) : (s.markedIn m a n).any (s.badWord m) = true ↔
    ∃ j, a ≤ j ∧ j < a + n ∧ s.badWord m (j / 8) = true := by
  rw [List.any_eq_true]
  constructor
  · rintro ⟨w, listed, bad⟩
    unfold State.markedIn at listed
    split at listed
    · exact absurd listed List.not_mem_nil
    · obtain ⟨⟨k, e⟩, hp, rfl⟩ := List.mem_map.1 listed
      have range := (List.mem_filter.1 hp).2
      simp only [Bool.and_eq_true, decide_eq_true_eq] at range bad ⊢
      refine ⟨max a (8 * k), by omega, by omega, ?_⟩
      rwa [show max a (8 * k) / 8 = k by omega]
  · rintro ⟨j, lo, hi, bad⟩
    refine ⟨j / 8, mem_markedIn lo hi fun clean => ?_, bad⟩
    rw [badWord_of_get clean] at bad
    exact Bool.false_ne_true bad

/-- A read gives the bytes that are held, and meets the bad words in which they lie. -/
theorem readMem_ready (who : Option Nat) (a n : Nat) (ready : MemReady m s) :
    (s.readMem m who a n).1 = (s.space m).cells.bytes a n ∧ ReadKept m s (s.readMem m who a n).2.2 ∧
    ((s.readMem m who a n).2.1.ok = false ↔ ∃ j, a ≤ j ∧ j < a + n ∧ s.badWord m (j / 8) = true) := by
  obtain ⟨kept, ok⟩ := readWords_ready who (s.markedIn m a n) s {} ready
  unfold State.readMem
  dsimp only
  rw [touch_none ready.settled]
  refine ⟨by rw [(kept ready).2.1], kept, ?_⟩
  rw [ok, ← any_bad_markedIn]
  simp [Seen.ok]

/-- A write as one access stores its bytes and leaves the memory at rest. -/
theorem writeMem_ready (who : Option Nat) (a : Nat) (bs : List Byte) (ready : MemReady m s) :
    MemReady m (s.writeMem m who false a bs).2 ∧
    ((s.writeMem m who false a bs).2.space m).cells = (s.space m).cells.store a bs := by
  unfold State.writeMem
  dsimp only
  rw [touch_none ready.settled]
  have words := ReadKept.foldl_snd (m := m) (f := fun (acc : Option Nat × State) w =>
      (acc.1.or (if (acc.2.partialWord m who false w).1 then some (w * 8) else none), (acc.2.partialWord m who false w).2))
    (fun x w => .partialWord who w) (partialWords a bs.length) (none, s)
  generalize (partialWords a bs.length).foldl _ (none, s) = x at words
  obtain ⟨ready', cells, -⟩ := words ready
  have stored : MemReady m (x.2.setSpace m { x.2.space m with cells := (x.2.space m).cells.store a bs }) :=
    ready'.after (.storeBytes m a bs x.2) (pendGran_setSpace m x.2 _) (by rw [space_setSpace, if_pos rfl])
  rw [if_neg Bool.false_ne_true]
  refine ⟨stored.after (.cleanRange m a _ _) (pendGran_cleanRange m _ a _) (hard_cleanRange m _ a _), ?_⟩
  rw [cells_cleanRange fun w => (stored.single w).trans (by decide), space_setSpace, if_pos rfl, cells]

end

end Sys2Proof.Machine

end

section
/-! PROOF. The host's accesses to LPDDR5 (04 R72, R81; 08 R168): a write within one line, and runs of bytes that cross
lines. -/

namespace Sys2Proof.Machine

/-! ### What a host write may change -/

theorem Only.scramble (p : Pool) (x : PoolPart) (s : State) : Only [.free, .pools] s (s.scramble p x) := by
  unfold State.scramble
  dsimp only
  split
  · exact ((Only.draw s).mono (by decide)).trans ((Only.ofPools _ _).mono (by decide))
  · exact ((Only.draw s).mono (by decide)).trans ((Only.ofPools _ _).mono (by decide))
  · exact Only.refl _ s

theorem Only.poolWritten (u n : Nat) (s : State) : Only [.free, .pools] s (s.poolWritten u n) :=
  Only.foldl _ (fun t p => Only.foldl _ (fun t x => Only.scramble p x t) _ t) _ s

/-- Reports of bad words post events only. -/
theorem Only.reportWords (code : Nat) (l : List Nat) (s : State) : Only [.events, .irq, .out] s
    (l.foldl (fun (t : State) w => t.post code (lineOf .lp (w * 8)) (t.shareOwner true (w * 8))) s) :=
  Only.foldl _ (fun _ _ => Only.post _ _ _ _) l s

theorem Only.hostWriteLp (a : Nat) (data : List Byte) (s : State) : Only (.pools :: memParts) s (s.hostWriteLp a data) :=
  ((Only.touch .lp a _ s).mono (by decide)).trans <| ((Only.writeMem .lp none false a data _).mono (by decide)).trans <|
    ((Only.reportWords 0x0303 _ _).mono (by decide)).trans ((Only.poolWritten a _ _).mono (by decide))

theorem lpShut_of_only {ps : List Part} {s t : State} (h : Only ps s t) (hp : Part.fences ∉ ps := by decide) (u : Nat) :
    t.lpShut u = s.lpShut u := isFenced_of_only h hp _

theorem MemReady.of_only {m : Mem} {ps : List Part} {s t : State} (ready : MemReady m s) (h : Only ps s t)
    (hp : Part.mem ∉ ps := by decide) : MemReady m t := (ReadKept.of_only h hp ready).1

/-- A host write within one line stores its bytes and leaves LPDDR5 at rest. -/
theorem hostWriteLp_ready (a : Nat) (data : List Byte) {s : State} (ready : MemReady .lp s) :
    MemReady .lp (s.hostWriteLp a data) ∧ ((s.hostWriteLp a data).space .lp).cells = (s.space .lp).cells.store a data := by
  unfold State.hostWriteLp
  dsimp only
  rw [touch_none ready.settled]
  obtain ⟨ready', cells⟩ := writeMem_ready none a data ready
  have reported := (ReadKept.of_only (m := .lp) (Only.reportWords 0x0303 ((s.badIn a data.length).filter fun w =>
    (partialWords a data.length).contains w) (s.writeMem .lp none false a data).2)).trans
      (.of_only (Only.poolWritten a data.length _))
  obtain ⟨ready'', same, -⟩ := reported ready'
  exact ⟨ready'', same.trans cells⟩

/-- Byte `j` of LPDDR5. -/
def State.lpByte (s : State) (j : Nat) : Byte := Map.get 0 (s.space .lp).cells j

theorem lpByte_hostWriteLp (a : Nat) (data : List Byte) {s : State} (ready : MemReady .lp s) (j : Nat) :
    (s.hostWriteLp a data).lpByte j =
      if a ≤ j ∧ j < a + data.length then data.getD (j - a) 0 else s.lpByte j := by
  rw [State.lpByte, (hostWriteLp_ready a data ready).2]
  exact Map.get_store data _ a j ready.cells

/-! ### Bytes that cross lines -/

/-- A line lies on one channel. -/
theorem lpShut_line (s : State) {u j : Nat} (h : j / 64 = u / 64) : s.lpShut j = s.lpShut u := by
  rw [State.lpShut, State.lpShut, lpChannel, lpChannel, h]

theorem lineCuts_nil (n u : Nat) : lineCuts n u [] = [] := by cases n <;> rfl

theorem lineCuts_cons (n u : Nat) {bs : List Byte} (h : bs ≠ []) : lineCuts (n + 1) u bs =
    (u, bs.take (64 - u % 64)) :: lineCuts n (u + (64 - u % 64)) (bs.drop (64 - u % 64)) := by
  rw [lineCuts, if_neg (by simpa using h)]

/-- Bytes within one line are one piece. -/
theorem lineCuts_line (n : Nat) {u : Nat} {bs : List Byte} (h : bs ≠ []) (line : u % 64 + bs.length ≤ 64) :
    lineCuts (n + 1) u bs = [(u, bs)] := by
  rw [lineCuts_cons n u h, List.take_of_length_le (by omega), List.drop_of_length_le (by omega), lineCuts_nil]

/-- One piece of a host write: a FENCED channel takes nothing (log 44). -/
def State.hostPiece (t : State) (p : Nat × List Byte) : State := if t.lpShut p.1 then t else t.hostWriteLp p.1 p.2

theorem Only.hostPiece (t : State) (p : Nat × List Byte) : Only (.pools :: memParts) t (t.hostPiece p) :=
  Only.ite (fun _ => Only.refl _ t) fun _ => Only.hostWriteLp _ _ t

theorem hostPiece_ready (p : Nat × List Byte) {t : State} (ready : MemReady .lp t) : MemReady .lp (t.hostPiece p) := by
  unfold State.hostPiece
  split
  · exact ready
  · exact (hostWriteLp_ready p.1 p.2 ready).1

theorem lpByte_hostPiece {u : Nat} {bs : List Byte} {t : State} (ready : MemReady .lp t)
    (line : u % 64 + bs.length ≤ 64) (j : Nat) : (t.hostPiece (u, bs)).lpByte j =
      if u ≤ j ∧ j < u + bs.length ∧ t.lpShut j = false then bs.getD (j - u) 0 else t.lpByte j := by
  by_cases inside : u ≤ j ∧ j < u + bs.length
  · have same : t.lpShut j = t.lpShut u := lpShut_line t (by omega)
    unfold State.hostPiece
    cases shut : t.lpShut u
    · rw [if_neg Bool.false_ne_true, lpByte_hostWriteLp u bs ready, if_pos inside, if_pos ⟨inside.1, inside.2, same.trans shut⟩]
    · rw [if_pos rfl, if_neg fun h => by rw [same, shut] at h; exact absurd h.2.2 (by decide)]
  · rw [if_neg fun h => inside ⟨h.1, h.2.1⟩]
    unfold State.hostPiece
    split
    · rfl
    · rw [lpByte_hostWriteLp u bs ready, if_neg inside]

theorem hostPieces_ready (l : List (Nat × List Byte)) : ∀ {s : State}, MemReady .lp s →
    MemReady .lp (l.foldl State.hostPiece s) := by
  induction l with
  | nil => exact id
  | cons p r ih => exact fun ready => ih (hostPiece_ready p ready)

/-- The pieces of a write store the bytes that lie on channels which are not FENCED. -/
theorem lpByte_hostPieces (j : Nat) (n : Nat) : ∀ (u : Nat) (bs : List Byte) (s : State), MemReady .lp s →
    bs.length + u % 64 ≤ 64 * n → ((lineCuts n u bs).foldl State.hostPiece s).lpByte j =
      if u ≤ j ∧ j < u + bs.length ∧ s.lpShut j = false then bs.getD (j - u) 0 else s.lpByte j := by
  induction n with
  | zero =>
    intro u bs s _ fuel
    rw [if_neg (by omega)]
    rfl
  | succ n ih =>
    intro u bs s ready fuel
    by_cases empty : bs = []
    · subst empty
      rw [lineCuts_nil, if_neg (by rw [List.length_nil]; omega)]
      rfl
    · have size : (bs.take (64 - u % 64)).length = min (64 - u % 64) bs.length := List.length_take
      have rest : (bs.drop (64 - u % 64)).length = bs.length - (64 - u % 64) := List.length_drop
      rw [lineCuts_cons n u empty, List.foldl_cons, ih _ _ _ (hostPiece_ready _ ready) (by omega),
        lpByte_hostPiece ready (by omega), lpShut_of_only (Only.hostPiece s _), size, rest]
      cases s.lpShut j
      · simp only [and_true, List.getD_eq_getElem?_getD, List.getElem?_take, List.getElem?_drop]
        by_cases inside : u ≤ j ∧ j < u + bs.length
        · rw [if_pos inside]
          by_cases later : u + (64 - u % 64) ≤ j
          · rw [if_pos (by omega), show 64 - u % 64 + (j - (u + (64 - u % 64))) = j - u by omega]
          · rw [if_neg (by omega), if_pos (by omega), if_pos (by omega)]
        · rw [if_neg inside, if_neg (by omega), if_neg (by omega)]
      · simp

theorem Only.hostWriteRun (a : Nat) (data : List Byte) (s : State) : Only (.pools :: memParts) s (s.hostWriteRun a data) :=
  Only.foldl State.hostPiece Only.hostPiece _ s

theorem hostWriteRun_ready (a : Nat) (data : List Byte) {s : State} (ready : MemReady .lp s) :
    MemReady .lp (s.hostWriteRun a data) := hostPieces_ready _ ready

/-- A host write stores the bytes that lie on channels which are not FENCED. -/
theorem lpByte_hostWriteRun (a : Nat) (data : List Byte) {s : State} (ready : MemReady .lp s) (j : Nat) :
    (s.hostWriteRun a data).lpByte j =
      if a ≤ j ∧ j < a + data.length ∧ s.lpShut j = false then data.getD (j - a) 0 else s.lpByte j :=
  lpByte_hostPieces j _ a data s ready (by omega)

/-- A host write within one line whose channel is not FENCED is one access. -/
theorem hostWriteRun_line {a : Nat} {data : List Byte} {s : State} (h : data ≠ []) (line : a % 64 + data.length ≤ 64)
    (open_ : s.lpShut a = false) : s.hostWriteRun a data = s.hostWriteLp a data := by
  unfold State.hostWriteRun
  rw [lineCuts_line _ h line, List.foldl_cons, List.foldl_nil, if_neg (by rw [open_]; decide)]

/-! ### A read -/

theorem bytes_append (m : Map Byte) (a k n : Nat) : m.bytes a (k + n) = m.bytes a k ++ m.bytes (a + k) n := by
  simp only [Map.bytes, rangeFrom, List.range_add, List.map_append, List.map_map]
  congr 1
  exact List.map_congr_left fun i _ => congrArg (Map.get 0 m) (Nat.add_assoc a k i).symm

theorem length_bytes (m : Map Byte) (a n : Nat) : (m.bytes a n).length = n := by simp [Map.bytes, rangeFrom]

theorem getD_bytes (m : Map Byte) (a : Nat) {n i : Nat} (h : i < n) : (m.bytes a n).getD i 0 = Map.get 0 m (a + i) := by
  simp [Map.bytes, rangeFrom, h]

/-- A bad word lies among `n` bytes from offset `a`. -/
def State.lpBad (s : State) (a n : Nat) : Prop := ∃ j, a ≤ j ∧ j < a + n ∧ s.badWord .lp (j / 8) = true

theorem lpBad_add (s : State) (a k n : Nat) : s.lpBad a (k + n) ↔ s.lpBad a k ∨ s.lpBad (a + k) n := by
  constructor
  · rintro ⟨j, lo, hi, bad⟩
    by_cases h : j < a + k
    · exact .inl ⟨j, lo, h, bad⟩
    · exact .inr ⟨j, by omega, by omega, bad⟩
  · rintro (⟨j, lo, hi, bad⟩ | ⟨j, lo, hi, bad⟩) <;> exact ⟨j, by omega, by omega, bad⟩

theorem lpBad_zero (s : State) (a : Nat) : ¬ s.lpBad a 0 := fun ⟨_, lo, hi, _⟩ => by omega

theorem lpBad_of_kept {s t : State} (ready : MemReady .lp s) (kept : ReadKept .lp s t) (a n : Nat) :
    t.lpBad a n ↔ s.lpBad a n := by
  rw [State.lpBad, State.lpBad, funext (kept ready).2.2]

/-- One piece of a host read: what a FENCED channel gives is a free value (log 44). -/
def State.hostReadPiece (acc : List Byte × Bool × State) (p : Nat × List Byte) : List Byte × Bool × State :=
  if acc.2.2.lpShut p.1 then (acc.1 ++ le p.2.length acc.2.2.draw.1, acc.2.1, acc.2.2.draw.2)
  else (acc.1 ++ (acc.2.2.readMem .lp none p.1 p.2.length).1,
    acc.2.1 || !(acc.2.2.readMem .lp none p.1 p.2.length).2.1.ok, (acc.2.2.readMem .lp none p.1 p.2.length).2.2)

/-- A read that gives the `k` bytes from offset `u` and says whether a word of theirs is bad, after `bs` and `ep`. -/
def Gives (u k : Nat) (bs : List Byte) (ep : Bool) (s : State) (x : List Byte × Bool × State) : Prop :=
  x.1 = bs ++ (s.space .lp).cells.bytes u k ∧ (x.2.1 = true ↔ ep = true ∨ s.lpBad u k) ∧ ReadKept .lp s x.2.2 ∧
  Only memParts s x.2.2

theorem Gives.nothing (u : Nat) (bs : List Byte) (ep : Bool) (s : State) : Gives u 0 bs ep s (bs, ep, s) :=
  ⟨by simp [Map.bytes, rangeFrom], by simp [lpBad_zero], .refl _ s, .refl _ s⟩

theorem Gives.append {u k n : Nat} {bs : List Byte} {ep : Bool} {s : State} {x y : List Byte × Bool × State}
    (ready : MemReady .lp s) (h : Gives u k bs ep s x) (g : Gives (u + k) n x.1 x.2.1 x.2.2 y) :
    Gives u (k + n) bs ep s y := by
  obtain ⟨bytes, bad, kept, only⟩ := h
  obtain ⟨bytes', bad', kept', only'⟩ := g
  refine ⟨?_, ?_, kept.trans kept', only.trans only'⟩
  · rw [bytes', bytes, (kept ready).2.1, bytes_append, List.append_assoc]
  · rw [bad', bad, lpBad_of_kept ready kept, lpBad_add, or_assoc]

theorem hostReadPiece_gives {u k : Nat} {bs : List Byte} {ep : Bool} {s : State} (ready : MemReady .lp s)
    (open_ : s.lpShut u = false) : Gives u k bs ep s (State.hostReadPiece (bs, ep, s) (u, List.replicate k 0)) := by
  obtain ⟨bytes, kept, ok⟩ := readMem_ready none u k ready
  unfold State.hostReadPiece
  rw [if_neg (by rw [open_]; decide), List.length_replicate]
  exact ⟨congrArg (bs ++ ·) bytes, by simp only [Bool.or_eq_true, Bool.not_eq_true', ok, State.lpBad], kept,
    Only.readMem .lp none u k s⟩

/-- The pieces of a read on channels that are not FENCED. -/
theorem hostReadPieces_gives (n : Nat) : ∀ (u k : Nat) (bs : List Byte) (ep : Bool) (s : State), MemReady .lp s →
    k + u % 64 ≤ 64 * n → (∀ j, u ≤ j → j < u + k → s.lpShut j = false) →
    Gives u k bs ep s ((lineCuts n u (List.replicate k 0)).foldl State.hostReadPiece (bs, ep, s)) := by
  induction n with
  | zero =>
    intro u k bs ep s _ fuel _
    obtain rfl : k = 0 := by omega
    exact .nothing u bs ep s
  | succ n ih =>
    intro u k bs ep s ready fuel open_
    by_cases empty : k = 0
    · subst empty
      exact .nothing u bs ep s
    · have first : Gives u (min (64 - u % 64) k) bs ep s _ := hostReadPiece_gives ready (open_ u (Nat.le_refl u) (by omega))
      rw [lineCuts_cons n u (by simpa using empty), List.take_replicate, List.drop_replicate, List.foldl_cons]
      by_cases short : k ≤ 64 - u % 64
      · rw [Nat.sub_eq_zero_of_le short, List.replicate_zero, lineCuts_nil, List.foldl_nil]
        rwa [Nat.min_eq_right short] at first ⊢
      · rw [Nat.min_eq_left (by omega)] at first ⊢
        generalize State.hostReadPiece (bs, ep, s) (u, List.replicate (64 - u % 64) 0) = x at first
        obtain ⟨bs', ep', t⟩ := x
        have ⟨_, _, kept, only⟩ := first
        have rest := ih (u + (64 - u % 64)) (k - (64 - u % 64)) bs' ep' t (kept ready).1 (by omega)
          fun j lo hi => (lpShut_of_only only (by decide) j).trans (open_ j (by omega) (by omega))
        have whole := first.append ready rest
        rwa [show 64 - u % 64 + (k - (64 - u % 64)) = k by omega] at whole

theorem hostReadRun_gives {a n : Nat} {s : State} (ready : MemReady .lp s)
    (open_ : ∀ j, a ≤ j → j < a + n → s.lpShut j = false) : Gives a n [] false s (s.hostReadRun a n) :=
  hostReadPieces_gives _ a n [] false s ready (by omega) open_

end Sys2Proof.Machine

end

section
/-! PROOF. BAR4 (04 R72, 00 R390): the runs of bytes that a function reaches are the bytes it reaches, and each run is a
host write or read of its own. -/

namespace Sys2Proof.Machine

/-! ### Runs of addresses -/

/-- A run of the list has the address. -/
def covers (l : List (Nat × Nat)) (j : Nat) : Bool := l.any fun q => decide (q.1 ≤ j) && decide (j < q.1 + q.2)

theorem covers_iff (l : List (Nat × Nat)) (j : Nat) : covers l j = true ↔ ∃ q ∈ l, q.1 ≤ j ∧ j < q.1 + q.2 := by
  simp [covers]

theorem covers_cons (q : Nat × Nat) (l : List (Nat × Nat)) (j : Nat) :
    covers (q :: l) j = true ↔ (q.1 ≤ j ∧ j < q.1 + q.2) ∨ covers l j = true := by simp [covers]

/-- A joined run starts at a listed address and has listed addresses only. -/
theorem joinRuns_listed (l : List Nat) : ∀ q ∈ joinRuns l, q.1 ∈ l ∧ ∀ j, q.1 ≤ j → j < q.1 + q.2 → j ∈ l := by
  induction l with
  | nil => exact fun q h => absurd h List.not_mem_nil
  | cons a r ih =>
    intro q h
    have single (j : Nat) (lo : a ≤ j) (hi : j < a + 1) : j ∈ a :: r := by
      obtain rfl : j = a := by omega
      exact List.mem_cons_self
    have later (p : Nat × Nat) (hp : p ∈ joinRuns r) : p.1 ∈ a :: r ∧ ∀ j, p.1 ≤ j → j < p.1 + p.2 → j ∈ a :: r :=
      ⟨List.mem_cons_of_mem _ (ih p hp).1, fun j lo hi => List.mem_cons_of_mem _ ((ih p hp).2 j lo hi)⟩
    rw [joinRuns] at h
    rcases joined : joinRuns r with - | ⟨⟨b, n⟩, rest⟩
    · rw [joined] at h
      obtain rfl := List.mem_singleton.1 h
      exact ⟨List.mem_cons_self, single⟩
    · rw [joined] at h later
      dsimp only at h
      split at h
      · next next_ =>
        rcases List.mem_cons.1 h with rfl | h
        · refine ⟨List.mem_cons_self, fun j lo hi => ?_⟩
          dsimp only at lo hi
          by_cases here : j = a
          · exact here ▸ List.mem_cons_self
          · exact (later (b, n) List.mem_cons_self).2 j (by dsimp only; omega) (by dsimp only; omega)
        · exact later q (List.mem_cons_of_mem _ h)
      · rcases List.mem_cons.1 h with rfl | h
        · exact ⟨List.mem_cons_self, single⟩
        · exact later q h

/-- Joined runs have the listed addresses and no other. -/
theorem covers_joinRuns (l : List Nat) (j : Nat) : covers (joinRuns l) j = true ↔ j ∈ l :=
  (covers_iff _ j).trans ⟨fun ⟨q, hq, lo, hi⟩ => (joinRuns_listed l q hq).2 j lo hi, joinRuns_covers l⟩

theorem mem_rangeFrom (a n j : Nat) : j ∈ rangeFrom a n ↔ a ≤ j ∧ j < a + n := by
  simp only [rangeFrom, List.mem_map, List.mem_range]
  exact ⟨fun ⟨i, hi, e⟩ => by omega, fun h => ⟨j - a, by omega, by omega⟩⟩

theorem rangeFrom_succ (a n : Nat) : rangeFrom a (n + 1) = a :: rangeFrom (a + 1) n := by
  simp only [rangeFrom, List.range_succ_eq_map, List.map_cons, List.map_map, Nat.add_zero]
  exact congrArg (a :: ·) (List.map_congr_left fun i _ => by simp only [Function.comp_apply]; omega)

/-- Addresses that follow each other join into one run. -/
theorem joinRuns_rangeFrom (n : Nat) : ∀ a, joinRuns (rangeFrom a (n + 1)) = [(a, n + 1)] := by
  induction n with
  | zero => exact fun a => rfl
  | succ n ih =>
    intro a
    rw [rangeFrom_succ, joinRuns, ih (a + 1)]
    exact if_pos rfl

/-! ### What a function reaches -/

/-- The list of runs lies within `n` bytes from offset `a`. -/
def Within (l : List (Nat × Nat)) (a n : Nat) : Prop := ∀ q ∈ l, a ≤ q.1 ∧ q.1 + q.2 ≤ a + n

theorem reachRuns_within (s : State) (f a n : Nat) : Within (s.reachRuns f a n) a n := fun q hq => by
  obtain ⟨start, run⟩ := joinRuns_listed _ q hq
  have inside {j : Nat} (h : j ∈ (rangeFrom a n).filter (s.reaches f)) : a ≤ j ∧ j < a + n :=
    (mem_rangeFrom a n j).1 (List.mem_filter.1 h).1
  have lo := inside start
  by_cases empty : q.2 = 0
  · omega
  · have hi := inside (run (q.1 + q.2 - 1) (by omega) (by omega))
    omega

theorem covers_reachRuns (s : State) (f a n j : Nat) :
    covers (s.reachRuns f a n) j = true ↔ (a ≤ j ∧ j < a + n) ∧ s.reaches f j = true := by
  rw [State.reachRuns, covers_joinRuns, List.mem_filter, mem_rangeFrom]

theorem reachRuns_none {s : State} {f a n : Nat} (h : ∀ i < n, s.reaches f (a + i) = false) : s.reachRuns f a n = [] := by
  have empty : (rangeFrom a n).filter (s.reaches f) = [] := List.filter_eq_nil_iff.2 fun j hj => by
    obtain ⟨lo, hi⟩ := (mem_rangeFrom a n j).1 hj
    have out := h (j - a) (by omega)
    rw [show a + (j - a) = j by omega] at out
    rw [out]
    exact Bool.false_ne_true
  rw [State.reachRuns, empty]
  rfl

theorem reachRuns_all {s : State} {f a n : Nat} (pos : n ≠ 0) (h : ∀ i < n, s.reaches f (a + i) = true) :
    s.reachRuns f a n = [(a, n)] := by
  have whole : (rangeFrom a n).filter (s.reaches f) = rangeFrom a n := List.filter_eq_self.2 fun j hj => by
    obtain ⟨lo, hi⟩ := (mem_rangeFrom a n j).1 hj
    have in_ := h (j - a) (by omega)
    rwa [show a + (j - a) = j by omega] at in_
  obtain ⟨k, rfl⟩ := Nat.exists_eq_succ_of_ne_zero pos
  rw [State.reachRuns, whole]
  exact joinRuns_rangeFrom k a

/-! ### A write of runs -/

/-- One run of a BAR4 write of `data` at offset `a`. -/
def State.writeRun (a : Nat) (data : List Byte) (t : State) (r : Nat × Nat) : State :=
  t.hostWriteRun r.1 ((data.drop (r.1 - a)).take r.2)

theorem Only.writeRuns (a : Nat) (data : List Byte) (l : List (Nat × Nat)) (s : State) :
    Only (.pools :: memParts) s (l.foldl (State.writeRun a data) s) :=
  Only.foldl (State.writeRun a data) (fun t r => Only.hostWriteRun r.1 _ t) l s

/-- Runs store the bytes that they have and that lie on channels which are not FENCED. -/
theorem lpByte_writeRuns (a : Nat) (data : List Byte) (j : Nat) (l : List (Nat × Nat)) : ∀ s : State, MemReady .lp s →
    Within l a data.length → (l.foldl (State.writeRun a data) s).lpByte j =
      if covers l j = true ∧ s.lpShut j = false then data.getD (j - a) 0 else s.lpByte j := by
  induction l with
  | nil => exact fun s _ _ => rfl
  | cons r l ih =>
    intro s ready within
    obtain ⟨lo, hi⟩ := within r List.mem_cons_self
    have size : ((data.drop (r.1 - a)).take r.2).length = r.2 := by
      rw [List.length_take, List.length_drop]
      omega
    have first := lpByte_hostWriteRun r.1 ((data.drop (r.1 - a)).take r.2) ready j
    have shut : (s.writeRun a data r).lpShut j = s.lpShut j := lpShut_of_only (Only.hostWriteRun r.1 _ s) (by decide) j
    rw [size] at first
    rw [List.foldl_cons, ih (s.writeRun a data r) (hostWriteRun_ready r.1 _ ready) fun q hq => within q (List.mem_cons_of_mem _ hq), shut]
    by_cases later : covers l j = true ∧ s.lpShut j = false
    · rw [if_pos later, if_pos ⟨(covers_cons r l j).2 (.inr later.1), later.2⟩]
    · rw [if_neg later]
      refine first.trans ?_
      by_cases here : r.1 ≤ j ∧ j < r.1 + r.2 ∧ s.lpShut j = false
      · obtain ⟨lo', hi', open_⟩ := here
        rw [if_pos ⟨lo', hi', open_⟩, if_pos ⟨(covers_cons r l j).2 (.inl ⟨lo', hi'⟩), open_⟩, List.getD_eq_getElem?_getD, List.getElem?_take,
          if_pos (by omega), List.getElem?_drop, ← List.getD_eq_getElem?_getD, show r.1 - a + (j - r.1) = j - a by omega]
      · rw [if_neg here, if_neg]
        rintro ⟨covered, open_⟩
        rcases (covers_cons r l j).1 covered with ⟨lo', hi'⟩ | rest
        · exact here ⟨lo', hi', open_⟩
        · exact later ⟨rest, open_⟩

/-! ### A read of runs -/

theorem length_overlay {i : Nat} {bs l : List Byte} (h : i + bs.length ≤ l.length) : (overlay i bs l).length = l.length := by
  simp only [overlay, List.length_append, List.length_take, List.length_drop]
  omega

theorem getD_overlay {i : Nat} {bs l : List Byte} (h : i + bs.length ≤ l.length) (k : Nat) :
    (overlay i bs l).getD k 0 = if i ≤ k ∧ k < i + bs.length then bs.getD (k - i) 0 else l.getD k 0 := by
  have before : (l.take i).length = i := by rw [List.length_take]; omega
  simp only [overlay, List.append_assoc, List.getD_eq_getElem?_getD]
  by_cases low : k < i
  · rw [List.getElem?_append_left (by omega), List.getElem?_take, if_pos low, if_neg (by omega)]
  · rw [List.getElem?_append_right (by omega), before]
    by_cases mid : k < i + bs.length
    · rw [List.getElem?_append_left (by omega), if_pos ⟨by omega, mid⟩]
    · rw [List.getElem?_append_right (by omega), List.getElem?_drop, if_neg (by omega),
        show i + bs.length + (k - i - bs.length) = k by omega]

/-- One run of a BAR4 read at offset `a`. -/
def State.readRun (a : Nat) (acc : List Byte × Bool × State) (r : Nat × Nat) : List Byte × Bool × State :=
  (overlay (r.1 - a) (acc.2.2.hostReadRun r.1 r.2).1 acc.1, acc.2.1 || (acc.2.2.hostReadRun r.1 r.2).2.1,
    (acc.2.2.hostReadRun r.1 r.2).2.2)

/-- Runs on channels that are not FENCED give the bytes that they have over those of the list, and whether a word of
theirs is bad. -/
theorem readRuns_give (a : Nat) (l : List (Nat × Nat)) : ∀ (bs : List Byte) (ep : Bool) (s : State), MemReady .lp s →
    Within l a bs.length → (∀ j, covers l j = true → s.lpShut j = false) → ∃ bs' ep' t,
      l.foldl (State.readRun a) (bs, ep, s) = (bs', ep', t) ∧ bs'.length = bs.length ∧
      (∀ k, bs'.getD k 0 = if covers l (a + k) = true then s.lpByte (a + k) else bs.getD k 0) ∧
      (ep' = true ↔ ep = true ∨ ∃ j, covers l j = true ∧ s.badWord .lp (j / 8) = true) ∧
      ReadKept .lp s t ∧ Only memParts s t := by
  induction l with
  | nil =>
    exact fun bs ep s _ _ _ => ⟨bs, ep, s, rfl, rfl, fun k => rfl,
      by simp [covers], .refl _ s, .refl _ s⟩
  | cons r l ih =>
    intro bs ep s ready within open_
    obtain ⟨lo, hi⟩ := within r List.mem_cons_self
    obtain ⟨bytes, bad, kept, only⟩ := hostReadRun_gives ready fun j lo hi => open_ j ((covers_cons r l j).2 (.inl ⟨lo, hi⟩))
    obtain ⟨ready', cells, same⟩ := kept ready
    rw [List.nil_append] at bytes
    have size : (s.hostReadRun r.1 r.2).1.length = r.2 := by rw [bytes, length_bytes]
    have fits : r.1 - a + (s.hostReadRun r.1 r.2).1.length ≤ bs.length := by omega
    obtain ⟨bs', ep', t, run, len, get, ep_iff, kept', only'⟩ := ih (overlay (r.1 - a) (s.hostReadRun r.1 r.2).1 bs)
      (ep || (s.hostReadRun r.1 r.2).2.1) (s.hostReadRun r.1 r.2).2.2 ready'
      (fun q hq => by rw [length_overlay fits]; exact within q (List.mem_cons_of_mem _ hq))
      (fun j hj => (lpShut_of_only only (by decide) j).trans (open_ j ((covers_cons r l j).2 (.inr hj))))
    refine ⟨bs', ep', t, run, len.trans (length_overlay fits), fun k => ?_, ?_, kept.trans kept', only.trans only'⟩
    · have held : (s.hostReadRun r.1 r.2).2.2.lpByte (a + k) = s.lpByte (a + k) := congrArg (Map.get 0 · (a + k)) cells
      rw [get, getD_overlay fits, held, size]
      by_cases later : covers l (a + k) = true
      · rw [if_pos later, if_pos ((covers_cons r l _).2 (.inr later))]
      · rw [if_neg later]
        by_cases here : r.1 ≤ a + k ∧ a + k < r.1 + r.2
        · rw [if_pos ⟨by omega, by omega⟩, if_pos ((covers_cons r l _).2 (.inl here)), bytes, getD_bytes _ _ (by omega),
            show r.1 + (k - (r.1 - a)) = a + k by omega]
          rfl
        · rw [if_neg (by omega), if_neg fun h => ((covers_cons r l _).1 h).elim here later]
    · rw [ep_iff, funext same, Bool.or_eq_true, bad]
      simp only [covers_cons, State.lpBad, Bool.false_eq_true, false_or, or_assoc, or_and_right, exists_or, and_assoc]

/-! ### The two commands -/

theorem lpReady {s : State} (canonical : s.canonical = true) (settled : s.mem.pendGran = [])
    (single : ∀ w, Map.get 0 s.mem.lpddr.hard w ≤ 1) : MemReady .lp s := by
  refine ⟨?_, settled, single⟩
  simp only [State.canonical, Bool.and_eq_true] at canonical
  simp [canonical]

section
variable {fn : Fin 16} {off : BitVec 64} {s : State}

theorem bar4Write_taken (up : s.link.up = true) (ex : s.fnExists fn = true) (data : List Byte) :
    exec (.bar4Write fn off data) s =
      done s ((s.reachRuns fn off.toNat data.length).foldl (State.writeRun off.toNat data) s) := by
  change execBar4Write fn off data s = _
  unfold execBar4Write
  dsimp only
  rw [if_neg (by simp [up, ex])]
  rfl

/-- What a BAR4 read of `len` bytes gives, before it is sent. -/
def State.bar4Bytes (fn off len : Nat) (s : State) : List Byte × Bool × State :=
  (s.reachRuns fn off len).foldl (State.readRun off) (List.replicate len 0, false, s)

theorem bar4Read_taken (up : s.link.up = true) (ex : s.fnExists fn = true) (len : Nat) :
    exec (.bar4Read fn off len) s = done s ((s.bar4Bytes fn off.toNat len).2.2.emit
      (.read (s.bar4Bytes fn off.toNat len).1 (s.bar4Bytes fn off.toNat len).2.1)) := by
  change execBar4Read fn off len s = _
  unfold execBar4Read
  dsimp only
  rw [if_neg (by simp [up, ex])]
  rfl

theorem bar4_unreached (h : s.link.up = false ∨ s.fnExists fn = false) (data : List Byte) (len : Nat) :
    exec (.bar4Write fn off data) s = .next s ∧ exec (.bar4Read fn off len) s = .next s := by
  have out : (!s.link.up) = true ∨ (!s.fnExists fn) = true := by simpa using h
  constructor
  · change execBar4Write fn off data s = _
    unfold execBar4Write
    dsimp only
    rw [if_pos out]
    exact done_eq rfl
  · change execBar4Read fn off len s = _
    unfold execBar4Read
    dsimp only
    rw [if_pos out]
    exact done_eq rfl

end

end Sys2Proof.Machine

open Sys2Proof Sys2Proof.Machine

/-- Settles O22: a write by `lpByte_writeRuns` and a read by `readRuns_give`, over the runs that the function reaches. -/
theorem bar4ReachesOwnShares : Obligations.Bar4ReachesOwnShares := by
  intro fn off s
  refine ⟨fun h data len => bar4_unreached h data len, fun canonical up ex settled single => ?_⟩
  have ready : MemReady .lp s := lpReady canonical settled single
  refine ⟨fun data => ?_, fun len open_ => ?_⟩
  · have only := Only.writeRuns off.toNat data (s.reachRuns fn off.toNat data.length) s
    rw [bar4Write_taken up ex]
    refine goes_done only ⟨fun a => ?_, fun none => ?_, fun some line open_ all => ?_, only⟩
    · refine (lpByte_writeRuns off.toNat data a _ s ready (reachRuns_within s fn _ _)).trans ?_
      simp only [covers_reachRuns, and_assoc]
      rfl
    · rw [reachRuns_none none]
      rfl
    · rw [reachRuns_all (by simpa using some) all, List.foldl_cons, List.foldl_nil, State.writeRun, Nat.sub_self,
        List.drop_zero, List.take_length, hostWriteRun_line some line open_]
  · obtain ⟨bs, ep, t, run, size, get, ep_iff, kept, only⟩ := readRuns_give off.toNat (s.reachRuns fn off.toNat len)
      (List.replicate len 0) false s ready (by rw [List.length_replicate]; exact reachRuns_within s fn _ _) fun j hj => by
        obtain ⟨⟨lo, hi⟩, reached⟩ := (covers_reachRuns s fn _ _ j).1 hj
        have := open_ (j - off.toNat) (by omega)
        rw [show off.toNat + (j - off.toNat) = j by omega] at this
        exact this reached
    have sent : Only memParts s (t.emit (.read bs ep)) := only.trans ((Only.emit _ t).mono (by decide))
    rw [List.length_replicate] at size
    rw [bar4Read_taken up ex, State.bar4Bytes, run]
    refine goes_done sent ⟨⟨bs, ep, List.getLast?_concat, size, fun i hi => ?_, ?_⟩, (kept ready).2.1, sent⟩
    · rw [get]
      by_cases reached : s.reaches fn (off.toNat + i) = true
      · rw [if_pos reached, if_pos ((covers_reachRuns s fn _ _ _).2 ⟨⟨by omega, by omega⟩, reached⟩)]
        rfl
      · rw [if_neg reached, if_neg fun h => reached ((covers_reachRuns s fn _ _ _).1 h).2]
        simp
    · simp only [ep_iff, Bool.false_eq_true, false_or, covers_reachRuns, State.badWord, Ecc.bad_iff]
      constructor
      · rintro ⟨j, ⟨⟨lo, hi⟩, reached⟩, bad⟩
        have at_ : off.toNat + (j - off.toNat) = j := by omega
        exact ⟨j - off.toNat, by omega, at_.symm ▸ reached, at_.symm ▸ bad⟩
      · rintro ⟨i, hi, reached, bad⟩
        exact ⟨off.toNat + i, ⟨⟨by omega, by omega⟩, reached⟩, bad⟩

end

section
/-! PROOF. QSPI frames (04 section 4.2): what the checks of a frame decide, and the words of a frame that passes them, in
ascending order. -/

namespace Sys2Proof.Machine

/-! ### The end of a frame -/

theorem Only.qspiEnd (stat : Nat) (s : State) : Only [.irq, .out] s (s.qspiEnd stat) :=
  (Only.ite (fun _ => (Only.qspiSet _ s).mono (by decide)) fun _ => Only.refl _ s).trans ((Only.emit _ _).mono (by decide))

theorem qspiEnd_eq {stat : Nat} (h : stat ≠ 1) (s : State) :
    s.qspiEnd stat = { s with out := s.out ++ [.qspiStat (BitVec.ofNat 8 stat)] } := by
  rw [State.qspiEnd, if_neg h]
  rfl

theorem done_qspiEnd {stat : Nat} (h : stat ≠ 1) (s : State) :
    done s (s.qspiEnd stat) = .next { s with out := s.out ++ [.qspiStat (BitVec.ofNat 8 stat)] } := by
  rw [done_eq (Only.qspiEnd stat s).1, qspiEnd_eq h]

/-- A CRC failure also sets CRC_SEEN (04 Table 4.10). -/
theorem done_qspiEnd_crc (s : State) : done s (s.qspiEnd 1) = .next { s with
    link := { s.link with qspiStat := s.link.qspiStat ||| 8#4 }, out := s.out ++ [.qspiStat 1#8] } :=
  done_eq (Only.qspiEnd 1 s).1

/-! ### The checks of a frame -/

section
variable {frame : List Byte} {n : Nat} {s : State}

/-- The data of a WRITE frame of `n` words. -/
def frameData (frame : List Byte) (n : Nat) : List Byte := (frame.drop 8).take (4 * n)

/-- Both CRCs of a WRITE frame check. -/
def WriteChecks (frame : List Byte) (n : Nat) : Prop :=
  (qspiHeader 0x02#8 frame).2.2.2 = true ∧ crc16 (frameData frame n) = fieldAt frame (8 + 4 * n) 2

theorem qspiWrite_eq (hn : n = byteAt frame 4 + 1) : exec (.qspiWrite frame) s = done s (
    if s.devState = .off ∨ frame.length < 10 + 4 * n then s
    else if !(qspiHeader 0x02#8 frame).2.2.2 ∨ crc16 (frameData frame n) ≠ fieldAt frame (8 + 4 * n) 2 then s.qspiEnd 1
    else if byteAt frame 5 != 0 then s.qspiEnd 4
    else s.qspiWriteTake (fieldAt frame 0 4) (frameData frame n)) := by
  subst hn
  rfl

theorem qspiRead_eq (hn : n = byteAt frame 4 + 1) : exec (.qspiRead frame) s = done s (
    if s.devState = .off ∨ frame.length < 8 then s
    else if !(qspiHeader 0x0B#8 frame).2.2.2 then s.qspiEnd 1
    else if byteAt frame 5 != 0 then s.qspiEnd 4
    else s.qspiReadTake (fieldAt frame 0 4) (4 * n)) := by
  subst hn
  rfl

theorem qspiWrite_silent (hn : n = byteAt frame 4 + 1) (h : s.devState = .off ∨ frame.length < 10 + 4 * n) :
    exec (.qspiWrite frame) s = .next s := by
  rw [qspiWrite_eq hn, if_pos h]
  exact done_eq rfl

theorem qspiWrite_crc (hn : n = byteAt frame 4 + 1) (on : s.devState ≠ .off) (whole : 10 + 4 * n ≤ frame.length)
    (bad : ¬ WriteChecks frame n) : exec (.qspiWrite frame) s = done s (s.qspiEnd 1) := by
  rw [qspiWrite_eq hn, if_neg (not_or.2 ⟨on, by omega⟩), if_pos]
  by_cases h : (qspiHeader 0x02#8 frame).2.2.2 = true
  · exact .inr fun crc => bad ⟨h, crc⟩
  · exact .inl (by simpa using h)

theorem qspiWrite_checked (hn : n = byteAt frame 4 + 1) (on : s.devState ≠ .off) (whole : 10 + 4 * n ≤ frame.length)
    (ok : WriteChecks frame n) : exec (.qspiWrite frame) s = done s (if byteAt frame 5 = 0
      then s.qspiWriteTake (fieldAt frame 0 4) (frameData frame n) else s.qspiEnd 4) := by
  rw [qspiWrite_eq hn, if_neg (not_or.2 ⟨on, by omega⟩), if_neg (by simp [ok.1, ok.2])]
  by_cases h : byteAt frame 5 = 0 <;> simp [h]

theorem qspiRead_silent (h : s.devState = .off ∨ frame.length < 8) : exec (.qspiRead frame) s = .next s := by
  rw [qspiRead_eq rfl, if_pos h]
  exact done_eq rfl

theorem qspiRead_crc (on : s.devState ≠ .off) (whole : 8 ≤ frame.length) (bad : (qspiHeader 0x0B#8 frame).2.2.2 = false) :
    exec (.qspiRead frame) s = done s (s.qspiEnd 1) := by
  rw [qspiRead_eq rfl, if_neg (not_or.2 ⟨on, by omega⟩), if_pos (by rw [bad]; rfl)]

theorem qspiRead_checked (hn : n = byteAt frame 4 + 1) (on : s.devState ≠ .off) (whole : 8 ≤ frame.length)
    (ok : (qspiHeader 0x0B#8 frame).2.2.2 = true) : exec (.qspiRead frame) s = done s (if byteAt frame 5 = 0
      then s.qspiReadTake (fieldAt frame 0 4) (4 * n) else s.qspiEnd 4) := by
  rw [qspiRead_eq hn, if_neg (not_or.2 ⟨on, by omega⟩), if_neg (by rw [ok]; decide)]
  by_cases h : byteAt frame 5 = 0 <;> simp [h]

theorem length_frameData (whole : 10 + 4 * n ≤ frame.length) : (frameData frame n).length = 4 * n := by
  rw [frameData, List.length_take, List.length_drop]
  omega

theorem getD_frameData {i : Nat} (h : i < 4 * n) : (frameData frame n).getD i 0 = frame.getD (8 + i) 0 := by
  rw [frameData, List.getD_eq_getElem?_getD, List.getElem?_take, if_pos h, List.getElem?_drop, List.getD_eq_getElem?_getD]

theorem frameData_word {k : Nat} (h : k < n) :
    ((frameData frame n).drop (4 * k)).take 4 = (frame.drop (8 + 4 * k)).take 4 := by
  rw [frameData, List.drop_take, List.drop_drop, List.take_take, Nat.min_eq_left (by omega)]

end

/-! ### Words of BAR0 -/

/-- The words of a WRITE to BAR0, one after the other. -/
theorem qspiStore_eq (n : Nat) : ∀ (d : List Byte) (o : Nat) (s : State), State.qspiStore n d o s =
    (List.range n).foldl (fun (v : State) k => v.writeBar0 .qspi (o + 4 * k) ((d.drop (4 * k)).take 4)) s := by
  induction n with
  | zero => exact fun _ _ _ => rfl
  | succ n ih =>
    intro d o s
    rw [State.qspiStore, ih, List.range_succ_eq_map, List.foldl_cons, List.foldl_map]
    refine List.foldl_ext _ _ _ fun v k _ => ?_
    rw [List.drop_drop, show o + 4 + 4 * k = o + 4 * k.succ by omega, show 4 + 4 * k = 4 * k.succ by omega]

/-- One word read from BAR0, after those in the list. -/
def loadWord (o : Nat) (y : List Byte × State) (k : Nat) : List Byte × State :=
  (y.1 ++ le 4 (y.2.readReg .qspi (o + 4 * k)).1, (y.2.readReg .qspi (o + 4 * k)).2)

/-- The words of a READ from BAR0, one after the other. -/
theorem qspiLoad_eq (n : Nat) : ∀ (o : Nat) (bs : List Byte) (s : State), (List.range n).foldl (loadWord o) (bs, s) =
    (bs ++ (State.qspiLoad n o s).1, (State.qspiLoad n o s).2) := by
  induction n with
  | zero => exact fun o bs s => by simp [State.qspiLoad]
  | succ n ih =>
    intro o bs s
    have shift (y : List Byte × State) (k : Nat) : loadWord o y k.succ = loadWord (o + 4) y k := by
      rw [loadWord, loadWord, show o + 4 * k.succ = o + 4 + 4 * k by omega]
    rw [List.range_succ_eq_map, List.foldl_cons, List.foldl_map]
    simp only [shift]
    refine (ih (o + 4) _ _).trans ?_
    rw [State.qspiLoad, ← List.append_assoc]
    rfl

theorem Only.readRxdata (p : Requester) (u : Nat) (s : State) : Only [.ports] s (s.readRxdata p u).2 := by
  unfold State.readRxdata
  split
  · split
    · exact Only.refl _ s
    · exact Only.ofPorts s _
  · exact Only.refl _ s

theorem Only.readPortWord (p : Requester) (o : Nat) (s : State) : Only [.ports] s (s.readPortWord p o).2 := by
  unfold State.readPortWord
  repeat' split
  all_goals first | exact Only.refl _ s | exact Only.readRxdata p _ s

theorem Only.latchMs_qspiHigh (s : State) : Only [.link] s (s.latchMs .qspi) := Only.ofLinkKeep s _ rfl

theorem Only.ite_snd {α : Type} {ps : List Part} {s : State} {c : Prop} [Decidable c] {x y : α × State}
    (h : Only ps s x.2) (k : Only ps s y.2) : Only ps s (if c then x else y).2 := by
  split
  · exact h
  · exact k

/-- A word read over QSPI may latch Milestone or remove a character. -/
theorem Only.readReg_qspi (o : Nat) (s : State) : Only [.link, .ports] s (s.readReg .qspi o).2 := by
  unfold State.readReg
  dsimp only
  repeat' with_reducible apply Only.ite_snd
  all_goals first
    | exact Only.refl _ s
    | exact (Only.readPortWord .qspi o s).mono (by decide)
    | exact (Only.latchMs_qspiHigh s).mono (by decide)

theorem Only.qspiLoad (n : Nat) : ∀ (o : Nat) (s : State), Only [.link, .ports] s (State.qspiLoad n o s).2 := by
  induction n with
  | zero => exact fun _ s => Only.refl _ s
  | succ n ih => exact fun o s => (Only.readReg_qspi o s).trans (ih _ _)

/-! ### Words of the LPDDR5 window -/

theorem Only.qspiStoreLp (n : Nat) : ∀ (d : List Byte) (a : Nat) (s : State),
    Only (.pools :: memParts) s (State.qspiStoreLp n d a s) := by
  induction n with
  | zero => exact fun _ _ s => Only.refl _ s
  | succ n ih => exact fun d a s => (Only.hostWriteLp a (d.take 4) s).trans (ih _ _ _)

/-- The words of a WRITE to the LPDDR5 window store its data. -/
theorem lpByte_qspiStoreLp (j : Nat) (n : Nat) : ∀ (d : List Byte) (a : Nat) (s : State), d.length = 4 * n →
    MemReady .lp s → (State.qspiStoreLp n d a s).lpByte j =
      if a ≤ j ∧ j < a + 4 * n then d.getD (j - a) 0 else s.lpByte j := by
  induction n with
  | zero =>
    intro d a s _ _
    rw [if_neg (by omega)]
    rfl
  | succ n ih =>
    intro d a s size ready
    have word : (d.take 4).length = 4 := by rw [List.length_take]; omega
    rw [State.qspiStoreLp, ih _ _ _ (by rw [List.length_drop]; omega) (hostWriteLp_ready a (d.take 4) ready).1,
      lpByte_hostWriteLp a (d.take 4) ready, word]
    simp only [List.getD_eq_getElem?_getD, List.getElem?_take, List.getElem?_drop]
    by_cases later : a + 4 ≤ j ∧ j < a + 4 + 4 * n
    · rw [if_pos later, if_pos (by omega), show 4 + (j - (a + 4)) = j - a by omega]
    · rw [if_neg later]
      by_cases here : a ≤ j ∧ j < a + 4
      · rw [if_pos here, if_pos (by omega), if_pos (by omega)]
      · rw [if_neg here, if_neg (by omega)]

/-- A listed entry is what a read of a canonical map finds, and never the default. -/
theorem Map.get_of_mem {α : Type} [DecidableEq α] {d : α} {m : Map α} {p : Nat × α} (wf : Map.wf d m = true) (h : p ∈ m) :
    Map.get d m p.1 = p.2 ∧ p.2 ≠ d := by
  simp only [Map.wf, Bool.and_eq_true, List.all_eq_true, decide_eq_true_eq] at wf
  obtain ⟨rising, listed⟩ := wf
  refine ⟨?_, listed p h⟩
  have key (m : Map α) : ∀ lo, Map.rising lo m = true → p ∈ m → lo ≤ p.1 ∧ Map.get d m p.1 = p.2 := by
    induction m with
    | nil => exact fun _ _ h => absurd h List.not_mem_nil
    | cons q r ih =>
      intro lo w h
      simp only [Map.rising, Bool.and_eq_true, decide_eq_true_eq] at w
      rcases List.mem_cons.1 h with rfl | h
      · exact ⟨w.1, if_pos rfl⟩
      · obtain ⟨above, get⟩ := ih _ w.2 h
        refine ⟨by omega, ?_⟩
        simp only [Map.get]
        rw [if_neg (by omega), if_neg (by omega), get]
  exact (key m 0 rising h).2

/-- The bad words of a range, as the memory marks them. -/
theorem contains_badIn {s : State} (ready : MemReady .lp s) {a n i : Nat} (h : i < n) :
    (s.badIn a n).contains ((a + i) / 8) = s.badWord .lp ((a + i) / 8) := by
  rw [Bool.eq_iff_iff, List.contains_iff_mem, State.badIn, List.mem_filter, State.badWord, State.space]
  constructor
  · rintro ⟨listed, notCorr⟩
    unfold State.markedIn at listed
    rw [if_neg (by omega)] at listed
    obtain ⟨p, hp, at_⟩ := List.mem_map.1 listed
    obtain ⟨get, marked⟩ := Map.get_of_mem ready.marks (List.mem_filter.1 hp).1
    rw [← at_] at notCorr ⊢
    simp only [State.space] at get marked
    rw [get] at notCorr ⊢
    cases e : p.2 <;> simp_all [Ecc.bad]
  · intro bad
    refine ⟨mem_markedIn (Nat.le_add_right a i) (by omega) fun clean => ?_, ?_⟩
    · simp only [State.space] at clean
      rw [clean] at bad
      exact Bool.false_ne_true bad
    · cases e : Map.get Ecc.clean s.mem.lpddr.marks ((a + i) / 8) <;> simp_all [Ecc.bad]

/-- A READ from the LPDDR5 window: the bytes that are held, with zeros for the bad words. -/
theorem qspiLoadLp_gives {a n : Nat} {s : State} (ready : MemReady .lp s) :
    (s.qspiLoadLp a n).1.length = n ∧
    (∀ i < n, (s.qspiLoadLp a n).1.getD i 0 = if s.badWord .lp ((a + i) / 8) then 0 else s.lpByte (a + i)) ∧
    ((s.qspiLoadLp a n).2.space .lp).cells = (s.space .lp).cells ∧ Only memParts s (s.qspiLoadLp a n).2 := by
  obtain ⟨bytes, kept, -⟩ := readMem_ready none a n ready
  have reported : Only [.events, .irq, .out] (s.readMem .lp none a n).2.2 (s.qspiLoadLp a n).2 := Only.reportWords 0x0304 _ _
  have held : (s.qspiLoadLp a n).1 =
      (s.readMem .lp none a n).1.mapIdx fun i b => if ((s.touch .lp a n).badIn a n).contains ((a + i) / 8) then 0 else b := rfl
  rw [bytes, touch_none ready.settled] at held
  refine ⟨by rw [held, List.length_mapIdx, length_bytes], fun i hi => ?_, ?_,
    (Only.readMem .lp none a n s).trans (reported.mono (by decide))⟩
  · rw [held, List.getD_eq_getElem?_getD, List.getElem?_mapIdx,
      List.getElem?_eq_getElem (by rw [length_bytes]; exact hi), Option.map_some, Option.getD_some, contains_badIn ready hi]
    congr 1
    rw [List.getElem_eq_getD 0, getD_bytes _ _ hi]
    rfl
  · obtain ⟨-, cells, -⟩ := kept ready
    rw [space_of_only reported (by decide), cells]

/-! ### What a frame that passes its checks does -/

section
variable {addr a o n : Nat} {d : List Byte} {s : State}

theorem qspiWriteTake_nowhere (place : s.qspiPlace addr d.length = .nowhere) : s.qspiWriteTake addr d = s.qspiEnd 3 := by
  rw [State.qspiWriteTake, place]

theorem qspiWriteTake_bar0 (size : d.length = 4 * n) (place : s.qspiPlace addr d.length = .bar0 o) :
    s.qspiWriteTake addr d = (State.qspiStore n d o s).qspiEnd
      (if ringsDoorbell o d && s.link.hostPort == some .pcie then 5 else 0) := by
  rw [State.qspiWriteTake, place]
  dsimp only
  rw [size, Nat.mul_div_cancel_left n (by decide)]

theorem qspiWriteTake_lpddr (size : d.length = 4 * n) (place : s.qspiPlace addr d.length = .lpddr a) :
    s.qspiWriteTake addr d =
      if s.lpFenced a (4 * n) then s.qspiEnd 2 else (State.qspiStoreLp n d a s).qspiEnd 0 := by
  rw [State.qspiWriteTake, place]
  dsimp only
  rw [size, Nat.mul_div_cancel_left n (by decide)]

theorem qspiReadTake_nowhere (place : s.qspiPlace addr n = .nowhere) : s.qspiReadTake addr n = s.qspiEnd 3 := by
  rw [State.qspiReadTake, place]

theorem qspiReadTake_bar0 (place : s.qspiPlace addr (4 * n) = .bar0 o) :
    s.qspiReadTake addr (4 * n) = State.qspiReply (State.qspiLoad n o s) := by
  rw [State.qspiReadTake, place]
  dsimp only
  rw [Nat.mul_div_cancel_left n (by decide)]

theorem qspiReadTake_lpddr (place : s.qspiPlace addr n = .lpddr a) : s.qspiReadTake addr n =
    if s.lpFenced a n then s.qspiEnd 2 else State.qspiReply (s.qspiLoadLp a n) := by
  rw [State.qspiReadTake, place]

/-- A reply is the data with its CRC, then STAT 0x00. -/
theorem qspiReply_eq (r : List Byte × State) : State.qspiReply r =
    { r.2 with out := r.2.out ++ [.read (r.1 ++ le 2 (crc16 r.1)) false, .qspiStat 0#8] } := by
  rw [State.qspiReply, qspiEnd_eq (by decide)]
  simp only [State.emit, List.append_assoc, List.cons_append, List.nil_append]

theorem Only.qspiReply (r : List Byte × State) : Only [.irq, .out] r.2 (State.qspiReply r) :=
  ((Only.emit _ r.2).mono (by decide)).trans (Only.qspiEnd 0 _)

end

/-- A WRITE frame's doorbell byte is that of the frame. -/
theorem ringsDoorbell_frame {frame : List Byte} {n o : Nat} (whole : 10 + 4 * n ≤ frame.length) :
    ringsDoorbell o (frameData frame n) = true ↔
      o ≤ 0x1200 ∧ 0x1200 < o + 4 * n ∧ (byteAt frame (8 + (0x1200 - o))).testBit 0 = true := by
  simp only [ringsDoorbell, length_frameData whole, Bool.and_eq_true, decide_eq_true_eq, and_assoc]
  refine and_congr_right fun lo => and_congr_right fun hi => ?_
  rw [byteAt, byteAt, getD_frameData (by omega)]

/-! ### The three OPCODEs -/

section
variable {s : State} {frame : List Byte} {n : Nat}

/-- A WRITE of words to BAR0 that passes its checks. -/
theorem qspiWrite_bar0 {o : Nat} (hn : n = byteAt frame 4 + 1) (on : s.devState ≠ .off) (whole : 10 + 4 * n ≤ frame.length)
    (ok : WriteChecks frame n) (rsv : byteAt frame 5 = 0) (place : s.qspiPlace (fieldAt frame 0 4) (4 * n) = .bar0 o) :
    ∃ u : State, u = (List.range n).foldl
        (fun (v : State) k => v.writeBar0 .qspi (o + 4 * k) ((frame.drop (8 + 4 * k)).take 4)) s ∧
      exec (.qspiWrite frame) s = .next { u with pending := s.pending, out := u.out ++ [.qspiStat
        (if o ≤ 0x1200 ∧ 0x1200 < o + 4 * n ∧ (byteAt frame (8 + (0x1200 - o))).testBit 0 = true ∧
          s.link.hostPort = some .pcie then 5#8 else 0#8)] } := by
  have size := length_frameData whole
  rw [← size] at place
  have words : State.qspiStore n (frameData frame n) o s = (List.range n).foldl
      (fun (v : State) k => v.writeBar0 .qspi (o + 4 * k) ((frame.drop (8 + 4 * k)).take 4)) s := by
    rw [qspiStore_eq]
    refine List.foldl_ext _ _ _ fun v k hk => ?_
    rw [frameData_word (List.mem_range.1 hk)]
  have refused : (ringsDoorbell o (frameData frame n) && s.link.hostPort == some .pcie) = true ↔
      o ≤ 0x1200 ∧ 0x1200 < o + 4 * n ∧ (byteAt frame (8 + (0x1200 - o))).testBit 0 = true ∧
        s.link.hostPort = some .pcie := by
    rw [Bool.and_eq_true, ringsDoorbell_frame whole, beq_iff_eq]
    simp only [and_assoc]
  rw [qspiWrite_checked hn on whole ok, if_pos rsv, qspiWriteTake_bar0 size place, words]
  generalize (List.range n).foldl _ s = u
  refine ⟨u, rfl, ?_⟩
  simp only [← refused]
  split
  · rw [done, qspiEnd_eq (by decide)]
  · rw [done, qspiEnd_eq (by decide)]

/-- A WRITE of words to the LPDDR5 window that passes its checks. -/
theorem qspiWrite_lpddr {a : Nat} (hn : n = byteAt frame 4 + 1) (on : s.devState ≠ .off) (whole : 10 + 4 * n ≤ frame.length)
    (ok : WriteChecks frame n) (rsv : byteAt frame 5 = 0) (place : s.qspiPlace (fieldAt frame 0 4) (4 * n) = .lpddr a)
    (open_ : s.lpFenced a (4 * n) = false) (ready : MemReady .lp s) : Goes (exec (.qspiWrite frame) s) fun t =>
      (∀ j, Map.get 0 t.mem.lpddr.cells j = if a ≤ j ∧ j < a + 4 * n then frame.getD (8 + (j - a)) 0
        else Map.get 0 s.mem.lpddr.cells j) ∧
      (n = 1 → t = (s.hostWriteLp a ((frame.drop 8).take 4)).emit (.qspiStat 0#8)) ∧
      t.out.getLast? = some (.qspiStat 0#8) ∧ Only (.pools :: memParts) s t := by
  have size := length_frameData whole
  rw [← size] at place
  have only := (Only.qspiStoreLp n (frameData frame n) a s).trans ((Only.qspiEnd 0 _).mono (by decide))
  rw [qspiWrite_checked hn on whole ok, if_pos rsv, qspiWriteTake_lpddr size place, open_, if_neg Bool.false_ne_true]
  refine goes_done only ⟨fun j => ?_, fun one => ?_, List.getLast?_concat, only⟩
  · refine (lpByte_qspiStoreLp j n (frameData frame n) a s size ready).trans ?_
    by_cases inside : a ≤ j ∧ j < a + 4 * n
    · rw [if_pos inside, if_pos inside, getD_frameData (by omega)]
    · rw [if_neg inside, if_neg inside]
      rfl
  · subst one
    rw [State.qspiStoreLp, State.qspiStoreLp, frameData, List.take_take]
    rfl

/-- A READ of words from BAR0 that passes its checks. -/
theorem qspiRead_bar0 {o : Nat} (hn : n = byteAt frame 4 + 1) (on : s.devState ≠ .off) (whole : 8 ≤ frame.length)
    (ok : (qspiHeader 0x0B#8 frame).2.2.2 = true) (rsv : byteAt frame 5 = 0)
    (place : s.qspiPlace (fieldAt frame 0 4) (4 * n) = .bar0 o) :
    ∃ x : List Byte × State, x = (List.range n).foldl (loadWord o) ([], s) ∧
      exec (.qspiRead frame) s = .next { x.2 with
        out := x.2.out ++ [.read (x.1 ++ le 2 (crc16 x.1)) false, .qspiStat 0#8] } := by
  have words := qspiLoad_eq n o [] s
  rw [List.nil_append] at words
  refine ⟨_, rfl, ?_⟩
  have kept := (Only.qspiLoad n o s).1.symm
  rw [qspiRead_checked hn on whole ok, if_pos rsv, qspiReadTake_bar0 place, words]
  rw [done_eq ((Only.qspiReply _).1.trans kept.symm), qspiReply_eq]

/-- A READ of words from the LPDDR5 window that passes its checks. -/
theorem qspiRead_lpddr {a : Nat} (hn : n = byteAt frame 4 + 1) (on : s.devState ≠ .off) (whole : 8 ≤ frame.length)
    (ok : (qspiHeader 0x0B#8 frame).2.2.2 = true) (rsv : byteAt frame 5 = 0)
    (place : s.qspiPlace (fieldAt frame 0 4) (4 * n) = .lpddr a) (open_ : s.lpFenced a (4 * n) = false)
    (ready : MemReady .lp s) : Goes (exec (.qspiRead frame) s) fun t =>
      (∃ (l : List Out) (bs : List Byte), bs.length = 4 * n ∧
        t.out = l ++ [.read (bs ++ le 2 (crc16 bs)) false, .qspiStat 0#8] ∧
        ∀ i < 4 * n, bs.getD i 0 = if s.badWord .lp ((a + i) / 8) then 0 else s.lpByte (a + i)) ∧
      t.mem.lpddr.cells = s.mem.lpddr.cells ∧ Only memParts s t := by
  obtain ⟨size, get, cells, only⟩ := qspiLoadLp_gives (a := a) (n := 4 * n) ready
  rw [qspiRead_checked hn on whole ok, if_pos rsv, qspiReadTake_lpddr place, open_, if_neg Bool.false_ne_true]
  have sent := only.trans ((Only.qspiReply (s.qspiLoadLp a (4 * n))).mono (by decide))
  refine goes_done sent ⟨⟨(s.qspiLoadLp a (4 * n)).2.out, _, size, ?_, get⟩, ?_, sent⟩
  · rw [qspiReply_eq]
  · exact (congrArg MemSpace.cells (space_of_only (Only.qspiReply _) (by decide) .lp)).trans cells

theorem qspiStatus_silent {op : Byte} (h : s.devState = .off ∨ op = 0x02#8 ∨ op = 0x0B#8) :
    exec (.qspiStatus op) s = .next s := by
  change execQspiStatus op s = _
  rw [execQspiStatus, if_pos h]
  exact done_eq rfl

theorem qspiStatus_stat (on : s.devState ≠ .off) : exec (.qspiStatus 0x05#8) s = .next { s with
    out := s.out ++ [.read [s.link.qspiStat.setWidth 8] false, .qspiStat 0#8] } := by
  change execQspiStatus 0x05#8 s = _
  rw [execQspiStatus, if_neg (by simp [on]), if_pos rfl, qspiEnd_eq (by decide)]
  simp only [State.emit, List.append_assoc, List.cons_append, List.nil_append]
  exact done_eq rfl

theorem qspiStatus_unknown {op : Byte} (on : s.devState ≠ .off) (write : op ≠ 0x02#8) (read : op ≠ 0x0B#8)
    (stat : op ≠ 0x05#8) : exec (.qspiStatus op) s = .next { s with out := s.out ++ [.qspiStat 4#8] } := by
  change execQspiStatus op s = _
  rw [execQspiStatus, if_neg (by simp [on, write, read]), if_neg stat, done_qspiEnd (by decide)]

end

end Sys2Proof.Machine

open Sys2Proof Sys2Proof.Machine

/-- Settles O23: each frame by the check that it fails, and one that passes them all by what its words do. -/
theorem qspiFramesCheckCrc : Obligations.QspiFramesCheckCrc := by
  refine ⟨fun s off frame op => ⟨qspiWrite_silent rfl (.inl off), qspiRead_silent (.inl off), qspiStatus_silent (.inl off)⟩,
    fun s on => ⟨fun frame n hn => ⟨fun cut => qspiWrite_silent hn (.inr cut), fun whole bad => ?_, fun whole hcrc crc => ?_⟩,
      fun frame n hn => ⟨fun cut => qspiRead_silent (.inr cut), fun whole bad => ?_, fun whole ok => ?_⟩,
      qspiStatus_stat on, fun op write read stat => qspiStatus_unknown on write read stat,
      fun op h => qspiStatus_silent (.inr h)⟩⟩
  · have fails : ¬ WriteChecks frame n := fun ⟨hcrc, crc⟩ => bad.elim (fun h => Bool.false_ne_true (h.symm.trans hcrc)) (· crc)
    rw [qspiWrite_crc hn on whole fails]
    exact done_qspiEnd_crc s
  · have ok : WriteChecks frame n := ⟨hcrc, crc⟩
    have size := length_frameData whole
    refine ⟨fun rsv => ?_, fun rsv place => ?_, fun o rsv place => qspiWrite_bar0 hn on whole ok rsv place,
      fun a rsv place => ⟨fun shut => ?_, fun open_ canonical settled single =>
        qspiWrite_lpddr hn on whole ok rsv place open_ (lpReady canonical settled single)⟩⟩
    · rw [qspiWrite_checked hn on whole ok, if_neg rsv]
      exact done_qspiEnd (by decide) s
    · rw [← size] at place
      rw [qspiWrite_checked hn on whole ok, if_pos rsv, qspiWriteTake_nowhere place]
      exact done_qspiEnd (by decide) s
    · rw [← size] at place
      rw [qspiWrite_checked hn on whole ok, if_pos rsv, qspiWriteTake_lpddr size place, if_pos shut]
      exact done_qspiEnd (by decide) s
  · rw [qspiRead_crc on whole bad]
    exact done_qspiEnd_crc s
  · refine ⟨fun rsv => ?_, fun rsv place => ?_, fun o rsv place => qspiRead_bar0 hn on whole ok rsv place,
      fun a rsv place => ⟨fun shut => ?_, fun open_ canonical settled single => ?_⟩⟩
    · rw [qspiRead_checked hn on whole ok, if_neg rsv]
      exact done_qspiEnd (by decide) s
    · rw [qspiRead_checked hn on whole ok, if_pos rsv, qspiReadTake_nowhere place]
      exact done_qspiEnd (by decide) s
    · rw [qspiRead_checked hn on whole ok, if_pos rsv, qspiReadTake_lpddr place, if_pos shut]
      exact done_qspiEnd (by decide) s
    · obtain ⟨t, next_, ⟨l, bs, length, out, get⟩, kept⟩ :=
        qspiRead_lpddr hn on whole ok rsv place open_ (lpReady canonical settled single)
      refine ⟨t, next_, ⟨l, bs, length, out, fun i hi => (get i hi).trans ?_⟩, kept⟩
      rw [show s.badWord .lp ((a + i) / 8) = (Map.get Ecc.clean s.mem.lpddr.marks ((a + i) / 8)).bad from rfl]
      cases Map.get Ecc.clean s.mem.lpddr.marks ((a + i) / 8) <;> rfl

end

section
/-! PROOF. A request that the Signpost takes (06 Tables 6.5, 6.7, 6.9): the fields of its bytes, and the command that it
leads to. -/

namespace Sys2Proof.Machine

/-! ### The bytes of a request -/

theorem length_fit {α : Type} (k : Nat) (d : α) (l : List α) : (fit k d l).length = k := by simp [fit]

theorem unle_zeros (n : Nat) : unle (List.replicate n 0) = 0 := by
  induction n with
  | zero => rfl
  | succ n ih =>
    simp only [List.replicate_succ, unle, ih]
    rfl

theorem unle_append_zeros (l : List Byte) (n : Nat) : unle (l ++ List.replicate n 0) = unle l := by
  induction l with
  | nil => exact unle_zeros n
  | cons b r ih => simp only [List.cons_append, unle, ih]

/-- A field of a list that is filled up with zeros. -/
theorem fieldAt_fit {n o k : Nat} (l : List Byte) (within : o + k ≤ n) : fieldAt (fit n 0 l) o k = fieldAt l o k := by
  rw [fieldAt, fieldAt, fit, List.drop_take, List.take_take, Nat.min_eq_left (by omega), List.drop_append, List.take_append,
    List.drop_replicate, List.take_replicate, unle_append_zeros]

section
variable (op : Nat) (r : SpReq)

theorem requestBytes_cons : requestBytes op r = BitVec.ofNat 8 op :: BitVec.ofNat 8 (op / 256) :: r.tag :: r.reserved ::
    (le 2 r.len.toNat ++ le 2 r.ctx.toNat ++ fit 248 0 r.payload) := rfl

theorem length_requestBytes : (requestBytes op r).length = 256 := by simp [requestBytes, le, length_fit]

theorem drop_requestBytes (o : Nat) : (requestBytes op r).drop (8 + o) = (fit 248 0 r.payload).drop o := by
  rw [← List.drop_drop]
  rfl

@[simp] theorem requestBytes_tag : BitVec.ofNat 8 (byteAt (requestBytes op r) 2) = r.tag := by
  simp [requestBytes_cons, byteAt]

@[simp] theorem requestBytes_len : fieldAt (requestBytes op r) 4 2 = r.len.toNat := by
  have size := r.len.isLt
  simp only [requestBytes, fieldAt, le, unle, List.cons_append, List.nil_append, List.drop_succ_cons, List.drop_zero,
    List.take_succ_cons, List.take_zero, BitVec.toNat_ofNat]
  omega

variable {op}

theorem requestBytes_op (h : op < 65536) : fieldAt (requestBytes op r) 0 2 = op := by
  simp only [requestBytes_cons, fieldAt, unle, List.drop_zero, List.take_succ_cons, List.take_zero, BitVec.toNat_ofNat]
  omega

theorem requestBytes_payload (o k : Nat) (within : o + k ≤ 248) :
    fieldAt (requestBytes op r) (8 + o) k = fieldAt r.payload o k := by
  rw [fieldAt, drop_requestBytes]
  exact fieldAt_fit r.payload within

end

/-! ### The doorbell's taking of it -/

section
variable {p : Requester} {op : Nat} {r : SpReq} {s : State}

/-- SP_CMD holds the request's bytes. -/
def State.commanded (p : Requester) (op : Nat) (r : SpReq) (s : State) : State :=
  s.modFn (fnOf p) fun x => { x with spCmd := x.spCmd.store 0 (requestBytes op r) }

/-- An opcode whose low byte is not 0 is found in SP_CMD. -/
theorem fn_commanded (low : BitVec.ofNat 8 op ≠ 0) (wf : Memory.wf (s.fn (fnOf p)).spCmd = true) :
    (s.commanded p op r).fn (fnOf p) =
      { s.fn (fnOf p) with spCmd := (s.fn (fnOf p)).spCmd.store 0 (requestBytes op r) } := by
  refine State.fn_modFn_self fun e => low ?_
  have byte := Map.get_store (requestBytes op r) (s.fn (fnOf p)).spCmd 0 0 wf
  have empty : (s.fn (fnOf p)).spCmd.store 0 (requestBytes op r) = [] := congrArg FnState.spCmd e
  rw [empty, if_pos (by simp [length_requestBytes]), requestBytes_cons] at byte
  exact byte.symm

theorem bytes_store {m : Map Byte} (wf : Memory.wf m = true) (bs : List Byte) : (m.store 0 bs).bytes 0 bs.length = bs := by
  refine List.ext_getElem (length_bytes _ _ _) fun i hi hj => ?_
  rw [List.getElem_eq_getD 0, getD_bytes _ _ hj, Map.get_store bs m 0 _ wf, if_pos (by omega), List.getElem_eq_getD 0]
  simp

theorem request_commanded (low : BitVec.ofNat 8 op ≠ 0) (wf : Memory.wf (s.fn (fnOf p)).spCmd = true) :
    (s.commanded p op r).request (fnOf p) = requestBytes op r := by
  rw [State.request, fn_commanded low wf, ← length_requestBytes op r]
  exact bytes_store wf _

theorem taken_eq (s : State) : s.taken p op r = ((s.commanded p op r).withPort p).modFn (fnOf p) fun x =>
    { x with spState := .busy, spTag := r.tag } := rfl

/-- A request that is accepted comes to its command (06 R115). -/
theorem submit_accepted (low : BitVec.ofNat 8 op ≠ 0) (h : Accepted p op r s) :
    s.submit p op r = (s.taken p op r).carryOut (fnOf p) (requestBytes op r) := by
  obtain ⟨-, ⟨on, mc, idle, wf, pf0, qspi⟩, passes⟩ := h
  have fn : ((s.commanded p op r).withPort p).fn (fnOf p) = (s.commanded p op r).fn (fnOf p) := by
    rw [State.fn, withPort_fns, ← State.fn]
  have bytes : ((s.commanded p op r).withPort p).request (fnOf p) = requestBytes op r := by
    rw [State.request, fn, ← State.request, request_commanded low wf]
  have rung : ((s.commanded p op r).withPort p).rung (fnOf p) = s.taken p op r := by
    rw [State.rung, bytes, requestBytes_tag, taken_eq]
  have submitted : s.submit p op r = (s.commanded p op r).writeDoorbell p 1 := if_neg on
  rw [submitted, writeDoorbell_rings (s := s.commanded p op r) on rfl pf0 qspi,
    ring_served _ _, bytes, rung, State.serve, if_neg (not_not.2 passes)]
  · rw [fn, fn_commanded low wf]
    exact idle
  · rw [withPort_mc]
    exact mc

/-- A command whose effect is that of a request, accepted. -/
theorem checked_accepted {c : Instr} {m : String} (low : BitVec.ofNat 8 op ≠ 0) (h : Accepted p op r s)
    (wf : c.wellFormed = r.wellFormed) : checked c m s (s.submit p op r) =
      done s ((s.taken p op r).carryOut (fnOf p) (requestBytes op r)) := by
  rw [checked_eq (wf.trans h.1), submit_accepted low h]

/-- A command outside the VF set is PF0's (06 Table 6.9 check 3). -/
theorem accepted_pf0 {row : CommandRow} (h : Accepted p op r s) (lt : op < 65536) (known : commandRow op = some row)
    (pf : row.vf = false) : fnOf p = 0 := by
  obtain ⟨-, -, passes⟩ := h
  by_contra vf
  unfold State.requestStatus at passes
  rw [requestBytes_op r lt, known] at passes
  dsimp only at passes
  split at passes
  · exact absurd passes (by decide)
  split at passes
  · exact absurd passes (by decide)
  rw [if_pos ⟨vf, by rw [pf]; rfl⟩] at passes
  exact absurd passes (by decide)

/-! ### What taking it leaves -/

theorem Only.taken (p : Requester) (op : Nat) (r : SpReq) (s : State) : Only [.fns, .events, .link] s (s.taken p op r) :=
  ((Only.modFn _ _ s).mono (by decide)).trans
    (((Only.withPort p).mono (by decide)).trans ((Only.modFn _ _ _).mono (by decide)))

end

end Sys2Proof.Machine
end

section
/-! PROOF. The Signpost's answer (06 Tables 6.6, 6.7), and check 8 of a request (06 Table 6.9). -/

namespace Sys2Proof.Machine

/-! ### Answers -/

section
variable {s : State}

/-- The registers of a Signpost that has answered. -/
def FnState.answered (rsp : Map Byte) (status : BitVec 16) (x : FnState) : FnState :=
  { x with spRsp := rsp, spStatus := status, spState := .done, spOwed := none }

theorem respond_eq (f op status detail : Nat) (payload : List Byte) (s : State) : ∃ rsp t,
    t = s.modFn f (FnState.answered rsp (BitVec.ofNat 16 status)) ∧ s.respond f op status detail payload =
      if f = 0 ∧ s.link.hostPort = some .qspi then (t.signal f 1024).qspiSet 1#4 else t.signal f 1024 :=
  ⟨_, _, rfl, rfl⟩

/-- An answer is in SP_STATUS, and changes no more than its function's registers and what it signals. -/
theorem respond_answers (f op status detail : Nat) (payload : List Byte) (s : State) :
    ((s.respond f op status detail payload).fn f).spState = .done ∧
    ((s.respond f op status detail payload).fn f).spStatus = BitVec.ofNat 16 status ∧
    Only [.fns, .events, .irq, .out] s (s.respond f op status detail payload) := by
  obtain ⟨rsp, t, ht, eq⟩ := respond_eq f op status detail payload s
  have answered : t.fn f = (s.fn f).answered rsp (BitVec.ofNat 16 status) := by
    rw [ht]
    exact State.fn_modFn_self (fn_ne_init FnState.spState nofun)
  have rest : Only [.irq, .events, .out] t (s.respond f op status detail payload) := by
    rw [eq]
    exact Only.when ((Only.signal f 1024 t).mono (by decide)) fun x => (Only.qspiSet 1#4 x).mono (by decide)
  have written : Only [.fns, .events, .irq, .out] s t := ht ▸ (Only.modFn f _ s).mono (by decide)
  refine ⟨(regs_of_only rest FnState.spState (fun _ => rfl) (by decide) f).trans ?_,
    (regs_of_only rest FnState.spStatus (fun _ => rfl) (by decide) f).trans ?_, written.trans (rest.mono (by decide))⟩
  · rw [answered]; rfl
  · rw [answered]; rfl

theorem Only.respond (f op status detail : Nat) (payload : List Byte) (s : State) :
    Only [.fns, .events, .irq, .out] s (s.respond f op status detail payload) :=
  (respond_answers f op status detail payload s).2.2

theorem pending_taken (p : Requester) (op : Nat) (r : SpReq) (s : State) : (s.taken p op r).pending = s.pending :=
  (Only.taken p op r s).1

/-- A command that only answers. -/
theorem done_respond (p : Requester) (op : Nat) (r : SpReq) (f o status detail : Nat) (payload : List Byte) :
    done s ((s.taken p op r).respond f o status detail payload) =
      .next ((s.taken p op r).respond f o status detail payload) :=
  done_eq ((Only.respond _ _ _ _ _ _).1.trans (pending_taken p op r s))

theorem ifFields_passed {f op : Nat} {rules : List (Bool × Nat)} (next : State → State)
    (ok : ∀ x ∈ rules, x.1 = false) :
    s.ifFields f op rules next = next s := by
  have none_ : rules.filter (·.1) = [] := List.filter_eq_nil_iff.2 fun x hx => by rw [ok x hx]; decide
  rw [State.ifFields, offendingField, fieldsIf, none_]
  rfl

end

end Sys2Proof.Machine
end

section
/-! PROOF. The commands that load firmware, a Route Book and Milestone (05 R92, R93, R101): each request as its command. -/

namespace Sys2Proof.Machine

/-! ### The request as its command -/

section
variable {p : Requester} {r : SpReq} {s : State}

/-- A command that rings the doorbell with an accepted request has the effect of that request's row (06 R115). -/
theorem exec_accepted {c : Instr} {m : String} {op : Nat} {cmd : State → State} (h : Accepted p op r s)
    (low : BitVec.ofNat 8 op ≠ 0) (wf : c.wellFormed = r.wellFormed)
    (submits : exec c s = checked c m s (s.submit p op r))
    (row : fieldAt (requestBytes op r) 0 2 = op → ∀ t : State, t.carryOut (fnOf p) (requestBytes op r) = cmd t)
    (lt : op < 65536) : exec c s = done s (cmd (s.taken p op r)) := by
  rw [submits, checked_accepted low h wf, row (requestBytes_op r lt)]

theorem exec_fwLoad (h : Accepted p 0x0002 r s) : exec (.fwLoad p r) s =
    done s ((s.taken p 0x0002 r).cmdFwLoad (requestBytes 0x0002 r)) :=
  exec_accepted h (by decide) rfl rfl (fun op t => by rw [State.carryOut, op]; rfl) (by decide)

theorem exec_fwCommit (h : Accepted p 0x0003 r s) : exec (.fwCommit p r) s =
    done s ((s.taken p 0x0003 r).cmdFwCommit (requestBytes 0x0003 r)) :=
  exec_accepted h (by decide) rfl rfl (fun op t => by rw [State.carryOut, op]; rfl) (by decide)

theorem exec_routeCommit (h : Accepted p 0x0005 r s) : exec (.routeCommit p r) s =
    done s ((s.taken p 0x0005 r).cmdRouteCommit (requestBytes 0x0005 r)) :=
  exec_accepted h (by decide) rfl rfl (fun op t => by rw [State.carryOut, op]; rfl) (by decide)

theorem exec_setMilestone (h : Accepted p 0x0007 r s) : exec (.setMilestone p r) s =
    done s ((s.taken p 0x0007 r).cmdSetMilestone (requestBytes 0x0007 r)) :=
  exec_accepted h (by decide) rfl rfl (fun op t => by rw [State.carryOut, op]; rfl) (by decide)

/-! ### Loading firmware -/

/-- The staging store with the bytes of FW_LOAD in it (05 Table 5.3). -/
def State.staged (off : Nat) (data : List Byte) (written : Map Bool) (s : State) : State :=
  { s with fw := { s.fw with stage := s.fw.stage.store off data, written := written } }

theorem Only.staged (off : Nat) (data : List Byte) (written : Map Bool) (s : State) :
    Only [.fw] s (s.staged off data written) := Only.ofFw s _

theorem cmdFwLoad_stores {off : Nat} {data b : List Byte} (s : State) (hoff : off = fieldAt b 8 4)
    (hdata : data = (b.drop 16).take (fieldAt b 4 2 - 8)) (aligned : off % 4 = 0) (fits : off + data.length ≤ 1573472) :
    ∃ written, s.cmdFwLoad b = (s.staged off data written).respond 0 0x0002 0 0 [] := by
  subst hoff hdata
  unfold State.cmdFwLoad
  dsimp only
  rw [ifFields_passed]
  · exact ⟨_, rfl⟩
  · simpa [aligned] using fits

/-- The events beyond the first `n` wait for an answer (06 R126). -/
def FnState.owedFrom (n : Nat) (x : FnState) : FnState :=
  { x with posted := x.posted.take n ++ (x.posted.drop n).map fun e => { e with owed := true } }

theorem markOwed_eq (t s : State) :
    t.markOwed s = (List.range 16).foldl (fun (u : State) f => u.modFn f (FnState.owedFrom (t.fn f).posted.length)) s := rfl

theorem Only.markOwed (t s : State) : Only [.fns, .events] s (t.markOwed s) := Only.foldl _ (fun u f => Only.modFn f _ u) _ s

theorem busy_ne_init {x : FnState} (h : x.spState = .busy) : x ≠ FnState.init :=
  fn_ne_init FnState.spState (by rw [h]; nofun)

theorem busy_taken {op : Nat} (pf0 : fnOf p = 0) : ((s.taken p op r).fn 0).spState = .busy := by
  rw [taken_eq, pf0, State.fn_modFn_self]
  exact busy_ne_init rfl

/-- Waiting for an answer leaves a Signpost BUSY. -/
theorem busy_markOwed {f : Nat} (t : State) {s : State} (h : (s.fn f).spState = .busy) :
    ((t.markOwed s).fn f).spState = .busy := by
  suffices kept : ∀ (l : List Nat) (u : State), (u.fn f).spState = .busy →
      ((l.foldl (fun (u : State) j => u.modFn j (FnState.owedFrom (t.fn j).posted.length)) u).fn f).spState = .busy from
    kept (List.range 16) s h
  intro l
  induction l with
  | nil => exact fun u busy => busy
  | cons j r ih =>
    refine fun u busy => ih _ ?_
    have busy' : ∀ n, ((u.fn f).owedFrom n).spState = .busy := fun _ => busy
    by_cases same : f = j
    · subst same
      rw [State.fn_modFn_self]
      · exact busy' _
      · exact busy_ne_init (busy' _)
    · have kept : (u.modFn j (FnState.owedFrom (t.fn j).posted.length)).fn f = u.fn f :=
        Map.get_set_kept _ _ _ (busy_ne_init busy) same
      rwa [kept]

/-- FW_VERIFY has begun, and the events of that wait for its answer (06 R126). -/
def State.verifying (len : Nat) (s : State) : State :=
  s.markOwed ({ s with fw := { s.fw with commitLen := len } }.enter .fwVerify 0)

theorem verifying_busy (len : Nat) {s : State} (busy : (s.fn 0).spState = .busy) :
    ((s.verifying len).fn 0).spState = .busy ∧ (s.verifying len).devState = .fwVerify ∧
    (s.verifying len).fw = { s.fw with commitLen := len } ∧
    Only [.devState, .fns, .irq, .events, .out, .fw] s (s.verifying len) := by
  have entered := Only.enter .fwVerify 0 { s with fw := { s.fw with commitLen := len } }
  have marked := Only.markOwed s (State.enter .fwVerify 0 { s with fw := { s.fw with commitLen := len } })
  exact ⟨busy_markOwed s ((regs_of_only entered FnState.spState (fun _ => rfl) (by decide) 0).trans busy),
    (marked.get .devState).trans (devState_enter _ _ _), (marked.get .fw).trans (entered.get .fw),
    ((Only.ofFw s _).mono (by decide)).trans ((entered.mono (by decide)).trans (marked.mono (by decide)))⟩

/-- The answer to a command is owed (06 R118). -/
def State.owing (op : BitVec 16) (s : State) : State := s.modFn 0 fun x => { x with spOwed := some op }

theorem owing_owes (op : BitVec 16) (s : State) : ((s.owing op).fn 0).spOwed = some op ∧
    ((s.owing op).fn 0).spState = (s.fn 0).spState := by
  have fn : (s.owing op).fn 0 = { s.fn 0 with spOwed := some op } :=
    State.fn_modFn_self (fn_ne_init FnState.spOwed nofun)
  rw [fn]
  exact ⟨rfl, rfl⟩

theorem Only.owing (op : BitVec 16) (s : State) : Only [.fns, .events] s (s.owing op) := Only.modFn 0 _ s

theorem cmdFwCommit_eq (b : List Byte) (s : State) : s.cmdFwCommit b = (s.verifying (fieldAt b 8 4)).owing 0x0003#16 := rfl

/-! ### Loading a Route Book -/

theorem Only.copyBook (off n : Nat) (s : State) : Only memParts s (s.copyBook off n).2 := by
  refine (Only.readMem .lp none off n s).trans (Only.foldl_snd _ (fun x k => ?_) _ _)
  exact Only.ite_snd ((Only.draw _).mono (by decide)) (Only.refl _ _)

/-- ROUTE_COMMIT's place and length keep within their rules (05 R101). -/
structure BookPlaced (off n usable : Nat) : Prop where
  offAligned : off % 8 = 0
  lenAligned : n % 8 = 0
  least : 72 ≤ n
  most : n ≤ 4194304
  inside : off + n ≤ usable

/-- The copied bytes are the book, and no earlier one is left (05 R101). -/
def State.booked (bytes : List Byte) (n : Nat) (id : BitVec 64) (s : State) : State :=
  { s with fw := { s.fw with bookRaw := bytes, bookLen := n, bookId := id, bookCommitted := true, bookAccepted := false,
                             book := [] } }

theorem Only.booked (bytes : List Byte) (n : Nat) (id : BitVec 64) (s : State) : Only [.fw] s (s.booked bytes n id) :=
  Only.ofFw s _

theorem cmdRouteCommit_eq {off n : Nat} {b : List Byte} {s : State} (hoff : off = fieldAt b 8 8) (hn : n = fieldAt b 16 4)
    (placed : BookPlaced off n s.usable) : ∃ id, s.cmdRouteCommit b =
      (((s.copyBook off n).2.booked (s.copyBook off n).1 n id).enter .validate 0).respond 0 0x0005 0 0 [] := by
  subst hoff hn
  obtain ⟨offAligned, lenAligned, least, most, inside⟩ := placed
  unfold State.cmdRouteCommit
  dsimp only
  rw [ifFields_passed]
  · exact ⟨_, rfl⟩
  · simp [offAligned, lenAligned, least, most, inside]

/-- VALIDATE is entered with the copied book, and the command has its answer. -/
theorem booked_validates (bytes : List Byte) (n : Nat) (id : BitVec 64) (s : State) {t : State}
    (ht : t = ((s.booked bytes n id).enter .validate 0).respond 0 0x0005 0 0 []) :
    t.devState = .validate ∧ t.fw = (s.booked bytes n id).fw ∧ (t.fn 0).spState = .done ∧ (t.fn 0).spStatus = 0#16 ∧
    Only [.devState, .fns, .fw, .events, .irq, .out] s t := by
  have entered := Only.enter .validate 0 (s.booked bytes n id)
  obtain ⟨state, status, answered⟩ := respond_answers 0 0x0005 0 0 [] ((s.booked bytes n id).enter .validate 0)
  rw [← ht] at state status answered
  exact ⟨(answered.get .devState).trans (devState_enter _ _ _), (answered.get .fw).trans (entered.get .fw), state, status,
    ((Only.booked bytes n id s).mono (by decide)).trans ((entered.mono (by decide)).trans (answered.mono (by decide)))⟩

/-! ### Milestone -/

theorem cmdSetMilestone_forward {b : List Byte} {s : State} (h : s.now ≤ fieldAt b 8 8) :
    ∃ payload, s.cmdSetMilestone b = (s.jumpMs (fieldAt b 8 8 - s.now)).respond 0 0x0007 0 0 payload :=
  ⟨_, if_neg (Nat.not_lt.2 h)⟩

theorem cmdSetMilestone_back {b : List Byte} {s : State} (h : fieldAt b 8 8 < s.now) :
    s.cmdSetMilestone b = s.respond 0 0x0007 0x2016 0 [] := if_pos h

end

end Sys2Proof.Machine

open Sys2Proof Sys2Proof.Machine

/-- Settles O28: each request comes to its command, whose effect stands through the answer. -/
theorem loadingCommandsStage : Obligations.LoadingCommandsStage := by
  refine fun p r s => ⟨fun h aligned fits => ?load, fun h => ?commit,
    fun h offAligned lenAligned least most inside => ?route, fun h forward => ?forward, fun h back => ?back⟩
  case load =>
    have off : fieldAt (requestBytes 0x0002 r) 8 4 = fieldAt r.payload 0 4 :=
      requestBytes_payload r 0 4 (by decide)
    have data : ((fit 248 0 r.payload).drop 8).take (r.len.toNat - 8) =
        ((requestBytes 0x0002 r).drop 16).take (fieldAt (requestBytes 0x0002 r) 4 2 - 8) := by
      rw [requestBytes_len, ← drop_requestBytes 0x0002]
    obtain ⟨written, eq⟩ := cmdFwLoad_stores (s.taken p 0x0002 r) off.symm data aligned (by rw [List.length_take]; omega)
    have taken := Only.taken p 0x0002 r s
    rw [exec_fwLoad h, eq]
    generalize ((fit 248 0 r.payload).drop 8).take (r.len.toNat - 8) = bytes
    obtain ⟨state, status, answered⟩ := respond_answers 0 0x0002 0 0 []
      ((s.taken p 0x0002 r).staged (fieldAt r.payload 0 4) bytes written)
    have staged := Only.staged (fieldAt r.payload 0 4) bytes written (s.taken p 0x0002 r)
    have whole : Only [.fns, .link, .irq, .events, .out, .fw] s _ :=
      (taken.mono (by decide)).trans ((staged.mono (by decide)).trans (answered.mono (by decide)))
    refine goes_done whole ⟨?_, whole.get .devState, state, status, whole⟩
    rw [answered.get .fw]
    exact congrArg (fun x : FwSt => x.stage.store _ _) (taken.get .fw)
  case commit =>
    have len : fieldAt (requestBytes 0x0003 r) 8 4 = fieldAt r.payload 0 4 :=
      requestBytes_payload r 0 4 (by decide)
    have taken := Only.taken p 0x0003 r s
    have busy := busy_taken (s := s) (r := r) (op := 0x0003) (accepted_pf0 h (by decide) rfl rfl)
    rw [exec_fwCommit h, cmdFwCommit_eq, len]
    obtain ⟨state, entered, fw, kept⟩ := verifying_busy (fieldAt r.payload 0 4) busy
    have owing := Only.owing 0x0003#16 ((s.taken p 0x0003 r).verifying (fieldAt r.payload 0 4))
    have whole : Only [.devState, .fns, .link, .irq, .events, .out, .fw] s _ :=
      (taken.mono (by decide)).trans ((kept.mono (by decide)).trans (owing.mono (by decide)))
    obtain ⟨owed, sp⟩ := owing_owes 0x0003#16 ((s.taken p 0x0003 r).verifying (fieldAt r.payload 0 4))
    refine goes_done whole
      ⟨(owing.get .devState).trans entered, (owing.get .fw).trans (fw.trans ?_), sp.trans state, owed, whole⟩
    exact congrArg (fun x : FwSt => { x with commitLen := fieldAt r.payload 0 4 }) (taken.get .fw)
  case route =>
    have off : fieldAt (requestBytes 0x0005 r) 8 8 = fieldAt r.payload 0 8 :=
      requestBytes_payload r 0 8 (by decide)
    have len : fieldAt (requestBytes 0x0005 r) 16 4 = fieldAt r.payload 8 4 :=
      requestBytes_payload r 8 4 (by decide)
    have taken := Only.taken p 0x0005 r s
    have mem : (s.taken p 0x0005 r).mem = s.mem := taken.get .mem
    have usable : (s.taken p 0x0005 r).usable = s.usable := by rw [State.usable, mem, ← State.usable]
    obtain ⟨id, eq⟩ := cmdRouteCommit_eq off.symm len.symm
      ⟨offAligned, lenAligned, least, most, usable.symm ▸ inside⟩
    rw [exec_routeCommit h, eq]
    have copied := Only.copyBook (fieldAt r.payload 0 8) (fieldAt r.payload 8 4) (s.taken p 0x0005 r)
    generalize (s.taken p 0x0005 r).copyBook (fieldAt r.payload 0 8) (fieldAt r.payload 8 4) = x at copied ⊢
    obtain ⟨validate, fw, state, status, kept⟩ := booked_validates x.1 (fieldAt r.payload 8 4) id x.2 rfl
    have whole : Only (.devState :: .fns :: .link :: .fw :: memParts) s _ :=
      (taken.mono (by decide)).trans ((copied.mono (by decide)).trans (kept.mono (by decide)))
    refine goes_done whole ⟨validate, ?_, ?_, ?_, ?_, ?_, state, status, whole⟩
    all_goals rw [fw]; rfl
  case forward =>
    have value : fieldAt (requestBytes 0x0007 r) 8 8 = fieldAt r.payload 0 8 :=
      requestBytes_payload r 0 8 (by decide)
    have taken := Only.taken p 0x0007 r s
    have time : (s.taken p 0x0007 r).time = s.time := taken.get .time
    have now : (s.taken p 0x0007 r).now = s.time.ms := by rw [State.now, time]
    obtain ⟨payload, eq⟩ := cmdSetMilestone_forward (b := requestBytes 0x0007 r) (s := s.taken p 0x0007 r)
      (by rw [value, now]; exact forward)
    rw [value, now] at eq
    rw [exec_setMilestone h, eq]
    have jumped := Only.jumpMs (fieldAt r.payload 0 8 - s.time.ms) (s.taken p 0x0007 r)
    obtain ⟨state, status, answered⟩ := respond_answers 0 0x0007 0 0 payload
      ((s.taken p 0x0007 r).jumpMs (fieldAt r.payload 0 8 - s.time.ms))
    have whole : Only [.time, .mc, .pace, .sched, .verge, .ports, .fns, .link, .irq, .events, .out] s _ :=
      (taken.mono (by decide)).trans ((jumped.mono (by decide)).trans (answered.mono (by decide)))
    refine goes_done whole ⟨?_, ?_, ?_, state, status, whole⟩
    · simp [time]
      omega
    · simp [time]
    · simp [time]
  case back =>
    have value : fieldAt (requestBytes 0x0007 r) 8 8 = fieldAt r.payload 0 8 :=
      requestBytes_payload r 0 8 (by decide)
    have time : (s.taken p 0x0007 r).time = s.time := (Only.taken p 0x0007 r s).get .time
    rw [exec_setMilestone h, cmdSetMilestone_back (by rw [value, State.now, time]; exact back)]
    exact done_respond p 0x0007 r 0 0x0007 0x2016 0 []
end

section
/-! PROOF. How the stages of bring-up end (05 R93, R94, R96, R103, R104, R108): FW_VERIFY, the self-test, VALIDATE and the
retest of CLEAR_FAULT. -/

namespace Sys2Proof.Machine

section
variable {s : State}

theorem Only.ofFree (s : State) (n : Nat) : Only [.free] s { s with free := n } :=
  ⟨rfl, fun p hp => by cases p <;> first | rfl | exact fun _ => rfl | exact absurd (by decide) hp⟩

/-! ### FW_VERIFY -/

/-- The image is discarded (05 R94). -/
def State.imageDropped (s : State) : State := { s with fw := { s.fw with stage := [], written := [], commitLen := 0 } }

/-- The image's version, book format and key slot are taken from its header (05 Table 5.4). -/
def State.imageTaken (s : State) : State :=
  { s with fw := { s.fw with version := BitVec.ofNat 32 (s.imageField 0xC 4),
                             rbFormat := BitVec.ofNat 16 (s.imageField 0x10 2),
                             keySlot := BitVec.ofNat 8 (s.imageField 6 1) } }

theorem fwVerifyEnd_fails (on : s.devState = .fwVerify) (mc : s.mc.lost = false) (bad : s.imageStatus ≠ 0) :
    exec .fwVerifyEnd s =
      done s ((s.imageDropped.enter .romWait s.imageStatus).respond 0 3 s.imageStatus 0 []) := by
  change execFwVerifyEnd s = _
  rw [execFwVerifyEnd, if_neg (by simp [on, mc])]
  dsimp only
  rw [if_pos bad]
  rfl

theorem fwVerifyEnd_passes (on : s.devState = .fwVerify) (mc : s.mc.lost = false) (good : s.imageStatus = 0) :
    ∃ payload, exec .fwVerifyEnd s =
      done s (((s.imageTaken.vcoreCommand 750).enter .selftest 0).respond 0 3 0 0 payload) := by
  change ∃ payload, execFwVerifyEnd s = _
  rw [execFwVerifyEnd, if_neg (by simp [on, mc])]
  dsimp only
  rw [if_neg (not_not.2 good)]
  exact ⟨_, rfl⟩

theorem imageDropped_waits (st : Nat) (s : State) {t : State}
    (ht : t = (s.imageDropped.enter .romWait st).respond 0 3 st 0 []) : (t.fn 0).spState = .done ∧
    (t.fn 0).spStatus = BitVec.ofNat 16 st ∧ t.devState = .romWait ∧ t.fw.stage = [] ∧ t.fw.version = s.fw.version ∧
    t.pending = s.pending := by
  have entered := Only.enter .romWait st s.imageDropped
  obtain ⟨state, status, answered⟩ := respond_answers 0 3 st 0 [] (s.imageDropped.enter .romWait st)
  rw [← ht] at state status answered
  have fw := (answered.get .fw).trans (entered.get .fw)
  exact ⟨state, status, (answered.get .devState).trans (devState_enter _ _ _), congrArg FwSt.stage fw,
    by rw [fw]; rfl, answered.1.trans entered.1⟩

theorem imageTaken_tests (payload : List Byte) (s : State) {t : State}
    (ht : t = ((s.imageTaken.vcoreCommand 750).enter .selftest 0).respond 0 3 0 0 payload) : (t.fn 0).spState = .done ∧
    (t.fn 0).spStatus = BitVec.ofNat 16 0 ∧ t.devState = .selftest ∧
    t.fw.version = BitVec.ofNat 32 (s.imageField 0xC 4) ∧ t.pending = s.pending := by
  have commanded := Only.vcoreCommand 750 s.imageTaken
  have entered := Only.enter .selftest 0 (s.imageTaken.vcoreCommand 750)
  obtain ⟨state, status, answered⟩ := respond_answers 0 3 0 0 payload ((s.imageTaken.vcoreCommand 750).enter .selftest 0)
  rw [← ht] at state status answered
  have fw := (answered.get .fw).trans ((entered.get .fw).trans (commanded.get .fw))
  exact ⟨state, status, (answered.get .devState).trans (devState_enter _ _ _), congrArg FwSt.version fw,
    answered.1.trans (entered.1.trans commanded.1)⟩

/-! ### The self-test -/

theorem Only.stoTest (fail : Option TestFail) (s : State) : Only [.out] s (s.stoTest fail) := by
  have drives (last k : Nat) (o : Out) (t : State) : Only [.out] t (if k ≤ last then t.emit o else t) :=
    Only.ite (fun _ => Only.emit o t) fun _ => Only.refl _ t
  unfold State.stoTest
  extract_lets last at_ s1
  have raised : Only [.out] s s1 := ((drives last 2 _ s).trans (drives last 3 _ _)).trans (drives last 4 _ _)
  exact Only.ite (fun _ => raised.trans (Only.emit _ _)) fun _ =>
    Only.ite (fun _ => raised.trans (Only.emit _ _)) fun _ => raised

/-- A failed step leads to HELD with its report (05 R96, R105). -/
theorem testFailed_held (e : TestFail) (s : State) : (s.testFailed e).devState = .held ∧
    (s.testFailed e).fw.report = e.report ∧ (s.testFailed e).fw.testResult = e.results ∧
    (s.testFailed e).fw.testPassed = false ∧ Only [.devState, .fw, .out, .events, .irq] s (s.testFailed e) := by
  unfold State.testFailed
  generalize hu : ({ s with fw := _ } : State) = u
  have reported : Only [.fw] s u := hu ▸ Only.ofFw s _
  have entered := Only.enter .held e.status u
  refine ⟨devState_enter _ _ _, ?_, ?_, ?_, (reported.mono (by decide)).trans (entered.mono (by decide))⟩
  all_goals rw [entered.get .fw, ← hu]

theorem Only.zeroSward (s : State) : Only memParts s s.zeroSward :=
  (Only.zeroRange .sw 0 swardSize s).trans (Only.zeroRange .tag 0 _ _)

/-- The state that a passed self-test leaves, before the memories are zeroed. -/
def State.testsPassed (s : State) : State :=
  { s with fw := { s.fw with testResult := List.replicate 8 1, testStatus := 0, testPassed := true, runSinceZero := false,
                             scrubbing := true },
           pace := { s.pace with unconfirmed := false, pending := none } }

theorem Only.testsPassed (s : State) : Only [.fw, .pace] s s.testsPassed :=
  ⟨rfl, fun p hp => by cases p <;> first | rfl | exact fun _ => rfl | exact absurd (by decide) hp⟩

/-- Every granule of `gs` is pending and MEM_ZERO_DONE owed (08 R160). -/
def State.allPending (gs : List Nat) (s : State) : State :=
  { s with mem := { s.mem with pendGran := gs, zeroOwed := true } }.zeroDone

theorem Only.allPending (gs : List Nat) (s : State) : Only memParts s (s.allPending gs) :=
  ((Only.ofMem s _).mono (by decide)).trans (Only.zeroDone _)

theorem testsDone_eq (s : State) :
    s.testsDone = (s.testsPassed.zeroSward.allPending s.allGranules).enter .awaitRoute 0 := rfl

theorem testsDone_awaits (s : State) : s.testsDone.devState = .awaitRoute ∧ s.testsDone.fw = s.testsPassed.fw ∧
    Only (.devState :: .fw :: .pace :: memParts) s s.testsDone := by
  have zeroed := (Only.zeroSward s.testsPassed).trans (Only.allPending s.allGranules _)
  have entered := Only.enter .awaitRoute 0 (s.testsPassed.zeroSward.allPending s.allGranules)
  rw [testsDone_eq]
  exact ⟨devState_enter _ _ _, (entered.get .fw).trans (zeroed.get .fw),
    ((Only.testsPassed s).mono (by decide)).trans ((zeroed.mono (by decide)).trans (entered.mono (by decide)))⟩

/-- The self-test as its observations leave it: the STO channels driven, and what they were drawn. -/
def State.tested (fail : Option TestFail) (s : State) : State := { s.stoTest fail with free := s.free + 1 }

theorem Only.tested (fail : Option TestFail) (s : State) : Only [.out, .free] s (s.tested fail) :=
  ((Only.stoTest fail s).mono (by decide)).trans ((Only.ofFree _ _).mono (by decide))

theorem selftestEnd_fails {obs : SelfTestObs} {e : TestFail} (on : s.devState = .selftest) (mc : s.mc.lost = false)
    (fails : s.firstFail obs = some e) : exec (.selftestEnd obs) s = done s ((s.tested (some e)).testFailed e) := by
  change execSelftestEnd obs s = _
  rw [execSelftestEnd, if_neg (by simp [on, mc])]
  dsimp only
  rw [fails]
  rfl

theorem selftestEnd_passes {obs : SelfTestObs} (on : s.devState = .selftest) (mc : s.mc.lost = false)
    (passes : s.firstFail obs = none) : exec (.selftestEnd obs) s = done s (s.tested none).testsDone := by
  change execSelftestEnd obs s = _
  rw [execSelftestEnd, if_neg (by simp [on, mc])]
  dsimp only
  rw [passes]
  rfl

/-! ### VALIDATE -/

theorem timeRec_of_book {t : State} (h : t.fw.book = s.fw.book) : t.timeRec = s.timeRec := by
  rw [State.timeRec, State.recs, h, ← State.recs, ← State.timeRec]

theorem Only.freeRun (s : State) : Only [.time, .events, .irq, .out] s s.freeRun := Only.timeThenDiscipline .free _ s

/-- Without a time source Milestone runs free (02 R42). -/
theorem dropSource_free (h : ∀ r, s.timeRec = some r → 2 ≤ r.u 8 1) : s.dropSource = s.freeRun := by
  unfold State.dropSource
  split
  · rename_i r hr
    exact if_neg (Nat.not_lt.2 (h r hr))
  · rfl

theorem Only.dropSource (s : State) : Only [.time, .events, .irq, .out] s s.dropSource := by
  unfold State.dropSource
  split
  · exact Only.ite (fun _ => Only.refl _ s) fun _ => Only.freeRun s
  · exact Only.freeRun s

theorem routeResult_held (e : Report) (s : State) : (s.routeResult e).devState = .held ∧
    (s.routeResult e).fw = { s.fw with report := e } ∧ Only [.devState, .fw, .events, .irq, .out] s (s.routeResult e) := by
  have entered := Only.enter .held e.status.toNat { s with fw := { s.fw with report := e } }
  have posted := Only.post 0x0002 (e.status.toNat + e.stage * 65536) none
    ({ s with fw := { s.fw with report := e } }.enter .held e.status.toNat)
  exact ⟨(posted.get .devState).trans (devState_enter _ _ _), (posted.get .fw).trans (entered.get .fw),
    ((Only.ofFw s _).mono (by decide)).trans ((entered.mono (by decide)).trans (posted.mono (by decide)))⟩

/-- How VALIDATE ends for a device whose book has been taken or dropped: HELD with the report, and without a time source
Milestone runs free at the nominal increment (02 R42). -/
theorem validated_held (e : Report) (s : State) {t : State} (ht : t = s.dropSource.routeResult e) :
    t.devState = .held ∧ t.fw.book = s.fw.book ∧ t.fw.bookAccepted = s.fw.bookAccepted ∧ t.fw.report = e ∧
    t.pools = s.pools ∧ t.time.ms = s.time.ms ∧
    ((∀ r, s.timeRec = some r → 2 ≤ r.u 8 1) → t.time.disc = .free ∧ t.time.inc = 5 * 2 ^ 32) ∧
    Only [.devState, .fw, .time, .out, .events, .irq] s t := by
  have dropped := Only.dropSource s
  obtain ⟨held, fw, kept⟩ := routeResult_held e s.dropSource
  have time := State.routeResult_time s.dropSource e
  rw [← ht] at held fw kept time
  rw [dropped.get .fw] at fw
  refine ⟨held, by rw [fw], by rw [fw], by rw [fw],
    (kept.get .pools).trans (dropped.get .pools), ?_, fun sourceless => ?_,
    (dropped.mono (by decide)).trans (kept.mono (by decide))⟩
  · rw [time, (countStands_dropSource s).ms]
  · rw [time, dropSource_free sourceless, State.freeRun_time]
    exact ⟨rfl, rfl⟩

/-- A refused book is dropped (05 R104). -/
def State.bookRefused (s : State) : State := { s with fw := { s.fw with book := [], bookAccepted := false } }

theorem Only.bookRefused (s : State) : Only [.fw] s s.bookRefused := Only.ofFw s _

/-- An accepted book is in force, and no pool of an earlier one is registered (12 R243). -/
def State.bookTaken (recs : List Rec) (s : State) : State :=
  { s with fw := { s.fw with book := recs, bookAccepted := true } }.unregister fun _ => true

theorem bookTaken_keeps (recs : List Rec) (s : State) :
    (s.bookTaken recs).fw = { s.fw with book := recs, bookAccepted := true } ∧ (s.bookTaken recs).pools = [] ∧
    Only (.fw :: .pools :: memParts) s (s.bookTaken recs) := by
  have unregistered := Only.unregister (fun _ => true) { s with fw := { s.fw with book := recs, bookAccepted := true } }
  exact ⟨unregistered.get .fw, (pools_unregister (fun _ => true) _).trans (by simp),
    ((Only.ofFw s _).mono (by decide)).trans (unregistered.mono (by decide))⟩

/-- Sward is zeroed when RUN has been entered since it last was (08 R162). -/
def State.swardFresh (s : State) : State :=
  if s.fw.runSinceZero then { s with fw := { s.fw with runSinceZero := false } }.zeroSward else s

theorem swardFresh_keeps (s : State) : s.swardFresh.fw = { s.fw with runSinceZero := false } ∧
    Only (.fw :: memParts) s s.swardFresh := by
  unfold State.swardFresh
  by_cases ran : s.fw.runSinceZero = true
  · have zeroed := Only.zeroSward { s with fw := { s.fw with runSinceZero := false } }
    rw [if_pos ran]
    exact ⟨zeroed.get .fw, ((Only.ofFw s _).mono (by decide)).trans (zeroed.mono (by decide))⟩
  · rw [if_neg ran]
    exact ⟨by rw [← Bool.eq_false_of_not_eq_true ran], Only.refl _ s⟩

/-- The loop tables of the accepted book (15 R300), and the Twin's window from `now` on. -/
def State.tablesLoaded (now : Nat) (s : State) : State :=
  ((List.range 32).foldl (fun (t : State) l => t.modLoop l fun x =>
    { x with tables := t.bookTables l, shadow := t.bookTables l, commitTbl := none }) s).modTwin fun t =>
      { t with winStart := now, misses := 0 }

theorem acceptBook_eq (recs : List Rec) (s : State) : s.acceptBook recs =
    (((s.bookTaken recs).markPending (s.bookTaken recs).shareGranules).swardFresh).tablesLoaded s.now := rfl

theorem Only.tablesLoaded (now : Nat) (s : State) : Only [.loops, .verge] s (s.tablesLoaded now) :=
  ((Only.foldl (ps := [.loops]) _ (fun t l => Only.modLoop l _ t) _ s).mono (by decide)).trans
    (Only.mono (ps := [.verge]) (Only.ofVergeKeep _ _ rfl) (by decide))

/-- A book that is accepted is kept, and no pool of an earlier one is left. -/
theorem acceptBook_keeps (recs : List Rec) (s : State) : (s.acceptBook recs).fw.book = recs ∧
    (s.acceptBook recs).fw.bookAccepted = true ∧ (s.acceptBook recs).pools = [] ∧
    Only (.fw :: .pools :: .loops :: .verge :: memParts) s (s.acceptBook recs) := by
  obtain ⟨fw, pools, taken⟩ := bookTaken_keeps recs s
  rw [acceptBook_eq]
  have pending := Only.markPending (s.bookTaken recs).shareGranules (s.bookTaken recs)
  generalize (s.bookTaken recs).markPending (s.bookTaken recs).shareGranules = t at pending ⊢
  obtain ⟨fresh, zeroed⟩ := swardFresh_keeps t
  have loaded := Only.tablesLoaded s.now t.swardFresh
  have rest : Only (.fw :: .loops :: .verge :: memParts) (s.bookTaken recs) (t.swardFresh.tablesLoaded s.now) :=
    (pending.mono (by decide)).trans ((zeroed.mono (by decide)).trans (loaded.mono (by decide)))
  have book : (t.swardFresh.tablesLoaded s.now).fw =
      { s.fw with book := recs, bookAccepted := true, runSinceZero := false } := by
    have same : t.fw = (s.bookTaken recs).fw := pending.get .fw
    rw [loaded.get .fw, fresh, same, fw]
  refine ⟨?_, ?_, (rest.get .pools).trans pools, (taken.mono (by decide)).trans (rest.mono (by decide))⟩
  · rw [book]
  · rw [book]

theorem validateEnd_refused {fault : Option Nat} {e : Report} (on : s.devState = .validate) (mc : s.mc.lost = false)
    (refused : s.judgeBook fault = .error e) : exec (.validateEnd fault) s =
      done s (s.bookRefused.dropSource.routeResult e) := by
  change execValidateEnd fault s = _
  rw [execValidateEnd, if_neg (by simp [on, mc]), refused]
  rfl

theorem validateEnd_accepted {fault : Option Nat} {recs : List Rec} (on : s.devState = .validate) (mc : s.mc.lost = false)
    (accepted : s.judgeBook fault = .ok recs) : exec (.validateEnd fault) s =
      done s ((s.acceptBook recs).dropSource.routeResult Report.init) := by
  change execValidateEnd fault s = _
  rw [execValidateEnd, if_neg (by simp [on, mc]), accepted]

/-! ### The retest -/

/-- The STO channels have been tested, and the outputs are in their reset state (05 R108). -/
def State.retested (fail : Option TestFail) (s : State) : State := (s.stoTest fail).outputsDown

theorem retested_low (fail : Option TestFail) (s : State) : (s.retested fail).outputsUp = false ∧
    (s.retested fail).verge.stoA = false ∧ (s.retested fail).verge.stoB = false ∧
    Only [.outputsUp, .verge, .cams, .ports, .out] s (s.retested fail) := by
  obtain ⟨low, stoA, stoB, -⟩ := outputsDown_low (s.stoTest fail)
  exact ⟨low, stoA, stoB, ((Only.stoTest fail s).mono (by decide)).trans (Only.outputsDown _)⟩

/-- The answer to CLEAR_FAULT after a retest that led to HELD, with the outputs down. -/
theorem retest_answers {u v : State} (op status : Nat) (payload : List Byte)
    (down : u.outputsUp = false ∧ u.verge.stoA = false ∧ u.verge.stoB = false ∧
      Only [.outputsUp, .verge, .cams, .ports, .out] s u)
    (held : v.devState = .held) (kept : Only [.devState, .fw, .out, .events, .irq] u v) {t : State}
    (ht : t = v.respond 0 op status 0 payload) : t.devState = .held ∧ (t.fn 0).spState = .done ∧ t.outputsUp = false ∧
    t.verge.stoA = false ∧ t.verge.stoB = false ∧ (t.fn 0).spStatus = BitVec.ofNat 16 status ∧ t.fw = v.fw ∧
    Only [.devState, .fw, .fns, .events, .irq, .out, .outputsUp, .verge, .cams, .ports] s t := by
  obtain ⟨low, stoA, stoB, only⟩ := down
  obtain ⟨state, spStatus, answered⟩ := respond_answers 0 op status 0 payload v
  rw [← ht] at state spStatus answered
  have after : Only [.devState, .fw, .fns, .events, .irq, .out] u t :=
    (kept.mono (by decide)).trans (answered.mono (by decide))
  obtain ⟨-, -, sameA, sameB⟩ := stop_of_only after (by decide)
  exact ⟨(answered.get .devState).trans held, state, (after.get .outputsUp).trans low, sameA.trans stoA, sameB.trans stoB,
    spStatus, answered.get .fw, (only.mono (by decide)).trans (after.mono (by decide))⟩

theorem retestEnd_fails {obs : SelfTestObs} {e : TestFail} (on : s.devState = .fault) (mc : s.mc.lost = false)
    (owed : (s.fn 0).spOwed = some 0x0009#16) (fails : s.retestFail obs = some e) : exec (.clearFaultRetestEnd obs) s =
      done s (((s.retested (some e)).testFailed e).respond 0 9 e.status 0 []) := by
  change execClearFaultRetestEnd obs s = _
  rw [execClearFaultRetestEnd, if_neg (by simp [on, mc, owed])]
  dsimp only
  rw [fails]
  rfl

theorem retestEnd_passes {obs : SelfTestObs} (on : s.devState = .fault) (mc : s.mc.lost = false)
    (owed : (s.fn 0).spOwed = some 0x0009#16) (passes : s.retestFail obs = none) :
    ∃ payload, exec (.clearFaultRetestEnd obs) s =
      done s (((s.retested none).enter .held 0).respond 0 9 0 0 payload) := by
  change ∃ payload, execClearFaultRetestEnd obs s = _
  rw [execClearFaultRetestEnd, if_neg (by simp [on, mc, owed])]
  dsimp only
  rw [passes]
  exact ⟨_, rfl⟩

end

end Sys2Proof.Machine

open Sys2Proof Sys2Proof.Machine

/-- Settles O33: each stage by whether it passes, through what its end and its answer leave. -/
theorem bringUpStagesEnd : Obligations.BringUpStagesEnd := by
  refine fun s mc => ⟨fun on => ?verify, fun obs e on fails => ?testFails, fun obs on passes => ?testPasses,
    fun fault e on refused => ?refused, fun fault recs on accepted => ?accepted, fun obs on owed => ?retest⟩
  case verify =>
    by_cases good : s.imageStatus = 0
    · obtain ⟨payload, eq⟩ := fwVerifyEnd_passes on mc good
      obtain ⟨state, status, test, version, pending⟩ := imageTaken_tests payload s rfl
      rw [eq]
      exact goes_done_of pending ⟨state, status.trans (by rw [good]), by rw [if_pos good]; exact ⟨test, version⟩⟩
    · obtain ⟨state, status, rom, stage, version, pending⟩ := imageDropped_waits s.imageStatus s rfl
      rw [fwVerifyEnd_fails on mc good]
      exact goes_done_of pending ⟨state, status, by rw [if_neg good]; exact ⟨rom, stage, version⟩⟩
  case testFails =>
    obtain ⟨held, report, results, failed, kept⟩ := testFailed_held e (s.tested (some e))
    have whole : Only [.devState, .fw, .free, .out, .events, .irq] s _ :=
      ((Only.tested (some e) s).mono (by decide)).trans (kept.mono (by decide))
    rw [selftestEnd_fails on mc fails]
    exact goes_done whole ⟨held, report, results, failed, whole⟩
  case testPasses =>
    obtain ⟨awaits, fw, kept⟩ := testsDone_awaits (s.tested none)
    have whole : Only (.devState :: .fw :: .pace :: memParts) s _ :=
      ((Only.tested none s).mono (by decide)).trans (kept.mono (by decide))
    rw [selftestEnd_passes on mc passes]
    exact goes_done whole
      ⟨awaits, congrArg FwSt.testPassed fw, congrArg FwSt.testResult fw, congrArg FwSt.scrubbing fw, whole⟩
  case refused =>
    obtain ⟨held, book, inForce, report, -, ms, free, kept⟩ := validated_held e s.bookRefused rfl
    obtain ⟨disc, inc⟩ := free fun r named => absurd (show none = some r from named) nofun
    have whole : Only [.devState, .fw, .time, .out, .events, .irq] s _ :=
      ((Only.bookRefused s).mono (by decide)).trans kept
    rw [validateEnd_refused on mc refused]
    exact goes_done whole ⟨held, book, inForce, report, disc, inc, ms, whole⟩
  case accepted =>
    obtain ⟨book, inForce, none_, taken⟩ := acceptBook_keeps recs s
    have time : (s.acceptBook recs).time = s.time := taken.get .time
    rw [validateEnd_accepted on mc accepted]
    generalize s.acceptBook recs = u at book inForce none_ taken time ⊢
    obtain ⟨held, sameBook, sameForce, report, pools, ms, free, kept⟩ := validated_held Report.init u rfl
    have whole : Only (.devState :: .fw :: .time :: .pools :: .loops :: .verge :: memParts) s _ :=
      (taken.mono (by decide)).trans (kept.mono (by decide))
    exact goes_done whole ⟨held, sameBook.trans book, sameForce.trans inForce, report, pools.trans none_,
      fun sourceless => free fun r named => sourceless r ((timeRec_of_book sameBook).trans named),
      ms.trans (congrArg TimeSt.ms time), whole⟩
  case retest =>
    cases result : s.retestFail obs with
    | none =>
      obtain ⟨payload, eq⟩ := retestEnd_passes on mc owed result
      have entered := Only.enter .held 0 (s.retested none)
      obtain ⟨held, state, low, stoA, stoB, status, fw, whole⟩ := retest_answers 9 0 payload (retested_low none s)
        (devState_enter .held 0 _) (entered.mono (by decide)) rfl
      have same : (s.retested none).fw = s.fw := (retested_low none s).2.2.2.get .fw
      rw [eq]
      exact goes_done whole
        ⟨held, state, low, stoA, stoB, fun _ => ⟨status, fw.trans ((entered.get .fw).trans same)⟩, nofun, whole⟩
    | some e =>
      obtain ⟨isHeld, report, -, failed, kept⟩ := testFailed_held e (s.retested (some e))
      obtain ⟨held, state, low, stoA, stoB, status, fw, whole⟩ := retest_answers 9 e.status [] (retested_low (some e) s)
        isHeld kept rfl
      rw [retestEnd_fails on mc owed result]
      refine goes_done whole ⟨held, state, low, stoA, stoB, nofun, fun e' same => ?_, whole⟩
      cases same
      exact ⟨status, (congrArg FwSt.report fw).trans report, (congrArg FwSt.testPassed fw).trans failed⟩
end

section
/-! PROOF. START (05 R106 to R108): what an accepted one clears and brings up, and the refusals. -/

namespace Sys2Proof.Machine

/-! ### What is cleared -/

/-- A Waymark slot with zero headers (01 R18). -/
def WmSlot.zeroed (w : WmSlot) : WmSlot :=
  { w with half0 := w.half0.zeroHeader, half1 := w.half1.zeroHeader, active1 := false }

/-- The headers of both halves read zero. -/
def WmSlot.Zero (w : WmSlot) : Prop :=
  ∀ h, h = w.half0 ∨ h = w.half1 → h.seq = 0 ∧ h.writer = 0 ∧ h.length = 0 ∧ h.stamp = 0

theorem WmSlot.zero_zeroed (w : WmSlot) : w.zeroed.Zero := by
  rintro h (rfl | rfl) <;> exact ⟨rfl, rfl, rfl, rfl⟩

/-- Slots zeroed one after the other. -/
theorem zero_foldl (l : List Nat) : ∀ (m : Map WmSlot) (k : Nat), Map.wf WmSlot.init m = true →
    (k ∈ l ∨ (m.get WmSlot.init k).Zero) →
    ((l.foldl (fun (m : Map WmSlot) k => m.set WmSlot.init k (m.get WmSlot.init k).zeroed) m).get WmSlot.init k).Zero := by
  induction l with
  | nil => exact fun m k _ h => h.resolve_left List.not_mem_nil
  | cons j r ih =>
    intro m k wf h
    refine ih _ k (Map.wf_set _ _ _ _ wf) ?_
    rw [Map.get_set _ _ _ _ _ wf]
    by_cases here : k = j
    · rw [if_pos here]
      exact .inr (WmSlot.zero_zeroed _)
    · rw [if_neg here]
      exact h.imp_left fun listed => (List.mem_cons.1 listed).resolve_left here

section
variable {s : State}

theorem zeroWaymarks_eq (s : State) : s.zeroWaymarks.waymarks =
    (List.range 64).foldl (fun (m : Map WmSlot) k => m.set WmSlot.init k (m.get WmSlot.init k).zeroed) s.waymarks := by
  unfold State.zeroWaymarks WmSlot.zeroed
  dsimp only

theorem waymarks_zeroWaymarks (wf : Map.wf WmSlot.init s.waymarks = true) {k : Nat} (lt : k < 64) :
    (s.zeroWaymarks.waymarks.get WmSlot.init k).Zero := by
  rw [zeroWaymarks_eq]
  exact zero_foldl (List.range 64) s.waymarks k wf (.inl (List.mem_range.2 lt))

theorem Only.zeroWaymarks (s : State) : Only [.waymarks] s s.zeroWaymarks := Only.ofWaymarks s _

/-- Queues and counters begin again, and the Scoreboard keeps what still runs (07 R146, R147; 09 R197). -/
def State.workDropped (s : State) : State :=
  { s with counters := [], queues := [],
           sched := { s.sched with flight := s.sched.flight.filter (·.running), outcomes := [], lastWriter := [] } }

theorem Only.workDropped (s : State) : Only [.counters, .queues, .sched] s s.workDropped :=
  ⟨rfl, fun p hp => by cases p <;> first | rfl | exact fun _ => rfl | exact absurd (by decide) hp⟩

theorem freshWork_eq (s : State) :
    s.freshWork = (s.workDropped.reloadCredits.unregister fun _ => true).closeIntake fun _ => true := rfl

theorem freshWork_clears (s : State) : s.freshWork.queues = [] ∧ s.freshWork.counters = [] ∧ s.freshWork.pools = [] ∧
    s.freshWork.intake = { streams := [], dicts := [] } ∧
    s.freshWork.sched.flight = s.sched.flight.filter (·.running) ∧
    Only [.counters, .queues, .sched, .pools, .mem, .events, .irq, .out, .intake] s s.freshWork := by
  have dropped := (Only.workDropped s).mono (qs := [.counters, .queues, .sched]) (by decide)
  have credits : Only [.sched] s.workDropped s.workDropped.reloadCredits := Only.ofSched _ _
  have unregistered := Only.unregister_pending (fun _ => true) s.workDropped.reloadCredits
  have closed := Only.closeIntake (fun _ => true) (s.workDropped.reloadCredits.unregister fun _ => true)
  have pools : (s.workDropped.reloadCredits.unregister fun _ => true).pools = [] :=
    (pools_unregister (fun _ => true) _).trans (by simp)
  rw [freshWork_eq]
  exact ⟨(closed.get .queues).trans (unregistered.get .queues), (closed.get .counters).trans (unregistered.get .counters),
    (closed.get .pools).trans pools, intake_closeIntake_all _, congrArg SchedSt.flight (unregistered.get .sched),
    (dropped.mono (by decide)).trans ((credits.mono (by decide)).trans
      ((unregistered.mono (by decide)).trans (closed.mono (by decide))))⟩

/-! ### What is brought up -/

theorem Only.startTime (s : State) : Only [.time, .events, .irq, .out] s s.startTime :=
  Only.ite (fun _ => Only.refl _ s) fun _ => Only.freeRun s

theorem Only.trigLevel (k : Nat) (level : Bool) (s : State) : Only [.cams, .out] s (s.trigLevel k level) :=
  Only.ite (fun _ => ((Only.modCam k _ s).mono (by decide)).trans ((Only.emit _ _).mono (by decide)))
    fun _ => Only.refl _ s

theorem Only.startCamera (s : State) (k : Nat) : Only [.cams, .out] s (s.startCamera k) := by
  unfold State.startCamera
  split
  · exact Only.refl _ s
  · exact (Only.when ((Only.modCam k _ s).mono (by decide)) fun x => (Only.emit _ x).mono (by decide)).trans
      (Only.trigLevel k _ _)

theorem Only.startCameras (s : State) : Only [.rxDiscards, .cams, .out] s s.startCameras := by
  have cleared : Only [.rxDiscards, .cams, .out] s { s with rxDiscards := [], cams := [] } :=
    ⟨rfl, fun p hp => by cases p <;> first | rfl | exact fun _ => rfl | exact absurd (by decide) hp⟩
  exact cleared.thenFoldl (fun t k => (Only.startCamera t k).mono (by decide)) _

theorem Only.startLoops (s : State) : Only [.loops] s s.startLoops := by
  refine Only.foldl _ (fun t l => ?_) _ s
  split
  · exact Only.refl _ t
  · exact Only.modLoop l _ t

theorem Only.startCans (s : State) : Only [.cans] s s.startCans := Only.foldl _ (fun t c => Only.modCan c _ t) _ s

theorem Only.gpioDrive (drive out : BitVec 16) (s : State) : Only [.ports, .out] s (s.gpioDrive drive out) := by
  have driven : Only [.ports, .out] s (s.modGpio fun y => { y with drive := drive, out := out }) :=
    (Only.ofPorts s _).mono (by decide)
  exact Only.ite (fun _ => driven) fun _ => driven.trans ((Only.emit _ _).mono (by decide))

theorem Only.startPorts (s : State) : Only [.ports, .out] s s.startPorts := by
  have encoders : Only [.ports] s s.startEncoders := Only.foldl _ (fun t _ => Only.ofPorts t _) _ s
  have serial : Only [.ports] s _ := encoders.thenFoldl (f := fun (t : State) k =>
    (t.modSpi k (SpiSt.restart (s.port 2 k) s.now)).modUart k UartSt.restart)
    (fun t _ => (Only.ofPorts t _).trans (Only.ofPorts _ _)) (List.range 2)
  have pwms : Only [.ports] s _ := serial.thenFoldl (f := fun (t : State) n => t.restartPwm n)
    (fun t n => Only.modPwm n _ t) (List.range 8)
  exact (pwms.mono (by decide)).trans (((Only.ofPorts _ _).mono (by decide)).trans (Only.gpioDrive _ _ _))

theorem Only.startVerge (s : State) : Only [.verge] s s.startVerge := Only.ofVergeKeep s _ rfl

/-! ### Entry to RUN -/

/-- RUN has been reached, and the outputs may come up (05 R107, 03 R58). -/
def State.runReached (s : State) : State :=
  { s with reachedRun := true, fw := { s.fw with runSinceZero := true, piHeld := false }, outputsUp := s.fieldPower }

theorem Only.runReached (s : State) : Only [.reachedRun, .fw, .outputsUp] s s.runReached :=
  ⟨rfl, fun p hp => by cases p <;> first | rfl | exact fun _ => rfl | exact absurd (by decide) hp⟩

theorem runPrepared_eq (s : State) : s.runPrepared = s.runReached.zeroWaymarks.freshWork.startPace := rfl

/-- Units at their Route Book settings (05 R107). -/
def State.unitsStarted (s : State) : State := s.startCameras.startLoops.startCans.startPorts.startVerge

theorem enterRun_eq (s : State) :
    s.enterRun = s.runPrepared.startTime.unitsStarted.enter (if s.isFenced 0x60 then .fenced else .run) 0 := rfl

theorem Only.unitsStarted (s : State) :
    Only [.rxDiscards, .cams, .out, .loops, .cans, .ports, .verge] s s.unitsStarted :=
  ((Only.startCameras s).mono (by decide)).trans (((Only.startLoops _).mono (by decide)).trans
    (((Only.startCans _).mono (by decide)).trans (((Only.startPorts _).mono (by decide)).trans
      ((Only.startVerge _).mono (by decide)))))

/-- What RUN begins with, in the terms of the state before START. -/
structure RunFresh (s t : State) : Prop where
  reached : t.reachedRun = true
  queues : t.queues = []
  flight : t.sched.flight = s.sched.flight.filter (·.running)
  counters : t.counters = []
  pools : t.pools = []
  intake : t.intake = { streams := [], dicts := [] }
  outputs : t.outputsUp = s.fieldPower
  fw : t.fw = { s.fw with runSinceZero := true, piHeld := false }
  waymarks : ∀ k < 64, (t.waymarks.get WmSlot.init k).Zero

/-- A frame beside what RUN begins with. -/
theorem RunFresh.of_only {ps : List Part} {t u : State} (h : RunFresh s t) (k : Only ps t u)
    (beside : ∀ p ∈ [Part.reachedRun, .queues, .sched, .counters, .pools, .intake, .outputsUp, .fw, .waymarks],
      p ∉ ps := by decide) : RunFresh s u where
  reached := (k.2 .reachedRun (beside _ (by decide))).trans h.reached
  queues := (k.2 .queues (beside _ (by decide))).trans h.queues
  flight := (congrArg SchedSt.flight (k.2 .sched (beside _ (by decide)))).trans h.flight
  counters := (k.2 .counters (beside _ (by decide))).trans h.counters
  pools := (k.2 .pools (beside _ (by decide))).trans h.pools
  intake := (k.2 .intake (beside _ (by decide))).trans h.intake
  outputs := (k.2 .outputsUp (beside _ (by decide))).trans h.outputs
  fw := (k.2 .fw (beside _ (by decide))).trans h.fw
  waymarks := by
    have slots : u.waymarks = t.waymarks := k.2 .waymarks (beside _ (by decide))
    rw [slots]
    exact h.waymarks

theorem Only.startPace (s : State) : Only [.pace] s s.startPace := Only.ofPace s _

theorem runFresh_freshWork {z : State} (zeroed : Only [.waymarks] s.runReached z)
    (slots : ∀ k < 64, (z.waymarks.get WmSlot.init k).Zero) : RunFresh s z.freshWork := by
  obtain ⟨queues, counters, pools, intake, flight, fresh⟩ := freshWork_clears z
  have kept : z.freshWork.waymarks = z.waymarks := fresh.get .waymarks
  have sched : z.sched = s.sched := zeroed.get .sched
  have reached : z.reachedRun = true := zeroed.get .reachedRun
  have outputs : z.outputsUp = s.fieldPower := zeroed.get .outputsUp
  exact {
    reached := (fresh.get .reachedRun).trans reached
    queues := queues
    flight := by rw [flight, sched]
    counters := counters
    pools := pools
    intake := intake
    outputs := (fresh.get .outputsUp).trans outputs
    fw := (fresh.get .fw).trans (zeroed.get .fw)
    waymarks := by rwa [kept] }

theorem runFresh_runPrepared (wf : Map.wf WmSlot.init s.waymarks = true) : RunFresh s s.runPrepared := by
  rw [runPrepared_eq]
  have zeroed := fun k lt => waymarks_zeroWaymarks (s := s.runReached) (k := k) wf lt
  exact (runFresh_freshWork (Only.zeroWaymarks s.runReached) zeroed).of_only (Only.startPace _)

theorem runFresh_enterRun (wf : Map.wf WmSlot.init s.waymarks = true) : RunFresh s s.enterRun := by
  rw [enterRun_eq]
  exact (((runFresh_runPrepared wf).of_only (Only.startTime _)).of_only (Only.unitsStarted _)).of_only (Only.enter _ _ _)

theorem pending_enterRun (s : State) : s.enterRun.pending = s.pending := by
  obtain ⟨-, -, -, -, -, fresh⟩ := freshWork_clears s.runReached.zeroWaymarks
  have prepared : s.runPrepared.pending = s.pending := fresh.1.trans (Only.zeroWaymarks s.runReached).1
  rw [enterRun_eq]
  exact (Only.enter _ _ _).1.trans ((Only.unitsStarted _).1.trans ((Only.startTime _).1.trans prepared))

theorem devState_enterRun (s : State) : s.enterRun.devState = if s.isFenced 0x60 then .fenced else .run :=
  devState_enter _ _ _

/-! ### The command -/

theorem cmdStart_awaits (h : s.devState = .awaitRoute) : s.cmdStart = (State.enter .held 0x2109 { s with
    fw := { s.fw with report := { Report.init with status := 0x2109#16 } } }).respond 0 0x0008 0x2109 0 [] := if_pos h

/-- START without a Route Book leads to HELD with its report (R106). -/
theorem awaited_held (s : State) {t : State} (ht : t = (State.enter .held 0x2109 { s with
    fw := { s.fw with report := { Report.init with status := 0x2109#16 } } }).respond 0 0x0008 0x2109 0 []) :
    (t.fn 0).spState = .done ∧ (t.fn 0).spStatus = 0x2109#16 ∧ t.devState = .held ∧
    t.fw.report = { Report.init with status := 0x2109#16 } ∧ Only [.devState, .fw, .fns, .irq, .events, .out] s t := by
  have reported : Only [.fw] s { s with fw := { s.fw with report := { Report.init with status := 0x2109#16 } } } :=
    Only.ofFw s _
  have entered := Only.enter .held 0x2109 { s with fw := { s.fw with report := { Report.init with status := 0x2109#16 } } }
  obtain ⟨state, status, answered⟩ := respond_answers 0 0x0008 0x2109 0 []
    (State.enter .held 0x2109 { s with fw := { s.fw with report := { Report.init with status := 0x2109#16 } } })
  rw [← ht] at state status answered
  have fw := (answered.get .fw).trans (entered.get .fw)
  exact ⟨state, status, (answered.get .devState).trans (devState_enter _ _ _), congrArg FwSt.report fw,
    (reported.mono (by decide)).trans ((entered.mono (by decide)).trans (answered.mono (by decide)))⟩

section
variable (on : s.devState = .held)
include on

theorem cmdStart_untested (untested : s.fw.testPassed = false) : s.cmdStart = s.respond 0 0x0008 0x2018 0 [] := by
  simp [State.cmdStart, on, untested]

theorem cmdStart_bookless (tested : s.fw.testPassed = true) (none_ : s.fw.bookCommitted = false) :
    s.cmdStart = s.respond 0 0x0008 0x2109 0 [] := by
  simp [State.cmdStart, on, tested, none_]

theorem cmdStart_refusedBook (tested : s.fw.testPassed = true) (book : s.fw.bookCommitted = true)
    (refused : s.fw.bookAccepted = false) : s.cmdStart = s.respond 0 0x0008 0x210A 0 [] := by
  simp [State.cmdStart, on, tested, book, refused]

theorem cmdStart_enters (tested : s.fw.testPassed = true) (book : s.fw.bookCommitted = true)
    (accepted : s.fw.bookAccepted = true) : s.cmdStart = s.enterRun.respond 0 0x0008 0 0 [] := by
  simp [State.cmdStart, on, tested, book, accepted, State.answer]

end

theorem exec_start {p : Requester} {r : SpReq} (h : Accepted p 0x0008 r s) :
    exec (.start p r) s = done s (s.taken p 0x0008 r).cmdStart :=
  exec_accepted h (by decide) rfl rfl (fun op t => by rw [State.carryOut, op]; rfl) (by decide)

theorem canonical_waymarks (h : s.canonical = true) : Map.wf WmSlot.init s.waymarks = true := by
  simp only [State.canonical, Bool.and_eq_true] at h
  tauto

theorem fieldPower_of_only {ps : List Part} {t : State} (h : Only ps s t) (hp : Part.lostRails ∉ ps := by decide) :
    t.fieldPower = s.fieldPower := by
  have rails : t.lostRails = s.lostRails := h.2 .lostRails hp
  rw [State.fieldPower, rails, ← State.fieldPower]

end

end Sys2Proof.Machine

open Sys2Proof Sys2Proof.Machine

/-- Settles O29: an accepted START by what `enterRun` clears and what it leaves cleared as the units start; the others by
their one answer. -/
theorem startEntersRun : Obligations.StartEntersRun := by
  intro p r s canonical h
  have taken := Only.taken p 0x0008 r s
  have fw : (s.taken p 0x0008 r).fw = s.fw := taken.get .fw
  have dev : (s.taken p 0x0008 r).devState = s.devState := taken.get .devState
  have slots : (s.taken p 0x0008 r).waymarks = s.waymarks := taken.get .waymarks
  rw [exec_start h]
  refine ⟨fun on tested book accepted => ?enters, fun awaits => ?awaits, fun on untested => ?_, fun on tested none_ => ?_,
    fun on tested book refused => ?_⟩
  case enters =>
    rw [cmdStart_enters (dev.trans on) (fw ▸ tested) (fw ▸ book) (fw ▸ accepted)]
    have fresh := runFresh_enterRun (s := s.taken p 0x0008 r) (slots ▸ canonical_waymarks canonical)
    have entered := devState_enterRun (s.taken p 0x0008 r)
    have ms : (s.taken p 0x0008 r).enterRun.time.ms = s.time.ms :=
      (countStands_enterRun _).ms.trans (congrArg TimeSt.ms (taken.get .time))
    have pending := (pending_enterRun _).trans taken.1
    rw [isFenced_of_only taken (by decide)] at entered
    have power : (s.taken p 0x0008 r).fieldPower = s.fieldPower := fieldPower_of_only taken
    have sched : (s.taken p 0x0008 r).sched = s.sched := taken.get .sched
    generalize (s.taken p 0x0008 r).enterRun = u at fresh entered ms pending ⊢
    obtain ⟨state, status, answered⟩ := respond_answers 0 0x0008 0 0 [] u
    have same : u.time = (u.respond 0 0x0008 0 0 []).time := (answered.get .time).symm
    obtain ⟨reached, queues, flight, counters, pools, intake, outputs, fwRun, waymarks⟩ := fresh.of_only answered
    rw [fw] at fwRun
    exact goes_done_of (answered.1.trans pending)
      ⟨(answered.get .devState).trans entered, reached, queues, sched ▸ flight,
      counters, pools, intake, outputs.trans power, congrArg FwSt.piHeld fwRun, waymarks, state, status,
      by rw [fwRun], by rw [← same, ms]⟩
  case awaits =>
    rw [cmdStart_awaits (dev.trans awaits)]
    obtain ⟨state, status, held, report, kept⟩ := awaited_held (s.taken p 0x0008 r) rfl
    have whole : Only [.devState, .fw, .fns, .link, .irq, .events, .out] s _ :=
      (taken.mono (by decide)).trans (kept.mono (by decide))
    exact goes_done whole ⟨held, report, state, status, whole⟩
  · rw [cmdStart_untested (dev.trans on) (fw ▸ untested)]
    exact done_respond p 0x0008 r 0 0x0008 0x2018 0 []
  · rw [cmdStart_bookless (dev.trans on) (fw ▸ tested) (fw ▸ none_)]
    exact done_respond p 0x0008 r 0 0x0008 0x2109 0 []
  · rw [cmdStart_refusedBook (dev.trans on) (fw ▸ tested) (fw ▸ book) (fw ▸ refused)]
    exact done_respond p 0x0008 r 0 0x0008 0x210A 0 []
end

section
/-! PROOF. CLEAR_FAULT while STO is released (05 R108): the retest starts from the state before STO is asserted, so both
channels stay as they are. -/

namespace Sys2Proof.Machine

theorem exec_clearFault {p : Requester} {r : SpReq} {s : State} (h : Accepted p 0x0009 r s) :
    exec (.clearFault p r) s = done s (s.taken p 0x0009 r).cmdClearFault :=
  exec_accepted h (by decide) rfl rfl (fun op t => by rw [State.carryOut, op]; rfl) (by decide)

/-- `startRetest` gives the state with STO asserted to `markOwed` as the one to compare with, and goes on from the state
before that. -/
theorem startRetest_eq (s : State) :
    ∃ asserted, s.startRetest = (State.markOwed asserted s).owing 0x0009#16 := ⟨_, rfl⟩

theorem Only.startRetest (s : State) : Only [.fns, .events] s s.startRetest := by
  obtain ⟨asserted, eq⟩ := startRetest_eq s
  rw [eq]
  exact (Only.markOwed asserted s).trans (Only.owing _ _)

theorem cmdClearFault_starts {s : State}
    (lockstep : s.fw.faultCause ≠ 0x8A01#16) (oscillator : s.fw.faultCause ≠ 0x8A02#16)
    (verge : s.fw.faultCause ≠ 0x8A03#16) (gone : s.faultPersists = false) (shown : s.hiddenCause = false) :
    s.cmdClearFault = s.startRetest := by
  simp [State.cmdClearFault, lockstep, oscillator, verge, gone, shown]

/-- FAULT by a stale STOP read that stands no more, while its controlled stop still runs: STO is released on both
channels until the stop ends (16 R334). -/
def stoppingInFault : State :=
  { State.reset with
    devState := .fault, porst := true, outputsUp := true, fw := { FwSt.init with faultCause := 0x8A0D#16 },
    verge := { VergeSt.init with stop := .controlled, stoA := true, stoB := true } }

/-- A request without payload. -/
def emptyRequest : SpReq := { tag := 0, reserved := 0, len := 0, ctx := 0xFFFF, payload := [] }

theorem accepted_stoppingInFault : Accepted (.pcie 0) 0x0009 emptyRequest stoppingInFault :=
  ⟨rfl, ⟨by decide, rfl, by decide, rfl, by decide, by decide⟩, by decide +kernel⟩

/-- A retest that starts leaves STO as it was. -/
theorem clearFault_keepsSto {p : Requester} {r : SpReq} {s t : State} (h : Accepted p 0x0009 r s)
    (starts : (s.taken p 0x0009 r).cmdClearFault = (s.taken p 0x0009 r).startRetest)
    (next_ : exec (.clearFault p r) s = .next t) : t.verge.stoA = s.verge.stoA := by
  have whole : Only [.fns, .events, .link] s (s.taken p 0x0009 r).startRetest :=
    (Only.taken p 0x0009 r s).trans ((Only.startRetest _).mono (by decide))
  rw [exec_clearFault h, starts, done_eq whole.1] at next_
  obtain ⟨-, -, stoA, -⟩ := stop_of_only whole (by decide)
  rwa [Host.Outcome.next.inj next_] at stoA

end Sys2Proof.Machine

open Sys2Proof Sys2Proof.Machine

/-- Refutes O30: of a device in FAULT whose STO is still released, `State.startRetest` marks the events of the state
before STO is asserted and goes on from that state, so the retest starts with STO released (05 R108 has it asserted). -/
theorem not_faultAndResetCommands : ¬ Obligations.FaultAndResetCommands := by
  intro h
  obtain ⟨-, clear, -⟩ := h (.pcie 0) emptyRequest stoppingInFault
  obtain ⟨-, starts, -⟩ := clear accepted_stoppingInFault (by decide) (by decide) (by decide)
  obtain ⟨t, next_, -, -, -, low, -⟩ := starts (by decide +kernel) (by decide +kernel)
  have high : t.verge.stoA = true := clearFault_keepsSto accepted_stoppingInFault
    (cmdClearFault_starts (by decide) (by decide) (by decide) (by decide +kernel) (by decide +kernel)) next_
  rw [low] at high
  exact Bool.false_ne_true high
end

section
/-! PROOF. The MC heartbeat and the oscillator watchdog (02 Table 2.7, 06 R113): what the loss of the MC answers on each
Signpost, and the windows of the crystal. -/

namespace Sys2Proof.Machine

/-! ### The answers of a lost MC -/

/-- The registers of a Signpost that is told of the loss of the MC (06 R113). -/
def FnState.lostMc (x : FnState) : FnState := { x with spStatus := 0x8001#16, spState := .done, spOwed := none }

/-- The Signpost has its answer that the MC is lost. -/
def FnState.ToldLost (x : FnState) : Prop := x.spState = .done ∧ x.spStatus = 0x8001#16

theorem FnState.ToldLost.of_regs {x y : FnState} (h : x.ToldLost) (same : y.regs = x.regs) : y.ToldLost :=
  ⟨(congrArg FnState.spState same).trans h.1, (congrArg FnState.spStatus same).trans h.2⟩

section
variable {f : Nat} {s : State}

theorem mcLostAnswer_idle (h : (s.fn f).spState ≠ .busy) : s.mcLostAnswer f = s := if_neg h

theorem mcLostAnswer_eq (h : (s.fn f).spState = .busy) : s.mcLostAnswer f =
    if f = 0 ∧ s.link.hostPort = some .qspi then ((s.modFn f FnState.lostMc).signal f 1024).qspiSet 1#4
    else (s.modFn f FnState.lostMc).signal f 1024 := if_pos h

theorem Only.mcLostAnswer (f : Nat) (s : State) : Only [.irq, .fns, .events, .out] s (s.mcLostAnswer f) := by
  by_cases busy : (s.fn f).spState = .busy
  · exact (mcLostAnswer_busy busy).2.2
  · rw [mcLostAnswer_idle busy]
    exact Only.refl _ s

/-- The answer on one Signpost leaves the registers of the others. -/
theorem regs_mcLostAnswer_ne {j : Nat} (ne : j ≠ f) : ((s.mcLostAnswer f).fn j).regs = (s.fn j).regs := by
  by_cases busy : (s.fn f).spState = .busy
  · have rest : Only [.irq, .events, .out] (s.modFn f FnState.lostMc) (s.mcLostAnswer f) := by
      rw [mcLostAnswer_eq busy]
      exact Only.when ((Only.signal f 1024 _).mono (by decide)) fun x => (Only.qspiSet 1#4 x).mono (by decide)
    have kept : (s.modFn f FnState.lostMc).fn j = s.fn j := State.fn_modFn_ne (fn_ne_init FnState.spState nofun) ne
    exact (rest.2 .fns (by decide) j).trans (congrArg FnState.regs kept)
  · rw [mcLostAnswer_idle busy]

/-- QSPI_STAT bit 0 is PF0's answer on the QSPI host port (06 Table 6.7 step 6). -/
theorem qspiStat_mcLostAnswer (f : Nat) (s : State) : (s.mcLostAnswer f).link.qspiStat =
    if f = 0 ∧ (s.fn f).spState = .busy ∧ s.link.hostPort = some .qspi then s.link.qspiStat ||| 1#4
    else s.link.qspiStat := by
  by_cases busy : (s.fn f).spState = .busy
  · have signalled : ((s.modFn f FnState.lostMc).signal f 1024).link.qspiStat = s.link.qspiStat :=
      (Only.signal f 1024 _).get .irq
    rw [mcLostAnswer_eq busy]
    by_cases host : f = 0 ∧ s.link.hostPort = some .qspi
    · rw [if_pos host, if_pos ⟨host.1, busy, host.2⟩, State.qspiSet_stat, signalled]
    · rw [if_neg host, if_neg fun h => host ⟨h.1, h.2.2⟩, signalled]
  · rw [mcLostAnswer_idle busy, if_neg fun h => busy h.2.1]

/-- Told once, a Signpost keeps its answer. -/
theorem toldLost_mcLostAnswer (j : Nat) (h : (s.fn f).ToldLost) : ((s.mcLostAnswer j).fn f).ToldLost := by
  by_cases same : f = j
  · rwa [← same, mcLostAnswer_idle (by rw [h.1]; decide)]
  · exact h.of_regs (regs_mcLostAnswer_ne same)

end

/-! ### All Signposts -/

/-- Each Signpost of a list answers in turn that the MC is lost. -/
def State.mcLostAnswers (fs : List Nat) (s : State) : State := fs.foldl (fun t f => t.mcLostAnswer f) s

theorem Only.mcLostAnswers (fs : List Nat) (s : State) : Only [.irq, .fns, .events, .out] s (s.mcLostAnswers fs) :=
  Only.foldl _ (fun t f => Only.mcLostAnswer f t) fs s

theorem toldLost_mcLostAnswers {f : Nat} (fs : List Nat) : ∀ s : State,
    (s.fn f).ToldLost ∨ (f ∈ fs ∧ (s.fn f).spState = .busy) → ((s.mcLostAnswers fs).fn f).ToldLost := by
  induction fs with
  | nil => exact fun s h => h.resolve_right fun k => List.not_mem_nil k.1
  | cons j r ih =>
    refine fun s h => ih (s.mcLostAnswer j) ?_
    rcases h with told | ⟨listed, busy⟩
    · exact .inl (toldLost_mcLostAnswer j told)
    · by_cases here : f = j
      · subst here
        obtain ⟨state, status, -⟩ := mcLostAnswer_busy busy
        exact .inl ⟨state, status⟩
      · exact .inr ⟨(List.mem_cons.1 listed).resolve_left here,
          (congrArg FnState.spState (regs_mcLostAnswer_ne here)).trans busy⟩

theorem qspiStat_mcLostAnswers {fs : List Nat} (vfs : 0 ∉ fs) : ∀ s : State,
    (s.mcLostAnswers fs).link.qspiStat = s.link.qspiStat := by
  induction fs with
  | nil => exact fun s => rfl
  | cons j r ih =>
    simp only [List.mem_cons, not_or] at vfs
    refine fun s => (ih vfs.2 (s.mcLostAnswer j)).trans ?_
    rw [qspiStat_mcLostAnswer, if_neg fun h => vfs.1 h.1.symm]

/-- Of all Signposts PF0's alone reaches QSPI_STAT. -/
theorem qspiStat_mcLostAnswers_all (s : State) : (s.mcLostAnswers (List.range 16)).link.qspiStat =
    if (s.fn 0).spState = .busy ∧ s.link.hostPort = some .qspi then s.link.qspiStat ||| 1#4 else s.link.qspiStat := by
  have pf0First : List.range 16 = 0 :: List.range' 1 15 := rfl
  rw [pf0First, State.mcLostAnswers, List.foldl_cons, ← State.mcLostAnswers,
    qspiStat_mcLostAnswers (by decide), qspiStat_mcLostAnswer]
  simp only [true_and]

/-! ### The commands -/

section
variable {s : State} (on : s.devState ≠ .off)
include on

theorem exec_mcHeartbeat (mc : s.mc.lost = false) :
    exec .mcHeartbeat s = .next { s with mc := { s.mc with lastBeat := s.now } } := by
  have beats : ¬(s.devState = .off ∨ s.mc.lost = true) := by simp [on, mc]
  exact (congrArg (done s) (if_neg beats)).trans (done_eq rfl)

theorem exec_mcHeartbeatMiss (mc : s.mc.lost = false) (late : s.mc.lastBeat + 3000000 ≤ s.now) :
    exec .mcHeartbeatMiss s = done s
      ((State.mcLostAnswers (List.range 16) { s with mc := { s.mc with lost := true } }).raise
        0x8A0F 0xFF .controlled 0) := by
  have misses : ¬(s.devState = .off ∨ s.mc.lost = true ∨ s.now < s.mc.lastBeat + 3000000) := by
    simp [on, mc, late]
  exact congrArg (done s) (if_neg misses)

variable {count : Nat}

theorem exec_oscillator_good (lo : 1238 ≤ count) (hi : count ≤ 1262) :
    exec (.oscillatorWatchdogWindow count) s = .next { s with mc := { s.mc with badWindows := 0 } } :=
  (congrArg (done s) ((if_neg on).trans (if_pos ⟨lo, hi⟩))).trans (done_eq rfl)

variable (bad : count < 1238 ∨ 1262 < count)
include bad

theorem exec_oscillator_firstBad (zero : s.mc.badWindows = 0) :
    exec (.oscillatorWatchdogWindow count) s = .next { s with mc := { s.mc with badWindows := 1 } } := by
  have out : ¬(1238 ≤ count ∧ count ≤ 1262) := by omega
  have one : min 2 (s.mc.badWindows + 1) = 1 := by rw [zero]; rfl
  rw [← one]
  exact (congrArg (done s) ((if_neg on).trans ((if_neg out).trans (if_neg (by simp [zero]))))).trans (done_eq rfl)

theorem exec_oscillator_secondBad (second : s.mc.badWindows = 1) : exec (.oscillatorWatchdogWindow count) s =
    .next (State.raise 0x8A03 0xFF .immediate 0 { s with mc := { s.mc with badWindows := 2 } }) := by
  have out : ¬(1238 ≤ count ∧ count ≤ 1262) := by omega
  exact (congrArg (done s) ((if_neg on).trans ((if_neg out).trans (if_pos second)))).trans
    (done_eq (Only.raise _ _ _ _ _).1)

end

end Sys2Proof.Machine

open Sys2Proof Sys2Proof.Machine

/-- Settles O7: a miss tells each Signpost in turn, of which PF0's alone reaches QSPI_STAT. -/
theorem monitorsStopTheDevice : Obligations.MonitorsStopTheDevice := by
  refine fun s on => ⟨exec_mcHeartbeat on, fun mc late => ?miss, fun count lo hi => exec_oscillator_good on lo hi,
    fun count bad zero => exec_oscillator_firstBad on bad zero,
    fun count bad second => exec_oscillator_secondBad on bad second⟩
  have told := Only.mcLostAnswers (List.range 16) { s with mc := { s.mc with lost := true } }
  have whole : Only [.mc, .fns, .events, .irq, .out] s
      (State.mcLostAnswers (List.range 16) { s with mc := { s.mc with lost := true } }) :=
    ((Only.ofMc s _).mono (by decide)).trans (told.mono (by decide))
  rw [exec_mcHeartbeatMiss on mc late]
  refine goes_done_of ((Only.raise _ _ _ _ _).1.trans whole.1) ⟨_, told.get .mc, whole, fun f lt busy => ?_, ?_, rfl⟩
  · exact toldLost_mcLostAnswers (List.range 16) _ (.inr ⟨List.mem_range.2 lt, busy⟩)
  · exact qspiStat_mcLostAnswers_all { s with mc := { s.mc with lost := true } }
end

section
/-! PROOF. The doorbell of a request (06 Table 6.7, R109, R110), and the checks 1 to 7 that judge it (06 Table 6.9,
R115). -/

namespace Sys2Proof.Machine

/-! ### Taking -/

section
variable {p : Requester} {op : Nat} {r q : SpReq} {s : State}

/-- A request whose requester may ring is taken as it stands in SP_CMD, and served. -/
theorem submit_served (low : BitVec.ofNat 8 op ≠ 0) (h : MayRing p s) :
    s.submit p op r = (s.taken p op r).serve (fnOf p) (requestBytes op r) := by
  obtain ⟨on, mc, idle, wf, pf0, qspi⟩ := h
  have fn : ((s.commanded p op r).withPort p).fn (fnOf p) = (s.commanded p op r).fn (fnOf p) := by
    rw [State.fn, withPort_fns, ← State.fn]
  have ready : (((s.commanded p op r).withPort p).fn (fnOf p)).spState ≠ .busy := by
    rw [fn, fn_commanded low wf]
    exact idle
  have live : ((s.commanded p op r).withPort p).mc.lost = false := by
    rw [withPort_mc]
    exact mc
  have bytes : ((s.commanded p op r).withPort p).request (fnOf p) = requestBytes op r := by
    rw [State.request, fn, ← State.request, request_commanded low wf]
  calc s.submit p op r = (s.commanded p op r).writeDoorbell p 1 := if_neg on
    _ = ((s.commanded p op r).withPort p).ring (fnOf p) := writeDoorbell_rings (s := s.commanded p op r) on rfl pf0 qspi
    _ = (((s.commanded p op r).withPort p).rung (fnOf p)).serve (fnOf p) (requestBytes op r) := by
      rw [ring_served ready live, bytes]
    _ = (s.taken p op r).serve (fnOf p) (requestBytes op r) := by
      rw [State.rung, bytes, requestBytes_tag, taken_eq]

/-- A command that is one row of the Signpost's catalogue, with the request that it submits. -/
structure Submits (p : Requester) (r : SpReq) (row : Instr × Nat × SpReq) : Prop where
  wf : row.1.wellFormed = r.wellFormed
  low : BitVec.ofNat 8 row.2.1 ≠ 0
  submits : ∃ mnemonic, ∀ s : State, exec row.1 s = checked row.1 mnemonic s (s.submit p row.2.1 row.2.2)

theorem Submits.of {c : Instr} {mnemonic : String} (wf : c.wellFormed = r.wellFormed) (low : BitVec.ofNat 8 op ≠ 0)
    (submits : ∀ s : State, exec c s = checked c mnemonic s (s.submit p op q)) : Submits p r (c, op, q) :=
  ⟨wf, low, mnemonic, submits⟩

theorem exec_submits {c : Instr} (row : Submits p r (c, op, q)) (wf : r.wellFormed = true) (h : MayRing p s) :
    exec c s = done s ((s.taken p op q).serve (fnOf p) (requestBytes op q)) := by
  obtain ⟨same, low, mnemonic, eq⟩ := row
  rw [eq s, checked_eq (same.trans wf), submit_served low h]

end

/-! ### Judging -/

section
variable {b : List Byte} {k : CommandRow}

theorem requestStatus_unknown (f : Nat) (s : State) (h : commandRow (fieldAt b 0 2) = none) :
    s.requestStatus f b = 0x2001 := by simp [State.requestStatus, h]

/-- The request is one of the row's length, with the reserved bits clear (checks 2 and 3). -/
structure CommandRow.Formed (k : CommandRow) (b : List Byte) : Prop where
  len : k.lenOk b (fieldAt b 4 2) = true
  header : byteAt b 3 = 0
  clear : ∀ x ∈ k.reserved, byteAt b x.1 &&& x.2 = 0

section
variable (known : commandRow (fieldAt b 0 2) = some k) (f : Nat) (s : State)
include known

theorem requestStatus_len (h : k.lenOk b (fieldAt b 4 2) = false) : s.requestStatus f b = 0x2003 := by
  simp [State.requestStatus, known, h]

theorem requestStatus_reserved (len : k.lenOk b (fieldAt b 4 2) = true)
    (h : byteAt b 3 ≠ 0 ∨ ∃ x ∈ k.reserved, byteAt b x.1 &&& x.2 ≠ 0) : s.requestStatus f b = 0x2004 := by
  have set : byteAt b 3 ≠ 0 ∨ (k.reserved.any fun p => byteAt b p.1 &&& p.2 != 0) = true := by
    simpa only [List.any_eq_true, bne_iff_ne] using h
  simp only [State.requestStatus, known, len, Bool.not_true, Bool.false_eq_true, if_false, if_pos set]

/-- A well-formed request is judged by checks 4 to 7: its function, RUN, the device state and its context. -/
theorem requestStatus_formed (h : k.Formed b) : s.requestStatus f b =
    if f ≠ 0 ∧ !k.vf then 0x2002
    else if f ≠ 0 ∧ !s.reachedRun then 0x2007
    else if !k.states s.devState then 0x2011
    else if (if k.ofCtx then !s.ownsCtx f (fieldAt b 6 2) else fieldAt b 6 2 != 0xFFFF) then 0x2005
    else 0 := by
  have clear : ¬(byteAt b 3 ≠ 0 ∨ (k.reserved.any fun p => byteAt b p.1 &&& p.2 != 0) = true) := by
    simpa only [List.any_eq_true, bne_iff_ne, not_or, not_exists, not_and, not_not] using ⟨h.header, h.clear⟩
  simp only [State.requestStatus, known, h.len, Bool.not_true, Bool.false_eq_true, if_false, if_neg clear]

variable {f s}

theorem requestStatus_notVf (h : k.Formed b) (vf : f ≠ 0) (pf : k.vf = false) : s.requestStatus f b = 0x2002 := by
  simp [requestStatus_formed known f s h, vf, pf]

theorem requestStatus_beforeRun (h : k.Formed b) (vf : f ≠ 0) (set : k.vf = true) (before : s.reachedRun = false) :
    s.requestStatus f b = 0x2007 := by
  simp [requestStatus_formed known f s h, vf, set, before]

/-- The function may issue the row: PF0, or a VF a row of its set after RUN has been reached (06 section 6.5). -/
def MayIssue (f : Nat) (k : CommandRow) (s : State) : Prop := f = 0 ∨ (k.vf = true ∧ s.reachedRun = true)

theorem requestStatus_issued (h : k.Formed b) (may : MayIssue f k s) : s.requestStatus f b =
    if !k.states s.devState then 0x2011
    else if (if k.ofCtx then !s.ownsCtx f (fieldAt b 6 2) else fieldAt b 6 2 != 0xFFFF) then 0x2005
    else 0 := by
  rw [requestStatus_formed known f s h, if_neg, if_neg]
  · rintro ⟨vf, before⟩
    obtain pf | ⟨-, reached⟩ := may
    · exact vf pf
    · simp [reached] at before
  · rintro ⟨vf, pf⟩
    obtain zero | ⟨set, -⟩ := may
    · exact vf zero
    · simp [set] at pf

theorem requestStatus_state (h : k.Formed b) (may : MayIssue f k s) (wrong : k.states s.devState = false) :
    s.requestStatus f b = 0x2011 := by
  simp [requestStatus_issued known h may, wrong]

theorem requestStatus_noCtx (h : k.Formed b) (may : MayIssue f k s) (right : k.states s.devState = true)
    (whole : k.ofCtx = false) : s.requestStatus f b = if fieldAt b 6 2 = 0xFFFF then 0 else 0x2005 := by
  rw [requestStatus_issued known h may]
  by_cases none_ : fieldAt b 6 2 = 0xFFFF <;> simp [right, whole, none_]

theorem requestStatus_ctx (h : k.Formed b) (may : MayIssue f k s) (right : k.states s.devState = true)
    (ofCtx : k.ofCtx = true) : s.requestStatus f b = if s.ownsCtx f (fieldAt b 6 2) then 0 else 0x2005 := by
  rw [requestStatus_issued known h may]
  by_cases owns : s.ownsCtx f (fieldAt b 6 2) = true <;> simp [right, ofCtx, owns]

end

theorem serve_refused {f : Nat} {s : State} (h : s.requestStatus f b ≠ 0) :
    s.serve f b = s.respond f (fieldAt b 0 2) (s.requestStatus f b) 0 [] := if_pos h

end

/-! ### Answering -/

/-- What SP_RSP holds of an answer (06 Table 6.6). -/
def responseBytes (op status detail : Nat) (tag : Byte) (body : List Byte) : List Byte :=
  le 2 status ++ [tag, BitVec.ofNat 8 detail] ++ le 2 body.length ++ le 2 op ++ body

theorem length_responseBytes (op status detail : Nat) (tag : Byte) (body : List Byte) :
    (responseBytes op status detail tag body).length = 8 + body.length := by
  simp [responseBytes, le]
  omega

theorem le_toNat (x : Byte) : le 1 x.toNat = [x] := by simp [le]

/-- The answer of `respond`, with the response bytes of its body. -/
theorem respond_writes (f op status detail : Nat) (payload : List Byte) (s : State) {body : List Byte}
    (hbody : body = if status < 0x2000 then payload else []) : ∃ t, t = s.modFn f (FnState.answered
        (Map.store [] 0 (responseBytes op status detail (s.fn f).spTag body)) (BitVec.ofNat 16 status)) ∧
      s.respond f op status detail payload =
        if f = 0 ∧ s.link.hostPort = some .qspi then (t.signal f 1024).qspiSet 1#4 else t.signal f 1024 := by
  subst hbody
  refine ⟨_, rfl, ?_⟩
  unfold State.respond responseBytes FnState.answered
  rw [le_toNat]
  simp only [le, List.cons_append, List.nil_append]

section
variable {f : Nat} {s : State} (op status detail : Nat) (payload : List Byte)

theorem spRsp_respond {body : List Byte} (hbody : body = if status < 0x2000 then payload else []) :
    ((s.respond f op status detail payload).fn f).spRsp.bytes 0 (8 + body.length) =
      responseBytes op status detail (s.fn f).spTag body := by
  obtain ⟨t, ht, eq⟩ := respond_writes f op status detail payload s hbody
  have written : t.fn f = (s.fn f).answered (Map.store [] 0 (responseBytes op status detail (s.fn f).spTag body))
      (BitVec.ofNat 16 status) := ht ▸ State.fn_modFn_self (fn_ne_init FnState.spState nofun)
  have rest : Only [.irq, .events, .out] t (s.respond f op status detail payload) := by
    rw [eq]
    exact Only.when ((Only.signal f 1024 t).mono (by decide)) fun x => (Only.qspiSet 1#4 x).mono (by decide)
  rw [regs_of_only rest FnState.spRsp (fun _ => rfl) (by decide) f, written,
    ← length_responseBytes op status detail (s.fn f).spTag body]
  exact bytes_store rfl _

/-- An answer of PF0's Signpost is seen in QSPI_STAT on the QSPI host port. -/
theorem qspiStat_respond (pf0 : f = 0) (host : s.link.hostPort = some .qspi) :
    (s.respond f op status detail payload).link.qspiStat = s.link.qspiStat ||| 1#4 := by
  obtain ⟨_, t, ht, eq⟩ := respond_eq f op status detail payload s
  have signalled : (t.signal f 1024).link.qspiStat = t.link.qspiStat := (Only.signal f 1024 t).get .irq
  rw [eq, if_pos ⟨pf0, host⟩, State.qspiSet_stat, signalled, ht, State.modFn_link]

/-- A vector that may be sent is sent at once (04 section 4.1.2). -/
theorem signal_sends {f v : Nat} {s : State} (on : (s.fn f).msixEnable = true) (clear : (s.fn f).msixFnMask = false)
    (unmasked : Map.get false (s.fn f).msixOpen v = true) (up : s.link.up = true) :
    s.signal f v = s.emit (.msix f v) := by
  simp [State.signal, on, clear, unmasked, up]

theorem out_respond (on : (s.fn f).msixEnable = true) (clear : (s.fn f).msixFnMask = false)
    (unmasked : Map.get false (s.fn f).msixOpen 1024 = true) (up : s.link.up = true) :
    (s.respond f op status detail payload).out = s.out ++ [.msix f 1024] := by
  obtain ⟨rsp, t, ht, eq⟩ := respond_eq f op status detail payload s
  have written : t.fn f = (s.fn f).answered rsp (BitVec.ofNat 16 status) :=
    ht ▸ State.fn_modFn_self (fn_ne_init FnState.spState nofun)
  have sent : (t.signal f 1024).out = s.out ++ [.msix f 1024] := by
    rw [signal_sends (by rw [written]; exact on) (by rw [written]; exact clear) (by rw [written]; exact unmasked)
      (by rw [ht]; exact up), ht]
    rfl
  rw [eq]
  split <;> exact sent

end

end Sys2Proof.Machine

open Sys2Proof Sys2Proof.Machine

/-- Settles O25: each command submits its row's request (`Submits`), and a request that may be rung is served. -/
theorem signpostTakesRequest : Obligations.SignpostTakesRequest := by
  intro p r s wf ring c op q listed
  suffices row : Submits p r (c, op, q) by
    rw [exec_submits row wf ring]
    rfl
  revert listed
  generalize (c, op, q) = row
  revert row
  repeat refine List.forall_mem_cons.2 ⟨.of rfl (by decide) fun _ => rfl, ?_⟩
  exact fun _ h => absurd h List.not_mem_nil

/-- Settles O26: the checks by the lemmas of `requestStatus` in their order, the answer by what `respond` writes. -/
theorem signpostJudgesAndAnswers : Obligations.SignpostJudgesAndAnswers := by
  refine ⟨fun f b s => ⟨requestStatus_unknown f s, fun k known => ⟨requestStatus_len known f s, fun len =>
      ⟨requestStatus_reserved known f s len, fun header clear => ?formed⟩⟩, serve_refused⟩,
    fun f op status detail payload s _ _ _ => ⟨?_, fun on clear unmasked up =>
      out_respond op status detail payload on clear unmasked up⟩⟩
  case formed =>
    have formed : k.Formed b := ⟨len, header, clear⟩
    exact ⟨requestStatus_notVf known formed, requestStatus_beforeRun known formed,
      fun may => requestStatus_state known formed may, fun may => requestStatus_noCtx known formed may,
      fun may => requestStatus_ctx known formed may⟩
  obtain ⟨state, stat, answered⟩ := respond_answers f op status detail payload s
  exact ⟨state, stat, spRsp_respond op status detail payload rfl, qspiStat_respond op status detail payload,
    answered⟩
end

section
/-! PROOF. What a Signpost command reads and answers (06 Tables 6.5, 6.10): the fields of its request, the state as the
doorbell leaves it, and check 8. -/

namespace Sys2Proof.Machine

/-! ### The fields of a request -/

section
variable (op : Nat) (r : SpReq)

@[simp] theorem requestBytes_ctx : fieldAt (requestBytes op r) 6 2 = r.ctx.toNat := by
  have size := r.ctx.isLt
  simp only [requestBytes, fieldAt, le, unle, List.cons_append, List.nil_append, List.drop_succ_cons, List.drop_zero,
    List.take_succ_cons, List.take_zero, BitVec.toNat_ofNat]
  omega

theorem byteAt_fit {n o : Nat} (l : List Byte) (within : o < n) : byteAt (fit n 0 l) o = byteAt l o := by
  simp only [byteAt, fit, List.getD_eq_getElem?_getD]
  rw [List.getElem?_take_of_lt within, List.getElem?_append]
  split
  · rfl
  · next past =>
    rw [List.getElem?_replicate, List.getElem?_eq_none (by omega)]
    split <;> rfl

theorem requestBytes_drop_header : (requestBytes op r).drop 8 = fit 248 0 r.payload := drop_requestBytes op r 0

theorem requestBytes_byte (o : Nat) (within : o < 248) :
    byteAt (requestBytes op r) (8 + o) = byteAt r.payload o := by
  have past : byteAt (requestBytes op r) (8 + o) = byteAt ((requestBytes op r).drop 8) o := by simp [byteAt]
  rw [past, requestBytes_drop_header, byteAt_fit r.payload within]

end

/-! ### What the doorbell leaves -/

section
variable (p : Requester) (op : Nat) (r : SpReq) (s : State)

@[simp] theorem State.taken_devState : (s.taken p op r).devState = s.devState := (Only.taken p op r s).get .devState
@[simp] theorem State.taken_fences : (s.taken p op r).fences = s.fences := (Only.taken p op r s).get .fences
@[simp] theorem State.taken_time : (s.taken p op r).time = s.time := (Only.taken p op r s).get .time
@[simp] theorem State.taken_fw : (s.taken p op r).fw = s.fw := (Only.taken p op r s).get .fw
@[simp] theorem State.taken_queues : (s.taken p op r).queues = s.queues := (Only.taken p op r s).get .queues
@[simp] theorem State.taken_counters : (s.taken p op r).counters = s.counters := (Only.taken p op r s).get .counters
@[simp] theorem State.taken_sched : (s.taken p op r).sched = s.sched := (Only.taken p op r s).get .sched
@[simp] theorem State.taken_mem : (s.taken p op r).mem = s.mem := (Only.taken p op r s).get .mem
@[simp] theorem State.taken_loops : (s.taken p op r).loops = s.loops := (Only.taken p op r s).get .loops
@[simp] theorem State.taken_ports : (s.taken p op r).ports = s.ports := (Only.taken p op r s).get .ports
@[simp] theorem State.taken_free : (s.taken p op r).free = s.free := (Only.taken p op r s).get .free

@[simp] theorem State.withPort_verge : (s.withPort p).verge = s.verge := by
  unfold State.withPort
  split <;> rfl

@[simp] theorem State.taken_verge : (s.taken p op r).verge = s.verge := State.withPort_verge p _

@[simp] theorem State.taken_now : (s.taken p op r).now = s.time.ms := congrArg TimeSt.ms (s.taken_time p op r)
@[simp] theorem State.taken_loop (l : Nat) : (s.taken p op r).loop l = s.loop l := by simp [State.loop]
@[simp] theorem State.taken_queue (c q : Nat) : (s.taken p op r).queue c q = s.queue c q := by simp [State.queue]
@[simp] theorem State.taken_counter (c i : Nat) : (s.taken p op r).counter c i = s.counter c i := by simp [State.counter]
@[simp] theorem State.taken_isFenced (b : Nat) : (s.taken p op r).isFenced b = s.isFenced b := by
  simp [State.isFenced, State.fenceOf]
@[simp] theorem State.taken_ctx (c : Nat) : (s.taken p op r).ctx c = s.ctx c := by
  simp [State.ctx, State.ctxs, State.recs]
@[simp] theorem State.taken_ownsCtx (f c : Nat) : (s.taken p op r).ownsCtx f c = s.ownsCtx f c := by
  simp [State.ownsCtx]
@[simp] theorem State.taken_queueInfo (c q : Nat) : (s.taken p op r).queueInfo c q = s.queueInfo c q := by
  simp [State.queueInfo, State.queueInfos, State.recs]
@[simp] theorem State.taken_output (l : Nat) : (s.taken p op r).output l = s.output l := by
  simp [State.output, State.recField, State.recs]

end

/-! ### From a request to its answer -/

/-- The command `c` submits request `r` under OPCODE `op`, which the catalogue carries out as `cmd` (06 Table 6.8). -/
structure Carries (p : Requester) (op : Nat) (r : SpReq) (c : Instr) (cmd : State → State) : Prop where
  issues : Submits p r (c, op, r)
  lt : op < 65536
  row : fieldAt (requestBytes op r) 0 2 = op → ∀ t : State, t.carryOut (fnOf p) (requestBytes op r) = cmd t

section
variable {p : Requester} {op : Nat} {r : SpReq} {c : Instr} {cmd : State → State} {s : State}

/-- An accepted command that answers from a state with the queue as it was. -/
theorem exec_answers (k : Carries p op r c cmd) (h : Accepted p op r s) {f o status detail : Nat} {payload : List Byte}
    {u : State} (effect : cmd (s.taken p op r) = u.respond f o status detail payload) (queue : u.pending = s.pending) :
    exec c s = .next (u.respond f o status detail payload) := by
  obtain ⟨⟨same, low, mnemonic, submits⟩, lt, row⟩ := k
  rw [exec_accepted h low same (submits s) row lt, effect]
  exact done_eq ((Only.respond _ _ _ _ _ _).1.trans queue)

/-- An accepted command that does no more than answer. -/
theorem exec_answersOnly (k : Carries p op r c cmd) (h : Accepted p op r s) {f o status detail : Nat}
    {payload : List Byte} (effect : cmd (s.taken p op r) = (s.taken p op r).respond f o status detail payload) :
    exec c s = .next ((s.taken p op r).respond f o status detail payload) :=
  exec_answers k h effect (pending_taken p op r s)

/-- Check 8 answers with the lowest field that breaks a rule. -/
theorem ifFields_refused {f : Nat} {rules : List (Bool × Nat)} {o : Nat} (next : State → State)
    (broken : offendingField rules = some o) : s.ifFields f op rules next = s.respond f op 0x2006 o [] := by
  rw [State.ifFields, broken]

end

end Sys2Proof.Machine
end

section
/-! PROOF. The commands that only report (06 Table 6.10, R117, R123): each as its row of the catalogue, and its
answer. -/

namespace Sys2Proof.Machine

section
variable {p : Requester} {r : SpReq} {s : State}

/-! ### Reports of the device -/

theorem carries_getInfo : Carries p 0x0001 r (.getInfo p r) (State.cmdGetInfo (fnOf p)) :=
  ⟨.of rfl (by decide) fun _ => rfl, by decide, fun op t => by rw [State.carryOut, op]; rfl⟩

theorem carries_selftestReport : Carries p 0x0004 r (.selftestReport p r) State.cmdSelftestReport :=
  ⟨.of rfl (by decide) fun _ => rfl, by decide, fun op t => by rw [State.carryOut, op]; rfl⟩

theorem carries_routeReport : Carries p 0x0006 r (.routeReport p r) State.cmdRouteReport :=
  ⟨.of rfl (by decide) fun _ => rfl, by decide, fun op t => by rw [State.carryOut, op]; rfl⟩

theorem carries_timeStatus : Carries p 0x0105 r (.timeStatus p r) (State.cmdTimeStatus (fnOf p)) :=
  ⟨.of rfl (by decide) fun _ => rfl, by decide, fun op t => by rw [State.carryOut, op]; rfl⟩

theorem carries_faultRead : Carries p 0x0106 r (.faultRead p r) State.cmdFaultRead :=
  ⟨.of rfl (by decide) fun _ => rfl, by decide, fun op t => by rw [State.carryOut, op]; rfl⟩

theorem carries_eccCounters : Carries p 0x0301 r (.eccCounters p r) State.cmdEccCounters :=
  ⟨.of rfl (by decide) fun _ => rfl, by decide, fun op t => by rw [State.carryOut, op]; rfl⟩

theorem carries_spurRead : Carries p 0x0C03 r (.spurRead p r) State.cmdSpurRead :=
  ⟨.of rfl (by decide) fun _ => rfl, by decide, fun op t => by rw [State.carryOut, op]; rfl⟩

theorem cmdSelftestReport_ended (h : s.devState ≠ .selftest) : s.cmdSelftestReport = s.respond 0 0x0004 0 0
    ((s.fw.testResult.map fun x => le 1 x).flatten ++ le 2 s.fw.testStatus.toNat ++ le 6 0) := if_neg h

/-- The self-test's steps as they are reported when it has come to step `k`: passed, running, not begun. -/
def stepsReported (k : Nat) : List Byte :=
  (List.range 8).map fun j => if j + 1 < k then 1 else if j + 1 = k then 3 else 0

theorem stepsReported_eq (k : Nat) :
    ((rangeFrom 1 8).map fun j => le 1 (if j < k then 1 else if j = k then 3 else 0)).flatten = stepsReported k := by
  have step : ∀ j, le 1 (if 1 + j < k then 1 else if 1 + j = k then 3 else 0) =
      [if j + 1 < k then 1 else if j + 1 = k then 3 else 0] := by
    intro j
    rw [Nat.add_comm 1 j]
    split
    · rfl
    · split <;> rfl
  calc ((rangeFrom 1 8).map fun j => le 1 (if j < k then 1 else if j = k then 3 else 0)).flatten
    _ = ((List.range 8).map fun j => le 1 (if 1 + j < k then 1 else if 1 + j = k then 3 else 0)).flatten := by
      rw [rangeFrom, List.map_map]
      rfl
    _ = ((List.range 8).map fun j => [if j + 1 < k then 1 else if j + 1 = k then 3 else 0]).flatten :=
      congrArg List.flatten (List.map_congr_left fun j _ => step j)
    _ = stepsReported k := by rw [← List.flatMap_def, ← List.map_eq_flatMap, stepsReported]

/-- While the self-test runs, how far it has come is the next free value (log 2). -/
theorem cmdSelftestReport_running (h : s.devState = .selftest) : ∃ k, 1 ≤ k ∧ k ≤ 8 ∧ s.cmdSelftestReport =
    State.respond 0 0x0004 0 0 (stepsReported k ++ le 8 0) { s with free := s.free + 1 } := by
  refine ⟨Config.freeValue s.free % 8 + 1, by omega, by omega, ?_⟩
  rw [← stepsReported_eq]
  exact if_pos h

/-! ### Reports of a context -/

theorem carries_queueState : Carries p 0x0201 r (.queueState p r)
    (State.cmdQueueState (fnOf p) (requestBytes 0x0201 r)) :=
  ⟨.of rfl (by decide) fun _ => rfl, by decide, fun op t => by rw [State.carryOut, op]; rfl⟩

theorem carries_contextInfo : Carries p 0x0203 r (.contextInfo p r)
    (State.cmdContextInfo (fnOf p) (requestBytes 0x0203 r)) :=
  ⟨.of rfl (by decide) fun _ => rfl, by decide, fun op t => by rw [State.carryOut, op]; rfl⟩

theorem carries_countersRead : Carries p 0x0204 r (.countersRead p r)
    (State.cmdCountersRead (fnOf p) (requestBytes 0x0204 r)) :=
  ⟨.of rfl (by decide) fun _ => rfl, by decide, fun op t => by rw [State.carryOut, op]; rfl⟩

section
variable {f op : Nat} {g : QueueInfo → State → State}

/-- A queue of the request's context that has a QUEUE record. -/
theorem withQueue_found {i : QueueInfo} (h : s.queueInfo r.ctx.toNat (byteAt r.payload 0) = some i) :
    s.withQueue f op (requestBytes op r) g = g i s := by
  have queue : byteAt (requestBytes op r) 8 = byteAt r.payload 0 := requestBytes_byte op r 0 (by decide)
  rw [State.withQueue, requestBytes_ctx, queue, h]

theorem withQueue_missing (h : s.queueInfo r.ctx.toNat (byteAt r.payload 0) = none) :
    s.withQueue f op (requestBytes op r) g = s.respond f op 0x2006 8 [] := by
  have queue : byteAt (requestBytes op r) 8 = byteAt r.payload 0 := requestBytes_byte op r 0 (by decide)
  rw [State.withQueue, requestBytes_ctx, queue, h]

end

/-! ### Reports of a loop -/

theorem carries_loopStatus : Carries p 0x0903 r (.loopStatus p r)
    (State.cmdLoopStatus (requestBytes 0x0903 r)) :=
  ⟨.of rfl (by decide) fun _ => rfl, by decide, fun op t => by rw [State.carryOut, op]; rfl⟩

/-- LOOP_STATUS with CLEAR clears WRAP of its loop (15 R316). -/
def State.wrapCleared (clear : Bool) (l : Nat) (s : State) : State :=
  if clear then s.modLoop l fun y => { y with wrap := false } else s

theorem Only.wrapCleared (clear : Bool) (l : Nat) (s : State) : Only [.loops] s (s.wrapCleared clear l) :=
  Only.when (Only.refl _ s) fun x => Only.modLoop l _ x

/-- LOOP_STATUS's payload (06 Table 6.10). -/
def State.loopReport (s : State) (l : Nat) : List Byte :=
  le 1 (b2n (s.loop l).manual)
    ++ le 1 (b2n (s.loop l).wrap + 2 * b2n (s.loop l).lastLate + 4 * b2n ((s.loop l).reads.any fun e => e.2.stale)
      + 8 * b2n (s.loop l).commitTbl.isSome)
    ++ le 2 0 ++ le 4 (s.loop l).wrapCount ++ le 4 (s.loop l).lateCount ++ le 4 (unsigned 24 (s.output l))
    ++ le 8 (s.loop l).lastSample

theorem cmdLoopStatus_eq {b : List Byte} (slot : byteAt b 8 ≤ 31) : s.cmdLoopStatus b =
    (s.wrapCleared ((byteAt b 9).testBit 0) (byteAt b 8)).respond 0 0x0903 0 0 (s.loopReport (byteAt b 8)) := by
  unfold State.cmdLoopStatus
  dsimp only
  rw [ifFields_passed]
  · rfl
  · simpa using slot

theorem cmdLoopStatus_refused {b : List Byte} (slot : 31 < byteAt b 8) :
    s.cmdLoopStatus b = s.respond 0 0x0903 0x2006 8 [] := by
  unfold State.cmdLoopStatus
  exact ifFields_refused _ (by simp [offendingField, fieldsIf, lowestField, slot])

end

end Sys2Proof.Machine

open Sys2Proof Sys2Proof.Machine

/-- Settles O27: each report through its row of the catalogue, read from the state as the doorbell leaves it. -/
theorem reportCommandsAnswer : Obligations.ReportCommandsAnswer := by
  intro p r s
  have slot : byteAt (requestBytes 0x0903 r) 8 = byteAt r.payload 0 := requestBytes_byte _ r 0 (by decide)
  have clear : byteAt (requestBytes 0x0903 r) 9 = byteAt r.payload 1 := requestBytes_byte _ r 1 (by decide)
  refine ⟨fun h => exec_answersOnly carries_getInfo h ?_, fun h ended => exec_answersOnly carries_selftestReport h ?_,
    fun h runs => ?selftest, fun h => exec_answersOnly carries_routeReport h ?_,
    fun h => exec_answersOnly carries_timeStatus h ?_, fun h => exec_answersOnly carries_faultRead h ?_,
    fun h => exec_answersOnly carries_eccCounters h ?_, fun i h found => exec_answersOnly carries_queueState h ?_,
    fun h missing => exec_answersOnly carries_queueState h ?_, fun c h found => exec_answersOnly carries_contextInfo h ?_,
    fun h => exec_answersOnly carries_countersRead h ?_, fun h le31 => ?loopStatus, fun l => rfl,
    fun h gt31 => exec_answersOnly carries_loopStatus h (cmdLoopStatus_refused (slot ▸ gt31)),
    fun h => exec_answersOnly carries_spurRead h ?_⟩
  case selftest =>
    obtain ⟨k, lo, hi, effect⟩ := cmdSelftestReport_running (s := s.taken p 0x0004 r) (by simpa using runs)
    rw [State.taken_free] at effect
    exact ⟨k, lo, hi, exec_answers carries_selftestReport h effect (pending_taken p 0x0004 r s)⟩
  case loopStatus =>
    have effect := cmdLoopStatus_eq (s := s.taken p 0x0903 r) (slot ▸ le31)
    rw [slot, clear] at effect
    have queue := (Only.wrapCleared ((byteAt r.payload 1).testBit 0) (byteAt r.payload 0) (s.taken p 0x0903 r)).1
    have same : (s.taken p 0x0903 r).loopReport (byteAt r.payload 0) = s.loopReport (byteAt r.payload 0) := by
      simp only [State.loopReport, State.taken_loop, State.taken_output]
    rw [same] at effect
    exact exec_answers carries_loopStatus h effect (queue.trans (pending_taken p 0x0903 r s))
  · simp only [State.cmdGetInfo, State.answer, State.taken_fw, State.taken_devState, State.taken_mem,
      State.taken_ownsCtx]
  · rw [cmdSelftestReport_ended (by simpa using ended), State.taken_fw]
  · simp only [State.cmdRouteReport, State.answer, State.taken_fw]
  · simp only [State.cmdTimeStatus, State.answer, State.taken_now, State.taken_time]
  · simp only [State.cmdFaultRead, State.answer, State.faultRing, State.taken_verge]
  · simp only [State.cmdEccCounters, State.answer, State.taken_mem]
  · rw [State.cmdQueueState, withQueue_found (by simpa using found)]
    simp only [State.answer, State.taken_queue, State.taken_sched]
  · rw [State.cmdQueueState, withQueue_missing (by simpa using missing)]
  · simp only [State.cmdContextInfo, State.answer, requestBytes_ctx, State.taken_ctx, found]
  · simp only [State.cmdCountersRead, State.answer, requestBytes_ctx, State.taken_counter]
  · simp only [State.cmdSpurRead, State.answer, State.taken_ports]
end

section
/-! PROOF. The control and port commands (06 R121, R122, Table 6.9 checks 8 and 10; 15 R322; 16 R345; 18 R377, R380). -/

namespace Sys2Proof.Machine

section
variable {p : Requester} {r : SpReq} {s : State} {b : List Byte}

/-! ### LOOP_MODE -/

theorem carries_loopMode : Carries p 0x0901 r (.loopMode p r) (State.cmdLoopMode (requestBytes 0x0901 r)) :=
  ⟨.of rfl (by decide) fun _ => rfl, by decide, fun op t => by rw [State.carryOut, op]; rfl⟩

theorem cmdLoopMode_waits (slot : byteAt b 8 ≤ 31) (mode : byteAt b 9 ≤ 1) : s.cmdLoopMode b =
    (s.modLoop (byteAt b 8) fun x => { x with
      modeReq := some (byteAt b 9 == 1, signed 24 (fieldAt b 12 3), s.now + 50000) }).respond 0 0x0901 0 0 [] := by
  unfold State.cmdLoopMode
  dsimp only
  rw [ifFields_passed]
  · rfl
  · simpa using ⟨slot, mode⟩

theorem cmdLoopMode_refused (bad : 31 < byteAt b 8 ∨ 1 < byteAt b 9) :
    s.cmdLoopMode b = s.respond 0 0x0901 0x2006 (if 31 < byteAt b 8 then 8 else 9) [] := by
  unfold State.cmdLoopMode
  refine ifFields_refused _ ?_
  by_cases slot : 31 < byteAt b 8
  · by_cases mode : 1 < byteAt b 9 <;> simp [offendingField, fieldsIf, lowestField, slot, mode]
  · simp [offendingField, fieldsIf, lowestField, slot, bad.resolve_left slot]

/-! ### LOOP_TABLE_WRITE -/

theorem carries_loopTableWrite : Carries p 0x0902 r (.loopTableWrite p r)
    (State.cmdLoopTableWrite (requestBytes 0x0902 r)) :=
  ⟨.of rfl (by decide) fun _ => rfl, by decide, fun op t => by rw [State.carryOut, op]; rfl⟩

@[simp] theorem State.taken_breaksOk (p : Requester) (op : Nat) (r : SpReq) (s : State) (l : Nat) (x : LoopTables) :
    (s.taken p op r).breaksOk l x = s.breaksOk l x := by
  simp [State.breaksOk, State.loopRec, State.recN, State.recs]

/-- The loop, table and entries that a LOOP_TABLE_WRITE names, each within its bounds (06 Table 6.10). -/
structure TableNamed (b : List Byte) (l k lo n : Nat) : Prop where
  loop : l = byteAt b 8
  table : k = byteAt b 9
  entry : lo = fieldAt b 12 2
  count : n = fieldAt b 14 2
  slot : l ≤ 31
  known : k ≤ 2
  fits : lo + n ≤ tableSize k

section
variable {l k lo n : Nat} {x : LoopTables} (named : TableNamed b l k lo n)
  (shadow : x = (s.loop l).shadow.put k lo n (b.drop 16))
include named shadow

theorem cmdLoopTableWrite_breaks (commit : (byteAt b 10).testBit 0 = true) (fall : s.breaksOk l x = false) :
    s.cmdLoopTableWrite b = s.respond 0 0x0902 0x2006 10 [] := by
  obtain ⟨rfl, rfl, rfl, rfl, slot, known, fits⟩ := named
  subst shadow
  unfold State.cmdLoopTableWrite
  exact ifFields_refused _ (by
    simp only [slot, known, fits, commit, fall, offendingField, fieldsIf, decide_true, Bool.true_and, Bool.not_false,
      Bool.not_true, Bool.and_false, decide_eq_false (Nat.not_lt.2 slot), decide_eq_false (Nat.not_lt.2 known)]
    rfl)

section
variable (rise : (byteAt b 10).testBit 0 = true → s.breaksOk l x = true)
include rise

/-- A write whose fields pass check 8 goes on to whether a commit waits. -/
theorem cmdLoopTableWrite_passed : s.cmdLoopTableWrite b =
    if (s.loop l).commitTbl.isSome then s.respond 0 0x0902 0x2009 3 []
    else (s.modLoop l fun y => { y with
      shadow := x
      commitTbl := if (byteAt b 10).testBit 0 then some (k, s.now + 50000) else none }).respond 0 0x0902 0 0 [] := by
  obtain ⟨rfl, rfl, rfl, rfl, slot, known, fits⟩ := named
  subst shadow
  unfold State.cmdLoopTableWrite
  dsimp only
  rw [ifFields_passed]
  · rfl
  · simpa [slot, known, fits] using rise

theorem cmdLoopTableWrite_waiting (waits : (s.loop l).commitTbl ≠ none) :
    s.cmdLoopTableWrite b = s.respond 0 0x0902 0x2009 3 [] := by
  rw [cmdLoopTableWrite_passed named shadow rise, if_pos (Option.isSome_iff_ne_none.2 waits)]

theorem cmdLoopTableWrite_writes (free : (s.loop l).commitTbl = none) : s.cmdLoopTableWrite b =
    (s.modLoop l fun y => { y with
      shadow := x
      commitTbl := if (byteAt b 10).testBit 0 then some (k, s.now + 50000) else none }).respond 0 0x0902 0 0 [] := by
  rw [cmdLoopTableWrite_passed named shadow rise, if_neg (by simp [free])]

end
end

/-! ### TWIN_REARM -/

theorem carries_twinRearm : Carries p 0x0A01 r (.twinRearm p r) State.cmdTwinRearm :=
  ⟨.of rfl (by decide) fun _ => rfl, by decide, fun op t => by rw [State.carryOut, op]; rfl⟩

/-- No stop is in force, and no partner's (16 R345). -/
def State.stopLifted (s : State) : State :=
  { s with verge := { s.verge with partnerStop := false, stop := .none, stoByStop := false, stoCause := 0 } }

theorem Only.rearm (s : State) : Only [.verge, .loops] s s.rearm := by
  have lifted : Only [.verge] s s.stopLifted := Only.ofVergeKeep s _ rfl
  exact (lifted.mono (by decide)).thenFoldl (fun t l =>
    Only.ite (fun _ => (Only.modLoop l _ t).mono (by decide)) fun _ => Only.refl _ t) _

theorem cmdTwinRearm_rearms (up : s.verge.twin.up = true) (stop : s.verge.partnerStop = true) :
    s.cmdTwinRearm = s.rearm.respond 0 0x0A01 0 0 [] := by
  simp [State.cmdTwinRearm, State.answer, up, stop]

theorem cmdTwinRearm_noStop (up : s.verge.twin.up = true) (stop : s.verge.partnerStop = false) :
    s.cmdTwinRearm = s.respond 0 0x0A01 0x2009 4 [] := by
  simp [State.cmdTwinRearm, up, stop]

theorem cmdTwinRearm_down (down : s.verge.twin.up = false) : s.cmdTwinRearm = s.respond 0 0x0A01 0x2009 2 [] := by
  simp [State.cmdTwinRearm, down]

/-! ### ANN_CLEAR -/

theorem carries_annClear : Carries p 0x0C01 r (.annClear p r) State.cmdAnnClear :=
  ⟨.of rfl (by decide) fun _ => rfl, by decide, fun op t => by rw [State.carryOut, op]; rfl⟩

theorem cmdAnnClear_latched (latched : s.ports.ann.state = 3) : s.cmdAnnClear =
    (s.modAnn fun a => { a with state := 0, trips := 0, status := 0 }).respond 0 0x0C01 0 0 [] := by
  simp [State.cmdAnnClear, State.answer, latched]

theorem cmdAnnClear_other (other : s.ports.ann.state ≠ 3) : s.cmdAnnClear = s.respond 0 0x0C01 0 0 [] := by
  simp [State.cmdAnnClear, State.answer, other]

/-! ### SPUR_SEARCH -/

theorem carries_spurSearch : Carries p 0x0C02 r (.spurSearch p r) State.cmdSpurSearch :=
  ⟨.of rfl (by decide) fun _ => rfl, by decide, fun op t => by rw [State.carryOut, op]; rfl⟩

/-- A search of the Tool Spur begins (18 R377). -/
def State.spurSearching (s : State) : State :=
  { s with ports := { s.ports with spur := { s.ports.spur with running := true, changed := false } } }

theorem Only.spurEnd (status : Nat) (ids : List Nat) (s : State) :
    Only [.ports, .events, .irq, .out] s (s.spurEnd status ids) :=
  ((Only.ofPorts s _).mono (by decide)).trans ((Only.post _ _ _ _).mono (by decide))

theorem cmdSpurSearch_busy (running : s.ports.spur.running = true) :
    s.cmdSpurSearch = s.respond 0 0x0C02 0x1001 0 [] := by
  simp [State.cmdSpurSearch, running]

theorem cmdSpurSearch_starts (idle : s.ports.spur.running = false) : s.cmdSpurSearch =
    (if s.isFenced 0x4C then s.spurSearching.spurEnd 0x4C04 [] else s.spurSearching).respond 0 0x0C02 0 0 [] := by
  simp [State.cmdSpurSearch, State.answer, State.spurSearching, idle]

end

end Sys2Proof.Machine

open Sys2Proof Sys2Proof.Machine

/-- Settles O32: each command as its row of the catalogue, by the lemma of the case that its request and the state are
in. -/
theorem controlCommandsAct : Obligations.ControlCommandsAct := by
  intro p r s
  have byte := fun op o within => requestBytes_byte op r o within
  have entering := pending_taken p (s := s) (r := r)
  refine ⟨fun h slot mode => ?modeWaits, fun h bad => ?modeRefused, ?table, fun h => ⟨fun up stop => ?_, fun up stop => ?_,
      fun down => ?_⟩, fun h latched => ?_, fun h other => ?_, fun h idle => ⟨_, rfl, fun free => ?free,
      fun fence => ?fenced⟩, fun h running => ?_⟩
  case modeWaits =>
    have l := byte 0x0901 0 (by decide)
    have m := byte 0x0901 1 (by decide)
    have out := requestBytes_payload (op := 0x0901) r 4 3 (by decide)
    have effect := cmdLoopMode_waits (s := s.taken p 0x0901 r) (l ▸ slot) (m ▸ mode)
    simp only [Nat.reduceAdd] at l m out
    rw [l, m, out, State.taken_now] at effect
    exact exec_answers carries_loopMode h effect (entering _)
  case modeRefused =>
    have l := byte 0x0901 0 (by decide)
    have m := byte 0x0901 1 (by decide)
    have effect := cmdLoopMode_refused (s := s.taken p 0x0901 r) (b := requestBytes 0x0901 r) (l ▸ m ▸ bad)
    simp only [Nat.reduceAdd] at l
    rw [l] at effect
    exact exec_answersOnly carries_loopMode h effect
  case table =>
    intro l k n x hl hk hn hx h slot known fits
    have flags := byte 0x0902 2 (by decide)
    have named : TableNamed (requestBytes 0x0902 r) l k (fieldAt r.payload 4 2) n :=
      ⟨hl.trans (byte _ 0 (by decide)).symm, hk.trans (byte _ 1 (by decide)).symm,
        (requestBytes_payload r 4 2 (by decide)).symm, hn.trans (requestBytes_payload r 6 2 (by decide)).symm,
        slot, known, fits⟩
    have shadow : x = ((s.taken p 0x0902 r).loop l).shadow.put k (fieldAt r.payload 4 2) n
        ((requestBytes 0x0902 r).drop 16) := by
      rw [State.taken_loop, hx, ← drop_requestBytes]
    simp only [Nat.reduceAdd] at flags
    refine ⟨fun commit fall => ?_, fun rise => ⟨fun waits => ?_, fun free => ?_⟩⟩
    · exact exec_answersOnly carries_loopTableWrite h
        (cmdLoopTableWrite_breaks named shadow (flags ▸ commit) (by simpa using fall))
    · exact exec_answersOnly carries_loopTableWrite h
        (cmdLoopTableWrite_waiting named shadow (by simpa [flags] using rise) (by simpa using waits))
    · have effect := cmdLoopTableWrite_writes named shadow (by simpa [flags] using rise) (by simpa using free)
      rw [flags, State.taken_now] at effect
      exact exec_answers carries_loopTableWrite h effect (entering _)
  · exact exec_answers carries_twinRearm h (cmdTwinRearm_rearms (by simpa using up) (by simpa using stop))
      ((Only.rearm _).1.trans (entering _))
  · exact exec_answersOnly carries_twinRearm h (cmdTwinRearm_noStop (by simpa using up) (by simpa using stop))
  · exact exec_answersOnly carries_twinRearm h (cmdTwinRearm_down (by simpa using down))
  · exact exec_answers carries_annClear h (cmdAnnClear_latched (by simpa using latched)) (entering _)
  · exact exec_answersOnly carries_annClear h (cmdAnnClear_other (by simpa using other))
  case free =>
    have effect := cmdSpurSearch_starts (s := s.taken p 0x0C02 r) (by simpa using idle)
    rw [State.taken_isFenced, free, if_neg Bool.false_ne_true, State.spurSearching, State.taken_ports] at effect
    exact exec_answers carries_spurSearch h effect (entering _)
  case fenced =>
    have effect := cmdSpurSearch_starts (s := s.taken p 0x0C02 r) (by simpa using idle)
    rw [State.taken_isFenced, if_pos fence, State.spurSearching, State.taken_ports] at effect
    exact exec_answers carries_spurSearch h effect ((Only.spurEnd _ _ _).1.trans (entering _))
  · exact exec_answersOnly carries_spurSearch h (cmdSpurSearch_busy (by simpa using running))
end

section
/-! PROOF. BLOCK_CONTROL with a payload that SP_CMD cannot hold (06 Table 6.1): `withAction` cuts the request to 248 bytes,
so that request is accepted, while the command that issues it is ill-formed and never reaches Larza. -/

namespace Sys2Proof.Machine

/-- RUN, entered from reset. -/
def plainRun : State := { State.reset with devState := .run }

/-- A BLOCK_CONTROL request for BLOCK 0x18, which supports no action, with 249 bytes of payload. -/
def overlongRequest : SpReq :=
  { tag := 0, reserved := 0, len := 8, ctx := 0xFFFF, payload := 0x18 :: List.replicate 248 0 }

theorem overlongRequest_illFormed : overlongRequest.wellFormed = false := by decide +kernel

theorem accepted_overlongRequest : Accepted (.pcie 0) 0x0103 (withAction 0 overlongRequest) plainRun :=
  ⟨by decide +kernel, ⟨by decide, rfl, by decide, rfl, by decide, by decide⟩, by decide +kernel⟩

/-- BLOCK_RESET stops with a payload longer than SP_CMD, whatever the state. -/
theorem exec_blockReset_illFormed (p : Requester) {r : SpReq} (s : State) (h : r.wellFormed = false) :
    exec (.blockReset p r) s = .fault (.illFormed "BLOCK_RESET") := checked_ill (c := .blockReset p r) h

end Sys2Proof.Machine

open Sys2Proof Sys2Proof.Machine

/-- Refutes O31: the BLOCK_CONTROL clause takes the request with its ACTION as accepted, which says nothing of the payload
that the command itself carries; one of 249 bytes makes the command ill-formed, and it stops where the clause has an
answer. -/
theorem not_deviceCommandsAct : ¬ Obligations.DeviceCommandsAct := by
  intro h
  obtain ⟨-, -, block, -⟩ := h (.pcie 0) overlongRequest plainRun
  obtain ⟨unsupported, -⟩ :=
    block 0 (.blockReset (.pcie 0) overlongRequest) List.mem_cons_self accepted_overlongRequest _ rfl
  have answers := unsupported (by decide +kernel)
  rw [exec_blockReset_illFormed _ _ overlongRequest_illFormed] at answers
  cases answers
end

section
/-! PROOF. What an arbiter chooses and what the start of a waybill does (07 section 7.4; 09 section 9.6, R192). -/

namespace Sys2Proof.Machine

/-! ### The engine that the arbiter serves -/

/-- Station `d` is unfenced and runs no waybill. -/
def State.isFree (s : State) (d : Nat) : Prop := s.stationFenced d = false ∧ ∀ w ∈ s.sched.flight, w.engine ≠ some d

theorem firstFree_eq_some {s : State} {cls e : Nat} (station : e < 19) (cl : classOf e = cls) :
    s.firstFree cls = some e ↔ s.isFree e ∧ ∀ d < e, classOf d = cls → ¬ s.isFree d := by
  have serves : ∀ d, (classOf d == cls && !s.stationFenced d && !s.sched.flight.any fun w => w.engine == some d) = true ↔
      classOf d = cls ∧ s.isFree d := fun d => by simp [State.isFree, and_assoc]
  rw [State.firstFree, List.find?_range_eq_some, serves, List.mem_range]
  simp only [Bool.not_eq_true', ← Bool.not_eq_true, serves, not_and]
  exact ⟨fun ⟨⟨_, free⟩, _, lower⟩ => ⟨free, lower⟩, fun ⟨free, lower⟩ => ⟨⟨cl, free⟩, station, lower⟩⟩

theorem exec_engineDispatch_idle {e : Fin 19} {s : State} (h : s.active = false ∨ s.firstFree (classOf e) ≠ some e.val) :
    exec (.engineDispatch e) s = .next s := by
  have idle : (!s.active || s.firstFree (classOf e) != some e.val) = true := by simpa using h
  change execEngineDispatch e s = _
  rw [execEngineDispatch, if_pos idle]
  rfl

/-! ### The waybill that starts -/

theorem mem_flight_of_holders {s : State} {e : Nat} {w : Waybill} (h : w ∈ s.holders e) : w ∈ s.sched.flight := by
  unfold State.holders at h
  split at h
  · cases h
  · exact (List.mem_filter.1 h).1

theorem urgent_spec {s : State} {cls : Nat} {w : Waybill} (h : s.urgent cls = some w) :
    w ∈ s.holders s.sched.tokenAt ∧ w.running = false ∧ w.wclass = cls := by
  have picked := List.find?_some h
  simp only [Bool.and_eq_true, Bool.not_eq_true', beq_iff_eq] at picked
  exact ⟨List.mem_of_find?_eq_some h, picked⟩

theorem queueInfo_names {s : State} {c q : Nat} {i : QueueInfo} (h : s.queueInfo c q = some i) : i.ctx = c ∧ i.queue = q := by
  simpa using List.find?_some h

theorem running_of_startable {s : State} {w : Waybill} (h : s.startable w = true) : w.running = false := by
  simp only [State.startable, Bool.and_eq_true, Bool.not_eq_true'] at h
  obtain ⟨⟨⟨-, idle⟩, -⟩, -⟩ := h
  exact idle

theorem readyHead_spec {s : State} {cls : Nat} {i : QueueInfo} {w : Waybill} (h : s.readyHead cls i = some w) :
    w ∈ s.sched.flight ∧ w.ctx = i.ctx ∧ w.wclass = cls ∧ s.startable w = true := by
  obtain ⟨v, found, ready⟩ := Option.bind_eq_some_iff.1 h
  obtain ⟨start, same⟩ := Option.ite_none_right_eq_some.1 ready
  cases same
  have head := List.find?_some found
  simp only [Bool.and_eq_true, beq_iff_eq] at head
  obtain ⟨⟨⟨ctx, -⟩, cl⟩, -⟩ := head
  exact ⟨List.mem_of_find?_eq_some found, ctx, cl, start⟩

/-- What a context starts next for a class is a startable waybill of both. -/
theorem readyOf_spec {s : State} {cls c : Nat} {w : Waybill} (h : s.readyOf cls c = some w) :
    w ∈ s.sched.flight ∧ w.ctx = c ∧ w.wclass = cls ∧ s.startable w = true := by
  obtain ⟨k, -, ofClass⟩ := List.exists_of_findSome?_eq_some h
  obtain ⟨q, -, ofQueue⟩ := List.exists_of_findSome?_eq_some ofClass
  split at ofQueue
  · next i named =>
    obtain ⟨-, head⟩ := Option.ite_none_right_eq_some.1 ofQueue
    obtain ⟨mem, ctx, rest⟩ := readyHead_spec head
    exact ⟨mem, ctx.trans (queueInfo_names named).1, rest⟩
  · cases ofQueue

/-- The Scheduler with other credits, and the arbiter of a class past context `c`. -/
def State.chosen (cls c : Nat) (credits : Map Nat) (s : State) : State :=
  { s with sched := { s.sched with credits := credits, pointers := s.sched.pointers.set 0 cls (c + 1) } }

/-- The arbiter's choice is a startable waybill of its class; the choice moves the pointer past its context and changes
credits alone beside it, whether or not every credit was reloaded. -/
theorem arbitrate_spec {s u : State} {cls : Nat} {w : Waybill} (h : s.arbitrate cls = some (w, u)) :
    w ∈ s.sched.flight ∧ w.wclass = cls ∧ s.startable w = true ∧ ∃ credits, u = s.chosen cls w.ctx credits := by
  have taken : ∀ (c : Nat) (credits : Map Nat), (s.readyOf cls c).map (fun v => (v, s.chosen cls c credits)) = some (w, u) →
      w ∈ s.sched.flight ∧ w.wclass = cls ∧ s.startable w = true ∧ ∃ credits, u = s.chosen cls w.ctx credits := by
    intro c credits h
    obtain ⟨v, ready, e⟩ := Option.map_eq_some_iff.1 h
    cases e
    obtain ⟨mem, ctx, cl, start⟩ := readyOf_spec ready
    exact ⟨mem, cl, start, credits, by rw [ctx]⟩
  unfold State.arbitrate at h
  dsimp only at h
  split at h
  · exact taken _ _ h
  · split at h
    · cases h
    · exact taken _ _ h

/-! ### The start -/

theorem Only.ieTake (w : Waybill) (s : State) : Only [.intake, .mem] s (s.ieTake w).2 := by
  have intake : ∀ m : IntakeSt, Only [.intake, .mem] s { s with intake := m } := fun m =>
    (Only.ofIntake s m).mono (by decide)
  have opened : Only [.intake, .mem] s (s.openStream w) := (intake _).trans ((Only.ofMem _ _).mono (by decide))
  unfold State.ieTake
  split
  · exact Only.refl _ s
  split
  · split
    · exact Only.refl _ s
    · exact opened
  split
  · dsimp only
    split
    · exact Only.refl _ s
    · split
      · exact Only.refl _ s
      · exact intake _
  split
  · dsimp only
    split
    · exact intake _
    · exact Only.refl _ s
  · exact Only.refl _ s

/-- Only the IE takes anything at a start (13 R262). -/
theorem ieTake_other {w : Waybill} (s : State) (h : w.wclass ≠ 4) : s.ieTake w = (0, s) := if_pos h

/-- Waybill `v` as the start of the one with ordinal `id` on engine `e` leaves it. -/
def Waybill.startedOn (id e now found : Nat) (v : Waybill) : Waybill :=
  if v.id = id then { v with engine := some e, started := now, intake := found } else v

theorem Waybill.startedOn_id (id e now found : Nat) (v : Waybill) : (v.startedOn id e now found).id = v.id := by
  unfold Waybill.startedOn
  split <;> rfl

theorem flight_startOn (e : Nat) (w : Waybill) (s : State) :
    (s.startOn e w).sched.flight = s.sched.flight.map (Waybill.startedOn w.id e s.now (s.ieTake w).1) := by
  have same : (s.ieTake w).2.sched = s.sched := (Only.ieTake w s).get .sched
  simp only [State.startOn, same]
  rfl

theorem Only.startOn (e : Nat) (w : Waybill) (s : State) : Only [.sched, .intake, .mem] s (s.startOn e w) :=
  ((Only.ieTake w s).mono (by decide)).trans ((Only.ofSched _ _).mono (by decide))

theorem Only.startOn_other (e : Nat) {w : Waybill} (s : State) (h : w.wclass ≠ 4) : Only [.sched] s (s.startOn e w) := by
  rw [State.startOn, ieTake_other s h]
  exact Only.ofSched s _

theorem classOf_ne_intake {e : Nat} (h : e < 18) : classOf e ≠ 4 := by
  unfold classOf
  repeat' split
  all_goals omega

/-- What runs on a station that was free is what has just started there. -/
theorem running_startOn {s : State} {e : Nat} {w v : Waybill} (free : s.isFree e) (mem : v ∈ (s.startOn e w).sched.flight)
    (on : v.engine = some e) : v.started = s.now ∧ w.id = v.id := by
  rw [flight_startOn] at mem
  obtain ⟨x, hx, rfl⟩ := List.mem_map.1 mem
  by_cases same : x.id = w.id
  · rw [Waybill.startedOn, if_pos same]
    exact ⟨rfl, same.symm⟩
  · rw [Waybill.startedOn, if_neg same] at on
    exact absurd on (free.2 x hx)

/-- From `s` to `t` the Scoreboard keeps its waybills, and what runs on engine `e` has started now: it is of its class,
was not running, and was ready or held the token. But for the IE, only the Scheduler changes. -/
def StartsWork (e : Nat) (s t : State) : Prop :=
  t.sched.flight.map (·.id) = s.sched.flight.map (·.id) ∧
  (∀ v ∈ t.sched.flight, v.engine = some e → v.started = s.now ∧ ∃ w ∈ s.sched.flight, w.id = v.id ∧
    w.wclass = classOf e ∧ w.running = false ∧ (s.startable w = true ∨ w ∈ s.holders s.sched.tokenAt)) ∧
  (e ≠ 18 → Only [.sched] s t)

theorem startsWork_idle {e : Nat} {s : State} (free : s.isFree e) : StartsWork e s s :=
  ⟨rfl, fun v mem on => absurd on (free.2 v mem), fun _ => Only.refl _ s⟩

/-- The start of a waybill, where at most the arbiter's state has changed before it. -/
theorem startsWork_startOn {e : Nat} {s u : State} {w : Waybill} (station : e < 19) (free : s.isFree e)
    (arbiter : Only [.sched] s u) (flight : u.sched.flight = s.sched.flight) (mem : w ∈ s.sched.flight)
    (cl : w.wclass = classOf e) (idle : w.running = false)
    (may : s.startable w = true ∨ w ∈ s.holders s.sched.tokenAt) : StartsWork e s (u.startOn e w) := by
  have freeThen : u.isFree e := ⟨by
    have fences : u.fences = s.fences := arbiter.get .fences
    simpa [State.stationFenced, State.isFenced, State.fenceOf, fences] using free.1, by rw [flight]; exact free.2⟩
  have now : u.now = s.now := congrArg TimeSt.ms (arbiter.get .time : u.time = s.time)
  refine ⟨?_, fun v hv on => ?_, fun other => arbiter.trans (Only.startOn_other e u ?_)⟩
  · rw [flight_startOn, map_ids _ (Waybill.startedOn_id _ _ _ _), flight]
  · obtain ⟨started, id⟩ := running_startOn freeThen hv on
    exact ⟨started.trans now, w, mem, id, cl, idle, may⟩
  · rw [cl]; exact classOf_ne_intake (by omega)

section
variable {e : Fin 19} {s : State} (on : s.active = true) (free : s.isFree e) (first : s.firstFree (classOf e) = some e.val)
include on free first

theorem exec_engineDispatch_urgent {w : Waybill} (h : s.urgent (classOf e) = some w) :
    exec (.engineDispatch e) s = .next (s.startOn e w) ∧ StartsWork e s (s.startOn e w) := by
  obtain ⟨holds, idle, cl⟩ := urgent_spec h
  refine ⟨?_, startsWork_startOn e.isLt free (Only.refl _ s) rfl (mem_flight_of_holders holds) cl idle (.inr holds)⟩
  refine Eq.trans (congrArg (done s) ?_) (done_eq (Only.startOn e w s).1)
  simp [on, first, h]

theorem exec_engineDispatch_arbitrated {w : Waybill} {u : State} (calm : s.urgent (classOf e) = none)
    (h : s.arbitrate (classOf e) = some (w, u)) :
    exec (.engineDispatch e) s = .next (u.startOn e w) ∧ StartsWork e s (u.startOn e w) := by
  obtain ⟨mem, cl, start, credits, rfl⟩ := arbitrate_spec h
  refine ⟨?_, startsWork_startOn e.isLt free (Only.ofSched s _) rfl mem cl (running_of_startable start) (.inl start)⟩
  refine Eq.trans (congrArg (done s) ?_) (done_eq (Only.startOn e w (s.chosen (classOf e) w.ctx credits)).1)
  simp [on, first, calm, h]

theorem exec_engineDispatch_none (calm : s.urgent (classOf e) = none) (h : s.arbitrate (classOf e) = none) :
    exec (.engineDispatch e) s = .next s ∧ StartsWork e s s := by
  refine ⟨?_, startsWork_idle free⟩
  refine Eq.trans (congrArg (done s) ?_) (done_eq rfl)
  simp [on, first, calm, h]

/-- Whatever the dispatch finds, it starts work in this sense. -/
theorem goes_engineDispatch : Goes (exec (.engineDispatch e) s) (StartsWork e s) := by
  cases urgent : s.urgent (classOf e) with
  | some w => exact ⟨_, exec_engineDispatch_urgent on free first urgent⟩
  | none =>
    cases choice : s.arbitrate (classOf e) with
    | some x => exact ⟨_, exec_engineDispatch_arbitrated on free first urgent choice⟩
    | none => exact ⟨_, exec_engineDispatch_none on free first urgent choice⟩

end

end Sys2Proof.Machine

open Sys2Proof Sys2Proof.Machine

/-- Settles O38: the engine served by `firstFree_eq_some`, the waybill by `urgent_spec` and `arbitrate_spec`, and what its
start leaves by `StartsWork`. -/
theorem dispatchStartsReadyWork : Obligations.DispatchStartsReadyWork := by
  intro e s isFree
  have served : s.firstFree (classOf e) = some e.val ↔ s.isFree e ∧ ∀ d < e.val, classOf d = classOf e → ¬ s.isFree d :=
    firstFree_eq_some e.isLt rfl
  refine ⟨fun h => exec_engineDispatch_idle ?_, fun on free lower => ?_⟩
  · refine h.imp_right fun h first => ?_
    obtain ⟨free, lower⟩ := served.1 first
    obtain busy | ⟨d, lt, cl, other⟩ := h
    · exact busy free
    · exact lower d lt cl other
  · have first := served.2 ⟨free, lower⟩
    refine ⟨fun w urgent => ?_, fun w u calm choice => ?_, fun calm none => ?_, ?_⟩
    · exact ⟨_, (exec_engineDispatch_urgent on free first urgent).1, rfl, (urgent_spec urgent).1, Only.startOn e w s⟩
    · obtain ⟨-, -, start, credits, same⟩ := arbitrate_spec choice
      refine ⟨_, (exec_engineDispatch_arbitrated on free first calm choice).1, rfl, start, ?_, ?_⟩
      · rw [same]; rfl
      · rw [same]
        exact ((Only.ofSched s _).mono (by decide)).trans (Only.startOn e w _)
    · exact (exec_engineDispatch_none on free first calm none).1
    · obtain ⟨t, next, ids, starts, others⟩ := goes_engineDispatch on free first
      exact ⟨t, next, ids, starts, fun other => others fun same => other (Fin.ext same)⟩
end

section
/-! PROOF. Writes to the doorbell pages (07 R140, R141; 04 R72): the status that a write is judged with, and the queue that
it leaves. -/

namespace Sys2Proof.Machine

/-- A queue that a page offers is the one that the page names. -/
theorem liveQueue_names {s : State} {f c q : Nat} {i : QueueInfo} (h : s.liveQueue f c q = some i) :
    i.ctx = c ∧ i.queue = q :=
  queueInfo_names (Option.ite_none_right_eq_some.1 h).2

/-- DB_RESULT of a write judged with a status (07 Table 7.6). -/
def QueueSt.judged (status : Nat) (value : BitVec 16) (x : QueueSt) : QueueSt :=
  { x with dbStatus := BitVec.ofNat 16 status, dbValue := if status = 0 then 0 else value }

theorem Only.doorbell (i : QueueInfo) (status : Nat) (value : BitVec 16) (s : State) :
    Only [.queues, .counters] s (s.doorbell i status value) :=
  ((Only.modQueue _ _ _ s).mono (by decide)).trans ((Only.count _ _ _ _).mono (by decide))

theorem queues_doorbell (i : QueueInfo) (status : Nat) (value : BitVec 16) (s : State) :
    (s.doorbell i status value).queues = (s.modQueue i.ctx i.queue (QueueSt.judged status value)).queues :=
  (Only.count i.ctx (if status = 0 then 6 else if status = 0x2201 then 7 else 8) 1 _).get .queues

/-- A judged write: DB_RESULT is set, and where the write is taken the queue takes it too. -/
def State.pageWritten (i : QueueInfo) (status : Nat) (value : BitVec 16) (take : QueueSt → QueueSt) (s : State) : State :=
  if status = 0 then (s.doorbell i status value).modQueue i.ctx i.queue take else s.doorbell i status value

section
variable {s : State} (i : QueueInfo) (status : Nat) (value : BitVec 16) (take : QueueSt → QueueSt)

theorem Only.pageWritten : Only [.queues, .counters] s (s.pageWritten i status value take) :=
  Only.ite (fun _ => (Only.doorbell i status value s).trans ((Only.modQueue _ _ _ _).mono (by decide)))
    fun _ => Only.doorbell i status value s

/-- The write reaches its own queue alone. -/
theorem queue_pageWritten (wf : Map.wf QueueSt.init s.queues = true) (d r : Nat) :
    (s.pageWritten i status value take).queue d r = if d * 4 + r = i.ctx * 4 + i.queue then
      (if status = 0 then take else id) ((s.queue i.ctx i.queue).judged status value) else s.queue d r := by
  have told : ∀ d r, (s.doorbell i status value).queue d r = if d * 4 + r = i.ctx * 4 + i.queue then
      (s.queue i.ctx i.queue).judged status value else s.queue d r := fun d r => by
    rw [State.queue, queues_doorbell]
    exact State.queue_modQueue s _ _ d r _ wf
  unfold State.pageWritten
  split
  · rw [State.queue_modQueue _ _ _ _ _ _ (by rw [queues_doorbell]; exact Map.wf_set _ _ _ _ wf), told, told, if_pos rfl]
    split <;> rfl
  · exact told d r

theorem queue_pageWritten_own (wf : Map.wf QueueSt.init s.queues = true) :
    (s.pageWritten i status value take).queue i.ctx i.queue =
      (if status = 0 then take else id) ((s.queue i.ctx i.queue).judged status value) := by
  rw [queue_pageWritten i status value take wf, if_pos rfl]

theorem queue_pageWritten_other (wf : Map.wf QueueSt.init s.queues = true) (queue : i.queue < 4) {d r : Nat} (hr : r < 4)
    (other : d ≠ i.ctx ∨ r ≠ i.queue) : (s.pageWritten i status value take).queue d r = s.queue d r := by
  rw [queue_pageWritten i status value take wf, if_neg (by omega)]

end

/-! ### The two registers -/

/-- An SQ_TAIL write, judged, and taken where its status is 0 (07 R140). -/
def State.sqWritten (i : QueueInfo) (value : BitVec 16) (s : State) : State :=
  s.pageWritten i (s.sqCheck i value) value fun x => { x with sqTail := value }

/-- A CQ_HEAD write, judged, and taken where its status is 0, before the vector is signalled (07 R141). -/
def State.cqWritten (i : QueueInfo) (value : BitVec 16) (s : State) : State :=
  s.pageWritten i (s.cqCheck i value) value fun x => { x with cqHead := value }

theorem queue_signal (f v : Nat) (s : State) (d r : Nat) : (s.signal f v).queue d r = s.queue d r :=
  congrArg (fun m => Map.get QueueSt.init m (d * 4 + r)) ((Only.signal f v s).get .queues)

section
variable {s : State} {f c q : Nat} {i : QueueInfo} (value : BitVec 16)

theorem writeSqTail_dead (h : s.liveQueue f c q = none) : s.writeSqTail f c q value = s := by
  rw [State.writeSqTail, h]

theorem writeCqHead_dead (h : s.liveQueue f c q = none) : s.writeCqHead f c q value = s := by
  rw [State.writeCqHead, h]

theorem writeSqTail_live (h : s.liveQueue f c q = some i) : s.writeSqTail f c q value = s.sqWritten i value := by
  obtain ⟨rfl, rfl⟩ := liveQueue_names h
  rw [State.writeSqTail, h]
  rfl

/-- A taken CQ_HEAD that differs from CQ_TAIL signals the queue's vector again. -/
theorem writeCqHead_live (h : s.liveQueue f c q = some i) :
    s.writeCqHead f c q value = if s.cqCheck i value = 0 ∧ value ≠ (s.queue c q).cqTail then
      (s.cqWritten i value).signal ((s.ctxFn c).getD 0) (c * 4 + q) else s.cqWritten i value := by
  obtain ⟨rfl, rfl⟩ := liveQueue_names h
  rw [State.writeCqHead, h]
  by_cases good : s.cqCheck i value = 0
  · simp only [good, State.cqWritten, State.pageWritten, if_true, true_and]
  · simp only [good, State.cqWritten, State.pageWritten, if_false, false_and]

theorem queue_sqWritten (wf : Map.wf QueueSt.init s.queues = true) :
    (s.sqWritten i value).queue i.ctx i.queue = { s.queue i.ctx i.queue with
      sqTail := if s.sqCheck i value = 0 then value else (s.queue i.ctx i.queue).sqTail,
      dbStatus := BitVec.ofNat 16 (s.sqCheck i value), dbValue := if s.sqCheck i value = 0 then 0 else value } := by
  rw [State.sqWritten, queue_pageWritten_own i _ value _ wf]
  by_cases good : s.sqCheck i value = 0 <;> simp [good, QueueSt.judged]

theorem queue_cqWritten (wf : Map.wf QueueSt.init s.queues = true) :
    (s.cqWritten i value).queue i.ctx i.queue = { s.queue i.ctx i.queue with
      cqHead := if s.cqCheck i value = 0 then value else (s.queue i.ctx i.queue).cqHead,
      dbStatus := BitVec.ofNat 16 (s.cqCheck i value), dbValue := if s.cqCheck i value = 0 then 0 else value } := by
  rw [State.cqWritten, queue_pageWritten_own i _ value _ wf]
  by_cases good : s.cqCheck i value = 0 <;> simp [good, QueueSt.judged]

end

end Sys2Proof.Machine

open Sys2Proof Sys2Proof.Machine

/-- Settles O36: a page without a queue by `liveQueue`, and one of a live queue by its check and by what
`State.pageWritten` leaves. -/
theorem doorbellWritesTakenWhole : Obligations.DoorbellWritesTakenWhole := by
  intro f c q v s wf
  refine ⟨fun dead => ⟨?_, ?_⟩, fun i live => ?_⟩
  · exact (congrArg (done s) (writeSqTail_dead _ dead)).trans (done_eq rfl)
  · exact (congrArg (done s) (writeCqHead_dead _ dead)).trans (done_eq rfl)
  intro x n added st st2
  obtain ⟨ctx, queue⟩ := liveQueue_names live
  have tail : s.sqCheck i n = st := by simp [State.sqCheck, ctx, queue, st, added, x]
  have head : s.cqCheck i n = st2 := by simp [State.cqCheck, ctx, queue, st2, x]
  have others : ∀ status take, ∀ c2 < 256, ∀ q2 < 4, c2 ≠ c.val ∨ q2 ≠ q.val →
      (s.pageWritten i status n take).queue c2 q2 = s.queue c2 q2 := fun status take c2 _ q2 lt other =>
    queue_pageWritten_other i status n take wf (queue ▸ q.isLt) lt (by rwa [ctx, queue])
  constructor
  · change Goes (done s (s.writeSqTail f c q n)) _
    rw [writeSqTail_live n live]
    have own := queue_sqWritten (i := i) n wf
    rw [ctx, queue, tail] at own
    have frame : Only [.queues, .counters] s (s.sqWritten i n) := Only.pageWritten i _ n _
    exact goes_done frame ⟨own, others _ _, frame⟩
  · change Goes (done s (s.writeCqHead f c q n)) _
    rw [writeCqHead_live n live, head]
    have own := queue_cqWritten (i := i) n wf
    rw [ctx, queue, head] at own
    have frame : Only [.queues, .counters] s (s.cqWritten i n) := Only.pageWritten i _ n _
    have wide : Only [.queues, .counters, .events, .out] s (s.cqWritten i n) := frame.mono (by decide)
    by_cases signals : st2 = 0 ∧ n ≠ x.cqTail
    · rw [if_pos signals]
      have whole := wide.trans ((Only.signal ((s.ctxFn c).getD 0) (c * 4 + q) (s.cqWritten i n)).mono (by decide))
      exact goes_done whole ⟨(queue_signal _ _ _ _ _).trans own,
        fun c2 hc q2 hq other => (queue_signal _ _ _ _ _).trans (others _ _ c2 hc q2 hq other),
        fun _ _ => ⟨_, rfl, frame⟩, whole⟩
    · rw [if_neg signals]
      exact goes_done frame ⟨own, others _ _, fun good differs => absurd ⟨good, differs⟩ signals, wide⟩
end

section
/-! PROOF. A fetch (07 section 7.4; 09 sections 9.4 to 9.6): what reading and judging an entry may change, and what a unit
leaves on the Scoreboard. -/

namespace Sys2Proof.Machine

/-! ### The checks: a waybill gains descriptor copies and keeps the rest of its entry -/

/-- A waybill without its descriptor copies. -/
def Waybill.bare (w : Waybill) : Waybill := { w with descs := [] }

@[simp] theorem Waybill.bare_withDesc (w : Waybill) (h : Nat) (d : Desc) : (w.withDesc h d).bare = w.bare := rfl

theorem Only.readDesc (c : CtxInfo) (h : Nat) (s : State) : Only memParts s (s.readDesc c h).2.2 := by
  unfold State.readDesc
  split
  · exact Only.refl _ s
  · exact (Only.readMem _ _ _ _ s).trans ((Only.count _ _ _ _).mono (by decide))

theorem loadNamed_frame (c : CtxInfo) (l : List (Nat × Nat)) : ∀ (w : Waybill) (s : State),
    (State.loadNamed c l w s).1.bare = w.bare ∧ Only memParts s (State.loadNamed c l w s).2.1 := by
  induction l with
  | nil => exact fun w s => ⟨rfl, Only.refl _ s⟩
  | cons p r ih =>
    intro w s
    have read := Only.readDesc c p.2 s
    unfold State.loadNamed
    dsimp only
    split
    · exact ih w s
    · split
      · exact ⟨rfl, read⟩
      · split
        · exact ⟨rfl, read⟩
        · obtain ⟨same, rest⟩ := ih (w.withDesc p.2 (s.readDesc c p.2).1) (s.readDesc c p.2).2.2
          exact ⟨same, read.trans rest⟩

theorem check4_frame (c : CtxInfo) (w : Waybill) (s : State) :
    (s.check4 c w).1.bare = w.bare ∧ Only memParts s (s.check4 c w).2.1 := by
  unfold State.check4
  split
  · exact ⟨rfl, Only.refl _ s⟩
  · exact loadNamed_frame c _ w s

theorem loadMore_frame (c : CtxInfo) (l : List Nat) : ∀ (w : Waybill) (bad : Map Nat) (s : State),
    (State.loadMore c l w bad s).1.bare = w.bare ∧ Only memParts s (State.loadMore c l w bad s).2.2 := by
  induction l with
  | nil => exact fun w _ s => ⟨rfl, Only.refl _ s⟩
  | cons h r ih =>
    intro w bad s
    unfold State.loadMore
    split
    · exact ih w bad s
    · obtain ⟨same, rest⟩ := ih (w.withDesc h (s.readDesc c h).1) (bad.set 0 h (s.readDesc c h).2.1) (s.readDesc c h).2.2
      exact ⟨same, (Only.readDesc c h s).trans rest⟩

theorem loadRest_frame (c : CtxInfo) (w : Waybill) (s : State) :
    (s.loadRest c w).1.bare = w.bare ∧ Only memParts s (s.loadRest c w).2.2 := by
  unfold State.loadRest
  split
  · exact ⟨rfl, Only.refl _ s⟩
  · obtain ⟨weights, first⟩ := loadMore_frame c (w.weights.map (·.2)) w [] s
    obtain ⟨scales, second⟩ := loadMore_frame c
      ((s.loadMore c (w.weights.map (·.2)) w []).1.scaled.map (·.2)) (s.loadMore c (w.weights.map (·.2)) w []).1
      (s.loadMore c (w.weights.map (·.2)) w []).2.1 (s.loadMore c (w.weights.map (·.2)) w []).2.2
    exact ⟨scales.trans weights, first.trans second⟩

/-- Checks 1 to 8 read memory, and of the waybill they change the descriptor copies. -/
theorem judge_frame (c : CtxInfo) (breach : Bool) (w : Waybill) (s : State) :
    (s.judge c breach w).1.bare = w.bare ∧ Only memParts s (s.judge c breach w).2.2 := by
  have named := check4_frame c w s
  unfold State.judge
  split
  · exact ⟨rfl, Only.refl _ s⟩
  · split
    · next w1 s1 f e =>
      rw [e] at named
      exact named
    · next w1 s1 e =>
      rw [e] at named
      obtain ⟨same, rest⟩ := loadRest_frame c w1 s1
      exact ⟨same.trans named.1, named.2.trans rest⟩

/-! ### One entry -/

/-- What a fetch may change before the Scoreboard: the queue's place, the next ordinal, and what reading memory changes. -/
def fetchParts : List Part := .queues :: .sched :: memParts

/-- The read of the entry at the head of a queue. -/
def State.entryRead (i : QueueInfo) (s : State) : List Byte × Nat × Bool × State :=
  s.readEntry i (s.queue i.ctx i.queue).fetched.toNat

/-- The entry at the head has been read: the head has passed it, and it has the next ordinal. -/
def State.entryTaken (i : QueueInfo) (s : State) : State :=
  { ((s.entryRead i).2.2.2.modQueue i.ctx i.queue fun x => { x with fetched := x.fetched + 1 }).count i.ctx 0 1 with
    sched := { (s.entryRead i).2.2.2.sched with nextId := (s.entryRead i).2.2.2.sched.nextId + 1 } }

/-- The waybill of the entry at the head, not judged yet. -/
def State.entryWaybill (i : QueueInfo) (s : State) : Waybill :=
  { rawWaybill (s.entryRead i).1 with
    id := (s.entryRead i).2.2.2.sched.nextId, ctx := i.ctx, queue := i.queue,
    slot := (s.queue i.ctx i.queue).fetched.toNat % i.depth, seen := s.now, corrected := (s.entryRead i).2.2.1 }

/-- The judgement of the entry at the head. -/
def State.entryJudged (c : CtxInfo) (i : QueueInfo) (breach : Bool) (s : State) :
    Waybill × Option (Nat × Nat) × State := (s.entryTaken i).judge c breach (s.entryWaybill i)

section
variable (c : CtxInfo) (i : QueueInfo) (breach : Bool) {s : State}

/-- An entry with a bad word is refused without a further check (09 R397). -/
theorem fetchOne_bad (h : (s.entryRead i).2.1 ≠ 0) : s.fetchOne c i breach =
    ({ s.entryWaybill i with bytes := List.replicate 64 0 }, some ((s.entryRead i).2.1, 0), s.entryTaken i) := if_pos h

theorem fetchOne_judged (h : (s.entryRead i).2.1 = 0) : s.fetchOne c i breach =
    ({ (s.entryJudged c i breach).1 with
        reads := (s.entryJudged c i breach).1.keys.1, writes := (s.entryJudged c i breach).1.keys.2,
        corrected := (s.entryRead i).2.2.1 ||
          (s.entryJudged c i breach).2.2.counter i.ctx 22 != (s.entryTaken i).counter i.ctx 22 },
      (s.entryJudged c i breach).2.1, (s.entryJudged c i breach).2.2) := if_neg (not_not.2 h)

theorem Only.readEntry (n : Nat) (s : State) : Only memParts s (s.readEntry i n).2.2.2 := by
  unfold State.readEntry
  split
  · exact (Only.readMem _ _ _ _ s).trans ((Only.count _ _ _ _).mono (by decide))
  · exact (Only.count _ _ _ s).mono (by decide)
  · exact Only.refl _ s

theorem Only.entryTaken (s : State) : Only fetchParts s (s.entryTaken i) :=
  ((Only.readEntry i _ s).mono (by decide)).trans (((Only.modQueue _ _ _ _).mono (by decide)).trans
    (((Only.count _ _ _ _).mono (by decide)).trans ((Only.ofSched _ _).mono (by decide))))

/-- The head passes one entry, and no other register of a queue changes. -/
theorem queues_entryTaken (s : State) : (s.entryTaken i).queues =
    (s.modQueue i.ctx i.queue fun x => { x with fetched := x.fetched + 1 }).queues := by
  have same : (s.entryRead i).2.2.2.queues = s.queues := (Only.readEntry i _ s).get .queues
  refine ((Only.count i.ctx 0 1 ((s.entryRead i).2.2.2.modQueue i.ctx i.queue fun x =>
    { x with fetched := x.fetched + 1 })).get .queues).trans ?_
  simp only [State.modQueue, State.queue, same]

/-- A fetched entry's waybill has its stamp and its slot from the fetch, whatever the checks find. -/
theorem fetchOne_frame (s : State) : (s.fetchOne c i breach).1.seen = s.now ∧
    (s.fetchOne c i breach).1.slot = (s.queue i.ctx i.queue).fetched.toNat % i.depth ∧
    (s.fetchOne c i breach).2.2.queues = (s.entryTaken i).queues ∧ Only fetchParts s (s.fetchOne c i breach).2.2 := by
  by_cases h : (s.entryRead i).2.1 = 0
  · rw [fetchOne_judged c i breach h]
    obtain ⟨same, reads⟩ := judge_frame c breach (s.entryWaybill i) (s.entryTaken i)
    exact ⟨congrArg Waybill.seen same, congrArg Waybill.slot same, reads.get .queues,
      (Only.entryTaken i s).trans (reads.mono (by decide))⟩
  · rw [fetchOne_bad c i breach h]
    exact ⟨rfl, rfl, rfl, Only.entryTaken i s⟩

theorem fetched_fetchOne (wf : Map.wf QueueSt.init s.queues = true) :
    ((s.fetchOne c i breach).2.2.queue i.ctx i.queue).fetched = (s.queue i.ctx i.queue).fetched + 1 := by
  obtain ⟨-, -, queues, -⟩ := fetchOne_frame c i breach s
  rw [State.queue, queues, queues_entryTaken]
  exact congrArg QueueSt.fetched ((State.queue_modQueue s i.ctx i.queue i.ctx i.queue _ wf).trans (if_pos rfl))

theorem Only.fetchAll (l : List Bool) : ∀ s : State, Only fetchParts s (s.fetchAll c i l).2 := by
  induction l with
  | nil => exact Only.refl _
  | cons b r ih =>
    intro s
    obtain ⟨-, -, -, frame⟩ := fetchOne_frame c i b s
    exact frame.trans (ih _)

end

/-! ### The Scoreboard -/

theorem Only.takeWrites (w : Waybill) (s : State) : Only [.sched] s (s.takeWrites w) :=
  Only.foldl _ (fun t _ => Only.ofSched t _) _ s

theorem flightIds_takeWrites (w : Waybill) (s : State) : (s.takeWrites w).flightIds = s.flightIds := by
  unfold State.takeWrites
  refine flightIds_foldl _ (fun t k => ?_) w.writes s
  rfl

theorem Only.accept (c : CtxInfo) (w : Waybill) (s : State) : Only doneParts s (s.accept c w) := by
  unfold State.accept
  have placed : ∀ (v : Waybill) (flight : List Waybill), Only doneParts s
      { s.takeWrites v with sched := { (s.takeWrites v).sched with flight := flight } } := fun v flight =>
    ((Only.takeWrites v s).trans (Only.ofSched _ _)).mono (by decide)
  exact Only.ite (fun _ => (placed _ _).trans ((Only.ofPools _ _).mono (by decide))) fun _ => placed _ _

theorem Only.refuse (w : Waybill) (f : Nat × Nat) (s : State) : Only doneParts s (s.refuse w f) := by
  have counted : Only doneParts s (if f.1 == 0x8305 || f.1 == 0x8306 then s.count w.ctx 23 1 else s) :=
    Only.ite (fun _ => (Only.count _ _ _ s).mono (by decide)) fun _ => Only.refl _ s
  exact counted.trans (((Only.takeWrites w _).mono (by decide)).trans (Only.finish _ _ _ _ _ _))

/-- A refused waybill takes no place on the Scoreboard. -/
theorem flightIds_refuse (w : Waybill) (f : Nat × Nat) (s : State) :
    (s.refuse w f).flightIds = s.flightIds.filter (· != w.id) := by
  have counted : (if f.1 == 0x8305 || f.1 == 0x8306 then s.count w.ctx 23 1 else s).flightIds = s.flightIds :=
    flightIds_of_only (Only.ite (fun _ => Only.count _ _ _ s) fun _ => Only.refl _ s) (by decide)
  refine (flightIds_finish w _ _ _ _ _).trans ?_
  rw [flightIds_takeWrites, counted]

theorem gone_settleAll {k : Nat} {s : State} (h : k ∉ s.flightIds) : ∀ v ∈ s.settleAll.sched.flight, v.id ≠ k :=
  fun v mem same => h (flightIds_settle_subset _ _ (State.mem_flightIds.2 ⟨v, mem, same⟩))

theorem Only.settleAll (s : State) : Only doneParts s s.settleAll := Only.settle _ s

/-! ### One unit -/

/-- A waybill of DIRECT mode with its ticks counted from an anchor (09 R190). -/
def Waybill.anchoredAt (a : BitVec 32) (w : Waybill) : Waybill :=
  { w with startTick := a + BitVec.ofNat 32 (bits (fieldAt w.bytes 8 8) 15 0),
           endTick := a + BitVec.ofNat 32 (bits (fieldAt w.bytes 8 8) 31 16) }

/-- A fetched entry of a unit goes where it belongs: refused, refused with its schedule, or onto the Scoreboard (09 R189). -/
def State.placed (c : CtxInfo) (a : BitVec 32) (broken : Bool) (s : State) (p : Waybill × Option (Nat × Nat)) : State :=
  match p.2 with
  | some f => s.refuse p.1 f
  | none => if broken then s.refuse p.1 (0x4403, 0) else s.accept c (p.1.anchoredAt a)

theorem fetchUnit_eq (c : CtxInfo) (i : QueueInfo) (x : FetchUnit) (s : State) : s.fetchUnit c i x =
    ((s.fetchAll c i x.breaches).1.foldl (State.placed c ((s.fetchAll c i x.breaches).2.lastIssued + 2)
      (x.sched && (s.fetchAll c i x.breaches).1.any (·.2.isSome))) (s.fetchAll c i x.breaches).2).settleAll := rfl

theorem Only.placed (c : CtxInfo) (a : BitVec 32) (broken : Bool) (s : State) (p : Waybill × Option (Nat × Nat)) :
    Only doneParts s (s.placed c a broken p) := by
  unfold State.placed
  split
  · exact Only.refuse _ _ s
  · exact Only.ite (fun _ => Only.refuse _ _ s) fun _ => Only.accept _ _ s

theorem Only.fetchUnit (c : CtxInfo) (i : QueueInfo) (x : FetchUnit) (s : State) :
    Only doneParts s (s.fetchUnit c i x) := by
  rw [fetchUnit_eq]
  exact ((Only.fetchAll c i _ s).mono (by decide)).trans
    ((Only.foldl _ (fun t p => Only.placed c _ _ t p) _ _).trans (Only.settleAll _))

/-- In a broken schedule every entry is refused, for itself or for its schedule. -/
theorem placed_broken (c : CtxInfo) (a : BitVec 32) (s : State) (p : Waybill × Option (Nat × Nat)) :
    s.placed c a true p = s.refuse p.1 (p.2.getD (0x4403, 0)) := by
  obtain ⟨w, _ | f⟩ := p <;> simp [State.placed]

theorem gone_foldl_placed_broken (c : CtxInfo) (a : BitVec 32) (l : List (Waybill × Option (Nat × Nat))) : ∀ s : State,
    (l.foldl (State.placed c a true) s).flightIds ⊆ s.flightIds ∧
    ∀ p ∈ l, p.1.id ∉ (l.foldl (State.placed c a true) s).flightIds := by
  induction l with
  | nil => exact fun s => ⟨List.Subset.refl _, fun p h => absurd h List.not_mem_nil⟩
  | cons p r ih =>
    intro s
    obtain ⟨sub, gone⟩ := ih (s.placed c a true p)
    have out : (s.placed c a true p).flightIds = s.flightIds.filter (· != p.1.id) := by
      rw [placed_broken, flightIds_refuse]
    rw [out] at sub
    refine ⟨List.Subset.trans sub (List.filter_subset_self _), fun x hx => ?_⟩
    rcases List.mem_cons.1 hx with rfl | hx
    · exact fun h => by simpa using sub h
    · exact gone x hx

/-- When one entry of a schedule is refused, none of it stays in flight (09 R189). -/
theorem gone_fetchUnit_broken {c : CtxInfo} {i : QueueInfo} {bs : List Bool} {s : State}
    (refused : (s.fetchAll c i bs).1.any (·.2.isSome) = true) :
    ∀ p ∈ (s.fetchAll c i bs).1, ∀ y ∈ (s.fetchUnit c i ⟨bs, true⟩).sched.flight, y.id ≠ p.1.id := by
  intro p hp
  rw [fetchUnit_eq]
  simp only [refused, Bool.and_self]
  exact gone_settleAll ((gone_foldl_placed_broken c _ _ _).2 p hp)

/-- A unit of one entry: it is placed as its own judgement says, also where it is a schedule. -/
theorem fetchUnit_single (c : CtxInfo) (i : QueueInfo) (b d : Bool) (s : State) : s.fetchUnit c i ⟨[b], d⟩ =
    ((s.fetchOne c i b).2.2.placed c ((s.fetchOne c i b).2.2.lastIssued + 2) (d && (s.fetchOne c i b).2.1.isSome)
      ((s.fetchOne c i b).1, (s.fetchOne c i b).2.1)).settleAll := by
  rw [fetchUnit_eq]
  simp [State.fetchAll]

/-! ### The command -/

theorem Only.hostStores (l : List HostStore) (s : State) : Only [.mem] s (s.hostStores l) :=
  Only.foldl _ (fun t _ => Only.writeHost _ _ _ t) l s

section
variable {k : Fin 256} {q : Fin 4} {stores : List HostStore} {s u : State} {c : CtxInfo} {i : QueueInfo}
  (after : u = s.hostStores stores) (hc : u.ctx k = some c) (hi : u.queueInfo k q = some i)
include after hc hi

/-- The Scheduler leaves alone a queue that it may not or cannot read, and one with nothing submitted (07 R143). -/
theorem exec_waybillFetch_idle (h : u.active = false ∨ (u.queue k q).halted = true ∨ u.ringReadable i = false ∨
    (u.queue k q).sqTail = (u.queue k q).fetched) : exec (.waybillFetch k q stores) s = .next u := by
  subst after
  refine Eq.trans (congrArg (done s) ?_) (done_eq (Only.hostStores stores s).1)
  simp only [hc, hi]
  split
  · rfl
  · next runs =>
    have empty : ((s.hostStores stores).queue k q).sqTail = ((s.hostStores stores).queue k q).fetched := by
      simp only [Bool.or_eq_true, Bool.not_eq_true', not_or, Bool.not_eq_false, Bool.not_eq_true] at runs
      simpa [runs] using h
    rw [empty, BitVec.sub_self]
    rfl

variable (on : u.active = true) (live : (u.queue k q).halted = false) (reads : u.ringReadable i = true)
  {x : FetchUnit} (unit : u.nextUnit i (u.queue k q).fetched.toNat
    ((u.queue k q).sqTail - (u.queue k q).fetched).toNat = some x)
include on live reads unit

theorem exec_waybillFetch_unit : exec (.waybillFetch k q stores) s =
    done s (if u.room ((List.range x.breaches.length).map fun j =>
      (u.peekEntry i ((u.queue k q).fetched.toNat + j)).1.wclass) then u.fetchUnit c i x else u) := by
  subst after
  refine congrArg (done s) ?_
  simp only [hc, hi, on, live, reads, unit, Bool.not_true, Bool.or_self, Bool.false_eq_true, if_false]

theorem exec_waybillFetch_full (full : u.room ((List.range x.breaches.length).map fun j =>
    (u.peekEntry i ((u.queue k q).fetched.toNat + j)).1.wclass) = false) :
    exec (.waybillFetch k q stores) s = .next u := by
  rw [exec_waybillFetch_unit after hc hi on live reads unit, full, if_neg Bool.false_ne_true]
  exact done_eq (after ▸ (Only.hostStores stores s).1)

theorem exec_waybillFetch_takes (room : u.room ((List.range x.breaches.length).map fun j =>
    (u.peekEntry i ((u.queue k q).fetched.toNat + j)).1.wclass) = true) :
    exec (.waybillFetch k q stores) s = .next (u.fetchUnit c i x) ∧ Only doneParts s (u.fetchUnit c i x) := by
  have frame : Only doneParts s (u.fetchUnit c i x) :=
    Only.trans (after ▸ (Only.hostStores stores s).mono (by decide)) (Only.fetchUnit c i x u)
  rw [exec_waybillFetch_unit after hc hi on live reads unit, if_pos room]
  exact ⟨done_eq frame.1, frame⟩

end

end Sys2Proof.Machine

open Sys2Proof Sys2Proof.Machine

/-- Settles O37: nothing is fetched by `exec_waybillFetch_idle`, a single entry by `fetchUnit_single`, and a broken
schedule by `gone_fetchUnit_broken`. -/
theorem fetchTakesOneUnit : Obligations.FetchTakesOneUnit := by
  intro k q stores s u c i after hc hi wf x head
  refine ⟨exec_waybillFetch_idle after hc hi, fun on live reads => ⟨fun b d unit => ⟨fun full => ?_, fun room => ?_⟩,
    fun bs unit room refused => ?_⟩⟩
  · exact exec_waybillFetch_full after hc hi on live reads unit full
  · obtain ⟨takes, frame⟩ := exec_waybillFetch_takes after hc hi on live reads unit room
    rw [fetchUnit_single] at takes frame
    have wfThen : Map.wf QueueSt.init u.queues = true := by
      have same : u.queues = s.queues := after ▸ (Only.hostStores stores s).get .queues
      rwa [same]
    obtain ⟨ctx, queue⟩ := queueInfo_names hi
    have fetched := fetched_fetchOne c i b wfThen
    obtain ⟨seen, slot, -, -⟩ := fetchOne_frame c i b u
    rw [ctx, queue] at fetched slot
    refine ⟨_, takes, (u.fetchOne c i b).1, (u.fetchOne c i b).2.1, (u.fetchOne c i b).2.2, rfl, fetched, seen, slot,
      fun passes => ⟨_, rfl, ?_⟩, fun g refused => ?_, frame⟩
    · rw [passes]
      simp [State.placed, Waybill.anchoredAt]
    · rw [refused]
      refine ⟨rfl, gone_settleAll ?_⟩
      simp [State.placed, flightIds_refuse]
  · obtain ⟨takes, frame⟩ := exec_waybillFetch_takes after hc hi on live reads unit room
    exact ⟨_, takes, gone_fetchUnit_broken refused, frame⟩
end

section
/-! PROOF. One access to a memory with check bits (08 R160, R164, R396, Table 8.7): what lies beside that memory
stays, and a write, poisoned or not, stores its bytes. -/

namespace Sys2Proof.Machine

/-! ### What lies beside a memory -/

theorem host_setSpace (m : Mem) (p : MemSpace) (s : State) : (s.setSpace m p).mem.host = s.mem.host := by
  cases m <;> rfl

theorem host_draw (s : State) : s.draw.2.mem.host = s.mem.host := rfl

/-- From `s` to `t` the words of every memory but `m` stay, host memory stays, and no granule becomes pending. -/
structure Beside (m : Mem) (s t : State) : Prop where
  spaces : ∀ n, n ≠ m → t.space n = s.space n
  host : t.mem.host = s.mem.host
  settled : s.mem.pendGran = [] → t.mem.pendGran = []

namespace Beside

variable {m : Mem} {s t u : State}

theorem refl (m : Mem) (s : State) : Beside m s s := ⟨fun _ _ => rfl, rfl, id⟩

theorem trans (h : Beside m s t) (k : Beside m t u) : Beside m s u :=
  ⟨fun n hn => (k.spaces n hn).trans (h.spaces n hn), k.host.trans h.host, k.settled ∘ h.settled⟩

theorem of_only {ps : List Part} (h : Only ps s t) (hp : Part.mem ∉ ps := by decide) : Beside m s t := by
  have mem : t.mem = s.mem := h.2 .mem hp
  exact ⟨fun n _ => space_of_only h hp n, by rw [mem], by rw [mem]; exact id⟩

theorem foldl {α : Type} {f : State → α → State} (h : ∀ s a, Beside m s (f s a)) (l : List α) :
    ∀ s, Beside m s (l.foldl f s) := by
  induction l with
  | nil => exact refl m
  | cons a r ih => exact fun s => (h s a).trans (ih _)

theorem foldl_snd {α β : Type} {f : α × State → β → α × State} (h : ∀ x b, Beside m x.2 (f x b).2) (l : List β) :
    ∀ x, Beside m x.2 (l.foldl f x).2 := by
  induction l with
  | nil => exact fun x => refl m x.2
  | cons b r ih => exact fun x => (h x b).trans (ih _)

theorem setSpace (m : Mem) (p : MemSpace) (s : State) : Beside m s (s.setSpace m p) :=
  ⟨fun n hn => (space_setSpace m n p s).trans (if_neg hn), host_setSpace m p s, by rw [pendGran_setSpace]; exact id⟩

theorem reMark (m : Mem) (w : Nat) (b : Bool) (s : State) : Beside m s (s.reMark m w b) := by
  refine ⟨fun n hn => space_reMark_ne hn w b s, ?_, by rw [pendGran_reMark]; exact id⟩
  unfold State.reMark State.setWord State.setMark
  dsimp only
  repeat' split
  all_goals simp only [host_setSpace, host_draw]

theorem memUe (m : Mem) (a : Nat) (s : State) : Beside m s (s.memUe m a) := by
  refine ⟨fun n _ => space_memUe m n a s, ?_, by rw [pendGran_memUe]; exact id⟩
  unfold State.memUe State.storeUe
  split
  · exact (of_only (m := m) (Only.post _ _ _ _)).host
  · refine ((of_only (m := m) (Only.post _ _ _ _)).host).trans ?_
    refine ((of_only (m := m) (Only.record _ _ _ _ _)).host).trans ?_
    split <;> rfl

theorem memCorr (m : Mem) (who : Option Nat) (a : Nat) (s : State) : Beside m s (s.memCorr m who a) := by
  refine ⟨fun n _ => space_memCorr m n who a s, ?_, by rw [pendGran_memCorr]; exact id⟩
  unfold State.memCorr
  split
  · rfl
  · cases who with
    | none => dsimp only; split <;> rfl
    | some c =>
      refine ((of_only (m := m) (Only.count c 22 1 _)).host).trans ?_
      split <;> rfl

theorem readWord (m : Mem) (who : Option Nat) (w : Nat) (s : State) : Beside m s (s.readWord m who w).2 := by
  unfold State.readWord
  dsimp only
  split
  · exact refl m s
  · exact (reMark m w false s).trans (memCorr m who _ _)
  · exact (reMark m w true s).trans (memUe m _ _)
  · exact refl m s

theorem readWords (m : Mem) (who : Option Nat) (l : List Nat) :
    ∀ (s : State) (x : Seen), Beside m s (State.readWords m who l s x).2 := by
  induction l with
  | nil => exact fun s _ => refl m s
  | cons w r ih => exact fun s x => (readWord m who w s).trans (ih _ _)

theorem cleanRange (m : Mem) (a n : Nat) (s : State) : Beside m s (s.cleanRange m a n) :=
  (setSpace m _ s).trans (foldl (fun t (h : Nat × Nat) => reMark m h.1 false t) _ _)

theorem zeroRange (m : Mem) (a n : Nat) (s : State) : Beside m s (s.zeroRange m a n) :=
  (setSpace m _ s).trans (cleanRange m a n _)

theorem zeroDone (m : Mem) (s : State) : Beside m s s.zeroDone := by
  unfold State.zeroDone
  split
  · have settled : Beside m s { s with mem := { s.mem with zeroOwed := false } } :=
      ⟨fun n _ => by cases n <;> rfl, rfl, id⟩
    exact settled.trans (of_only (Only.post _ _ _ _))
  · exact refl m s

theorem zeroGranule (g : Nat) (s : State) : Beside .lp s (s.zeroGranule g) := by
  have taken (t : State) : Beside .lp t { t with mem := { t.mem with pendGran := t.mem.pendGran.filter (· != g) } } :=
    ⟨fun n _ => by cases n <;> rfl, rfl, fun none => by
      show t.mem.pendGran.filter _ = []
      rw [none]
      rfl⟩
  exact (zeroRange .lp _ _ s).trans ((taken _).trans (zeroDone .lp _))

theorem touch (m : Mem) (a n : Nat) (s : State) : Beside m s (s.touch m a n) := by
  unfold State.touch
  split
  · exact refl m s
  · next h =>
    obtain rfl : m = .lp := by
      by_contra other
      exact h (by simp [other])
    exact foldl (fun t g => zeroGranule g t) _ s

theorem partialWord (m : Mem) (who : Option Nat) (b : Bool) (w : Nat) (s : State) :
    Beside m s (s.partialWord m who b w).2 := by
  unfold State.partialWord
  split
  · cases b
    · exact refl m s
    · exact reMark m w true s
  · exact (reMark m w b s).trans (memCorr m who _ _)
  · exact (reMark m w true s).trans (memUe m _ _)
  · exact refl m s

end Beside

/-! ### The parts of a write -/

/-- One word that a write covers in part, after those before it. -/
def State.partialStep (m : Mem) (who : Option Nat) (poison : Bool) (acc : Option Nat × State) (w : Nat) :
    Option Nat × State :=
  (acc.1.or (if (acc.2.partialWord m who poison w).1 then some (w * 8) else none),
    (acc.2.partialWord m who poison w).2)

/-- A write before its bytes are stored: granules that it touches are zeroed, and words that it covers in part are
read. -/
def State.beforeStore (m : Mem) (who : Option Nat) (poison : Bool) (a n : Nat) (s : State) : State :=
  ((partialWords a n).foldl (State.partialStep m who poison) (none, s.touch m a n)).2

/-- The bytes of a write, stored. -/
def State.storeBytes (m : Mem) (a : Nat) (bs : List Byte) (s : State) : State :=
  s.setSpace m { s.space m with cells := (s.space m).cells.store a bs }

/-- Words that take the poison syndrome. -/
def State.poisonWords (m : Mem) (l : List Nat) (s : State) : State := l.foldl (fun t w => t.reMark m w true) s

theorem writeMem_state (m : Mem) (who : Option Nat) (poison : Bool) (a : Nat) (bs : List Byte) (s : State) :
    (s.writeMem m who poison a bs).2 =
      let stored := ((s.beforeStore m who poison a bs.length).storeBytes m a bs).cleanRange m a bs.length
      if poison then stored.poisonWords m (rangeFrom ((a + 7) / 8) ((a + bs.length) / 8 - (a + 7) / 8))
      else stored := rfl

@[simp] theorem State.cells_storeBytes (m : Mem) (a : Nat) (bs : List Byte) (s : State) :
    ((s.storeBytes m a bs).space m).cells = (s.space m).cells.store a bs := by
  rw [State.storeBytes, space_setSpace, if_pos rfl]

@[simp] theorem State.hard_storeBytes (m : Mem) (a : Nat) (bs : List Byte) (s : State) :
    ((s.storeBytes m a bs).space m).hard = (s.space m).hard := by
  rw [State.storeBytes, space_setSpace, if_pos rfl]

theorem Beside.beforeStore (m : Mem) (who : Option Nat) (poison : Bool) (a n : Nat) (s : State) :
    Beside m s (s.beforeStore m who poison a n) :=
  (Beside.touch m a n s).trans (Beside.foldl_snd (f := State.partialStep m who poison)
    (fun x w => .partialWord m who poison w x.2) (partialWords a n) (none, s.touch m a n))

theorem Beside.storeBytes (m : Mem) (a : Nat) (bs : List Byte) (s : State) : Beside m s (s.storeBytes m a bs) :=
  .setSpace m _ s

theorem Beside.writeMem (m : Mem) (who : Option Nat) (poison : Bool) (a : Nat) (bs : List Byte) (s : State) :
    Beside m s (s.writeMem m who poison a bs).2 := by
  have stored := ((Beside.beforeStore m who poison a bs.length s).trans (.storeBytes m a bs _)).trans
    (.cleanRange m a bs.length _)
  rw [writeMem_state]
  cases poison
  · exact stored
  · exact stored.trans (Beside.foldl (fun t w => .reMark m w true t) _ _)

theorem Beside.setTags (who : Option Nat) (epoch a n : Nat) (s : State) : Beside .tag s (s.setTags who epoch a n) := by
  unfold State.setTags
  split
  · exact .refl .tag s
  · exact Beside.foldl (fun t l => .writeMem .tag who false l _ t) _ s

/-! ### A write to a memory at rest -/

/-- What keeps a memory at rest and its bytes. -/
def BytesKept (m : Mem) (s t : State) : Prop := MemReady m s → MemReady m t ∧ (t.space m).cells = (s.space m).cells

section
variable {m : Mem} {s t u : State}

theorem ReadKept.bytes (h : ReadKept m s t) : BytesKept m s t := fun ready => ⟨(h ready).1, (h ready).2.1⟩

theorem BytesKept.refl (m : Mem) (s : State) : BytesKept m s s := fun ready => ⟨ready, rfl⟩

theorem BytesKept.trans (h : BytesKept m s t) (k : BytesKept m t u) : BytesKept m s u := fun ready => by
  obtain ⟨ready', cells⟩ := h ready
  obtain ⟨ready'', cells'⟩ := k ready'
  exact ⟨ready'', cells'.trans cells⟩

theorem BytesKept.foldl {α : Type} {f : State → α → State} (h : ∀ s a, BytesKept m s (f s a)) (l : List α) :
    ∀ s, BytesKept m s (l.foldl f s) := by
  induction l with
  | nil => exact BytesKept.refl m
  | cons a r ih => exact fun s => (h s a).trans (ih _)

theorem BytesKept.foldl_snd {α β : Type} {f : α × State → β → α × State} (h : ∀ x b, BytesKept m x.2 (f x b).2)
    (l : List β) : ∀ x, BytesKept m x.2 (l.foldl f x).2 := by
  induction l with
  | nil => exact fun x => BytesKept.refl m x.2
  | cons b r ih => exact fun x => (h x b).trans (ih _)

/-- Check bits written over one stuck bit at most leave the data (08 R164). -/
theorem BytesKept.reMark (w : Nat) (b : Bool) (s : State) : BytesKept m s (s.reMark m w b) := fun ready =>
  ⟨ready.after (.reMark m w b s) (pendGran_reMark m s w b) (hard_reMark m w b s), by
    rw [reMark_ready ready, State.cells_setMark]⟩

theorem BytesKept.partialWord (who : Option Nat) (b : Bool) (w : Nat) (s : State) :
    BytesKept m s (s.partialWord m who b w).2 := by
  unfold State.partialWord
  split
  · cases b
    · exact .refl m s
    · exact .reMark w true s
  · exact (BytesKept.reMark w b s).trans (ReadKept.memCorr who _).bytes
  · exact (BytesKept.reMark w true s).trans (ReadKept.memUe _).bytes
  · exact .refl m s

theorem BytesKept.cleanRange (a n : Nat) (s : State) : BytesKept m s (s.cleanRange m a n) := fun ready =>
  ⟨ready.after (.cleanRange m a n s) (pendGran_cleanRange m s a n) (hard_cleanRange m s a n),
    cells_cleanRange (fun w => (ready.single w).trans (by decide)) a n⟩

/-- A write as one access, poisoned or not, stores its bytes and leaves the memory at rest. -/
theorem writeMem_stores (who : Option Nat) (poison : Bool) (a : Nat) (bs : List Byte) (ready : MemReady m s) :
    MemReady m (s.writeMem m who poison a bs).2 ∧
    ((s.writeMem m who poison a bs).2.space m).cells = (s.space m).cells.store a bs := by
  have before : BytesKept m s (s.beforeStore m who poison a bs.length) := by
    rw [State.beforeStore, touch_none ready.settled]
    exact BytesKept.foldl_snd (f := State.partialStep m who poison) (fun x w => .partialWord who poison w x.2)
      (partialWords a bs.length) (none, s)
  obtain ⟨ready', cells⟩ := before ready
  have stored : MemReady m ((s.beforeStore m who poison a bs.length).storeBytes m a bs) :=
    ready'.after (.storeBytes m a bs _) (pendGran_setSpace m _ _) (State.hard_storeBytes m a bs _)
  have marked : BytesKept m ((s.beforeStore m who poison a bs.length).storeBytes m a bs)
      (s.writeMem m who poison a bs).2 := by
    rw [writeMem_state]
    cases poison
    · exact .cleanRange a _ _
    · exact (BytesKept.cleanRange a _ _).trans (BytesKept.foldl (fun t w => .reMark w true t) _ _)
  obtain ⟨ready'', kept⟩ := marked stored
  exact ⟨ready'', by rw [kept, State.cells_storeBytes, cells]⟩

end

end Sys2Proof.Machine

open Sys2Proof Sys2Proof.Machine

/-- Settles O21: `writeMem_stores` and `readMem_ready` for a memory at rest, and `Beside.writeMem` for host memory. -/
theorem memoryWriteStoresItsBytes : Obligations.MemoryWriteStoresItsBytes := by
  intro m who poison a bs s canonical settled single
  have ready : MemReady m s := ⟨canonical, settled, single⟩
  refine ⟨fun j => ?_, fun n => ?_, (Beside.writeMem m who poison a bs s).host, Only.writeMem m who poison a bs s⟩
  · rw [(writeMem_stores who poison a bs ready).2]
    exact Map.get_store bs _ a j ready.cells
  · obtain ⟨bytes, kept, -⟩ := readMem_ready who a n ready
    exact ⟨bytes, (kept ready).2.1⟩

end

section
/-! PROOF. Words that are read (08 R163 to R165, 09 R196, 13 R268), granules that are zeroed (08 R160), and the patrol
scrubbers (08 R166). -/

namespace Sys2Proof.Machine

/-! ### Events that stay posted -/

/-- An event of PF0's stays posted through a change of a function's registers that drops none. -/
theorem posted_modFn {x : EvRecord} {f : Nat} {g : FnState → FnState} {s : State} (ne : g (s.fn f) ≠ FnState.init)
    (keeps : x ∈ (s.fn f).posted → x ∈ (g (s.fn f)).posted) (h : x ∈ (s.fn 0).posted) :
    x ∈ ((s.modFn f g).fn 0).posted := by
  by_cases e : 0 = f
  · subst e
    rw [State.fn_modFn_self ne]
    exact keeps h
  · rwa [State.fn_modFn_ne ne e]

/-- A function that an event has just been posted to is not as reset left it. -/
theorem posted_append_ne_init (x : FnState) (e : EvRecord) : { x with posted := x.posted ++ [e] } ≠ FnState.init :=
  fn_ne_init FnState.posted (by simp [FnState.init])

theorem posted_postTo {x : EvRecord} (e : EvRecord) (f : Nat) {s : State} (h : x ∈ (s.fn 0).posted) :
    x ∈ ((s.postTo e f).fn 0).posted := by
  unfold State.postTo
  split
  · refine posted_modFn (fn_ne_init FnState.evLost ?_) id h
    simp only [satAdd, FnState.init]
    omega
  · exact posted_modFn (posted_append_ne_init _ e) (List.mem_append_left _) h

theorem posted_foldl_postTo {x : EvRecord} (e : EvRecord) (l : List Nat) : ∀ {s : State}, x ∈ (s.fn 0).posted →
    x ∈ ((l.foldl (fun t f => t.postTo e f) s).fn 0).posted := by
  induction l with
  | nil => exact id
  | cons f r ih => exact fun h => ih (posted_postTo e f h)

theorem posted_signal {x : EvRecord} (f v : Nat) {s : State} (h : x ∈ (s.fn 0).posted) :
    x ∈ ((s.signal f v).fn 0).posted := by
  unfold State.signal
  dsimp only
  split
  · exact h
  · refine posted_modFn (fn_ne_init (fun y => y.msixPending.get false v) ?_) id h
    rw [Map.get_set_self _ _ _ _ (by decide)]
    exact Bool.noConfusion

/-- PF0 receives every event, and one that does not go to the hold is not lost (06 R130, R132). -/
theorem posted_post (code payload : Nat) (ctx : Option Nat) {s : State} (live : s.held 0 = false) :
    { code := BitVec.ofNat 16 code, payload := BitVec.ofNat 32 payload, stamp := s.now, ctx := ctx } ∈
      ((s.post code payload ctx).fn 0).posted := by
  generalize made : ({ code := BitVec.ofNat 16 code, payload := BitVec.ofNat 32 payload, stamp := s.now, ctx := ctx } :
    EvRecord) = e
  have first : e ∈ ((s.postTo e 0).fn 0).posted := by
    unfold State.postTo
    rw [live, Bool.false_and, if_neg Bool.false_ne_true, State.fn_modFn_self (posted_append_ne_init _ e)]
    exact List.mem_append_right _ (List.mem_singleton.2 rfl)
  have all : e ∈ (((s.receivers code ctx).foldl (fun t f => t.postTo e f) s).fn 0).posted := by
    rw [State.receivers, List.foldl_cons]
    exact posted_foldl_postTo e _ first
  unfold State.post
  rw [made]
  split
  · exact posted_signal 0 1026 all
  · exact all

/-! ### One word -/

theorem readWord_corr {m : Mem} {w : Nat} {s : State} (who : Option Nat)
    (h : Map.get Ecc.clean (s.space m).marks w = .corr) :
    (s.readWord m who w).2 = (s.reMark m w false).memCorr m who (w * 8) := by
  rw [State.readWord, h]

theorem readWord_ue {m : Mem} {w : Nat} {s : State} (who : Option Nat)
    (h : Map.get Ecc.clean (s.space m).marks w = .ue) :
    (s.readWord m who w).2 = (s.reMark m w true).memUe m (w * 8) := by
  rw [State.readWord, h]

theorem readWord_stays {m : Mem} {w : Nat} {s : State} (who : Option Nat)
    (h : Map.get Ecc.clean (s.space m).marks w = .clean ∨ Map.get Ecc.clean (s.space m).marks w = .poison) :
    (s.readWord m who w).2 = s := by
  rcases h with h | h <;> rw [State.readWord, h]

/-- Check bits written over one stuck bit at most: the word is corrected at every read, or poison stays (08 R164). -/
theorem reMark_single {m : Mem} {w : Nat} {s : State} (one : Map.get 0 (s.space m).hard w ≤ 1) (b : Bool) :
    s.reMark m w b =
      s.setMark m w (if b then .poison else if Map.get 0 (s.space m).hard w = 0 then .clean else .corr) := by
  unfold State.reMark
  dsimp only
  split
  · cases b <;> simp
  · rw [if_pos (by omega)]

theorem marks_setMark (m : Mem) (w : Nat) (e : Ecc) {s : State} (wf : Map.wf Ecc.clean (s.space m).marks = true) :
    Map.get Ecc.clean ((s.setMark m w e).space m).marks w = e := by
  rw [State.setMark, space_setSpace, if_pos rfl]
  exact (Map.get_set _ _ _ _ _ wf).trans (if_pos rfl)

/-- The counts of a memory's words that were not clean. -/
def MemSt.tallies (x : MemSt) : Nat × Nat × Nat × Nat × Map Nat := (x.swCorr, x.swUe, x.lpCorr, x.lpUe, x.picCorr)

theorem tallies_setMark (m : Mem) (w : Nat) (e : Ecc) (s : State) : (s.setMark m w e).mem.tallies = s.mem.tallies := by
  cases m <;> rfl

/-! ### A corrected word -/

/-- The device count of corrected words of Sward (epoch tags included) or LPDDR5 goes up (08 R163, 09 R196). -/
def State.corrTallied (m : Mem) (s : State) : State :=
  if m = .lp then { s with mem := { s.mem with lpCorr := add64 s.mem.lpCorr 1 } }
  else { s with mem := { s.mem with swCorr := add64 s.mem.swCorr 1 } }

theorem memCorr_pic (who : Option Nat) (a : Nat) (s : State) : s.memCorr .pic who a =
    { s with mem := { s.mem with
      picCorr := s.mem.picCorr.set 0 (a / storeSpan) (add64 (s.mem.picCorr.get 0 (a / storeSpan)) 1) } } := rfl

theorem memCorr_device {m : Mem} (h : m ≠ .pic) (who : Option Nat) (a : Nat) (s : State) : s.memCorr m who a =
    { s.corrTallied m with
      counters := who.elim s.counters fun c => s.counters.set 0 (c * 32 + 22) (add64 (s.counter c 22) 1) } := by
  unfold State.memCorr State.corrTallied
  rw [if_neg h]
  cases who <;> split <;> rfl

section
variable {m : Mem} {w : Nat} {s : State} (who : Option Nat)

/-- A corrected word is rewritten clean and counted (08 R163, R164; 13 R268). -/
theorem readWord_corrected (wf : Map.wf Ecc.clean (s.space m).marks = true) (one : Map.get 0 (s.space m).hard w ≤ 1)
    (h : Map.get Ecc.clean (s.space m).marks w = .corr) :
    let u := (s.readWord m who w).2
    Map.get Ecc.clean (u.space m).marks w = (if Map.get 0 (s.space m).hard w = 0 then .clean else .corr) ∧
    (u.space m).cells = (s.space m).cells ∧
    (m = .sw ∨ m = .tag → u.mem.swCorr = add64 s.mem.swCorr 1) ∧ (m = .lp → u.mem.lpCorr = add64 s.mem.lpCorr 1) ∧
    (m = .pic → u.counters = s.counters ∧ u.mem.picCorr = s.mem.picCorr.set 0 (w * 8 / storeSpan)
      (add64 (s.mem.picCorr.get 0 (w * 8 / storeSpan)) 1)) ∧
    (∀ c, m ≠ .pic → who = some c → u.counters = s.counters.set 0 (c * 32 + 22) (add64 (s.counter c 22) 1)) ∧
    Only [.mem, .counters] s u := by
  dsimp only
  rw [readWord_corr who h, reMark_single one, if_neg Bool.false_ne_true, space_memCorr, marks_setMark m w _ wf,
    State.cells_setMark]
  have marked := Only.setMark m w (if Map.get 0 (s.space m).hard w = 0 then .clean else .corr) s
  have tallies := tallies_setMark m w (if Map.get 0 (s.space m).hard w = 0 then .clean else .corr) s
  generalize s.setMark m w _ = v at marked tallies
  have counters : v.counters = s.counters := marked.get .counters
  simp only [MemSt.tallies, Prod.mk.injEq] at tallies
  obtain ⟨swCorr, -, lpCorr, -, picCorr⟩ := tallies
  refine ⟨rfl, rfl, ?_⟩
  by_cases store : m = .pic
  · subst store
    rw [memCorr_pic, picCorr]
    exact ⟨nofun, nofun, fun _ => ⟨counters, rfl⟩, fun _ ne => absurd rfl ne,
      (marked.mono (by decide)).trans ((Only.ofMem v _).mono (by decide))⟩
  · have frame : Only [.mem, .counters] v (v.memCorr m who (w * 8)) := by
      have tallied : Only [.mem] v (v.corrTallied m) := Only.ite (fun _ => Only.ofMem v _) fun _ => Only.ofMem v _
      rw [memCorr_device store]
      exact (tallied.mono (by decide)).trans ((Only.ofCounters _ _).mono (by decide))
    refine ⟨fun sw => ?_, fun lp => ?_, fun pic => absurd pic store, fun c _ own => ?_,
      (marked.mono (by decide)).trans frame⟩
    · rw [memCorr_device store, State.corrTallied, if_neg (by rcases sw with rfl | rfl <;> decide), swCorr]
    · rw [memCorr_device store, State.corrTallied, if_pos lp, lpCorr]
    · subst own
      rw [memCorr_device store]
      simp only [State.counter, counters, Option.elim]

/-! ### An uncorrectable word -/

/-- The device count of uncorrectable words of Sward (epoch tags included) or LPDDR5 goes up (08 R165, 09 R196). -/
def State.ueTallied (m : Mem) (s : State) : State :=
  if m = .lp then { s with mem := { s.mem with lpUe := add64 s.mem.lpUe 1 } }
  else { s with mem := { s.mem with swUe := add64 s.mem.swUe 1 } }

/-- The tract or channel of an address: the UNIT of Verge's record (16 Table 16.3). -/
def Mem.unit (m : Mem) (a : Nat) : Nat := if m = .lp then lpChannel a else a / 2 ^ 24

/-- Verge has recorded an uncorrectable word at an address. -/
def State.ueRecorded (m : Mem) (a : Nat) (s : State) : State := (s.ueTallied m).record 0x8305 (m.unit a) 0 a

theorem memUe_device (h : m ≠ .pic) (word : Nat) (s : State) : s.memUe m word =
    (s.ueRecorded m (m.reported word)).post 0x0302 (lineOf m (m.reported word))
      ((s.ueRecorded m (m.reported word)).shareOwner (m == .lp) (m.reported word)) := if_neg h

theorem memUe_pic (word : Nat) (s : State) : s.memUe .pic word =
    s.draw.2.post 0x0302 (lineOf .pic (64 * s.draw.1)) (some (word / storeSpan / 16)) := rfl

theorem Only.ueTallied (m : Mem) (s : State) : Only [.mem] s (s.ueTallied m) :=
  Only.ite (fun _ => Only.ofMem s _) fun _ => Only.ofMem s _

theorem Only.ueRecorded (m : Mem) (a : Nat) (s : State) : Only [.mem, .records] s (s.ueRecorded m a) :=
  ((Only.ueTallied m s).mono (by decide)).trans ((Only.record _ _ _ _ _).mono (by decide))

/-- The device counts after the report of an uncorrectable word. -/
theorem ue_memUe (h : m ≠ .pic) (word : Nat) (s : State) :
    (s.memUe m word).mem.swUe = (s.ueTallied m).mem.swUe ∧ (s.memUe m word).mem.lpUe = (s.ueTallied m).mem.lpUe := by
  rw [memUe_device h]
  have mem := (Only.post 0x0302 (lineOf m (m.reported word))
    ((s.ueRecorded m (m.reported word)).shareOwner (m == .lp) (m.reported word))
    (s.ueRecorded m (m.reported word))).get .mem
  exact ⟨congrArg MemSt.swUe mem, congrArg MemSt.lpUe mem⟩

theorem shareOwner_of_only {ps : List Part} {s t : State} (h : Only ps s t) (hp : Part.fw ∉ ps := by decide) (lp : Bool)
    (a : Nat) : t.shareOwner lp a = s.shareOwner lp a := by
  have fw : t.fw = s.fw := h.2 .fw hp
  simp only [State.shareOwner, State.ctxs, State.recs, fw]

theorem fns_setMark (m : Mem) (w : Nat) (e : Ecc) (s : State) : (s.setMark m w e).fns = s.fns := by cases m <;> rfl

theorem link_setMark (m : Mem) (w : Nat) (e : Ecc) (s : State) : (s.setMark m w e).link = s.link := by cases m <;> rfl

theorem held_congr {s t : State} (fns : t.fns = s.fns) (link : t.link = s.link) (f : Nat) : t.held f = s.held f := by
  unfold State.held State.fn
  rw [fns, link]

/-- The report of an uncorrectable word posts MEM_UE (08 R165, 13 R268). -/
theorem memUe_posts (m : Mem) (word : Nat) {s : State} (live : s.held 0 = false) :
    ∃ x ∈ ((s.memUe m word).fn 0).posted, x.code = 0x0302#16 ∧ x.stamp = s.now ∧
      x.ctx = (if m = .pic then some (word / storeSpan / 16) else s.shareOwner (m == .lp) (m.reported word)) := by
  by_cases store : m = .pic
  · subst store
    rw [memUe_pic]
    exact ⟨_, posted_post _ _ _ (s := s.draw.2) live, rfl, rfl, rfl⟩
  · have fns : (s.ueRecorded m (m.reported word)).fns = s.fns := by
      unfold State.ueRecorded State.ueTallied; split <;> rfl
    have link : (s.ueRecorded m (m.reported word)).link = s.link := by
      unfold State.ueRecorded State.ueTallied; split <;> rfl
    have recorded := Only.ueRecorded m (m.reported word) s
    rw [memUe_device store]
    refine ⟨_, posted_post _ _ _ ((held_congr fns link 0).trans live), rfl,
      congrArg TimeSt.ms (recorded.get .time), ?_⟩
    rw [if_neg store]
    exact shareOwner_of_only recorded (by decide) _ _

/-- Verge's record of an uncorrectable word stands before the others (16 R337). -/
theorem memUe_records (h : m ≠ .pic) (word : Nat) (s : State) : (s.memUe m word).verge.records.head? =
    some (FaultRec.mk s.now 0x8305 (BitVec.ofNat 8 (m.unit (m.reported word))) 0 s.devState.code
      (BitVec.ofNat 32 (m.reported word))) := by
  have tallied := Only.ueTallied m s
  have time : (s.ueTallied m).time = s.time := tallied.get .time
  have dev : (s.ueTallied m).devState = s.devState := tallied.get .devState
  rw [memUe_device h]
  refine (congrArg List.head? ((Only.post _ _ _ _).get .records)).trans ?_
  unfold State.ueRecorded State.record State.now
  rw [time, dev]
  rfl

/-- An uncorrectable word takes the poison syndrome, and is counted, recorded and reported (08 R165; 13 R268). -/
theorem readWord_uncorrectable (wf : Map.wf Ecc.clean (s.space m).marks = true)
    (one : Map.get 0 (s.space m).hard w ≤ 1) (h : Map.get Ecc.clean (s.space m).marks w = .ue) :
    let u := (s.readWord m who w).2
    let a := m.reported (w * 8)
    Map.get Ecc.clean (u.space m).marks w = .poison ∧ (u.space m).cells = (s.space m).cells ∧
    (m = .sw ∨ m = .tag → u.mem.swUe = add64 s.mem.swUe 1) ∧ (m = .lp → u.mem.lpUe = add64 s.mem.lpUe 1) ∧
    (s.held 0 = false → ∃ x ∈ (u.fn 0).posted, x.code = 0x0302#16 ∧ x.stamp = s.now ∧
      x.ctx = (if m = .pic then some (w * 8 / storeSpan / 16) else s.shareOwner (m == .lp) a)) ∧
    (m ≠ .pic → u.verge.records.head? = some (FaultRec.mk s.now 0x8305 (BitVec.ofNat 8 (m.unit a)) 0 s.devState.code
        (BitVec.ofNat 32 a)) ∧ Only [.mem, .records, .events, .irq, .out] s u) ∧
    (m = .pic → Only [.mem, .free, .events, .irq, .out] s u) := by
  dsimp only
  rw [readWord_ue who h, reMark_single one, if_pos rfl, space_memUe, marks_setMark m w _ wf, State.cells_setMark]
  have marked := Only.setMark m w .poison s
  have tallies := tallies_setMark m w .poison s
  have held := held_congr (fns_setMark m w .poison s) (link_setMark m w .poison s) 0
  generalize s.setMark m w .poison = v at marked tallies held
  simp only [MemSt.tallies, Prod.mk.injEq] at tallies
  obtain ⟨-, swUe, -, lpUe, -⟩ := tallies
  have now : v.now = s.now := congrArg TimeSt.ms (marked.get .time)
  refine ⟨rfl, rfl, fun sw => ?_, fun lp => ?_, fun live => ?_, fun device => ⟨?_, ?_⟩, fun pic => ?_⟩
  · have device : m ≠ .pic := by rcases sw with rfl | rfl <;> decide
    rw [(ue_memUe device _ v).1, State.ueTallied, if_neg (by rcases sw with rfl | rfl <;> decide), swUe]
  · subst lp
    rw [(ue_memUe (by decide) _ v).2, State.ueTallied, if_pos rfl, lpUe]
  · have posts := memUe_posts m (w * 8) (held.trans live)
    rwa [now, shareOwner_of_only marked] at posts
  · rw [memUe_records device, now, (marked.get .devState : v.devState = s.devState)]
  · rw [memUe_device device]
    exact (marked.mono (by decide)).trans (((Only.ueRecorded m _ v).mono (by decide)).trans
      ((Only.post _ _ _ _).mono (by decide)))
  · subst pic
    rw [memUe_pic]
    exact (marked.mono (by decide)).trans (((Only.draw v).mono (by decide)).trans
      ((Only.post _ _ _ _).mono (by decide)))

end

/-! ### A granule that is zeroed -/

theorem Map.get_le {m : Map Nat} {n : Nat} (h : ∀ p ∈ m, p.2 ≤ n) (k : Nat) : Map.get 0 m k ≤ n := by
  by_cases e : Map.get 0 m k = 0
  · omega
  · exact h _ (Map.mem_of_get_ne e)

/-- Entries taken out leave what the others read. -/
theorem Map.get_filter {α : Type} (d : α) {f : Nat × α → Bool} {k : Nat} (keep : ∀ v, f (k, v) = true) (m : Map α) :
    ∀ lo, Map.rising lo m = true → Map.get d (m.filter f) k = Map.get d m k := by
  induction m with
  | nil => exact fun _ _ => rfl
  | cons p r ih =>
    obtain ⟨j, v⟩ := p
    intro lo up
    simp only [Map.rising, Bool.and_eq_true, decide_eq_true_eq] at up
    have rest := ih _ up.2
    by_cases out : f (j, v) = true
    · rw [List.filter_cons_of_pos out, Map.get, Map.get, rest]
    · have other : j ≠ k := fun e => out (e ▸ keep v)
      rw [List.filter_cons_of_neg out, Map.get, if_neg other, rest]
      split
      · exact Map.get_of_rising d r _ k up.2 (by omega)
      · rfl

theorem Map.get_clear_elsewhere {α : Type} [DecidableEq α] {d : α} {m : Map α} (wf : Map.wf d m = true) {lo n k : Nat}
    (out : k < lo ∨ lo + n ≤ k) : Map.get d (m.clear lo n) k = Map.get d m k := by
  simp only [Map.wf, Bool.and_eq_true] at wf
  exact Map.get_filter d (fun v => by simpa using out) m 0 wf.1

/-- A zeroed range leaves the bytes outside it. -/
theorem get_zeroRange_elsewhere {m : Mem} {s : State} (wf : Memory.wf (s.space m).cells = true)
    (hard : ∀ w, Map.get 0 (s.space m).hard w ≤ 2) {a k i : Nat} (out : i < a ∨ a + k ≤ i) :
    Map.get 0 ((s.zeroRange m a k).space m).cells i = Map.get 0 (s.space m).cells i := by
  unfold State.zeroRange
  rw [cells_cleanRange, space_setSpace, if_pos rfl]
  · exact Map.get_clear_elsewhere wf out
  · intro w; rw [space_setSpace, if_pos rfl]; exact hard w

theorem space_zeroDone (m : Mem) (s : State) : s.zeroDone.space m = s.space m := by
  unfold State.zeroDone
  split
  · refine (space_of_only (Only.post _ _ _ _) (by decide) m).trans ?_
    cases m <;> rfl
  · rfl

theorem pendGran_zeroDone (s : State) : s.zeroDone.mem.pendGran = s.mem.pendGran := by
  unfold State.zeroDone
  split
  · exact (congrArg MemSt.pendGran ((Only.post _ _ _ _).get .mem)).trans rfl
  · rfl

theorem space_zeroGranule (g : Nat) (s : State) :
    (s.zeroGranule g).space .lp = (s.zeroRange .lp (g * granule) granule).space .lp := space_zeroDone .lp _

theorem pendGran_zeroGranule (g : Nat) (s : State) :
    (s.zeroGranule g).mem.pendGran = s.mem.pendGran.filter (· != g) := by
  refine (pendGran_zeroDone _).trans (congrArg (List.filter (· != g)) ?_)
  exact (pendGran_cleanRange .lp _ _ _).trans (pendGran_setSpace .lp s _)

/-- An LPDDR5 controller is FENCED. -/
def State.anyChannelFenced (s : State) : Prop := ∃ b, 0x54 ≤ b ∧ b < 0x58 ∧ s.isFenced b = true

theorem anyChannelFenced_iff (s : State) :
    ((rangeFrom 0x54 4).any fun b => s.isFenced b) = true ↔ s.anyChannelFenced := by
  simp only [List.any_eq_true, mem_rangeFrom, State.anyChannelFenced, and_assoc]

theorem exec_backgroundZeroing {s : State} {g : Nat} {r : List Nat} (pend : s.mem.pendGran = g :: r)
    (up : ¬ s.anyChannelFenced) : exec .backgroundZeroing s = done s (s.zeroGranule g) := by
  rw [← anyChannelFenced_iff] at up
  refine congrArg (done s) ?_
  rw [pend]
  exact if_neg up

theorem mem_canonical {s : State} (h : s.canonical = true) : s.mem.canonical = true := by
  simp only [State.canonical, Bool.and_eq_true] at h
  simp [h]

/-- A granule zeroed in the background reads zero, and no byte beside it changes (08 R160). -/
theorem zeroing_zeroes {s : State} {g : Nat} {r : List Nat} (canonical : s.canonical = true)
    (pend : s.mem.pendGran = g :: r) (up : ∀ b, 0x54 ≤ b → b < 0x58 → s.isFenced b = false)
    (hard : ∀ p ∈ s.mem.lpddr.hard, p.2 ≤ 2) : Goes (exec .backgroundZeroing s) fun t =>
      (∀ a, g * granule ≤ a → a < (g + 1) * granule → t.mem.lpddr.cells.get 0 a = 0) ∧
      (∀ a, a < g * granule ∨ (g + 1) * granule ≤ a → t.mem.lpddr.cells.get 0 a = s.mem.lpddr.cells.get 0 a) ∧
      t.mem.pendGran = r.filter (· != g) ∧ t.mem.sward = s.mem.sward ∧ t.mem.host = s.mem.host ∧ Only memParts s t := by
  have cells : Memory.wf (s.space .lp).cells = true :=
    ((MemSpace.canonical_iff _).1 (canonical_space (mem_canonical canonical) .lp)).1
  have double : ∀ w, Map.get 0 (s.space .lp).hard w ≤ 2 := Map.get_le hard
  have size : (g + 1) * granule = g * granule + granule := Nat.succ_mul g granule
  have zeroed : (s.zeroGranule g).mem.lpddr.cells = ((s.zeroRange .lp (g * granule) granule).space .lp).cells :=
    congrArg MemSpace.cells (space_zeroGranule g s)
  have beside := Beside.zeroGranule g s
  rw [exec_backgroundZeroing pend fun ⟨b, lo, hi, fenced⟩ => by rw [up b lo hi] at fenced; exact nomatch fenced]
  refine goes_done (Only.zeroGranule g s) ⟨fun a lo hi => ?_, fun a out => ?_, ?_, beside.spaces .sw (by decide),
    beside.host, Only.zeroGranule g s⟩
  · rw [zeroed]
    exact get_zeroRange double lo (by rwa [← size])
  · rw [zeroed]
    exact get_zeroRange_elsewhere cells double (by rwa [← size])
  · rw [pendGran_zeroGranule, pend]
    simp

theorem exec_backgroundZeroing_idle {s : State} (h : s.mem.pendGran = [] ∨ s.anyChannelFenced) :
    exec .backgroundZeroing s = .next s := by
  refine Eq.trans (congrArg (done s) ?_) (done_eq rfl)
  rcases pend : s.mem.pendGran with - | ⟨g, r⟩
  · rfl
  · have fenced := h.resolve_left (by rw [pend]; nofun)
    rw [← anyChannelFenced_iff] at fenced
    exact if_pos fenced

/-! ### The scrubbers -/

theorem exec_patrolScrub_off {s : State} (off : s.fw.scrubbing = false) (m : ScrubMem) :
    exec (.patrolScrub m) s = .next s := by
  refine Eq.trans (congrArg (done s) ?_) (done_eq rfl)
  rw [off]
  rfl

theorem exec_patrolScrub_sward {s : State} (on : s.fw.scrubbing = true) :
    exec (.patrolScrub .sward) s = done s s.scrubSward := by
  refine congrArg (done s) ?_
  rw [on]
  rfl

theorem exec_patrolScrub_lpddr {s : State} (on : s.fw.scrubbing = true) :
    exec (.patrolScrub .lpddr) s = done s s.scrubLpddr := by
  refine congrArg (done s) ?_
  rw [on]
  rfl

theorem Only.scrubSward (s : State) : Only memParts s s.scrubSward := by
  unfold State.scrubSward
  refine Only.ite (fun _ => Only.refl _ s) fun _ => ?_
  have read := Only.readWords .sw none (s.markedIn .sw (s.mem.scrubSw * 64) 64) s {}
  have tagged := Only.when (c := s.mem.scrubSw % 8 = 0) read fun x => Only.readWord .tag none (s.mem.scrubSw / 8) x
  exact Only.ite (fun _ => tagged.trans ((Only.ofMem _ _).mono (by decide)))
    fun _ => tagged.trans ((Only.ofMem _ _).mono (by decide))

theorem Only.scrubLpddr (s : State) : Only memParts s s.scrubLpddr := by
  unfold State.scrubLpddr
  exact Only.ite (fun _ => Only.refl _ s) fun _ => (Only.readWords _ _ _ _ _).trans ((Only.ofMem _ _).mono (by decide))

/-- A line of clean words, with a clean tag word, is passed over. -/
theorem scrubSward_clean {s : State} (island : s.isFenced 0x60 = false)
    (tract : s.isFenced (0x58 + s.mem.scrubSw / 2 ^ 18) = false) (line : s.markedIn .sw (s.mem.scrubSw * 64) 64 = [])
    (tag : Map.get Ecc.clean s.mem.tag.marks (s.mem.scrubSw / 8) = .clean) : s.scrubSward = { s with mem :=
      if s.mem.scrubSw + 1 = swardSize / 64 then { s.mem with scrubSw := 0, passes := add64 s.mem.passes 1 }
      else { s.mem with scrubSw := s.mem.scrubSw + 1 } } := by
  have same : (s.readWord .tag none (s.mem.scrubSw / 8)).2 = s := readWord_stays none (.inl tag)
  unfold State.scrubSward
  dsimp only
  rw [island, tract, line, if_neg (by decide)]
  dsimp only [State.readWords]
  rw [same, ite_self]
  split <;> rfl

theorem scrubLpddr_clean {s : State} (channel : s.isFenced (0x54 + lpChannel (s.mem.scrubLp * 64)) = false)
    (line : s.markedIn .lp (s.mem.scrubLp * 64) 64 = []) : s.scrubLpddr = { s with mem :=
      { s.mem with scrubLp := if s.usable / 64 ≤ s.mem.scrubLp + 1 then 0 else s.mem.scrubLp + 1 } } := by
  unfold State.scrubLpddr
  dsimp only
  rw [channel, line, if_neg Bool.false_ne_true]
  rfl

/-! ### A lost Scheduler -/

/-- Fencing the Perception Island loses it (01 R29). -/
theorem islandLost_fencePi (s : State) : IslandLost s s.fencePi := by
  refine ⟨?_, fun up => ⟨fun b hb => ?_, fun running => ?_⟩⟩
  · rw [isFenced_fencePi]; cases s.isFenced 0x60 <;> simp
  · rw [isFenced_fencePi, up]; simp [hb]
  · rw [devState_fencePi s up, if_pos running]

/-- Verge fences the Perception Island and orders its reset (01 Table 1.3). -/
theorem exec_schedulerFault {s : State} (live : 3 ≤ s.devState.code) :
    exec .schedulerFault s = done s { s.fencePi with piReset := true } := congrArg (done s) (if_pos live)

theorem Only.ofPiReset (s : State) (b : Bool) : Only [.piReset] s { s with piReset := b } :=
  ⟨rfl, fun p hp => by cases p <;> first | rfl | exact fun _ => rfl | exact absurd (by decide) hp⟩

end Sys2Proof.Machine

open Sys2Proof Sys2Proof.Machine

/-- Settles O39: a word that is read is `readWord_corrected`, `readWord_uncorrectable` or `readWord_stays`; a granule is
zeroed by `zeroing_zeroes`; the scrubbers and a lost Scheduler follow the equations of their commands. -/
theorem memoryIsCorrectedAndZeroed : Obligations.MemoryIsCorrectedAndZeroed := by
  refine ⟨fun m who w s wf one =>
      ⟨readWord_corrected who wf one, readWord_uncorrectable who wf one, readWord_stays who⟩,
    fun s g r canonical pend up hard => zeroing_zeroes canonical pend up hard, fun s => exec_backgroundZeroing_idle,
    fun s => ⟨exec_patrolScrub_off, fun on => ⟨fun island tract line tag => ?sward, fun channel line => ?lpddr,
      ?swardFrame, ?lpddrFrame⟩⟩, fun s live => ?scheduler⟩
  case sward =>
    rw [exec_patrolScrub_sward on, scrubSward_clean island tract line tag]
    exact done_eq rfl
  case lpddr =>
    rw [exec_patrolScrub_lpddr on, scrubLpddr_clean channel line]
    exact done_eq rfl
  case swardFrame =>
    rw [exec_patrolScrub_sward on]
    exact goes_done (Only.scrubSward s) (Only.scrubSward s)
  case lpddrFrame =>
    rw [exec_patrolScrub_lpddr on]
    exact goes_done (Only.scrubLpddr s) (Only.scrubLpddr s)
  case scheduler =>
    have frame : Only (.piReset :: fenceParts) s { s.fencePi with piReset := true } :=
      ((Only.fencePi s).mono (by decide)).trans ((Only.ofPiReset _ true).mono (by decide))
    rw [exec_schedulerFault live]
    exact goes_done frame ⟨islandLost_fencePi s, rfl, frame⟩

end

section
/-! PROOF. How an engine's reads and writes change memory (07 Table 7.8, 08 R163 to R172): reads leave every byte, and a
write changes the bytes that it names, whatever it met before. -/

namespace Sys2Proof.Machine

/-! ### Frames of a run -/

theorem Only.setTags (who : Option Nat) (epoch a n : Nat) (s : State) : Only memParts s (s.setTags who epoch a n) := by
  unfold State.setTags
  exact Only.ite (fun _ => Only.refl _ s) fun _ => Only.foldl _ (fun t _ => Only.writeMem .tag who false _ _ t) _ s

theorem Only.hostReq (k : RunCtx) (write : Bool) (addr len : Nat) (s : State) :
    Only [.out] s (s.hostReq k write addr len) := Only.emit _ s

theorem Only.hostReads (k : RunCtx) (l : List (Nat × Nat)) (s : State) :
    Only [.out] s (l.foldl (fun (t : State) q => t.hostReq k false q.1 q.2) s) :=
  Only.foldl _ (fun t q => Only.hostReq k false q.1 q.2 t) l s

/-- Pending granules that a request touches are zeroed before it (08 R161). -/
def Rd.touched (r : Rd) (s : State) : State := r.runs.foldl (fun (t : State) q => t.touch r.mem.mem q.1 q.2) s

/-- What a request to Sward or LPDDR5 has met, and the state after it. -/
def State.deviceRead (k : RunCtx) (r : Rd) (x : Run) (s : State) : Run × State :=
  let seen := (r.touched s).readWords r.mem.mem (some k.ctx) (r.marked (r.touched s)) {}
  (x.meets r seen.1, seen.2.countRead k r seen.1.bad)

theorem runRead_device {k : RunCtx} {r : Rd} (x : Run) (s : State) (mem : r.mem = .sward ∨ r.mem = .lpddr)
    (len : r.len ≠ 0) : State.runRead k (x, s) r =
      if k.isChecked && r.chk then State.checkTags k r (s.deviceRead k r x) else s.deviceRead k r x := by
  obtain ⟨m, runs, code, base, chk⟩ := r
  unfold State.runRead
  rcases mem with rfl | rfl
  all_goals
    dsimp only
    rw [if_neg len]
    rfl

theorem Only.countRead (k : RunCtx) (r : Rd) (bad : Nat) (s : State) : Only [.counters] s (s.countRead k r bad) :=
  (Only.count _ _ _ s).trans (Only.count _ _ _ _)

theorem Only.deviceRead (k : RunCtx) (r : Rd) (x : Run) (s : State) : Only memParts s (s.deviceRead k r x).2 := by
  have touched : Only memParts s (r.touched s) :=
    Only.foldl (fun t (q : Nat × Nat) => t.touch r.mem.mem q.1 q.2) (fun t q => Only.touch _ _ _ t) r.runs s
  exact touched.trans ((Only.readWords _ _ _ _ _).trans ((Only.countRead k r _ _).mono (by decide)))

/-- A read of host memory sends its requests and counts their bytes. -/
theorem runRead_host {k : RunCtx} {r : Rd} (x : Run) (s : State) (mem : r.mem = .host) :
    (State.runRead k (x, s) r).1.stale = x.stale ∧ Only [.out, .counters] s (State.runRead k (x, s) r).2 := by
  have counted := ((Only.hostReads k r.runs s).mono (qs := [.out, .counters]) (by decide)).trans
    ((Only.count k.ctx 21 r.len _).mono (by decide))
  unfold State.runRead
  dsimp only
  rw [mem]
  dsimp only
  split
  · exact ⟨rfl, Only.refl _ s⟩
  split
  · exact ⟨rfl, counted.trans ((Only.count _ _ _ _).mono (by decide))⟩
  · exact ⟨rfl, counted⟩

/-- A request for no bytes, or to no memory. -/
theorem runRead_nothing {k : RunCtx} {r : Rd} (x : Run) (s : State) (h : r.len = 0 ∨ r.mem = .none) :
    State.runRead k (x, s) r = (x, s) := by
  unfold State.runRead
  dsimp only
  rcases h with len | mem
  · exact if_pos len
  · rw [mem]
    exact ite_self _

theorem OpMem.device_or (m : OpMem) : m = .none ∨ m = .host ∨ m = .sward ∨ m = .lpddr := by cases m <;> decide

theorem Only.runRead (k : RunCtx) (p : Run × State) (r : Rd) : Only memParts p.2 (State.runRead k p r).2 := by
  obtain ⟨x, s⟩ := p
  by_cases len : r.len = 0
  · rw [runRead_nothing x s (.inl len)]
    exact Only.refl _ s
  rcases r.mem.device_or with mem | mem | mem
  · rw [runRead_nothing x s (.inr mem)]
    exact Only.refl _ s
  · exact (runRead_host x s mem).2.mono (by decide)
  · have read := Only.deviceRead k r x s
    rw [runRead_device x s mem len]
    split
    · exact read.trans (checkTags_keeps k r _).2.2
    · exact read

theorem Only.runWrite (k : RunCtx) (force : Bool) (p : Run × State) (wr : Wr) :
    Only memParts p.2 (State.runWrite k force p wr).2 := by
  obtain ⟨x, s⟩ := p
  unfold State.runWrite
  dsimp only
  split
  · exact Only.refl _ s
  split
  · exact Only.refl _ s
  · exact ((Only.writeHost _ _ _ s).mono (by decide)).trans (((Only.hostReq _ _ _ _ _).mono (by decide)).trans
      ((Only.count _ _ _ _).mono (by decide)))
  · refine Only.trans ?_ ((Only.count _ _ _ _).mono (by decide))
    have written := Only.writeMem wr.mem.mem (some k.ctx) (x.bad || x.hostBad || force) wr.addr wr.bytes s
    exact Only.ite (fun _ => written.trans (Only.setTags _ _ _ _ _)) fun _ => written

theorem Only.runStep (k : RunCtx) (force : Bool) (p : Run × State) (t : EngStep) :
    Only memParts p.2 (State.runStep k force p t).2 :=
  (Only.foldl_snd (State.runRead k) (Only.runRead k) t.reads p).trans
    (Only.foldl_snd (State.runWrite k force) (Only.runWrite k force) t.writes _)

theorem Only.touchSpans (c : CtxInfo) (w : Waybill) (s : State) : Only memParts s (s.touchSpans c w) :=
  Only.foldl _ (fun t _ => Only.ite (fun _ => Only.foldl _ (fun u g => Only.zeroGranule g u) _ t)
    fun _ => Only.refl _ t) _ s

/-! ### The bytes that a write names -/

/-- The byte that a write gives address `a` of a memory. -/
def Wr.byte? (wr : Wr) (m : OpMem) (a : Nat) : Option Byte :=
  if wr.mem = m ∧ m ≠ .none ∧ wr.addr ≤ a then wr.bytes[a - wr.addr]? else none

/-- Sward and LPDDR5 are at rest. -/
structure BothReady (s : State) : Prop where
  sw : MemReady .sw s
  lp : MemReady .lp s

/-- Some write of a list gives address `a` of a memory the byte `b`. -/
def Written (ws : List Wr) (m : OpMem) (a : Nat) (b : Byte) : Prop := ∃ wr ∈ ws, wr.byte? m a = some b

section
variable {m : OpMem} {a : Nat} {b : Byte}

@[simp] theorem written_nil : ¬ Written [] m a b := fun ⟨_, h, _⟩ => absurd h List.not_mem_nil

@[simp] theorem written_cons {wr : Wr} {ws : List Wr} :
    Written (wr :: ws) m a b ↔ wr.byte? m a = some b ∨ Written ws m a b := by
  simp only [Written, List.mem_cons, exists_eq_or_imp]

@[simp] theorem written_append {ws ws' : List Wr} :
    Written (ws ++ ws') m a b ↔ Written ws m a b ∨ Written ws' m a b := by
  simp only [Written, List.mem_append, or_and_right, exists_or]

theorem written_flatMap {α : Type} {f : α → List Wr} {l : List α} :
    Written (l.flatMap f) m a b ↔ ∃ x ∈ l, Written (f x) m a b := by
  simp only [Written, List.mem_flatMap]
  exact ⟨fun ⟨wr, ⟨x, hx, hw⟩, h⟩ => ⟨x, hx, wr, hw, h⟩, fun ⟨x, hx, wr, hw, h⟩ => ⟨wr, ⟨x, hx, hw⟩, h⟩⟩

end

/-- What some writes do, one after the other: an address at which all of them agree on a value holds that value, when it
held it before or one of them writes it. -/
def Stores (ws : List Wr) (s t : State) : Prop := BothReady s → BothReady t ∧
  ∀ m a v, (∀ b, Written ws m a b → b.toNat = v) → (s.rawByte m a = v ∨ ∃ b, Written ws m a b) → t.rawByte m a = v

theorem rawByte_congr {s t : State} (sw : (t.space .sw).cells = (s.space .sw).cells)
    (lp : (t.space .lp).cells = (s.space .lp).cells) (host : t.mem.host = s.mem.host) (m : OpMem) (a : Nat) :
    t.rawByte m a = s.rawByte m a := by
  cases m with
  | sward => exact congrArg (fun c : Map Byte => (Map.get 0 c a).toNat) sw
  | lpddr => exact congrArg (fun c : Map Byte => (Map.get 0 c a).toNat) lp
  | host => exact congrArg (fun c : Map Byte => (Map.get 0 c a).toNat) host
  | none => rfl

/-- An access to one memory leaves the bytes of the others. -/
theorem rawByte_other {s t : State} {w m : OpMem} (mem : w = .sward ∨ w = .lpddr) (ne : w ≠ m)
    (beside : Beside w.mem s t) (a : Nat) : t.rawByte m a = s.rawByte m a := by
  cases m with
  | sward =>
    obtain rfl := mem.resolve_left ne
    exact congrArg (fun c : MemSpace => (Map.get 0 c.cells a).toNat) (beside.spaces .sw (by decide))
  | lpddr =>
    obtain rfl := mem.resolve_right ne
    exact congrArg (fun c : MemSpace => (Map.get 0 c.cells a).toNat) (beside.spaces .lp (by decide))
  | host => exact congrArg (fun c : Map Byte => (Map.get 0 c a).toNat) beside.host
  | none => rfl

section
variable {mm : Mem} {s t u : State}

theorem MemReady.beside {n : Mem} (ready : MemReady n s) (ne : n ≠ mm) (beside : Beside mm s t) (keeps : KeepsMem s t) :
    MemReady n t :=
  ⟨keeps.1 ready.canonical, beside.settled ready.settled, fun w => by rw [beside.spaces n ne]; exact ready.single w⟩

/-- An access to one memory keeps both at rest when it keeps its own so. -/
theorem BothReady.after (h : BothReady s) (beside : Beside mm s t) (keeps : KeepsMem s t)
    (own : mm = .sw ∨ mm = .lp → MemReady mm s → MemReady mm t) : BothReady t := by
  have ready (n : Mem) (hn : n = .sw ∨ n = .lp) (atRest : MemReady n s) : MemReady n t := by
    by_cases e : n = mm
    · subst e
      exact own hn atRest
    · exact atRest.beside e beside keeps
  exact ⟨ready .sw (.inl rfl) h.sw, ready .lp (.inr rfl) h.lp⟩

theorem Stores.trans {ws ws' : List Wr} (h : Stores ws s t) (k : Stores ws' t u) :
    Stores (ws ++ ws') s u := fun ready => by
  obtain ⟨ready', value⟩ := h ready
  obtain ⟨ready'', value'⟩ := k ready'
  refine ⟨ready'', fun m a v agree held => value' m a v (fun b hb => agree b (written_append.2 (.inr hb))) ?_⟩
  have first := value m a v fun b hb => agree b (written_append.2 (.inl hb))
  rcases held with held | ⟨b, written⟩
  · exact .inl (first (.inl held))
  · exact (written_append.1 written).imp (fun hb => first (.inr ⟨b, hb⟩)) fun hb => ⟨b, hb⟩

/-- An address that no write names keeps its byte. -/
theorem Stores.untouched {ws : List Wr} (h : Stores ws s t) (ready : BothReady s) {m : OpMem} {a : Nat}
    (none : ∀ b, ¬ Written ws m a b) : t.rawByte m a = s.rawByte m a :=
  (h ready).2 m a _ (fun b hb => absurd hb (none b)) (.inl rfl)

/-- An access that keeps the bytes of its memory stores nothing. -/
theorem Stores.nothing (beside : Beside mm s t) (keeps : KeepsMem s t)
    (kept : mm = .sw ∨ mm = .lp → BytesKept mm s t) : Stores [] s t := fun ready => by
  have cells (n : Mem) (hn : n = .sw ∨ n = .lp) (atRest : MemReady n s) : (t.space n).cells = (s.space n).cells := by
    by_cases e : n = mm
    · subst e
      exact (kept hn atRest).2
    · rw [beside.spaces n e]
  refine ⟨ready.after beside keeps fun own atRest => (kept own atRest).1, fun m a v _ held => ?_⟩
  rw [rawByte_congr (cells .sw (.inl rfl) ready.sw) (cells .lp (.inr rfl) ready.lp) beside.host]
  exact held.resolve_right fun ⟨_, hb⟩ => written_nil hb

/-- What leaves the memories stores nothing. -/
theorem Stores.of_only {ps : List Part} (h : Only ps s t) (hp : Part.mem ∉ ps := by decide) : Stores [] s t :=
  .nothing (mm := .tag) (.of_only h hp) (.of_only h hp) nofun

/-- One write, by the byte that each address holds after it. -/
theorem Stores.one {wr : Wr} (ready : BothReady s → BothReady t)
    (value : BothReady s → ∀ m a, t.rawByte m a = ((wr.byte? m a).map (·.toNat)).getD (s.rawByte m a)) :
    Stores [wr] s t := fun h => by
  refine ⟨ready h, fun m a v agree held => ?_⟩
  rw [value h]
  rcases byte : wr.byte? m a with - | b
  · exact held.resolve_right fun ⟨_, hb⟩ => by simp [byte] at hb
  · exact agree b (written_cons.2 (.inl byte))

/-- A write that names no byte. -/
theorem Stores.skip {wr : Wr} (h : ∀ m a, wr.byte? m a = none) (s : State) : Stores [wr] s s :=
  .one id fun _ m a => by rw [h]; rfl

end

/-- A byte after others have been stored from an address on. -/
theorem toNat_get_store {c : Map Byte} (wf : Memory.wf c = true) (a : Nat) (bs : List Byte) (j : Nat) :
    (Map.get 0 (c.store a bs) j).toNat =
      ((if a ≤ j then bs[j - a]? else none).map (·.toNat)).getD (Map.get 0 c j).toNat := by
  rw [Map.get_store bs c a j wf]
  by_cases lo : a ≤ j
  · rw [if_pos lo]
    by_cases hi : j < a + bs.length
    · rw [if_pos ⟨lo, hi⟩, List.getElem?_eq_getElem (by omega), List.getD_eq_getElem _ _ (by omega)]
      rfl
    · rw [if_neg fun h => hi h.2, List.getElem?_eq_none (by omega)]
      rfl
  · rw [if_neg lo, if_neg fun h => lo h.1]
    rfl

theorem Wr.byte?_same {wr : Wr} (h : wr.mem ≠ .none) (a : Nat) :
    wr.byte? wr.mem a = if wr.addr ≤ a then wr.bytes[a - wr.addr]? else none := by
  simp [Wr.byte?, h]

theorem Wr.byte?_other {wr : Wr} {m : OpMem} (h : wr.mem ≠ m) (a : Nat) : wr.byte? m a = none :=
  if_neg fun e => h e.1

/-! ### Reads and writes of a step -/

section
variable {s : State}

theorem Stores.readWords (m : OpMem) (who : Option Nat) (l : List Nat) (x : Seen) :
    Stores [] s (State.readWords m.mem who l s x).2 :=
  .nothing (.readWords m.mem who l s x) (.readWords m.mem who l s x) fun _ ready =>
    ((readWords_ready who l s x ready).1.bytes ready)

/-- A write to Sward or LPDDR5, poisoned or not. -/
theorem Stores.writeMem {wr : Wr} (mem : wr.mem = .sward ∨ wr.mem = .lpddr) (who : Option Nat) (poison : Bool) :
    Stores [wr] s (s.writeMem wr.mem.mem who poison wr.addr wr.bytes).2 := by
  obtain ⟨w, addr, bytes, code, base⟩ := wr
  have beside := Beside.writeMem w.mem who poison addr bytes s
  refine .one (fun h => h.after beside (.writeMem _ _ _ _ _ s) fun _ ready =>
    (writeMem_stores who poison addr bytes ready).1) fun h m a => ?_
  by_cases same : w = m
  · subst same
    rw [Wr.byte?_same (by rcases mem with rfl | rfl <;> exact OpMem.noConfusion)]
    rcases mem with rfl | rfl
    · have stored := (writeMem_stores (m := .sw) who poison addr bytes h.sw).2
      exact (congrArg (fun c : Map Byte => (Map.get 0 c a).toNat) stored).trans
        (toNat_get_store h.sw.cells addr bytes a)
    · have stored := (writeMem_stores (m := .lp) who poison addr bytes h.lp).2
      exact (congrArg (fun c : Map Byte => (Map.get 0 c a).toNat) stored).trans
        (toNat_get_store h.lp.cells addr bytes a)
  · rw [Wr.byte?_other same]
    exact rawByte_other mem same beside a

/-- A write to host memory. -/
theorem Stores.writeHost {wr : Wr} (mem : wr.mem = .host) (ep : Bool) :
    Stores [wr] s (s.writeHost ep wr.addr wr.bytes) := by
  obtain ⟨w, addr, bytes, code, base⟩ := wr
  obtain rfl : w = .host := mem
  have keeps := KeepsMem.writeHost ep addr bytes s
  refine .one (fun h => ⟨⟨keeps.1 h.sw.canonical, h.sw.settled, h.sw.single⟩,
    keeps.1 h.lp.canonical, h.lp.settled, h.lp.single⟩) fun h m a => ?_
  have wf : Memory.wf s.mem.host = true := by
    obtain ⟨-, -, -, -, host, -⟩ := (MemSt.canonical_iff _).1 h.sw.canonical
    exact host
  by_cases same : OpMem.host = m
  · subst same
    rw [Wr.byte?_same OpMem.noConfusion]
    exact toNat_get_store wf addr bytes a
  · rw [Wr.byte?_other same]
    cases m with
    | host => exact absurd rfl same
    | _ => rfl

theorem Stores.setTags (who : Option Nat) (epoch a n : Nat) : Stores [] s (s.setTags who epoch a n) :=
  .nothing (.setTags who epoch a n s) (.setTags who epoch a n s) nofun

end

theorem Stores.deviceRead (k : RunCtx) (r : Rd) (x : Run) (s : State) :
    Stores [] s (s.deviceRead k r x).2 := fun ready => by
  have touched : r.touched s = s := touch_all_none ready.sw.settled _ _
  unfold State.deviceRead
  rw [touched]
  exact (Stores.readWords r.mem (some k.ctx) (r.marked s) {}).trans (.of_only (Only.countRead k r _ _)) ready

section
variable {k : RunCtx} (unchecked : k.isChecked = false)
include unchecked

/-- A read whose tags are not compared meets no stale line and leaves every byte. -/
theorem runRead_unchecked (p : Run × State) (r : Rd) :
    (State.runRead k p r).1.stale = p.1.stale ∧ Stores [] p.2 (State.runRead k p r).2 := by
  obtain ⟨x, s⟩ := p
  have here : Stores [] s s := .of_only (Only.refl [] s)
  by_cases len : r.len = 0
  · rw [runRead_nothing x s (.inl len)]
    exact ⟨rfl, here⟩
  rcases r.mem.device_or with mem | mem | mem
  · rw [runRead_nothing x s (.inr mem)]
    exact ⟨rfl, here⟩
  · obtain ⟨stale, frame⟩ := runRead_host (k := k) x s mem
    exact ⟨stale, .of_only frame⟩
  · rw [runRead_device x s mem len, unchecked, Bool.false_and, if_neg Bool.false_ne_true]
    exact ⟨rfl, .deviceRead k r x s⟩

end

/-- A write stores its bytes, whatever it was poisoned by, and meets no stale line. -/
theorem runWrite_stores (k : RunCtx) (force : Bool) (p : Run × State) (wr : Wr) :
    (State.runWrite k force p wr).1.stale = p.1.stale ∧ Stores [wr] p.2 (State.runWrite k force p wr).2 := by
  obtain ⟨x, s⟩ := p
  obtain ⟨m, addr, bytes, code, base⟩ := wr
  have counted (i : Nat) (t : State) : Stores [] t (t.count k.ctx i bytes.length) := .of_only (Only.count _ _ _ t)
  unfold State.runWrite
  dsimp only
  split
  · next empty =>
    refine ⟨rfl, .skip (fun m a => ?_) s⟩
    rw [Wr.byte?, List.length_eq_zero_iff.1 empty]
    exact ite_self _
  cases m with
  | none => exact ⟨rfl, .skip (fun m a => if_neg fun h => h.2.1 h.1.symm) s⟩
  | host => exact ⟨rfl, (Stores.writeHost rfl _).trans ((Stores.of_only (Only.hostReq _ _ _ _ _)).trans (counted _ _))⟩
  | sward => exact ⟨rfl, (Stores.writeMem (.inl rfl) _ _).trans ((Stores.setTags _ _ _ _).trans (counted _ _))⟩
  | lpddr => exact ⟨rfl, (Stores.writeMem (.inr rfl) _ _).trans (counted _ _)⟩

/-! ### Steps -/

theorem runWrites_stores (k : RunCtx) (force : Bool) (l : List Wr) : ∀ p : Run × State,
    (l.foldl (State.runWrite k force) p).1.stale = p.1.stale ∧ Stores l p.2 (l.foldl (State.runWrite k force) p).2 := by
  induction l with
  | nil => exact fun p => ⟨rfl, .of_only (Only.refl [] p.2)⟩
  | cons wr r ih =>
    intro p
    obtain ⟨stale, first⟩ := runWrite_stores k force p wr
    obtain ⟨stale', rest⟩ := ih (State.runWrite k force p wr)
    exact ⟨stale'.trans stale, first.trans rest⟩

/-- Where no stale line has been met, the next step runs (09 R195). -/
theorem runSteps_cons (k : RunCtx) (poisonFrom : Option Nat) (n : Nat) (t : EngStep) (r : List EngStep)
    {p : Run × State} (fresh : p.1.stale = none) : ∃ force, State.runSteps k poisonFrom n (t :: r) p =
      State.runSteps k poisonFrom (n + 1) r (State.runStep k force p t) := by
  have goes : (p.1.stale.isSome && n % 16 == 0) ≠ true := by rw [fresh]; exact Bool.false_ne_true
  cases poisonFrom with
  | none => exact ⟨false, if_neg goes⟩
  | some g => exact ⟨decide (g ≤ n / 16), if_neg goes⟩

section
variable {k : RunCtx} (unchecked : k.isChecked = false)
include unchecked

theorem runReads_unchecked (l : List Rd) : ∀ p : Run × State,
    (l.foldl (State.runRead k) p).1.stale = p.1.stale ∧ Stores [] p.2 (l.foldl (State.runRead k) p).2 := by
  induction l with
  | nil => exact fun p => ⟨rfl, .of_only (Only.refl [] p.2)⟩
  | cons r l ih =>
    intro p
    obtain ⟨stale, first⟩ := runRead_unchecked unchecked p r
    obtain ⟨stale', rest⟩ := ih (State.runRead k p r)
    exact ⟨stale'.trans stale, first.trans rest⟩

theorem runStep_unchecked (force : Bool) (p : Run × State) (t : EngStep) :
    (State.runStep k force p t).1.stale = p.1.stale ∧ Stores t.writes p.2 (State.runStep k force p t).2 := by
  obtain ⟨stale, reads⟩ := runReads_unchecked unchecked t.reads p
  obtain ⟨stale', writes⟩ := runWrites_stores k force t.writes (t.reads.foldl (State.runRead k) p)
  exact ⟨stale'.trans stale, reads.trans writes⟩

/-- Steps that compare no tags all run, and store what they write. -/
theorem runSteps_unchecked (poisonFrom : Option Nat) (l : List EngStep) : ∀ (n : Nat) (p : Run × State),
    p.1.stale = none → (State.runSteps k poisonFrom n l p).2.1.stale = none ∧
      Stores (l.flatMap (·.writes)) p.2 (State.runSteps k poisonFrom n l p).2.2 ∧
      Only memParts p.2 (State.runSteps k poisonFrom n l p).2.2 := by
  induction l with
  | nil => exact fun n p none => ⟨none, .of_only (Only.refl [] p.2), Only.refl _ p.2⟩
  | cons t r ih =>
    intro n p none
    obtain ⟨force, step⟩ := runSteps_cons k poisonFrom n t r none
    rw [step, List.flatMap_cons]
    obtain ⟨stale, first⟩ := runStep_unchecked unchecked force p t
    obtain ⟨stale', rest, frame⟩ := ih (n + 1) (State.runStep k force p t) (stale.trans none)
    exact ⟨stale', first.trans rest, (Only.runStep k force p t).trans frame⟩

end

/-- A plan without residue events: the steps run, those that follow run where no line was stale, and the waybill
completes with what they met. -/
theorem runPlan_noResidue (c : CtxInfo) (w : Waybill) (e : Nat) (steps last : List EngStep) (n : Nat) (s : State) :
    s.runPlan c w e false [] steps last n =
      let p := State.runSteps (runCtx c w) none 0 steps ({}, s)
      let q := if p.2.1.stale.isSome then p.2 else (State.runSteps (runCtx c w) none 1 last p.2).2
      (q.2.count c.ctx (12 + w.wclass) (if p.2.1.stale.isSome then p.1 else n)).complete w (q.1.status none).1
        (q.1.status none).2
        { corrected := q.2.counter c.ctx 22 != s.counter c.ctx 22, poisoned := q.1.poisoned || false } := rfl

/-- A plan without residue events whose reads compare no tags: its steps run, then those that follow, and the waybill
completes with its steps counted. -/
theorem runPlan_unchecked {c : CtxInfo} {w : Waybill} (unchecked : (c.isChecked && w.direct) = false) (e : Nat)
    (steps last : List EngStep) (n : Nat) (s : State) : ∃ (mid v : State) (st d : Nat) (f : DoneFlags),
      s.runPlan c w e false [] steps last n = (v.count c.ctx (12 + w.wclass) n).complete w st d f ∧
      Stores (steps.flatMap (·.writes)) s mid ∧ Stores (last.flatMap (·.writes)) mid v ∧ Only memParts s v := by
  obtain ⟨fresh, first, frame⟩ := runSteps_unchecked (k := runCtx c w) unchecked none steps 0 ({}, s) rfl
  obtain ⟨-, second, frame'⟩ := runSteps_unchecked (k := runCtx c w) unchecked none last 1 _ fresh
  rw [runPlan_noResidue]
  dsimp only
  rw [fresh, Option.isSome_none, if_neg Bool.false_ne_true, if_neg Bool.false_ne_true]
  exact ⟨_, _, _, _, _, rfl, first, second, frame.trans frame'⟩

end Sys2Proof.Machine

end

section
/-! PROOF. The operators of the Transfer Engines: PLAN_ADMIT (08 R175, Table 8.8), COPY and FILL (11 R236) with the SUM
fields of a ZP_SUM destination (10 R214), and NOP. -/

namespace Sys2Proof.Machine

/-! ### The writes of a transfer -/

section
variable {m : OpMem} {a : Nat} {b : Byte}

theorem byte?_single {mm : OpMem} {d c base : Nat} {v : Byte} :
    (⟨mm, d, [v], c, base⟩ : Wr).byte? m a = some b ↔ mm = m ∧ m ≠ .none ∧ d = a ∧ v = b := by
  unfold Wr.byte?
  dsimp only
  split
  · next h =>
    rw [List.getElem?_singleton]
    split
    · simp only [Option.some.injEq]
      exact ⟨fun e => ⟨h.1, h.2.1, by omega, e⟩, fun e => e.2.2.2⟩
    · exact ⟨nofun, fun e => by omega⟩
  · next h => exact ⟨nofun, fun e => absurd ⟨e.1, e.2.1, by omega⟩ h⟩

/-- A write with one more byte in front. -/
theorem byte?_extend {w : Wr} {d : Nat} {v : Byte} (next : w.addr = d + 1) :
    ({ w with addr := d, bytes := v :: w.bytes } : Wr).byte? m a = some b ↔
      (w.mem = m ∧ m ≠ .none ∧ d = a ∧ v = b) ∨ w.byte? m a = some b := by
  unfold Wr.byte?
  dsimp only
  by_cases here : d = a
  · subst here
    rw [if_neg (c := w.mem = m ∧ m ≠ .none ∧ w.addr ≤ d) (by omega), Nat.sub_self, List.getElem?_cons_zero]
    simp [and_assoc]
  · by_cases after : w.addr ≤ a
    · rw [show a - d = (a - w.addr) + 1 by omega, List.getElem?_cons_succ]
      simp [here, after, show d ≤ a by omega]
    · simp [here, after, show ¬ d ≤ a by omega]

theorem mem_lineWrites {o : Opnd} {l : List XeByte} : ∀ {wr : Wr}, wr ∈ lineWrites o l → wr.mem = o.mem := by
  induction l with
  | nil => exact nofun
  | cons x r ih =>
    intro wr h
    rw [lineWrites] at h
    rcases rest : lineWrites o r with - | ⟨w, q⟩
    · rw [rest] at h
      rw [List.mem_singleton.1 h]
    · rw [rest] at h ih
      dsimp only at h
      split at h
      · rcases List.mem_cons.1 h with rfl | h
        · exact ih (wr := w) List.mem_cons_self
        · exact ih (List.mem_cons_of_mem _ h)
      · rcases List.mem_cons.1 h with rfl | h
        · rfl
        · exact ih h

/-- The runs of a line write the bytes of the line. -/
theorem written_lineWrites {o : Opnd} {l : List XeByte} :
    Written (lineWrites o l) m a b ↔ o.mem = m ∧ m ≠ .none ∧ ∃ x ∈ l, x.dst = a ∧ x.val = b := by
  induction l with
  | nil => simp [lineWrites]
  | cons x r ih =>
    have headOrRest : (o.mem = m ∧ m ≠ .none ∧ ∃ y ∈ x :: r, y.dst = a ∧ y.val = b) ↔
        (o.mem = m ∧ m ≠ .none ∧ x.dst = a ∧ x.val = b) ∨ (o.mem = m ∧ m ≠ .none ∧ ∃ y ∈ r, y.dst = a ∧ y.val = b) := by
      simp only [List.mem_cons, exists_eq_or_imp, and_or_left]
    rw [headOrRest, ← ih, lineWrites]
    rcases rest : lineWrites o r with - | ⟨w, q⟩
    · rw [written_cons, byte?_single]
    · dsimp only
      split
      · next joined =>
        have mem : w.mem = o.mem := mem_lineWrites (rest ▸ List.mem_cons_self)
        rw [written_cons, byte?_extend joined, mem, written_cons, or_assoc]
      · rw [written_cons, byte?_single]

theorem mem_cutLines {bytes : List XeByte} {x : XeByte} : (∃ l ∈ cutLines bytes, x ∈ l) ↔ x ∈ bytes := by
  simp only [cutLines, List.mem_map, List.mem_eraseDups, exists_exists_and_eq_and, List.mem_filter, beq_iff_eq]
  exact ⟨fun ⟨_, _, h, _⟩ => h, fun h => ⟨x, h, h, rfl⟩⟩

/-- The steps of a transfer write its bytes. -/
theorem written_xeSteps {src : Option Opnd} {o : Opnd} {bytes : List XeByte} :
    Written ((xeSteps src o bytes).flatMap (·.writes)) m a b ↔
      o.mem = m ∧ m ≠ .none ∧ ∃ x ∈ bytes, x.dst = a ∧ x.val = b := by
  have lines : (xeSteps src o bytes).flatMap (·.writes) = (cutLines bytes).flatMap (lineWrites o) := by
    simp [xeSteps, List.flatMap_map]
  rw [lines, written_flatMap]
  simp only [written_lineWrites, ← mem_cutLines (bytes := bytes)]
  constructor
  · rintro ⟨l, hl, mem, placed, x, hx, here⟩
    exact ⟨mem, placed, x, ⟨l, hl, hx⟩, here⟩
  · rintro ⟨mem, placed, x, ⟨l, hl, hx⟩, here⟩
    exact ⟨l, hl, mem, placed, x, hx, here⟩

theorem length_xeSteps (src : Option Opnd) (o : Opnd) (bytes : List XeByte) :
    (xeSteps src o bytes).length = (cutLines bytes).length := by simp [xeSteps]

/-- The SUM field of a row with these codes (10 R214). -/
def Opnd.sumBytes (o : Opnd) (codes : List Nat) : List Byte := le 4 (unsigned 32 ((codes.map (codeInt o.fmt)).sum))

theorem length_le (k : Nat) : ∀ n, (le k n).length = k := by
  induction k with
  | zero => exact fun _ => rfl
  | succ k ih => exact fun n => congrArg (· + 1) (ih _)

theorem sumCodes_eq (o : Opnd) (row : Nat) (codes : List Nat) (h : o.qmode = 5) :
    o.sumCodes row codes = match o.scale with
      | some r => [⟨r.mem, o.scaleAddr row + 8, o.sumBytes codes, 3, r.base⟩]
      | none => [] := by
  unfold Opnd.sumCodes Opnd.scaleWrite Opnd.sumBytes
  rw [if_pos h, ← List.sum_eq_foldl]
  rfl

/-- The steps after a transfer write the SUM field of each row of a ZP_SUM tensor. -/
theorem written_sumSteps {o : Opnd} {codes : Nat → List Nat} :
    Written ((o.sumSteps codes).flatMap (·.writes)) m a b ↔ o.qmode = 5 ∧ o.scaleMem = m ∧ m ≠ .none ∧
      ∃ r < o.rows, o.scaleAddr r + 8 ≤ a ∧ (o.sumBytes (codes r))[a - (o.scaleAddr r + 8)]? = some b := by
  unfold Opnd.sumSteps
  split
  · next h =>
    rw [List.flatMap_singleton, ← List.flatMap_def, written_flatMap]
    simp only [List.mem_range, sumCodes_eq o _ _ h, Opnd.scaleMem]
    rcases o.scale with - | ref
    · simp only [written_nil, and_false, exists_false, Option.map_none, Option.getD_none, false_iff]
      exact fun e => e.2.2.1 e.2.1.symm
    · simp only [written_cons, written_nil, or_false, Option.map_some, Option.getD_some]
      unfold Wr.byte?
      dsimp only
      constructor
      · rintro ⟨r, hr, byte⟩
        split at byte
        · next inside => exact ⟨h, inside.1, inside.2.1, r, hr, inside.2.2, byte⟩
        · exact nomatch byte
      · rintro ⟨-, mem, placed, r, hr, lo, byte⟩
        exact ⟨r, hr, (if_pos ⟨mem, placed, lo⟩).trans byte⟩
  · next h => simp [h]

end

/-! ### What a transfer leaves -/

/-- Address `x` of a memory lies in a SUM field of a ZP_SUM tensor. -/
def Opnd.sumAt (o : Opnd) (m : OpMem) (x : Nat) : Prop :=
  o.qmode = 5 ∧ m = o.scaleMem ∧ ∃ r < o.rows, o.scaleAddr r + 8 ≤ x ∧ x < o.scaleAddr r + 12

theorem sumAt_of_written {o : Opnd} {codes : Nat → List Nat} {m : OpMem} {a : Nat} {b : Byte}
    (h : Written ((o.sumSteps codes).flatMap (·.writes)) m a b) : o.sumAt m a := by
  obtain ⟨mode, mem, -, r, hr, lo, byte⟩ := written_sumSteps.1 h
  have inside := (List.getElem?_eq_some_iff.1 byte).1
  rw [Opnd.sumBytes, length_le] at inside
  exact ⟨mode, mem.symm, r, hr, lo, by omega⟩

/-- The three memories after a transfer: its bytes, the SUM fields, and every other byte as it was. -/
structure Transferred (o : Opnd) (bytes : List XeByte) (codes : Nat → List Nat) (u v : State) : Prop where
  data : o.mem ≠ .none → ∀ x ∈ bytes, ¬ o.sumAt o.mem x.dst → (∀ y ∈ bytes, y.dst = x.dst → y.val = x.val) →
    v.rawByte o.mem x.dst = x.val.toNat
  others : ∀ m a, ¬ o.sumAt m a → m ≠ o.mem ∨ (∀ x ∈ bytes, x.dst ≠ a) → v.rawByte m a = u.rawByte m a
  sums : o.qmode = 5 → o.scaleMem ≠ .none →
    (∀ r1 r2, r1 < r2 → r2 < o.rows → o.scaleAddr r1 + 12 ≤ o.scaleAddr r2) → ∀ r < o.rows, ∀ k < 4,
      v.rawByte o.scaleMem (o.scaleAddr r + 8 + k) = ((o.sumBytes (codes r)).getD k 0).toNat

theorem transferred {src : Option Opnd} {o : Opnd} {bytes : List XeByte} {codes : Nat → List Nat} {u mid v : State}
    (ready : BothReady u) (steps : Stores ((xeSteps src o bytes).flatMap (·.writes)) u mid)
    (last : Stores ((o.sumSteps codes).flatMap (·.writes)) mid v) : Transferred o bytes codes u v := by
  obtain ⟨readyMid, value⟩ := steps ready
  obtain ⟨-, valueLast⟩ := last readyMid
  have apart {m : OpMem} {a : Nat} (out : ¬ o.sumAt m a) : v.rawByte m a = mid.rawByte m a :=
    last.untouched readyMid fun _ h => out (sumAt_of_written h)
  refine ⟨fun placed x hx out agree => ?_, fun m a out none => ?_, fun mode placed separate r hr k hk => ?_⟩
  · rw [apart out]
    refine value _ _ _ (fun b hb => ?_) (.inr ⟨x.val, written_xeSteps.2 ⟨rfl, placed, x, hx, rfl, rfl⟩⟩)
    obtain ⟨-, -, y, hy, here, rfl⟩ := written_xeSteps.1 hb
    rw [agree y hy here]
  · rw [apart out]
    refine steps.untouched ready fun b hb => ?_
    obtain ⟨mem, -, x, hx, here, -⟩ := written_xeSteps.1 hb
    exact none.elim (fun ne => ne mem.symm) fun ne => ne x hx here
  · have inside : k < (o.sumBytes (codes r)).length := by rw [Opnd.sumBytes, length_le]; exact hk
    have own : (o.sumBytes (codes r))[k]? = some ((o.sumBytes (codes r)).getD k 0) := by
      rw [List.getElem?_eq_getElem inside, List.getD_eq_getElem _ _ inside]
    have written : Written ((o.sumSteps codes).flatMap (·.writes)) o.scaleMem (o.scaleAddr r + 8 + k)
        ((o.sumBytes (codes r)).getD k 0) :=
      written_sumSteps.2 ⟨mode, rfl, placed, r, hr, by omega, by rw [Nat.add_sub_cancel_left]; exact own⟩
    refine valueLast _ _ _ (fun b hb => ?_) (.inr ⟨_, written⟩)
    · obtain ⟨-, -, -, r', hr', lo, byte⟩ := written_sumSteps.1 hb
      have inside := (List.getElem?_eq_some_iff.1 byte).1
      rw [Opnd.sumBytes, length_le] at inside
      obtain rfl : r' = r := by
        rcases Nat.lt_trichotomy r' r with lt | eq | gt
        · have := separate r' r lt hr
          omega
        · exact eq
        · have := separate r r' gt hr'
          omega
      rw [Nat.add_sub_cancel_left, own] at byte
      rw [Option.some.inj byte]

/-! ### COPY and FILL -/

theorem wclass_of_runs {e cls op : Nat} {w : Waybill} {c : CtxInfo} {s : State} (run : Runs e cls op w c s) :
    w.wclass = cls := by
  have found := List.find?_some run.1
  simp only [Bool.and_eq_true, beq_iff_eq] at found
  exact found.1.2

section
variable {s u : State} {w : Waybill} {c : CtxInfo}

/-- A transfer's plan, from a state at rest: its waybill completes, with one step counted for each line. -/
theorem runPlan_transfers (e op : Nat) (run : Runs e 3 op w c u) (unchecked : (c.isChecked && w.direct) = false)
    (ready : BothReady u) (src : Option Opnd) (o : Opnd) (bytes : List XeByte) (codes : Nat → List Nat) :
    ∃ (v : State) (st d : Nat) (f : DoneFlags),
      u.runPlan c w e false [] (xeSteps src o bytes) (o.sumSteps codes) (xeSteps src o bytes).length =
        (v.count c.ctx 15 (cutLines bytes).length).complete w st d f ∧
      Transferred o bytes codes u v ∧ Only memParts u v := by
  obtain ⟨mid, v, st, d, f, ran, steps, last, frame⟩ := runPlan_unchecked unchecked e (xeSteps src o bytes)
    (o.sumSteps codes) (xeSteps src o bytes).length u
  rw [wclass_of_runs run, length_xeSteps] at ran
  exact ⟨v, st, d, f, by rw [length_xeSteps]; exact ran, transferred ready steps last, frame⟩

theorem exec_copy {e : Fin 19} {stores : List HostStore} (after : u = s.hostStores stores) (run : Runs e 3 0x401 w c u)
    (settled : u.mem.pendGran = []) : exec (.copy e stores) s = done s (
      let i := u.operand c w 0
      let o := u.operand c w 1
      let steps := xeSteps (some i) o (u.copyBytes i o)
      u.runPlan c w e false [] steps (o.sumSteps fun r => (List.range (i.dim 0)).map (u.codeAt i r)) steps.length) := by
  subst after
  refine congrArg (done s) ((runOn_eq run _).trans ?_)
  rw [touchSpans_none settled]

theorem exec_fill {e : Fin 19} (run : Runs e 3 0x402 w c u) (settled : u.mem.pendGran = []) :
    exec (.fill e) u = done u (
      let o := u.operand c w 1
      let steps := xeSteps none o (fillBytes w o)
      u.runPlan c w e false [] steps (o.sumSteps fun _ => fillCodes w o) steps.length) := by
  refine congrArg (done u) ((runOn_eq run _).trans ?_)
  rw [touchSpans_none settled]

/-- What a transfer's waybill ends with, from the state in which its engine starts. -/
theorem goes_transfer (before : Only memParts s u) {e op : Nat} (run : Runs e 3 op w c u)
    (unchecked : (c.isChecked && w.direct) = false) (ready : BothReady u) (src : Option Opnd) (o : Opnd)
    (bytes : List XeByte) (codes : Nat → List Nat) :
    Goes (done s (u.runPlan c w e false [] (xeSteps src o bytes) (o.sumSteps codes) (xeSteps src o bytes).length))
      fun t => ∃ (st d : Nat) (v : State), Ends w st d (v.count c.ctx 15 (cutLines bytes).length) t ∧
        Transferred o bytes codes u v ∧ Only memParts s v ∧ Only doneParts s t := by
  obtain ⟨v, st, d, f, ran, transfers, frame⟩ := runPlan_transfers e op run unchecked ready src o bytes codes
  have whole := before.trans frame
  have ended : Only doneParts s ((v.count c.ctx 15 (cutLines bytes).length).complete w st d f) :=
    (whole.mono (by decide)).trans (((Only.count _ _ _ _).mono (by decide)).trans (Only.complete _ _ _ _ _))
  rw [ran]
  exact goes_done ended ⟨st, d, v, ends_complete _ _ _ _ _, transfers, whole, ended⟩

end

/-! ### PLAN_ADMIT -/

theorem built_touchSpans (c : CtxInfo) (w : Waybill) (s : State) : (s.touchSpans c w).built = s.built :=
  built_foldl (fun t _ => by
    split
    · exact built_foldl built_zeroGranule _ t
    · rfl) _ s

theorem KeepsMem.touchSpans (c : CtxInfo) (w : Waybill) (s : State) : KeepsMem s (s.touchSpans c w) :=
  KeepsMem.foldl _ (fun t _ => by
    split
    · exact KeepsMem.foldl _ (fun u g => KeepsMem.zeroGranule g u) _ t
    · exact KeepsMem.refl t) _ s

theorem hard_space_of_built {s t : State} (h : t.built = s.built) (m : Mem) : (t.space m).hard = (s.space m).hard := by
  cases m with
  | sw => exact (congrArg (fun x : MemSt => x.sward.hard) h :)
  | lp => exact (congrArg (fun x : MemSt => x.lpddr.hard) h :)
  | tag => exact (congrArg (fun x : MemSt => x.tag.hard) h :)
  | pic => exact (congrArg (fun x : MemSt => x.pic.hard) h :)

theorem KeepsMem.beforeStore (m : Mem) (who : Option Nat) (poison : Bool) (a n : Nat) (s : State) :
    KeepsMem s (s.beforeStore m who poison a n) :=
  (KeepsMem.touch m a n s).trans (KeepsMem.foldl_snd (State.partialStep m who poison)
    (fun x w => KeepsMem.partialWord m who poison w x.2) _ (none, s.touch m a n))

theorem built_beforeStore (m : Mem) (who : Option Nat) (poison : Bool) (a n : Nat) (s : State) :
    (s.beforeStore m who poison a n).built = s.built :=
  (built_foldl_snd (f := State.partialStep m who poison) (fun x w => built_partialWord x.2 m who poison w) _
    (none, s.touch m a n)).trans (built_touch s m a n)

/-- A clean write stores its bytes over what pends, where no word has more than two stuck bits (08 R161, R396). -/
theorem get_writeMem {m : Mem} {s : State} (canonical : s.mem.canonical = true)
    (hard : ∀ w, Map.get 0 (s.space m).hard w ≤ 2) (who : Option Nat) (a : Nat) (bs : List Byte) {j : Nat} (lo : a ≤ j)
    (hi : j < a + bs.length) :
    Map.get 0 ((s.writeMem m who false a bs).2.space m).cells j = bs.getD (j - a) 0 := by
  have wf : Memory.wf ((s.beforeStore m who false a bs.length).space m).cells = true :=
    ((MemSpace.canonical_iff _).1 (canonical_space ((KeepsMem.beforeStore m who false a bs.length s).1 canonical) m)).1
  have same := hard_space_of_built (built_beforeStore m who false a bs.length s) m
  rw [writeMem_state]
  dsimp only
  rw [if_neg Bool.false_ne_true, cells_cleanRange fun w => by rw [State.hard_storeBytes, same]; exact hard w,
    State.cells_storeBytes, Map.get_store bs _ a j wf, if_pos ⟨lo, hi⟩]

/-- A write that meets no bad word before it gives its bytes, where no word has more than two stuck bits. -/
theorem rawByte_runWrite {k : RunCtx} {wr : Wr} {s : State} (canonical : s.mem.canonical = true)
    (sw : ∀ w, Map.get 0 (s.space .sw).hard w ≤ 2) (lp : ∀ w, Map.get 0 (s.space .lp).hard w ≤ 2) (mem : wr.mem ≠ .none)
    {j : Nat} (hj : j < wr.bytes.length) : (State.runWrite k false ({}, s) wr).2.rawByte wr.mem (wr.addr + j) =
      (wr.bytes.getD j 0).toNat := by
  obtain ⟨m, addr, bytes, code, base⟩ := wr
  dsimp only at mem hj ⊢
  have here (c : Map Byte) (h : Map.get 0 c (addr + j) = bytes.getD (addr + j - addr) 0) :
      (Map.get 0 c (addr + j)).toNat = (bytes.getD j 0).toNat := by rw [h, Nat.add_sub_cancel_left]
  have counted (i : Nat) (t : State) (n : Mem) : (t.count k.ctx i bytes.length).space n = t.space n :=
    space_of_only (Only.count _ _ _ t) (by decide) n
  unfold State.runWrite
  dsimp only
  rw [if_neg (by omega)]
  cases m with
  | none => exact absurd rfl mem
  | host =>
    obtain ⟨-, -, -, -, wf, -⟩ := (MemSt.canonical_iff _).1 canonical
    refine (congrArg (fun x : MemSt => (Map.get 0 x.host (addr + j)).toNat)
      ((Only.count k.ctx 21 bytes.length _).get .mem)).trans ?_
    exact here (s.mem.host.store addr bytes) ((Map.get_store bytes _ addr _ wf).trans (if_pos (by omega)))
  | sward =>
    have tagged := (Beside.setTags (some k.ctx) k.epoch addr bytes.length
      (s.writeMem .sw (some k.ctx) false addr bytes).2).spaces .sw (by decide)
    refine here _ ((congrArg (fun p : MemSpace => Map.get 0 p.cells (addr + j))
      ((counted 18 _ .sw).trans tagged)).trans ?_)
    exact get_writeMem canonical sw _ addr bytes (by omega) (by omega)
  | lpddr =>
    refine here _ ((congrArg (fun p : MemSpace => Map.get 0 p.cells (addr + j)) (counted 20 _ .lp)).trans ?_)
    exact get_writeMem canonical lp _ addr bytes (by omega) (by omega)

/-- The two deficits of a plan (08 R175). -/
def Waybill.deficits (w : Waybill) (c : CtxInfo) : Nat × Nat :=
  (fieldAt w.bytes 20 4 - c.swSize, fieldAt w.bytes 32 8 - (c.lpBase + c.lpSize + lpBase))

/-- The one write of a plan. -/
def State.planWrite (c : CtxInfo) (w : Waybill) (s : State) : Wr :=
  ⟨(s.locate c w.result).1, (s.locate c w.result).2, le 8 (w.deficits c).1 ++ le 8 (w.deficits c).2, 2,
    (s.locate c w.result).2⟩

/-- The state in which a plan's deficits have been written and its step counted. -/
def State.planWritten (c : CtxInfo) (w : Waybill) (s : State) : State :=
  (State.runWrite (runCtx c w) false ({}, s.touchSpans c w) ((s.touchSpans c w).planWrite c w)).2.count c.ctx 15 1

theorem exec_planAdmit {e : Fin 19} {s : State} {w : Waybill} {c : CtxInfo} (run : Runs e 3 2 w c s) : ∃ f,
    exec (.planAdmit e) s = done s ((s.planWritten c w).complete w
      (if (w.deficits c).1 ≠ 0 then 0x2302 else if (w.deficits c).2 ≠ 0 then 0x2303 else 0) 0 f) :=
  ⟨_, congrArg (done s) ((runOn_eq run _).trans rfl)⟩

theorem locate_of_built {s t : State} (h : t.built = s.built) (c : CtxInfo) (a : Nat) :
    t.locate c a = s.locate c a := by
  unfold State.locate State.place
  rw [usable_of_built h]

theorem Only.planWritten (c : CtxInfo) (w : Waybill) (s : State) : Only memParts s (s.planWritten c w) :=
  (Only.touchSpans c w s).trans
    ((Only.runWrite _ _ ({}, s.touchSpans c w) _).trans ((Only.count _ _ _ _).mono (by decide)))

/-- A plan's deficits stand at its RESULT, whatever the outcome (08 R175). -/
theorem rawByte_planWritten {c : CtxInfo} {w : Waybill} {s : State} (canonical : s.mem.canonical = true)
    (sw : ∀ p ∈ s.mem.sward.hard, p.2 ≤ 2) (lp : ∀ p ∈ s.mem.lpddr.hard, p.2 ≤ 2)
    (placed : (s.locate c w.result).1 ≠ .none) {j : Nat} (hj : j < 16) :
    (s.planWritten c w).rawByte (s.locate c w.result).1 ((s.locate c w.result).2 + j) =
      ((le 8 (w.deficits c).1 ++ le 8 (w.deficits c).2).getD j 0).toNat := by
  have built := built_touchSpans c w s
  have counted (t : State) (m : OpMem) (a : Nat) : (t.count c.ctx 15 1).rawByte m a = t.rawByte m a :=
    rawByte_congr rfl rfl rfl m a
  have written := rawByte_runWrite (k := runCtx c w) (wr := (s.touchSpans c w).planWrite c w) (j := j)
    ((KeepsMem.touchSpans c w s).1 canonical)
    (fun v => by rw [hard_space_of_built built]; exact Map.get_le sw v)
    (fun v => by rw [hard_space_of_built built]; exact Map.get_le lp v)
    (by rw [State.planWrite, locate_of_built built]; exact placed)
    (by simpa [State.planWrite, length_le] using hj)
  rw [State.planWritten, counted]
  simp only [State.planWrite, locate_of_built built] at written ⊢
  exact written

end Sys2Proof.Machine

open Sys2Proof Sys2Proof.Machine

/-- Settles O44: NOP by its equation, PLAN_ADMIT by `rawByte_planWritten`, COPY and FILL by `goes_transfer`. -/
theorem transferEnginesRun : Obligations.TransferEnginesRun := by
  refine ⟨fun e s w c => ⟨fun run => ?nop, fun run canonical sw lp => ?plan⟩, ?transfer⟩
  case nop =>
    have ran : exec (.nop e) s = done s ((s.touchSpans c w).complete w 0 0 {}) := congrArg (done s) (runOn_eq run _)
    have frame : Only doneParts s ((s.touchSpans c w).complete w 0 0 {}) :=
      ((Only.touchSpans c w s).mono (by decide)).trans (Only.complete _ _ _ _ _)
    rw [ran]
    exact goes_done frame ⟨ends_complete _ _ _ _ _, frame⟩
  case plan =>
    obtain ⟨f, ran⟩ := exec_planAdmit run
    have written := Only.planWritten c w s
    have frame (st : Nat) : Only doneParts s ((s.planWritten c w).complete w st 0 f) :=
      (written.mono (by decide)).trans (Only.complete _ _ _ _ _)
    rw [ran]
    exact goes_done (frame _) ⟨s.planWritten c w, ends_complete _ _ _ _ _,
      fun placed k hk => rawByte_planWritten (mem_canonical canonical) sw lp placed hk, written, frame _⟩
  case transfer =>
    intro e stores s u w c after canonical sw lp settled unchecked o i sumAt writes placed
    have ready : BothReady u :=
      ⟨⟨mem_canonical canonical, settled, Map.get_le sw⟩, mem_canonical canonical, settled, Map.get_le lp⟩
    have before : Only memParts s u := after ▸ (Only.hostStores stores s).mono (by decide)
    have settles (bytes : List XeByte) (codes : Nat → List Nat) (t : State) (h : ∃ (st d : Nat) (v : State),
        Ends w st d (v.count c.ctx 15 (cutLines bytes).length) t ∧ Transferred o bytes codes u v ∧ Only memParts s v ∧
        Only doneParts s t) : writes bytes codes t := by
      obtain ⟨st, d, v, ends, ⟨data, others, sums⟩, mem, ended⟩ := h
      exact ⟨st, d, v, ends, data placed, others, sums, mem, ended⟩
    refine ⟨fun run => ?copy, fun none run => ?fill⟩
    case copy =>
      rw [exec_copy after run settled]
      obtain ⟨t, goes, h⟩ := goes_transfer before run unchecked ready (some i) o (u.copyBytes i o)
        fun r => (List.range (i.dim 0)).map (u.codeAt i r)
      exact ⟨t, goes, settles _ _ t h⟩
    case fill =>
      obtain rfl : u = s := by rw [after, none]; rfl
      rw [exec_fill run settled]
      obtain ⟨t, goes, h⟩ :=
        goes_transfer before run unchecked ready Option.none o (fillBytes w o) fun _ => fillCodes w o
      exact ⟨t, goes, settles _ _ t h⟩

end

section
/-! PROOF. Integer arithmetic: the elements of ADD to MIN on integers without quantisation (11 R231), and the integer P
of the zero-point modes (10 R213). -/

namespace Sys2Proof.Machine

/-! ### ADD to MIN on integers -/

/-- Runs of `k` elements, one after the other, spell the list that they are cut from. -/
theorem flatten_runs {α : Type} (k : Nat) (l : List α) (n : Nat) :
    ((List.range n).map fun j => (l.drop (k * j)).take k).flatten = l.take (k * n) := by
  induction n with
  | zero => simp
  | succ n ih => simp [List.range_succ, ih, Nat.mul_succ, List.take_add]

theorem VeRow.all_cut {q : List Quant} {n : Nat} (length : q.length = n) :
    (VeRow.mk ((List.range ((n + 63) / 64)).map fun j => ([], (q.drop (64 * j)).take 64))).all = q := by
  have whole : q.length ≤ 64 * ((n + 63) / 64) := by omega
  rw [VeRow.all, List.map_map]
  exact (flatten_runs 64 q _).trans (List.take_of_length_le whole)

/-- An exact integer as an element of integer format `f`. -/
def satQuant (f : Nat) (v : Int) : Quant := ⟨unsigned (formatBits f) (satInt f v).1, (satInt f v).2, rvInt v⟩

theorem satQuant_code (f : Nat) (v : Int) :
    (satQuant f v).code = unsigned (formatBits f) (max (intRange f).1 (min (intRange f).2 v)) := rfl

theorem satQuant_sat (f : Nat) (v : Int) :
    (satQuant f v).sat = decide (v < (intRange f).1 ∨ (intRange f).2 < v) := (Bool.decide_or _ _).symm

/-- The codes of an operand are integers as they stand. -/
def Opnd.isPlainInt (o : Opnd) : Bool := isIntFmt o.fmt && o.qmode == 0

theorem Opnd.isPlainInt_of {o : Opnd} (fmt : isIntFmt o.fmt = true) (mode : o.qmode = 0) : o.isPlainInt = true := by
  simp [isPlainInt, fmt, mode]

/-- The exact result of ADD to MIN at element `i` of row `row`. -/
def State.intResult (s : State) (c : CtxInfo) (w : Waybill) (row i : Nat) : Int :=
  let a := s.operand c w 0
  let b := s.operand c w 2
  let r := broadcast a b row i
  intOp w.opcode (codeInt a.fmt (s.codeAt a row i)) (codeInt b.fmt (s.codeAt b r.1 r.2))

theorem State.all_binaryRow_of_isPlainInt {s : State} {c : CtxInfo} {w : Waybill}
    (a : (s.operand c w 0).isPlainInt = true) (b : (s.operand c w 2).isPlainInt = true)
    (o : (s.operand c w 1).isPlainInt = true) (row : Nat) :
    (s.binaryRow c w row).all =
      (List.range ((s.operand c w 0).dim 0)).map fun i => satQuant (s.operand c w 1).fmt (s.intResult c w row i) := by
  have integers : (Opnd.isPlainInt (s.operand c w 0) && Opnd.isPlainInt (s.operand c w 2) &&
      Opnd.isPlainInt (s.operand c w 1)) = true := by rw [a, b, o]; rfl
  exact (congrArg VeRow.all (if_pos integers)).trans (VeRow.all_cut (by rw [List.length_map, List.length_range]))

/-! ### The integer P of the zero-point modes -/

variable (fa fb : Nat) (za zb : Int)

theorem dotInt_nil : dotInt fa fb za zb [] [] = 0 := rfl

theorem dotInt_cons (x y : Nat) (a b : List Nat) :
    dotInt fa fb za zb (x :: a) (y :: b) = (codeInt fa x - za) * (codeInt fb y - zb) + dotInt fa fb za zb a b := by
  simp only [dotInt, ← List.sum_eq_foldl, List.zip_cons_cons, List.map_cons, List.sum_cons]

/-- 10 R213: the products of codes without their zero points, multiplied out. -/
theorem dotInt_expand {a b : List Nat} (length : a.length = b.length) :
    dotInt fa fb za zb a b = dotInt fa fb 0 0 a b - zb * (a.map (codeInt fa)).sum - za * (b.map (codeInt fb)).sum +
      a.length * za * zb := by
  induction a generalizing b with
  | nil =>
    obtain rfl := List.length_eq_zero_iff.1 length.symm
    simp [dotInt_nil]
  | cons x a ih =>
    obtain ⟨y, b, rfl⟩ := List.exists_cons_of_length_eq_add_one length.symm
    rw [dotInt_cons, dotInt_cons, ih (Nat.succ.inj length)]
    simp only [List.map_cons, List.sum_cons, List.length_cons]
    push_cast
    ring

variable {fa} (a b : TeRow)

theorem teElement_p_of_zpSub (int : isIntFmt fa = true) :
    (teElement ⟨fa, 4, fb, 4⟩ a b).p = some (dotInt fa fb a.zp b.zp a.codes b.codes) := by
  simp [teElement, TePair.block, int]

theorem teElement_p_of_zpSum (int : isIntFmt fa = true) :
    (teElement ⟨fa, 5, fb, 5⟩ a b).p =
      some (dotInt fa fb 0 0 a.codes b.codes - b.zp * a.sum - a.zp * b.sum + a.codes.length * a.zp * b.zp) := by
  simp [teElement, TePair.block, int]

end Sys2Proof.Machine

open Sys2Proof Sys2Proof.Machine

/-- Settles O42: the row of ADD to MIN element by element, and `dotInt_expand` for the two zero-point modes. -/
theorem integerResultsAreExact : Obligations.IntegerResultsAreExact := by
  refine ⟨?binary, ?zeroPoint⟩
  case binary =>
    intro s c w row i a o b r v fmtA modeA fmtB modeB fmtO modeO hi
    have element : (s.binaryRow c w row).all[i]? = some (satQuant o.fmt v) := by
      rw [State.all_binaryRow_of_isPlainInt (Opnd.isPlainInt_of fmtA modeA) (Opnd.isPlainInt_of fmtB modeB)
        (Opnd.isPlainInt_of fmtO modeO), List.getElem?_map, List.getElem?_range hi]
      rfl
    rw [element]
    exact ⟨congrArg some (satQuant_code _ _), congrArg some (satQuant_sat _ _)⟩
  case zeroPoint =>
    intro fa fb a b int length sumA sumB
    rw [teElement_p_of_zpSum fb a b int, teElement_p_of_zpSub fb a b int, sumA, sumB, ← List.sum_eq_foldl,
      ← List.sum_eq_foldl]
    exact ⟨congrArg some (dotInt_expand fa fb a.zp b.zp length).symm, rfl⟩

end

section
/-! PROOF. What an engine's waybill ends with: how many of its plan's steps it counts (09 R195), and the fence of a residue
mismatch that repeats (11 R237, R238). -/

namespace Sys2Proof.Machine

/-! ### The steps that a run takes -/

/-- A run takes its steps in order, and no more than there are. -/
theorem runSteps_count_le (k : RunCtx) (poisonFrom : Option Nat) (l : List EngStep) : ∀ (n : Nat) (p : Run × State),
    (State.runSteps k poisonFrom n l p).1 ≤ n + l.length := by
  induction l with
  | nil => exact fun n p => Nat.le_refl n
  | cons t r ih =>
    intro n p
    unfold State.runSteps
    split
    · exact Nat.le_add_right _ _
    · exact (ih _ _).trans_eq (by rw [List.length_cons]; omega)

theorem Only.runSteps (k : RunCtx) (poisonFrom : Option Nat) (l : List EngStep) : ∀ (n : Nat) (p : Run × State),
    Only memParts p.2 (State.runSteps k poisonFrom n l p).2.2 := by
  induction l with
  | nil => exact fun n p => Only.refl _ p.2
  | cons t r ih =>
    intro n p
    unfold State.runSteps
    split
    · exact Only.refl _ p.2
    · exact (Only.runStep k _ p t).trans (ih _ _)

/-- Steps that compare no tags all run (09 R195). -/
theorem runSteps_count_unchecked {k : RunCtx} (unchecked : k.isChecked = false) (poisonFrom : Option Nat)
    (l : List EngStep) : ∀ (n : Nat) (p : Run × State), p.1.stale = none →
      (State.runSteps k poisonFrom n l p).1 = n + l.length := by
  induction l with
  | nil => exact fun n p _ => rfl
  | cons t r ih =>
    intro n p fresh
    obtain ⟨force, step⟩ := runSteps_cons k poisonFrom n t r fresh
    obtain ⟨stale, -⟩ := runStep_unchecked unchecked force p t
    rw [step, ih _ _ (stale.trans fresh), List.length_cons]
    omega

/-! ### Residue mismatches -/

/-- The residue events that fall on a plan's step groups; none without the check (11 R237). -/
def residueMet (covered : Bool) (ev : List ResidueEvent) (len : Nat) : List ResidueEvent :=
  if covered then ev.filter fun v => decide (v.group < (len + 15) / 16) else []

/-- Those of them that the first `n` steps reach. -/
def residueReached (covered : Bool) (ev : List ResidueEvent) (len n : Nat) : List ResidueEvent :=
  (residueMet covered ev len).filter fun v => decide (v.group * 16 < n)

theorem firstRepeat_isSome {ev : List ResidueEvent} {r : ResidueEvent} (mem : r ∈ ev) (repeats : r.repeats = true) :
    (firstRepeat ev).isSome = true := by
  have inside : r ∈ ev.filter (·.repeats) := List.mem_filter.2 ⟨mem, repeats⟩
  unfold firstRepeat
  rcases List.eq_nil_or_concat' (ev.filter (·.repeats)) with empty | ⟨init, last, cut⟩
  · exact absurd (empty ▸ inside) List.not_mem_nil
  · rw [cut, List.foldl_concat]
    rfl

/-- A mismatch in a step group of a whole run is reached. -/
theorem mem_residueReached {ev : List ResidueEvent} {r : ResidueEvent} {len : Nat} (mem : r ∈ ev)
    (within : r.group * 16 < len) : r ∈ residueReached true ev len len := by
  have group : r.group < (len + 15) / 16 := by omega
  exact List.mem_filter.2 ⟨List.mem_filter.2 ⟨mem, decide_eq_true group⟩, decide_eq_true within⟩

/-- What one residue event leaves: its count, and the report of a retry that matched (11 R238). -/
def State.residueReport (ctx e : Nat) (s : State) (v : ResidueEvent) : State :=
  if v.repeats then s.count ctx 24 1 else (s.count ctx 24 1).post 0x0401 (e + v.group * 256) (some ctx)

theorem Only.residueReport (ctx e : Nat) (s : State) (v : ResidueEvent) :
    Only memParts s (s.residueReport ctx e v) := by
  have counted : Only memParts s (s.count ctx 24 1) := (Only.count _ _ _ s).mono (by decide)
  exact Only.ite (fun _ => counted) fun _ => counted.trans ((Only.post _ _ _ _).mono (by decide))

theorem Only.residueReports (ctx e : Nat) (ev : List ResidueEvent) (first : Option Nat) (s : State) :
    Only memParts s (s.residueReports ctx e ev first) := by
  have counted : Only memParts s (ev.foldl (State.residueReport ctx e) s) := Only.foldl _ (Only.residueReport ctx e) ev s
  cases first with
  | none => exact counted
  | some g =>
    exact counted.trans (((Only.record _ _ _ _ _).mono (by decide)).trans ((Only.post _ _ _ _).mono (by decide)))

/-- A fence puts nothing on the Scoreboard. -/
theorem flightIds_enterFence_subset (b : Nat) (s : State) : (s.enterFence b).flightIds ⊆ s.flightIds := by
  unfold State.enterFence
  split
  · exact List.Subset.refl _
  · rw [flightIds_of_only (Only.postFence _ _ _) (by decide)]
    refine List.Subset.trans (flightIds_settle_subset _ _) (List.Subset.trans (flightIds_foldl_finish _ _ _).1 ?_)
    rw [flightIds_of_only (Only.raiseFence b s) (by decide)]
    exact List.Subset.refl _

/-! ### Plans -/

/-- A plan's own steps: how many ran, what they met, and the state after them. -/
def State.stepsRun (c : CtxInfo) (w : Waybill) (covered : Bool) (ev : List ResidueEvent) (steps : List EngStep)
    (s : State) : Nat × Run × State :=
  State.runSteps (runCtx c w) (firstRepeat (residueMet covered ev steps.length)) 0 steps ({}, s)

/-- The steps that follow a plan's own, where no line was stale. -/
def State.lastRun (c : CtxInfo) (w : Waybill) (last : List EngStep) (p : Nat × Run × State) : Run × State :=
  if p.2.1.stale.isSome then p.2 else (State.runSteps (runCtx c w) none 1 last p.2).2

section
variable (c : CtxInfo) (w : Waybill) (e : Nat) (steps last : List EngStep) (n : Nat) (s : State)

theorem Only.stepsRun (covered : Bool) (ev : List ResidueEvent) :
    Only memParts s (s.stepsRun c w covered ev steps).2.2 := Only.runSteps _ _ _ _ _

theorem Only.lastRun (p : Nat × Run × State) : Only memParts p.2.2 (State.lastRun c w last p).2 := by
  unfold State.lastRun
  split
  · exact Only.refl _ _
  · exact Only.runSteps _ _ _ _ _

theorem stepsRun_unchecked (unchecked : (c.isChecked && w.direct) = false) (covered : Bool) (ev : List ResidueEvent) :
    (s.stepsRun c w covered ev steps).1 = steps.length :=
  (runSteps_count_unchecked (k := runCtx c w) unchecked _ steps 0 _ rfl).trans (Nat.zero_add _)

/-- The events that a plan meets matter only under the check (11 R237). -/
theorem runPlan_uncovered (ev : List ResidueEvent) :
    s.runPlan c w e false ev steps last n = s.runPlan c w e false [] steps last n := rfl

theorem runPlan_noEvents (covered : Bool) :
    s.runPlan c w e covered [] steps last n = s.runPlan c w e false [] steps last n := by cases covered <;> rfl

/-- A plan without residue events completes with the steps counted that it ran. -/
theorem runPlan_counted (covered : Bool) : ∃ (st d n : Nat) (v : State) (f : DoneFlags),
    s.runPlan c w e covered [] steps last steps.length = (v.count c.ctx (12 + w.wclass) n).complete w st d f ∧
    n ≤ steps.length ∧ ((c.isChecked && w.direct) = false → n = steps.length) ∧ Only memParts s v := by
  have frame := (Only.stepsRun c w steps s false []).trans (Only.lastRun c w last _)
  have most := runSteps_count_le (runCtx c w) none steps 0 ({}, s)
  rw [runPlan_noEvents, runPlan_noResidue]
  refine ⟨_, _, _, _, _, rfl, ?most, fun unchecked => ?all, frame⟩
  case most => split <;> omega
  case all =>
    have every := runSteps_count_unchecked (k := runCtx c w) unchecked none steps 0 ({}, s) rfl
    split <;> omega

/-- A plan by its steps, those that follow, and the mismatches that they reach. -/
theorem runPlan_eq (covered : Bool) (ev : List ResidueEvent) : ∃ (d : Nat × Nat) (f : DoneFlags),
    s.runPlan c w e covered ev steps last n =
      let p := s.stepsRun c w covered ev steps
      let q := State.lastRun c w last p
      let met := residueReached covered ev steps.length p.1
      let v := (q.2.count c.ctx (12 + w.wclass) (if p.2.1.stale.isSome then p.1 else n)).residueReports c.ctx e met
        (firstRepeat met)
      if (firstRepeat met).isSome then (v.complete w d.1 d.2 f).enterFence e else v.complete w d.1 d.2 f :=
  ⟨_, _, rfl⟩

/-- A plan completes its waybill, and a repeated mismatch then fences the station (11 R238). -/
theorem runPlan_completes (covered : Bool) (ev : List ResidueEvent) : ∃ (fences : Bool) (st d : Nat) (v : State)
    (f : DoneFlags), s.runPlan c w e covered ev steps last n =
      (if fences then (v.complete w st d f).enterFence e else v.complete w st d f) ∧
    Only memParts s v ∧ (covered = true → (c.isChecked && w.direct) = false →
      (∃ r ∈ ev, r.repeats = true ∧ r.group * 16 < steps.length) → fences = true) := by
  obtain ⟨d, f, ran⟩ := runPlan_eq c w e steps last n s covered ev
  dsimp only at ran
  have frame := (Only.stepsRun c w steps s covered ev).trans (Only.lastRun c w last _)
  refine ⟨_, _, _, _, _, ran, ?frame, ?repeated⟩
  case frame =>
    exact frame.trans (((Only.count _ _ _ _).mono (by decide)).trans (Only.residueReports _ _ _ _ _))
  case repeated =>
    rintro rfl unchecked ⟨r, mem, repeats, within⟩
    rw [stepsRun_unchecked c w steps s unchecked]
    exact firstRepeat_isSome (mem_residueReached mem within) repeats

end

/-! ### What an engine's waybill ends with -/

/-- With any residue events the waybill leaves the Scoreboard, and a repeated mismatch in a step that ran fences the
station (11 R238). -/
theorem goes_residue (c : CtxInfo) (w : Waybill) (e : Nat) (s : State) (covered : Bool) (ev : List ResidueEvent)
    (steps last : List EngStep) (n : Nat) :
    Goes (done s ((s.touchSpans c w).runPlan c w e covered ev steps last n)) fun t =>
      (∀ x ∈ t.sched.flight, x.id ≠ w.id) ∧ Only fenceParts s t ∧ (covered = true → (c.isChecked && w.direct) = false →
        (∃ r ∈ ev, r.repeats = true ∧ r.group * 16 < steps.length) → t.isFenced e = true) := by
  obtain ⟨fences, st, d, v, f, ran, frame, repeated⟩ := runPlan_completes c w e steps last n (s.touchSpans c w) covered ev
  have ended : Only fenceParts s (v.complete w st d f) :=
    (((Only.touchSpans c w s).trans frame).mono (by decide)).trans ((Only.complete _ _ _ _ _).mono (by decide))
  have gone := flightIds_complete w st d f v
  rw [ran]
  cases fences with
  | false =>
    exact goes_done ended ⟨fun x mem same => gone (State.mem_flightIds.2 ⟨x, mem, same⟩), ended,
      fun check unchecked met => absurd (repeated check unchecked met) Bool.false_ne_true⟩
  | true =>
    have fenced := ended.trans (Only.enterFence e _)
    refine goes_done fenced ⟨fun x mem same => ?_, fenced, fun _ _ _ => ?_⟩
    · exact gone (flightIds_enterFence_subset e _ (State.mem_flightIds.2 ⟨x, mem, same⟩))
    · exact (isFenced_enterFence e e _).trans (if_pos rfl)

/-- A waybill of class `cls` has completed with its steps counted, of which a stale line may have cut some. -/
def Counted (cls steps : Nat) (w : Waybill) (c : CtxInfo) (s t : State) : Prop :=
  ∃ (st d n : Nat) (v : State), Ends w st d (v.count c.ctx (12 + cls) n) t ∧ n ≤ steps ∧
    ((c.isChecked && w.direct) = false → n = steps) ∧ Only memParts s v ∧ Only doneParts s t

section
variable {e cls op : Nat} {s : State} {w : Waybill} {c : CtxInfo} (run : Runs e cls op w c s)
include run

theorem goes_counted (covered : Bool) (steps last : List EngStep) {len : Nat} (length : steps.length = len) :
    Goes (done s ((s.touchSpans c w).runPlan c w e covered [] steps last steps.length)) (Counted cls len w c s) := by
  obtain ⟨st, d, n, v, f, ran, le, all, frame⟩ := runPlan_counted c w e steps last (s.touchSpans c w) covered
  have whole := (Only.touchSpans c w s).trans frame
  have ended : Only doneParts s ((v.count c.ctx (12 + cls) n).complete w st d f) :=
    (whole.mono (by decide)).trans (((Only.count _ _ _ _).mono (by decide)).trans (Only.complete _ _ _ _ _))
  rw [ran, wclass_of_runs run]
  rw [length] at le all
  exact goes_done ended ⟨st, d, n, v, ends_complete _ _ _ _ _, le, all, whole, ended⟩

end

end Sys2Proof.Machine

end

section
/-! PROOF. The operators of the Tensor and Vector Engines: the steps of each plan (11 R226, R230, R235). -/

namespace Sys2Proof.Machine

/-! ### The steps of each plan -/

/-- The lengths of `n` lists of `k` members each. -/
theorem length_flatten_range {α : Type} {f : Nat → List α} {k : Nat} (h : ∀ r, (f r).length = k) (n : Nat) :
    ((List.range n).map f).flatten.length = n * k := by
  simp [List.length_flatten, Function.comp_def, h]

/-- The steps of `n` rows, each of `k` steps. -/
theorem length_rowPlans {α : Type} {f : Nat → List EngStep × α} {k : Nat} (h : ∀ r, (f r).1.length = k) (n : Nat) :
    (((List.range n).map f).map (·.1)).flatten.length = n * k := by
  rw [List.map_map]
  exact length_flatten_range h n

theorem length_blockSteps (k kc : Nat) (first : List Rd) (reads : Nat → Nat → List Rd) (writes : List Wr) :
    (blockSteps k kc first reads writes).length = (k + kc - 1) / kc := by simp [blockSteps]

section
variable (s : State) (c : CtxInfo) (w : Waybill)

/-- An output row takes the chunks of its reduction for each block of 64 elements. -/
theorem length_teRowSteps (t : TePair) (k : Nat) (o : Opnd) (row : Nat) (outs : List TeOut) (first : List Rd)
    (blockFirst : Nat → Nat → List Rd) (reads : Nat → Nat → Nat → Nat → List Rd) :
    (s.teRowSteps t k o row outs first blockFirst reads).1.length =
      (outs.length + 63) / 64 * ((k + t.chunk - 1) / t.chunk) := by
  unfold State.teRowSteps
  exact length_flatten_range (fun j => length_blockSteps _ _ _ _ _) _

/-- A product takes an output row for each row of A (11 R226). -/
theorem length_matmulPlan : (s.matmulPlan c w).2.1.length =
    (s.operand c w 0).dim 1 * (s.operand c w 0).dim 2 * (s.operand c w 0).dim 3 *
      (((s.operand c w 1).dim 1 + 63) / 64 *
        (((s.operand c w 0).dim 0 + (s.matmulPlan c w).1.chunk - 1) / (s.matmulPlan c w).1.chunk)) := by
  unfold State.matmulPlan
  exact length_rowPlans (fun r => by rw [length_teRowSteps, List.length_map, List.length_range]) _

/-- A convolution takes an output row for each line of its output (11 R230). -/
theorem length_convPlan : (s.convPlan c w).2.1.length =
    (s.operand c w 2).rows * (((s.operand c w 2).dim 0 + 63) / 64 *
      (((s.operand c w 0).dim 2 / max 1 w.window.groups * w.window.kh * w.window.kw + (s.convPlan c w).1.chunk - 1) /
        (s.convPlan c w).1.chunk)) := by
  unfold State.convPlan
  exact length_rowPlans (fun r => by rw [length_teRowSteps, List.length_map, List.length_range]) _

theorem length_rowSteps (n cost : Nat) (reads : Nat → List Rd) (writes : Nat → List Wr) :
    (rowSteps n cost reads writes).length = (n + 63) / 64 * cost := by simp [rowSteps]

/-- A vector operator passes over the chunks of each row as often as its cost says (11 R235). -/
theorem length_vePlan (f : Nat → VeRow) (more : Nat → Nat → List Rd) : (s.vePlan c w f more).1.length =
    (s.operand c w 0).rows * (((s.operand c w 0).dim 0 + 63) / 64) * veCost w.opcode (byteAt w.bytes 56) := by
  unfold State.vePlan
  rw [Nat.mul_assoc]
  exact length_rowPlans (fun r => by rw [length_rowSteps]) _

/-- A pool takes each tap of its window for each chunk of an output line (11 R235). -/
theorem length_poolPlan : (s.poolPlan c w).1.length = (s.operand c w 1).rows *
    (((s.operand c w 1).dim 0 + 63) / 64 * (w.window.kh * w.window.kw)) := by
  have line {f : Nat → List EngStep} (taps : ∀ j, (f j).length = w.window.kh * w.window.kw) :=
    length_flatten_range taps (((s.operand c w 1).dim 0 + 63) / 64)
  unfold State.poolPlan
  dsimp only
  split
  · next empty =>
    exact (congrArg List.length empty).symm.trans (length_rowPlans (fun r => line fun j => by simp) _)
  · next first rest steps =>
    exact (congrArg List.length steps).symm.trans (length_rowPlans (fun r => line fun j => by simp) _)

end

/-! ### The operators of the Vector Engines -/

theorem opcode_of_runs {e cls op : Nat} {w : Waybill} {c : CtxInfo} {s : State} (run : Runs e cls op w c s) :
    w.opcode = op := by
  have found := List.find?_some run.1
  simp only [Bool.and_eq_true, beq_iff_eq] at found
  exact found.2

section
variable {e : Nat} {s : State} {w : Waybill} {c : CtxInfo}

theorem goes_runVe {op : Nat} (f : State → CtxInfo → Waybill → Nat → VeRow)
    (more : State → CtxInfo → Waybill → Nat → Nat → List Rd) (run : Runs e 1 op w c s) :
    Goes (done s (s.runVe e op f more)) (Counted 1
      (((s.touchSpans c w).operand c w 0).rows * ((((s.touchSpans c w).operand c w 0).dim 0 + 63) / 64) *
        veCost op (byteAt w.bytes 56)) w c s) := by
  unfold State.runVe
  rw [runOn_eq run, ← opcode_of_runs run]
  exact goes_counted run false _ _ (length_vePlan _ _ _ _ _)

theorem goes_maxabs {e : Fin 19} (run : Runs e 1 0x260 w c s) : Goes (exec (.maxabs e) s) (Counted 1
    (((s.touchSpans c w).operand c w 0).rows * ((((s.touchSpans c w).operand c w 0).dim 0 + 63) / 64)) w c s) := by
  change Goes (execMaxabs e s) _
  unfold execMaxabs
  rw [runOn_eq run]
  exact goes_counted run false _ _ (length_flatten_range (fun r => by rw [length_rowSteps, Nat.mul_one]) _)

theorem goes_pool {op : Nat} (run : Runs e 1 op w c s) :
    Goes (done s (s.runOn e 1 op fun c w t =>
      t.runPlan c w e false [] (t.poolPlan c w).1 (t.statStep c w (t.poolPlan c w).2) (t.poolPlan c w).1.length))
      (Counted 1 (((s.touchSpans c w).operand c w 1).rows * ((((s.touchSpans c w).operand c w 1).dim 0 + 63) / 64 *
        (w.window.kh * w.window.kw))) w c s) := by
  rw [runOn_eq run]
  exact goes_counted run false _ _ (length_poolPlan _ _ _)

end

end Sys2Proof.Machine

open Sys2Proof Sys2Proof.Machine

/-- Settles O40: the lengths of the two plans, and what a plan leaves without and with residue events. -/
theorem tensorEnginesRun : Obligations.TensorEnginesRun := by
  intro e s w c u a o runs
  have engine (i : List ResidueEvent → Instr) (op : Nat) (plan : TePair × List EngStep × Stats) (steps : Nat)
      (length : plan.2.1.length = steps) (ran : Runs e 0 op w c s → ∀ ev, exec (i ev) s = done s
        (u.runPlan c w e plan.1.covered ev plan.2.1 (u.statStep c w plan.2.2) plan.2.1.length)) : runs i op plan steps := by
    refine ⟨length, fun run => ⟨?counted, fun ev uncovered => ?uncovered, fun ev => ?residue⟩⟩
    case counted =>
      rw [ran run]
      exact goes_counted run _ _ _ length
    case uncovered => rw [ran run, ran run, uncovered, runPlan_uncovered]
    case residue =>
      rw [ran run, ← length]
      exact goes_residue c w e s _ _ _ _ _
  exact ⟨engine _ _ _ _ (length_matmulPlan u c w) fun run ev => congrArg (done s) (runOn_eq run _),
    engine _ _ _ _ (length_convPlan u c w) fun run ev => congrArg (done s) (runOn_eq run _)⟩

/-- Settles O41: an operator along rows by `goes_runVe` with its cost, MAXABS and the pools by the lengths of their own
plans. -/
theorem vectorEnginesRun : Obligations.VectorEnginesRun := by
  intro e s w c u i o rowCost pool
  have rows (j : Instr) {op steps : Nat} (f : State → CtxInfo → Waybill → Nat → VeRow)
      (more : State → CtxInfo → Waybill → Nat → Nat → List Rd) (ran : exec j s = done s (s.runVe e op f more))
      (cost : rowCost * veCost op (byteAt w.bytes 56) = steps) (run : Runs e 1 op w c s) :
      Goes (exec j s) (Counted 1 steps w c s) := by
    rw [ran, ← cost]
    exact goes_runVe f more run
  have taps : o.rows * ((o.dim 0 + 63) / 64 * (w.window.kh * w.window.kw)) = pool := by
    unfold pool Opnd.rows
    ring
  have once := Nat.mul_one rowCost
  simp only [List.forall_mem_cons]
  exact ⟨rows _ _ _ rfl once, rows _ _ _ rfl once, rows _ _ _ rfl once, rows _ _ _ rfl once, rows _ _ _ rfl once,
    rows _ _ _ rfl rfl, rows _ _ _ rfl rfl, rows _ _ _ rfl rfl, rows _ _ _ rfl rfl, rows _ _ _ rfl once,
    rows _ _ _ rfl once, rows _ _ _ rfl once, goes_maxabs, fun run => taps ▸ goes_pool run,
    fun run => taps ▸ goes_pool run, nofun⟩

end

section
/-! PROOF. The canonical form of the state's maps and the STO channels, over every operation that the commands share: each
keeps every map canonical, and none raises an STO channel (16 R334). One lemma per operation, in the model's order, to be
read after what came before it: from `Kept s t`, what the operation makes of `t` is kept from `s` too. -/

namespace Sys2Proof.Machine

set_option Elab.async false

/-- `State.canonical` by name: each map of the state is in its canonical form. -/
structure Canon (s : State) : Prop where
  mem : s.mem.canonical = true
  fns : Map.wf FnState.init s.fns = true
  spCmd : (s.fns.all fun p => Memory.wf p.2.spCmd) = true
  waymarks : Map.wf WmSlot.init s.waymarks = true
  fences : Map.wf ({} : Fence) s.fences = true
  queues : Map.wf QueueSt.init s.queues = true
  counters : Map.wf 0 s.counters = true
  cams : Map.wf CamSt.init s.cams = true
  rxDiscards : Map.wf 0 s.rxDiscards = true
  loops : Map.wf LoopSt.init s.loops = true
  cans : Map.wf CanSt.init s.cans = true
  enc : Map.wf EncSt.init s.ports.enc = true
  spi : Map.wf SpiSt.init s.ports.spi = true
  uart : Map.wf UartSt.init s.ports.uart = true
  pwm : Map.wf PwmSt.init s.ports.pwm = true
  outcomes : Map.wf 0 s.sched.outcomes = true
  lastWriter : Map.wf 0 s.sched.lastWriter = true
  credits : Map.wf 0 s.sched.credits = true
  pointers : Map.wf 0 s.sched.pointers = true
  stationTick : Map.wf 0 s.sched.stationTick = true
  streams : Map.wf none s.intake.streams = true
  dicts : Map.wf none s.intake.dicts = true

theorem canonical_iff {s : State} : s.canonical = true ↔ Canon s := by
  simp only [State.canonical, Bool.and_eq_true, and_assoc]
  constructor
  · rintro ⟨h1, h2, h3, h4, h5, h6, h7, h8, h9, h10, h11, h12, h13, h14, h15, h16, h17, h18, h19, h20, h21, h22⟩
    exact ⟨h1, h2, h22, h3, h4, h5, h6, h7, h8, h9, h10, h11, h12, h13, h14, h15, h16, h17, h18, h19, h20, h21⟩
  · rintro ⟨h1, h2, h22, h3, h4, h5, h6, h7, h8, h9, h10, h11, h12, h13, h14, h15, h16, h17, h18, h19, h20, h21⟩
    exact ⟨h1, h2, h3, h4, h5, h6, h7, h8, h9, h10, h11, h12, h13, h14, h15, h16, h17, h18, h19, h20, h21, h22⟩

/-- From `s` to `t` the maps stay canonical, and an STO channel that is high in `t` was high in `s`. -/
structure Kept (s t : State) : Prop where
  canonical : s.canonical = true → t.canonical = true
  stoA : t.verge.stoA = true → s.verge.stoA = true
  stoB : t.verge.stoB = true → s.verge.stoB = true

theorem Kept.refl (s : State) : Kept s s := ⟨id, id, id⟩

variable {s t u : State}

theorem Kept.trans (h : Kept s t) (k : Kept t u) : Kept s u :=
  ⟨k.canonical ∘ h.canonical, h.stoA ∘ k.stoA, h.stoB ∘ k.stoB⟩

/-- A change of what is neither one of the maps nor an STO channel. -/
theorem Kept.same (h : Kept s t) (c : u.canonical = t.canonical := by rfl) (a : u.verge.stoA = t.verge.stoA := by rfl)
    (b : u.verge.stoB = t.verge.stoB := by rfl) : Kept s u :=
  ⟨fun k => c ▸ h.canonical k, fun k => h.stoA (a ▸ k), fun k => h.stoB (b ▸ k)⟩

/-- A change of the maps that leaves Verge alone. -/
theorem Kept.change (h : Kept s t) (k : Canon t → Canon u) (v : u.verge = t.verge := by rfl) : Kept s u :=
  ⟨fun c => canonical_iff.2 (k (canonical_iff.1 (h.canonical c))), fun x => h.stoA (v ▸ x), fun x => h.stoB (v ▸ x)⟩

/-- A change of Verge that raises no STO channel. -/
theorem Kept.setVerge (h : Kept s t) (v : VergeSt) (a : v.stoA = true → t.verge.stoA = true)
    (b : v.stoB = true → t.verge.stoB = true) : Kept s { t with verge := v } :=
  ⟨h.canonical, h.stoA ∘ a, h.stoB ∘ b⟩

theorem Kept.ite {c : Prop} [Decidable c] (h : c → Kept s t) (k : ¬ c → Kept s u) : Kept s (if c then t else u) := by
  split
  · exact h ‹_›
  · exact k ‹_›

theorem Kept.foldl {α : Type} (h : Kept s t) {f : State → α → State} (k : ∀ x a, Kept x (f x a)) (l : List α) :
    Kept s (l.foldl f t) := by
  induction l generalizing t with
  | nil => exact h
  | cons a r ih => exact ih (h.trans (k t a))

/-- A fold over a state carried in the second place of a pair. -/
theorem Kept.foldl_snd {α β : Type} {x : α × State} (h : Kept s x.2) {f : α × State → β → α × State}
    (k : ∀ x b, Kept x.2 (f x b).2) (l : List β) : Kept s (l.foldl f x).2 := by
  induction l generalizing x with
  | nil => exact h
  | cons b r ih => exact ih (h.trans (k x b))

/-! ### Changes of one unit -/

theorem all_spCmd_set {m : Map FnState} (h : (m.all fun p => Memory.wf p.2.spCmd) = true) (f : Nat) {x : FnState}
    (k : Memory.wf x.spCmd = true) : ((Map.set FnState.init m f x).all fun p => Memory.wf p.2.spCmd) = true := by
  induction m with
  | nil =>
    unfold Map.set
    split <;> simp [k]
  | cons p r ih =>
    obtain ⟨j, y⟩ := p
    simp only [List.all_cons, Bool.and_eq_true] at h
    unfold Map.set
    repeat' split
    all_goals simp [h, k, ih]

theorem wf_spCmd_get {m : Map FnState} (h : (m.all fun p => Memory.wf p.2.spCmd) = true) (f : Nat) :
    Memory.wf (m.get FnState.init f).spCmd = true := by
  induction m with
  | nil => rfl
  | cons p r ih =>
    simp only [List.all_cons, Bool.and_eq_true] at h
    unfold Map.get
    repeat' split
    · exact h.1
    · rfl
    · exact ih h.2

/-- A change of a function's registers that keeps the form of SP_CMD. -/
theorem Kept.modFnOf (h : Kept s t) {f : Nat} {g : FnState → FnState}
    (k : Memory.wf (t.fn f).spCmd = true → Memory.wf (g (t.fn f)).spCmd = true) : Kept s (t.modFn f g) :=
  h.change fun c => { c with
    fns := Map.wf_set _ _ _ _ c.fns
    spCmd := all_spCmd_set c.spCmd f (k (wf_spCmd_get c.spCmd f)) }

/-- A change of a function's registers that leaves SP_CMD. -/
theorem Kept.modFn (h : Kept s t) {f : Nat} {g : FnState → FnState} (k : ∀ x, (g x).spCmd = x.spCmd := by exact fun _ => rfl) :
    Kept s (t.modFn f g) := h.modFnOf fun w => (k _).symm ▸ w

theorem Kept.modQueue (h : Kept s t) {c q : Nat} {g : QueueSt → QueueSt} : Kept s (t.modQueue c q g) :=
  h.change fun k => { k with queues := Map.wf_set _ _ _ _ k.queues }

theorem Kept.modLoop (h : Kept s t) {l : Nat} {g : LoopSt → LoopSt} : Kept s (t.modLoop l g) :=
  h.change fun k => { k with loops := Map.wf_set _ _ _ _ k.loops }

theorem Kept.modCam (h : Kept s t) {l : Nat} {g : CamSt → CamSt} : Kept s (t.modCam l g) :=
  h.change fun k => { k with cams := Map.wf_set _ _ _ _ k.cams }

theorem Kept.modCan (h : Kept s t) {l : Nat} {g : CanSt → CanSt} : Kept s (t.modCan l g) :=
  h.change fun k => { k with cans := Map.wf_set _ _ _ _ k.cans }

theorem Kept.modEnc (h : Kept s t) {l : Nat} {g : EncSt → EncSt} : Kept s (t.modEnc l g) :=
  h.change fun k => { k with enc := Map.wf_set _ _ _ _ k.enc }

theorem Kept.modSpi (h : Kept s t) {l : Nat} {g : SpiSt → SpiSt} : Kept s (t.modSpi l g) :=
  h.change fun k => { k with spi := Map.wf_set _ _ _ _ k.spi }

theorem Kept.modUart (h : Kept s t) {l : Nat} {g : UartSt → UartSt} : Kept s (t.modUart l g) :=
  h.change fun k => { k with uart := Map.wf_set _ _ _ _ k.uart }

theorem Kept.modPwm (h : Kept s t) {l : Nat} {g : PwmSt → PwmSt} : Kept s (t.modPwm l g) :=
  h.change fun k => { k with pwm := Map.wf_set _ _ _ _ k.pwm }

theorem Kept.modFence (h : Kept s t) {b : Nat} {g : Fence → Fence} : Kept s (t.modFence b g) :=
  h.change fun k => { k with fences := Map.wf_set _ _ _ _ k.fences }

theorem Kept.setCounter (h : Kept s t) {i v : Nat} : Kept s { t with counters := t.counters.set 0 i v } :=
  h.change fun k => { k with counters := Map.wf_set _ _ _ _ k.counters }

theorem Kept.countMax (h : Kept s t) {c i v : Nat} : Kept s (t.countMax c i v) := h.setCounter

theorem Kept.count (h : Kept s t) {c i n : Nat} : Kept s (t.count c i n) :=
  Kept.ite (fun _ => h) fun _ => h.setCounter

/-! ### Outputs and events -/

theorem Kept.emit (h : Kept s t) {o : Out} : Kept s (t.emit o) := h.same

theorem Kept.draw (h : Kept s t) : Kept s t.draw.2 := h.same

theorem Kept.qspiSet (h : Kept s t) {b : BitVec 4} : Kept s (t.qspiSet b) := h.same

theorem Kept.signal (h : Kept s t) {f v : Nat} : Kept s (t.signal f v) := Kept.ite (fun _ => h.emit) fun _ => h.modFn

theorem Kept.postTo (h : Kept s t) {e : EvRecord} {f : Nat} : Kept s (t.postTo e f) :=
  Kept.ite (fun _ => h.modFn) fun _ => h.modFn

theorem Kept.postAll (h : Kept s t) {e : EvRecord} {l : List Nat} : Kept s (l.foldl (fun x f => x.postTo e f) t) :=
  h.foldl (fun x _ => (Kept.refl x).postTo) l

theorem Kept.post (h : Kept s t) {code payload : Nat} {ctx : Option Nat} : Kept s (t.post code payload ctx) :=
  Kept.ite (fun _ => h.postAll.signal.qspiSet) fun _ => h.postAll

theorem Kept.enter (h : Kept s t) {d : DevState} {cause : Nat} : Kept s (t.enter d cause) :=
  Kept.ite (fun _ => h) fun _ => Kept.ite (fun _ => h.same) fun _ => (h.same (u := { t with devState := d })).post

/-! ### Memories -/

/-- A change of the memories alone, which keeps their form. -/
theorem Kept.keepsMem (h : Kept s t) (k : KeepsMem t u) (alone : { t with mem := u.mem } = u) : Kept s u :=
  alone ▸ h.change fun c => { c with mem := k.keeps c.mem }

/-- A change of what the memories hold beside their words: counts, pending granules and scrub positions. -/
theorem Kept.ofMem (h : Kept s t) {m : MemSt} (k : m.canonical = t.mem.canonical := by rfl) : Kept s { t with mem := m } :=
  h.keepsMem ⟨fun c => k.trans c⟩ rfl

theorem Kept.setSpace (h : Kept s t) {m : Mem} {p : MemSpace} (k : (t.space m).canonical = true → p.canonical = true) :
    Kept s (t.setSpace m p) := h.keepsMem (KeepsMem.setSpace m p t k) (by cases m <;> rfl)

theorem Kept.setMark (h : Kept s t) {m : Mem} {w : Nat} {e : Ecc} : Kept s (t.setMark m w e) :=
  h.keepsMem (KeepsMem.setMark m w e t) (by cases m <;> rfl)

theorem Kept.setWord (h : Kept s t) {m : Mem} {w v : Nat} : Kept s (t.setWord m w v) :=
  h.keepsMem (KeepsMem.setWord m w v t) (by cases m <;> rfl)

theorem Kept.reMark (h : Kept s t) {m : Mem} {w : Nat} {b : Bool} : Kept s (t.reMark m w b) :=
  Kept.ite (fun _ => h.setMark) fun _ => Kept.ite (fun _ => h.setMark) fun _ => Kept.ite (fun _ => h.draw.setMark) fun _ =>
    Kept.ite (fun _ => h.draw.setMark.draw.setWord) fun _ => h.draw.setMark

theorem Kept.record (h : Kept s t) {code unit reaction detail : Nat} : Kept s (t.record code unit reaction detail) := h.same

theorem Kept.storeUe (h : Kept s t) {a : Nat} : Kept s (t.storeUe a) := by
  unfold State.storeUe
  exact h.draw.post

theorem Kept.memUe (h : Kept s t) {m : Mem} {a : Nat} : Kept s (t.memUe m a) :=
  Kept.ite (fun _ => h.storeUe) fun _ => Kept.post (Kept.record (Kept.ite (fun _ => h.ofMem) fun _ => h.ofMem))

theorem Kept.memCorr (h : Kept s t) {m : Mem} {who : Option Nat} {a : Nat} : Kept s (t.memCorr m who a) := by
  unfold State.memCorr
  split
  · exact h.keepsMem (KeepsMem.ofCounts (fun m => by cases m <;> rfl) rfl rfl (Map.wf_set _ _ _ _)) rfl
  · have counted : Kept s (if m = .lp then { t with mem := { t.mem with lpCorr := add64 t.mem.lpCorr 1 } }
        else { t with mem := { t.mem with swCorr := add64 t.mem.swCorr 1 } }) :=
      Kept.ite (fun _ => h.ofMem) fun _ => h.ofMem
    cases who with
    | none => exact counted
    | some c => exact counted.count

theorem Kept.readWord (h : Kept s t) {m : Mem} {who : Option Nat} {w : Nat} : Kept s (t.readWord m who w).2 := by
  unfold State.readWord
  dsimp only
  split
  · exact h
  · exact h.reMark.memCorr
  · exact h.reMark.memUe
  · exact h

theorem Kept.readWords (h : Kept s t) {m : Mem} {who : Option Nat} {l : List Nat} {x : Seen} :
    Kept s (t.readWords m who l x).2 := by
  induction l generalizing t x with
  | nil => exact h
  | cons w r ih => exact ih h.readWord

theorem Kept.reMarks (h : Kept s t) {α : Type} {m : Mem} {b : Bool} {w : α → Nat} {l : List α} :
    Kept s (l.foldl (fun (x : State) a => x.reMark m (w a) b) t) := h.foldl (fun x _ => (Kept.refl x).reMark) l

theorem Kept.cleanRange (h : Kept s t) {m : Mem} {a n : Nat} : Kept s (t.cleanRange m a n) :=
  Kept.reMarks (h.setSpace fun k => by
    rw [MemSpace.canonical_iff] at k ⊢
    exact ⟨k.1, Map.wf_clear _ _ _ _ k.2.1, k.2.2⟩)

theorem Kept.zeroRange (h : Kept s t) {m : Mem} {a n : Nat} : Kept s (t.zeroRange m a n) :=
  Kept.cleanRange (h.setSpace fun k => by
    rw [MemSpace.canonical_iff] at k ⊢
    exact ⟨Map.wf_clear _ _ _ _ k.1, k.2⟩)

theorem Kept.zeroDone (h : Kept s t) : Kept s t.zeroDone := Kept.ite (fun _ => Kept.post h.ofMem) fun _ => h

theorem Kept.markPending (h : Kept s t) {gs : List Nat} : Kept s (t.markPending gs) := Kept.zeroDone h.ofMem

theorem Kept.zeroGranule (h : Kept s t) {g : Nat} : Kept s (t.zeroGranule g) := Kept.zeroDone h.zeroRange.ofMem

theorem Kept.touch (h : Kept s t) {m : Mem} {a n : Nat} : Kept s (t.touch m a n) :=
  Kept.ite (fun _ => h) fun _ => h.foldl (fun x _ => (Kept.refl x).zeroGranule) _

theorem Kept.readMem (h : Kept s t) {m : Mem} {who : Option Nat} {a n : Nat} : Kept s (t.readMem m who a n).2.2 :=
  h.touch.readWords

theorem Kept.partialWord (h : Kept s t) {m : Mem} {who : Option Nat} {b : Bool} {w : Nat} :
    Kept s (t.partialWord m who b w).2 := by
  unfold State.partialWord
  split
  · exact Kept.ite (fun _ => h.reMark) fun _ => h
  · exact h.reMark.memCorr
  · exact h.reMark.memUe
  · exact h

theorem Kept.writeMem (h : Kept s t) {m : Mem} {who : Option Nat} {b : Bool} {a : Nat} {bs : List Byte} :
    Kept s (t.writeMem m who b a bs).2 := by
  have parts := (h.touch (m := m) (a := a) (n := bs.length)).foldl_snd (x := (none, _))
    (f := fun (acc : Option Nat × State) w =>
      (acc.1.or (if (acc.2.partialWord m who b w).1 then some (w * 8) else none), (acc.2.partialWord m who b w).2))
    (fun x w => (Kept.refl x.2).partialWord) (partialWords a bs.length)
  have stored := Kept.cleanRange (m := m) (a := a) (n := bs.length)
    (parts.keepsMem (KeepsMem.storeBytes m a bs _) (by cases m <;> rfl))
  exact Kept.ite (fun _ => stored.reMarks) fun _ => stored

theorem Kept.setTags (h : Kept s t) {who : Option Nat} {epoch a n : Nat} : Kept s (t.setTags who epoch a n) :=
  Kept.ite (fun _ => h) fun _ => h.foldl (fun x _ => (Kept.refl x).writeMem) _

theorem Kept.zeroSward (h : Kept s t) : Kept s t.zeroSward := h.zeroRange.zeroRange

theorem Kept.writeHost (h : Kept s t) {ep : Bool} {a : Nat} {bs : List Byte} : Kept s (t.writeHost ep a bs) :=
  h.keepsMem (KeepsMem.writeHost ep a bs t) rfl

theorem Kept.hostStores (h : Kept s t) {l : List HostStore} : Kept s (t.hostStores l) :=
  h.foldl (fun x _ => (Kept.refl x).writeHost) l

theorem Kept.writeDev (h : Kept s t) {who : Option Nat} {a : Nat} {bs : List Byte} : Kept s (t.writeDev who a bs) := by
  unfold State.writeDev
  split
  · exact h.foldl (fun x _ => Kept.ite (fun _ => Kept.refl x) fun _ => (Kept.refl x).writeMem) _
  · exact h.writeHost
  · exact h

/-! ### Completions -/

theorem Kept.writeRecord (h : Kept s t) {i : QueueInfo} {bs : List Byte} : Kept s (t.writeRecord i bs) :=
  Kept.ite (fun _ => h.writeDev.count.count.modQueue.signal) fun _ => h.writeDev.count.count.modQueue

theorem Kept.deliver (h : Kept s t) {c q : Nat} {bs : List Byte} : Kept s (t.deliver c q bs) := by
  unfold State.deliver
  split
  · exact h
  · exact Kept.ite (fun _ => h.modQueue) fun _ => h.writeRecord

theorem Kept.countDone (h : Kept s t) {c status a b d : Nat} : Kept s (t.countDone c status a b d) := by
  refine Kept.count (Kept.countMax (Kept.count ?_))
  have counted : Kept s (if status = 0 then t.count c 2 1 else if status / 4096 = 2 then t.count c 3 1
      else if status / 4096 = 4 then t.count c 4 1 else if status / 4096 = 8 then t.count c 5 1 else t) :=
    Kept.ite (fun _ => h.count) fun _ => Kept.ite (fun _ => h.count) fun _ => Kept.ite (fun _ => h.count) fun _ =>
      Kept.ite (fun _ => h.count) fun _ => h
  exact Kept.ite (fun _ => counted.count) fun _ => counted

theorem Kept.setOutcomes (h : Kept s t) {w : Waybill} {o : Nat → Option Nat} : Kept s (t.setOutcomes w o) := by
  refine Kept.same (t := w.writes.foldl _ t) (h.foldl (fun x k => ?_) w.writes)
  dsimp only
  split
  · exact Kept.ite (fun _ => (Kept.refl x).change fun c => { c with outcomes := Map.wf_set _ _ _ _ c.outcomes })
      fun _ => Kept.refl x
  · exact Kept.refl x

theorem Kept.unregister (h : Kept s t) {f : Pool → Bool} : Kept s (t.unregister f) :=
  Kept.foldl h.same (fun x _ => (Kept.refl x).markPending) _

theorem Kept.poolFailed (h : Kept s t) {w : Waybill} {status : Nat} : Kept s (t.poolFailed w status) := by
  unfold State.poolFailed
  split
  · exact h
  · exact Kept.ite (fun _ => h.unregister.same) fun _ => h

theorem Kept.finish (h : Kept s t) {w : Waybill} {status detail : Nat} {f : DoneFlags} {b : Bool} :
    Kept s (t.finish w status detail f b) := Kept.deliver (Kept.countDone h.poolFailed.setOutcomes.same)

theorem Kept.settle (h : Kept s t) {n : Nat} : Kept s (t.settle n) := by
  induction n generalizing t with
  | zero => exact h
  | succ n ih =>
    unfold State.settle
    split
    · exact h
    · exact Kept.ite (fun _ => ih h.finish) fun _ => Kept.ite (fun _ => ih h.finish) fun _ => ih h.same

theorem Kept.settleAll (h : Kept s t) : Kept s t.settleAll := h.settle

theorem Kept.complete (h : Kept s t) {w : Waybill} {status detail : Nat} {f : DoneFlags} :
    Kept s (t.complete w status detail f) := h.finish.settle

/-! ### Fences -/

theorem Kept.endFrame (h : Kept s t) {k flags : Nat} : Kept s (t.endFrame k flags) := by
  unfold State.endFrame
  dsimp only
  split
  · exact h.modCam
  · exact h

theorem Kept.camFence (h : Kept s t) {b : Nat} : Kept s (t.camFence b) := by
  refine Kept.ite (fun _ => h.modCam) fun _ => Kept.ite (fun _ => h.foldl (fun x k => ?_) _) fun _ => h
  split
  · exact Kept.ite (fun _ => (Kept.refl x).endFrame) fun _ => Kept.refl x
  · exact Kept.refl x

theorem Kept.raiseFence (h : Kept s t) {b : Nat} : Kept s (t.raiseFence b) := h.modFence.camFence

theorem Kept.postFence (h : Kept s t) {code b : Nat} : Kept s (t.postFence code b) := h.post

theorem Kept.abortRunning (h : Kept s t) {p : Waybill → Bool} : Kept s (t.abortRunning p) :=
  Kept.settle (h.foldl (fun x _ => (Kept.refl x).finish) _)

theorem Kept.enterFence (h : Kept s t) {b : Nat} : Kept s (t.enterFence b) :=
  Kept.ite (fun _ => h) fun _ => h.raiseFence.abortRunning.postFence

theorem Kept.raiseFences (h : Kept s t) {l : List Nat} : Kept s (l.foldl (fun x b => x.raiseFence b) t) :=
  h.foldl (fun x _ => (Kept.refl x).raiseFence) l

theorem Kept.postFences (h : Kept s t) {code : Nat} {l : List Nat} : Kept s (l.foldl (fun x b => x.postFence code b) t) :=
  h.foldl (fun x _ => (Kept.refl x).postFence) l

theorem Kept.fencePi (h : Kept s t) : Kept s t.fencePi :=
  Kept.ite (fun _ => h) fun _ => Kept.postFences (Kept.abortRunning (Kept.ite (fun _ => h.raiseFences.enter) fun _ => h.raiseFences))

/-! ### Reactions -/

theorem Kept.pwmLow (h : Kept s t) : Kept s t.pwmLow :=
  h.foldl (fun x _ => Kept.ite (fun _ => Kept.refl x) fun _ => (Kept.refl x).modPwm.emit) _

theorem Kept.camPinsLow (h : Kept s t) {k : Nat} : Kept s (t.camPinsLow k) := by
  have low : Kept s (if (t.cam k).trigPin then (t.modCam k fun y => { y with trig := false, trigPin := false, mclk := 0 }).emit
      (.trig k false) else t.modCam k fun y => { y with trig := false, trigPin := false, mclk := 0 }) :=
    Kept.ite (fun _ => h.modCam.emit) fun _ => h.modCam
  exact Kept.ite (fun _ => low) fun _ => low.emit

theorem Kept.gpioInputs (h : Kept s t) : Kept s t.gpioInputs := by
  have marks := h.foldl (f := fun t p => t.emit (.mark p false)) (fun x _ => (Kept.refl x).emit)
    (t.ports.gpio.marks.map (·.1))
  refine Kept.same (t := if t.ports.gpio.drive = 0 then _ else _) (Kept.ite (fun _ => marks) fun _ => marks.emit)

theorem Kept.outputsOff (h : Kept s t) {v : VergeSt} : Kept s (t.outputsOff v) := ⟨h.canonical, nofun, nofun⟩

theorem Kept.outputsDown (h : Kept s t) : Kept s t.outputsDown := by
  have sto : Kept s t.stoFallen := by
    unfold State.stoFallen State.emitIf
    exact Kept.ite (fun _ => Kept.emit (Kept.ite (fun _ => h.emit) fun _ => h))
      fun _ => Kept.ite (fun _ => h.emit) fun _ => h
  rw [outputsDown_eq]
  exact Kept.outputsOff (Kept.pwmLow (Kept.gpioInputs (sto.foldl (fun x _ => (Kept.refl x).camPinsLow) _)))

theorem Kept.assertSto (h : Kept s t) {cause : Nat} : Kept s (t.assertSto cause) := by
  have low := h.setVerge { t.verge with stoA := false, stoB := false, stoByStop := true, stoCause := BitVec.ofNat 16 cause }
    nofun nofun
  have a := Kept.ite (c := t.verge.stoA) (fun _ => low.emit (o := .sto 0 false)) fun _ => low
  have b := Kept.ite (c := t.verge.stoB) (fun _ => a.emit (o := .sto 1 false)) fun _ => a
  unfold State.assertSto
  exact Kept.pwmLow (Kept.ite (fun _ => b.post) fun _ => b)

theorem Kept.endRamps (h : Kept s t) : Kept s t.endRamps :=
  Kept.ite (fun _ => Kept.ite (fun _ => h.assertSto) fun _ => h) fun _ => h

theorem Kept.orderStop (h : Kept s t) {cause : Nat} : Kept s (t.orderStop cause) := by
  unfold State.orderStop
  refine Kept.ite (fun _ => Kept.endRamps ?_) fun _ => h
  exact Kept.foldl h.same (fun x _ => (Kept.refl x).modLoop) _

theorem Kept.abortQueue (h : Kept s t) {i : QueueInfo} : Kept s (t.abortQueue i) := by
  unfold State.abortQueue
  refine Kept.modQueue (Kept.foldl ?_ (fun x _ => (Kept.refl x).countDone.deliver) _)
  exact h.foldl (fun x _ => (Kept.refl x).finish) _

theorem Kept.abortWork (h : Kept s t) : Kept s t.abortWork := h.foldl (fun x _ => (Kept.refl x).abortQueue) _

theorem Kept.noteFault (h : Kept s t) {code unit : Nat} {r : Reaction} {detail : Nat} :
    Kept s (t.noteFault code unit r detail) := by
  have told : Kept s ((t.record code unit r.code detail).post 0x0A01 (code + unit % 256 * 65536 + r.code * 2 ^ 24) none) :=
    h.record.post
  unfold State.noteFault
  exact Kept.ite (fun _ => Kept.abortWork (Kept.enter told.same)) fun _ => told

theorem Kept.react (h : Kept s t) {code unit : Nat} {r : Reaction} {live : Bool} : Kept s (t.react code unit r live) := by
  cases r
  · exact h
  · exact h
  · exact h.enterFence
  · exact h.fencePi
  · exact Kept.ite (fun _ => h.orderStop) fun _ => h
  · exact Kept.ite (fun _ => Kept.assertSto h.same) fun _ => h

theorem Kept.raise (h : Kept s t) {code unit : Nat} {r : Reaction} {detail : Nat} : Kept s (t.raise code unit r detail) :=
  h.noteFault.react

end Sys2Proof.Machine
end

section
/-! PROOF. The canonical form of the state's maps and the STO channels, over fetching, the Intake Engine's units, the
timebase, the ring, the governor, dispatch and the runs of an engine. -/

namespace Sys2Proof.Machine

set_option Elab.async false

/-- Whatever state the outcome goes on to is kept from `s`. -/
def Keeps (s : State) (o : Host.Outcome State Fault Refusal) : Prop := ∀ t, o = .next t → Kept s t

variable {s t u : State}

theorem Kept.done (h : Kept s t) : Keeps s (done s t) := by
  rintro u e
  cases e
  exact h.same

theorem Kept.checked (h : Kept s t) {c : Instr} {m : String} : Keeps s (checked c m s t) := by
  unfold Machine.checked
  split
  · exact h.done
  · intro u e
    cases e

/-- Of two ways on, the one taken, carried in the second place of a pair. -/
theorem Kept.ite_snd {α : Type} {c : Prop} [Decidable c] {x y : α × State} (h : c → Kept s x.2) (k : ¬ c → Kept s y.2) :
    Kept s (if c then x else y).2 := by
  split
  · exact h ‹_›
  · exact k ‹_›

theorem Kept.of_pair {α : Type} {x : α × State} {a : α} (h : Kept s x.2) (e : x = (a, u)) : Kept s u := by
  subst e
  exact h

/-- One step of an optional effect. -/
theorem Kept.when {c : Prop} [Decidable c] {f : State → State} (h : Kept s t) (k : ∀ x, Kept x (f x)) :
    Kept s (if c then f t else t) := Kept.ite (fun _ => h.trans (k t)) fun _ => h

/-! ### The checks of a fetch -/

theorem Kept.readDesc (h : Kept s t) {c : CtxInfo} {n : Nat} : Kept s (t.readDesc c n).2.2 := by
  unfold State.readDesc
  split
  · exact h
  · dsimp only
    exact h.readMem.count

theorem Kept.loadNamed (h : Kept s t) {c : CtxInfo} {l : List (Nat × Nat)} {w : Waybill} :
    Kept s (State.loadNamed c l w t).2.1 := by
  induction l generalizing w t with
  | nil => exact h
  | cons p r ih =>
    unfold State.loadNamed
    dsimp only
    repeat' split
    · exact ih h
    all_goals first | exact ih h.readDesc | exact h.readDesc

theorem Kept.check4 (h : Kept s t) {c : CtxInfo} {w : Waybill} : Kept s (t.check4 c w).2.1 := by
  unfold State.check4
  split
  · exact h
  · exact h.loadNamed

theorem Kept.loadMore (h : Kept s t) {c : CtxInfo} {l : List Nat} {w : Waybill} {bad : Map Nat} :
    Kept s (State.loadMore c l w bad t).2.2 := by
  induction l generalizing w bad t with
  | nil => exact h
  | cons n r ih =>
    unfold State.loadMore
    split
    · exact ih h
    · exact ih h.readDesc

theorem Kept.loadRest (h : Kept s t) {c : CtxInfo} {w : Waybill} : Kept s (t.loadRest c w).2.2 := by
  unfold State.loadRest
  split
  · exact h
  · exact h.loadMore.loadMore

theorem Kept.readEntry (h : Kept s t) {i : QueueInfo} {n : Nat} : Kept s (t.readEntry i n).2.2.2 := by
  unfold State.readEntry
  split
  · dsimp only
    exact h.readMem.count
  · dsimp only
    exact h.count
  · exact h

theorem Kept.judge (h : Kept s t) {c : CtxInfo} {b : Bool} {w : Waybill} : Kept s (t.judge c b w).2.2 := by
  have named : Kept s (t.check4 c w).2.1 := h.check4
  unfold State.judge
  split
  · exact h
  · split
    case h_1 e => rwa [e] at named
    case h_2 e =>
      rw [e] at named
      exact named.loadRest

/-! ### Fetch -/

theorem Kept.takeWrites (h : Kept s t) {w : Waybill} : Kept s (t.takeWrites w) := by
  unfold State.takeWrites
  refine h.foldl (fun x k => ?_) _
  exact (Kept.refl x).change fun c => { c with lastWriter := Map.wf_set _ _ _ _ c.lastWriter }

theorem Kept.refuse (h : Kept s t) {w : Waybill} {f : Nat × Nat} : Kept s (t.refuse w f) :=
  Kept.finish (Kept.takeWrites (h.when fun x => (Kept.refl x).count))

theorem Kept.registerPool (h : Kept s t) {c : CtxInfo} {w : Waybill} : Kept s (t.registerPool c w) := h.same

theorem Kept.accept (h : Kept s t) {c : CtxInfo} {w : Waybill} : Kept s (t.accept c w) := by
  unfold State.accept
  exact Kept.ite (fun _ => h.takeWrites.same.registerPool) fun _ => h.takeWrites.same

theorem Kept.fetchOne (h : Kept s t) {c : CtxInfo} {i : QueueInfo} {b : Bool} : Kept s (t.fetchOne c i b).2.2 := by
  unfold State.fetchOne
  dsimp only
  split
  · exact h.readEntry.modQueue.count.same
  · exact Kept.judge h.readEntry.modQueue.count.same

theorem Kept.fetchAll (h : Kept s t) {c : CtxInfo} {i : QueueInfo} {l : List Bool} : Kept s (State.fetchAll c i l t).2 := by
  induction l generalizing t with
  | nil => exact h
  | cons b r ih => exact ih h.fetchOne

theorem Kept.fetchUnit (h : Kept s t) {c : CtxInfo} {i : QueueInfo} {f : FetchUnit} : Kept s (t.fetchUnit c i f) := by
  unfold State.fetchUnit
  refine Kept.settleAll (h.fetchAll.foldl (fun x p => ?_) _)
  dsimp only
  split
  · exact (Kept.refl x).refuse
  · exact Kept.ite (fun _ => (Kept.refl x).refuse) fun _ => (Kept.refl x).accept

theorem keeps_waybillFetch {ctx : Fin 256} {q : Fin 4} {stores : List HostStore} :
    Keeps s (execWaybillFetch ctx q stores s) := by
  have stored : Kept s (s.hostStores stores) := (Kept.refl s).hostStores
  unfold execWaybillFetch
  refine Kept.done ?_
  dsimp only
  repeat' split
  all_goals first | exact stored | exact stored.fetchUnit

/-! ### Streams, dictionaries and pictures -/

theorem Kept.setStream (h : Kept s t) {c n : Nat} {x : Option Stream} : Kept s (t.setStream c n x) :=
  h.change fun k => { k with streams := Map.wf_set _ _ _ _ k.streams }

theorem Kept.setDict (h : Kept s t) {c n : Nat} {x : Option Dict} : Kept s (t.setDict c n x) :=
  h.change fun k => { k with dicts := Map.wf_set _ _ _ _ k.dicts }

theorem Kept.closeIntake (h : Kept s t) {f : Nat → Bool} : Kept s (t.closeIntake f) :=
  h.change fun k => { k with
    streams := Map.wf_filter _ _ _ k.streams
    dicts := Map.wf_filter _ _ _ k.dicts
    outcomes := Map.wf_filter _ _ _ k.outcomes }

theorem Kept.storePicture (h : Kept s t) {key : Nat} {x : Stream} {p : Picture} {l : List (List Nat)} :
    Kept s (t.storePicture key x p l).2 := by
  unfold State.storePicture
  dsimp only
  exact h.writeMem

theorem Kept.loadPicture (h : Kept s t) {key : Nat} {x : Stream} {p : Picture} : Kept s (t.loadPicture key x p).2 := by
  unfold State.loadPicture
  dsimp only
  exact h.readMem

theorem Kept.upset (h : Kept s t) {key : Nat} {a : StoreUpset} : Kept s (State.upset key t a) := by
  unfold State.upset
  dsimp only
  split
  · exact h.setMark
  · exact h.setMark
  · exact h
  · exact h

theorem Kept.setPicCorr (h : Kept s t) {k v : Nat} :
    Kept s { t with mem := { t.mem with picCorr := t.mem.picCorr.set 0 k v } } :=
  h.keepsMem (KeepsMem.ofCounts (fun m => by cases m <;> rfl) rfl rfl (Map.wf_set _ _ _ _)) rfl

theorem Kept.openStream (h : Kept s t) {w : Waybill} : Kept s (t.openStream w) := h.setStream.setPicCorr

theorem Kept.ieTake (h : Kept s t) {w : Waybill} : Kept s (t.ieTake w).2 := by
  unfold State.ieTake
  dsimp only
  repeat' split
  all_goals first | exact h | exact h.openStream | exact h.setDict | exact h.setStream

/-! ### The timebase, the ring and the governor -/

theorem Kept.tickClock (h : Kept s t) : Kept s t.tickClock := Kept.ite (fun _ => h.same) fun _ => h

theorem Kept.jumpMs (h : Kept s t) {d : Nat} : Kept s (t.jumpMs d) := h.same

theorem Kept.latchMs (h : Kept s t) {p : Requester} : Kept s (t.latchMs p) := by
  unfold State.latchMs
  split
  · exact h.modFn
  · exact h.same

theorem Kept.vcoreCommand (h : Kept s t) {mV : Nat} : Kept s (t.vcoreCommand mV) :=
  Kept.ite (fun _ => h.same) fun _ => Kept.emit h.same

theorem Kept.piLoss (h : Kept s t) : Kept s t.piLoss := h.raise.vcoreCommand

theorem Kept.mcLostAnswer (h : Kept s t) {f : Nat} : Kept s (t.mcLostAnswer f) :=
  Kept.ite (fun _ => Kept.ite (fun _ => h.modFn.signal.qspiSet) fun _ => h.modFn.signal) fun _ => h

theorem keeps_ringTokenArrive : Keeps s (execRingTokenArrive s) := by
  refine Kept.done (Kept.ite (fun _ => Kept.refl s) fun _ => ?_)
  exact (Kept.refl s).change fun c => { c with stationTick := Map.wf_set _ _ _ _ c.stationTick }

theorem keeps_avsbusReadBack {mV : Nat} {alert : Option (BitVec 16)} : Keeps s (execAvsbusReadBack mV alert s) := by
  have told : Kept s (match alert with | some a => s.post 0x000A a.toNat none | none => s) := by
    split
    · exact (Kept.refl s).post
    · exact Kept.refl s
  refine Kept.done (Kept.ite (fun _ => ?_) fun _ => told)
  dsimp only
  split
  · exact Kept.vcoreCommand told.same
  · exact told.same

theorem keeps_paceGovernorPeriod {tj : Int} {rate : Nat} : Keeps s (execPaceGovernorPeriod tj rate s) := by
  have read : Kept s { s with pace := { s.pace with tjHalf := tj } } := (Kept.refl s).same
  unfold execPaceGovernorPeriod
  refine Kept.done (Kept.ite (fun _ => Kept.refl s) fun _ => Kept.ite (fun _ => ?_) fun _ => Kept.ite (fun _ => ?_) fun _ => read)
  · exact Kept.post (Kept.vcoreCommand read.raise.same)
  · dsimp only
    generalize paceLaw { s.pace with tjHalf := tj } tj rate = law
    have ruled : Kept s { s with pace := { s.pace with tjHalf := tj, thermal := law.1, conflict := law.2.2 } } := read.same
    have moved := ruled.when (c := law.2.1 ≠ s.pace.vcore) fun x => (Kept.refl x).vcoreCommand (mV := law.2.1)
    split
    · exact Kept.ite (fun _ => moved) fun _ => moved.post
    · exact moved

theorem keeps_mcHeartbeatMiss : Keeps s (execMcHeartbeatMiss s) := by
  refine Kept.done (Kept.ite (fun _ => Kept.refl s) fun _ => Kept.raise (Kept.foldl ?_ (fun x _ => (Kept.refl x).mcLostAnswer) _))
  exact (Kept.refl s).same

theorem keeps_oscillatorWatchdogWindow {n : Nat} : Keeps s (execOscillatorWatchdogWindow n s) := by
  refine Kept.done (Kept.ite (fun _ => Kept.refl s) fun _ => Kept.ite (fun _ => (Kept.refl s).same) fun _ =>
    Kept.ite (fun _ => Kept.raise (Kept.refl s).same) fun _ => (Kept.refl s).same)

/-! ### The PTP discipline -/

theorem Kept.setInc (h : Kept s t) {a : Int} : Kept s (t.setInc a) := h.same

theorem Kept.discipline (h : Kept s t) {d : Discipline} : Kept s (t.discipline d) :=
  Kept.ite (fun _ => h) fun _ => Kept.post h.same

theorem Kept.freeRun (h : Kept s t) : Kept s t.freeRun := Kept.discipline h.same

theorem Kept.servo (h : Kept s t) {r : Rec} {o : Int} : Kept s (t.servo r o) := h.setInc

theorem Kept.syncNear (h : Kept s t) {r : Rec} {o : Int} : Kept s (t.syncNear r o) := by
  unfold State.syncNear
  dsimp only
  split
  · exact Kept.servo (Kept.discipline h.same)
  · exact Kept.ite (fun _ => Kept.servo (Kept.discipline h.same)) fun _ => Kept.servo h.same
  · exact Kept.ite (fun _ => Kept.discipline h.same) fun _ => Kept.servo h.same
  · exact Kept.ite (fun _ => Kept.servo (Kept.discipline h.same)) fun _ => Kept.ite (fun _ => Kept.servo h.same) fun _ => h.same

theorem keeps_ptpSyncReceive {mac : Fin 2} {offset log : Int} : Keeps s (execPtpSyncReceive mac offset log s) := by
  unfold execPtpSyncReceive
  refine Kept.done ?_
  split
  · exact Kept.refl s
  · have noted : Kept s { s with time := { s.time with lastOff := offset, logSync := log, lastSync := s.now } } :=
      (Kept.refl s).same
    refine Kept.ite (fun _ => Kept.refl s) fun _ => Kept.ite (fun _ => noted.syncNear) fun _ =>
      Kept.ite (fun _ => Kept.post (Kept.discipline noted.same)) fun _ => ?_
    have steered : Kept s (State.syncSteered { s with time := { s.time with lastOff := offset, logSync := log, lastSync := s.now } }) := by
      unfold State.syncSteered
      dsimp only
      split
      · exact Kept.discipline noted.same
      · exact noted.same
      · exact Kept.discipline noted.same
      · exact Kept.discipline noted.same
    exact Kept.ite (fun _ => Kept.jumpMs steered.same) fun _ =>
      Kept.ite (fun _ => Kept.setInc steered.same) fun _ => Kept.post (Kept.setInc steered.same)

theorem keeps_ptpSyncTimeout : Keeps s (execPtpSyncTimeout s) := by
  refine Kept.done (Kept.ite (fun _ => Kept.refl s) fun _ => ?_)
  split
  · exact Kept.discipline (Kept.refl s).same
  · exact Kept.discipline (Kept.refl s).same
  · exact Kept.refl s

theorem keeps_ptpMasterSync : Keeps s (execPtpMasterSync s) := by
  unfold execPtpMasterSync
  refine Kept.done ?_
  split
  · exact Kept.refl s
  · refine Kept.ite (fun _ => Kept.refl s) fun _ => Kept.ite (fun _ => Kept.emit ?_) fun _ => Kept.emit (Kept.emit ?_)
    all_goals exact (Kept.refl s).same

theorem keeps_ptpDelayReqReceive {mac : Fin 2} {seq : BitVec 16} : Keeps s (execPtpDelayReqReceive mac seq s) := by
  unfold execPtpDelayReqReceive
  refine Kept.done ?_
  split
  · exact Kept.ite (fun _ => (Kept.refl s).emit) fun _ => Kept.refl s
  · exact Kept.refl s

/-! ### Dispatch, zeroing and scrubbing -/

theorem Map.wf_foldl_setBy {α β : Type} [DecidableEq α] {d : α} {k : β → Nat} {v : β → α} (l : List β) :
    ∀ m : Map α, Map.wf d m = true → Map.wf d (l.foldl (fun m i => m.set d (k i) (v i)) m) = true := by
  induction l with
  | nil => exact fun _ w => w
  | cons i r ih => exact fun m w => ih _ (Map.wf_set d m _ _ w)

theorem Kept.setCredits (h : Kept s t) {m : Map Nat} (k : Map.wf 0 t.sched.credits = true → Map.wf 0 m = true) :
    Kept s { t with sched := { t.sched with credits := m } } := h.change fun c => { c with credits := k c.credits }

/-- A waybill taken by an arbitration: a credit less, and the pointer past its context. -/
theorem Kept.charged (h : Kept s t) {cls c n : Nat} : Kept s { t with sched := { t.sched with
    credits := t.sched.credits.set 0 (cls * 256 + c) n, pointers := t.sched.pointers.set 0 cls (c + 1) } } :=
  h.change fun k => { k with
    credits := Map.wf_set _ _ _ _ k.credits
    pointers := Map.wf_set _ _ _ _ k.pointers }

theorem kept_arbitrate {cls : Nat} {x : Waybill × State} (taken : State.arbitrate cls s = some x) : Kept s x.2 := by
  unfold State.arbitrate at taken
  dsimp only at taken
  split at taken
  · obtain ⟨w, -, rfl⟩ := Option.map_eq_some_iff.1 taken
    exact (Kept.refl s).charged
  · split at taken
    · cases taken
    · obtain ⟨w, -, rfl⟩ := Option.map_eq_some_iff.1 taken
      exact ((Kept.refl s).setCredits (Map.wf_foldl_setBy _ _)).charged

theorem Kept.reloadCredits (h : Kept s t) : Kept s t.reloadCredits := by
  have each (l : List Nat) : ∀ m : Map Nat, Map.wf 0 m = true →
      Map.wf 0 (l.foldl (fun m k => t.ctxs.foldl (fun m i => m.set 0 (k * 256 + i.ctx) i.weight) m) m) = true := by
    induction l with
    | nil => exact fun _ w => w
    | cons i r ih => exact fun m w => ih _ (Map.wf_foldl_setBy _ m w)
  exact h.setCredits (each _ _)

theorem Kept.startOn (h : Kept s t) {e : Nat} {w : Waybill} : Kept s (t.startOn e w) := h.ieTake.same

theorem keeps_engineDispatch {e : Fin 19} : Keeps s (execEngineDispatch e s) := by
  unfold execEngineDispatch
  refine Kept.done (Kept.ite (fun _ => Kept.refl s) fun _ => ?_)
  split
  · exact (Kept.refl s).startOn
  · split
    case h_1 w s1 eq => exact (kept_arbitrate eq).startOn
    case h_2 => exact Kept.refl s

theorem keeps_backgroundZeroing : Keeps s (execBackgroundZeroing s) := by
  unfold execBackgroundZeroing
  refine Kept.done ?_
  split
  · exact Kept.refl s
  · exact Kept.ite (fun _ => Kept.refl s) fun _ => (Kept.refl s).zeroGranule

theorem Kept.setScrub (h : Kept s t) {a b c : Nat} :
    Kept s { t with mem := { t.mem with scrubSw := a, scrubLp := b, passes := c } } := h.ofMem

theorem Kept.scrubSward (h : Kept s t) : Kept s t.scrubSward := by
  have read := (h.readWords (m := .sw) (who := none) (l := t.markedIn .sw (t.mem.scrubSw * 64) 64) (x := {})).when
    (c := t.mem.scrubSw % 8 = 0) fun x => (Kept.refl x).readWord (m := .tag) (who := none) (w := t.mem.scrubSw / 8)
  unfold State.scrubSward
  exact Kept.ite (fun _ => h) fun _ => Kept.ite (fun _ => read.setScrub) fun _ => read.setScrub

theorem Kept.scrubLpddr (h : Kept s t) : Kept s t.scrubLpddr := Kept.ite (fun _ => h) fun _ => h.readWords.setScrub

theorem keeps_patrolScrub {m : ScrubMem} : Keeps s (execPatrolScrub m s) := by
  refine Kept.done (Kept.ite (fun _ => Kept.refl s) fun _ => ?_)
  cases m
  · exact (Kept.refl s).scrubSward
  · exact (Kept.refl s).scrubLpddr

/-! ### Runs of an engine -/

theorem kept_checkTags {k : RunCtx} {r : Rd} {p : Run × State} (h : Kept s p.2) : Kept s (State.checkTags k r p).2 := by
  refine h.foldl_snd (fun x l => ?_) _
  dsimp only
  split <;> exact (Kept.refl x.2).readWord

theorem Kept.hostReq (h : Kept s t) {k : RunCtx} {b : Bool} {a n : Nat} : Kept s (t.hostReq k b a n) := h.emit

theorem kept_runRead {k : RunCtx} {p : Run × State} {r : Rd} (h : Kept s p.2) : Kept s (State.runRead k p r).2 := by
  have sent : Kept s (r.runs.foldl (fun (t : State) q => t.hostReq k false q.1 q.2) p.2) :=
    h.foldl (fun x _ => (Kept.refl x).hostReq) _
  have touched (m : Mem) : Kept s (r.runs.foldl (fun (t : State) q => t.touch m q.1 q.2) p.2) :=
    h.foldl (fun x _ => (Kept.refl x).touch) _
  unfold State.runRead
  dsimp only
  split
  · exact h
  · split
    · exact h
    · split
      · dsimp only
        exact sent.count.count
      · exact sent.count
    · split
      · exact kept_checkTags (touched _).readWords.count.count
      · exact (touched _).readWords.count.count

theorem kept_runWrite {k : RunCtx} {b : Bool} {p : Run × State} {w : Wr} (h : Kept s p.2) :
    Kept s (State.runWrite k b p w).2 := by
  unfold State.runWrite
  dsimp only
  split
  · exact h
  · split
    · exact h
    · exact h.writeHost.hostReq.count
    · exact Kept.count (h.writeMem.when fun x => (Kept.refl x).setTags)

theorem kept_runStep {k : RunCtx} {b : Bool} {p : Run × State} {e : EngStep} (h : Kept s p.2) :
    Kept s (State.runStep k b p e).2 := by
  have read := h.foldl_snd (f := State.runRead k) (fun x _ => kept_runRead (Kept.refl x.2)) e.reads
  exact read.foldl_snd (fun x _ => kept_runWrite (Kept.refl x.2)) e.writes

theorem kept_runSteps {k : RunCtx} {g : Option Nat} {n : Nat} {l : List EngStep} {p : Run × State} (h : Kept s p.2) :
    Kept s (State.runSteps k g n l p).2.2 := by
  induction l generalizing n p with
  | nil => exact h
  | cons e r ih =>
    unfold State.runSteps
    split
    · exact h
    · exact ih (kept_runStep h)

theorem Kept.runSteps (h : Kept s t) {k : RunCtx} {g : Option Nat} {n : Nat} {l : List EngStep} {x : Run} :
    Kept s (State.runSteps k g n l (x, t)).2.2 := kept_runSteps h

theorem Kept.runStep (h : Kept s t) {k : RunCtx} {b : Bool} {x : Run} {e : EngStep} :
    Kept s (State.runStep k b (x, t) e).2 := kept_runStep h

theorem Kept.touchSpans (h : Kept s t) {c : CtxInfo} {w : Waybill} : Kept s (t.touchSpans c w) :=
  h.foldl (fun x _ => Kept.ite (fun _ => (Kept.refl x).foldl (fun y _ => (Kept.refl y).zeroGranule) _) fun _ => Kept.refl x) _

theorem Kept.residueReports (h : Kept s t) {ctx e : Nat} {ev : List ResidueEvent} {first : Option Nat} :
    Kept s (t.residueReports ctx e ev first) := by
  have told : Kept s (ev.foldl (fun (t : State) v =>
      if v.repeats then t.count ctx 24 1 else (t.count ctx 24 1).post 0x0401 (e + v.group * 256) (some ctx)) t) :=
    h.foldl (fun x _ => Kept.ite (fun _ => (Kept.refl x).count) fun _ => (Kept.refl x).count.post) _
  unfold State.residueReports
  split
  · exact told.record.post
  · exact told

theorem Kept.runPlan (h : Kept s t) {c : CtxInfo} {w : Waybill} {e : Nat} {b : Bool} {ev : List ResidueEvent}
    {steps last : List EngStep} {n : Nat} : Kept s (t.runPlan c w e b ev steps last n) := by
  unfold State.runPlan
  dsimp only
  generalize (if b = true then ev.filter fun v => decide (v.group < (steps.length + 15) / 16) else []) = ev1
  have ran : Kept s (State.runSteps (runCtx c w) (firstRepeat ev1) 0 steps ({}, t)).2.2 := kept_runSteps h
  generalize State.runSteps (runCtx c w) (firstRepeat ev1) 0 steps ({}, t) = p at ran
  have ended : Kept s (if p.2.1.stale.isSome = true then (p.2.1, p.2.2)
      else ((State.runSteps (runCtx c w) none 1 last (p.2.1, p.2.2)).2.1,
        (State.runSteps (runCtx c w) none 1 last (p.2.1, p.2.2)).2.2)).2 := by
    split
    · exact ran
    · exact kept_runSteps (p := (p.2.1, p.2.2)) ran
  generalize (if p.2.1.stale.isSome = true then (p.2.1, p.2.2) else _) = q at ended ⊢
  exact Kept.ite (fun _ => ended.count.residueReports.complete.enterFence) fun _ => ended.count.residueReports.complete

theorem Kept.runOn (h : Kept s t) {e cls op : Nat} {f : CtxInfo → Waybill → State → State}
    (k : ∀ c w x, Kept x (f c w x)) : Kept s (t.runOn e cls op f) := by
  unfold State.runOn
  split
  · exact h
  · split
    · exact h
    · exact Kept.ite (fun _ => h.complete) fun _ => h.touchSpans.trans (k _ _ _)

end Sys2Proof.Machine
end

section
/-! PROOF. The canonical form of the state's maps and the STO channels, over the engines' commands and the cameras. -/

namespace Sys2Proof.Machine

set_option Elab.async false

variable {s t u : State}

theorem Keeps.runOn {e cls op : Nat} {f : CtxInfo → Waybill → State → State} (k : ∀ c w x, Kept x (f c w x)) :
    Keeps s (done s (s.runOn e cls op f)) := Kept.done ((Kept.refl s).runOn k)

/-! ### Tensor, vector and transfer commands -/

theorem Kept.commitWaymark (h : Kept s t) {c n len stamp : Nat} {data : List Byte} :
    Kept s (t.commitWaymark c n len stamp data) := by
  refine Kept.ite (fun _ => Kept.count ?_) fun _ => Kept.count ?_
  all_goals exact h.change fun k => { k with waymarks := Map.wf_set _ _ _ _ k.waymarks }

theorem keeps_waymarkCommit {e : Fin 19} : Keeps s (execWaymarkCommit e s) :=
  Keeps.runOn fun c w x => by
    extract_lets o n at_ data
    generalize ran : State.runSteps _ _ _ _ _ = p
    have h : Kept x p.2.2 := ran ▸ (Kept.refl x).runSteps
    exact (h.when fun y => (Kept.refl y).commitWaymark).complete

theorem kept_runPlan {c : CtxInfo} {w : Waybill} {e : Nat} {b : Bool} {ev : List ResidueEvent}
    {steps last : List EngStep} {n : Nat} : Kept s (s.runPlan c w e b ev steps last n) := (Kept.refl s).runPlan

theorem keeps_runVe {e op : Nat} {f : State → CtxInfo → Waybill → Nat → VeRow}
    {more : State → CtxInfo → Waybill → Nat → Nat → List Rd} : Keeps s (done s (s.runVe e op f more)) :=
  Keeps.runOn fun _ _ _ => kept_runPlan

theorem keeps_copy {e : Fin 19} {stores : List HostStore} : Keeps s (execCopy e stores s) :=
  Kept.done (Kept.runOn (Kept.refl s).hostStores fun _ _ _ => kept_runPlan)

theorem keeps_planAdmit {e : Fin 19} : Keeps s (execPlanAdmit e s) :=
  Keeps.runOn fun c w x => by
    extract_lets
    split
    generalize ran : State.runSteps _ _ _ _ _ = p
    have h : Kept x p.2.2 := ran ▸ (Kept.refl x).runSteps
    exact h.count.complete

/-! ### Attention commands -/

theorem Kept.setPool (h : Kept s t) {p : Pool} : Kept s (t.setPool p) := h.same

theorem Kept.freeWrite (h : Kept s t) {ctx u n : Nat} : Kept s (t.freeWrite ctx u n) := by
  unfold State.freeWrite
  exact h.draw.writeMem

theorem Kept.freeLines (h : Kept s t) {ctx u n : Nat} : Kept s (t.freeLines ctx u n) :=
  h.foldl (fun x _ => (Kept.refl x).freeWrite) _

theorem Kept.changePool (h : Kept s t) {ctx : Nat} {p q : Pool} : Kept s (t.changePool ctx p q) := by
  unfold State.changePool
  refine Kept.foldl (h.setPool.foldl (fun x i => ?_) _) (fun x k => ?_) _
  · exact (Kept.refl x).freeWrite.freeWrite
  · exact (Kept.refl x).freeLines

theorem Kept.finishAe (h : Kept s t) {c : CtxInfo} {w : Waybill} {n b : Nat} {x : Run} :
    Kept s (t.finishAe c w n b x) := h.count.complete

theorem Keeps.runAe {e op : Nat} {f : CtxInfo → Waybill → Pool → State → State} (k : ∀ c w p x, Kept x (f c w p x)) :
    Keeps s (done s (s.runAe e op f)) :=
  Keeps.runOn fun c w x => by
    split
    · exact (Kept.refl x).complete
    · exact k _ _ _ x

theorem keeps_poolInit {e : Fin 19} : Keeps s (execPoolInit e s) :=
  Keeps.runAe fun _ _ _ x => (Kept.refl x).freeLines.freeLines.setPool.count.finishAe

theorem keeps_seqReset {e : Fin 19} : Keeps s (execSeqReset e s) :=
  Keeps.runAe fun _ _ _ x => (Kept.refl x).changePool.finishAe

theorem kept_examine {k : RunCtx} {code : Nat} {p : Pool} {parent : Option Nat} {ids : List (BitVec 32)} {l : List Nat}
    {x : Run × State} (h : Kept s x.2) : Kept s (State.examine k code p parent ids l x).2.2.2 := by
  induction l generalizing x with
  | nil => exact h
  | cons i r ih =>
    unfold State.examine
    dsimp only
    split
    · exact kept_runStep h
    · exact ih (kept_runStep h)

theorem Kept.lookupFrom (h : Kept s t) {k : RunCtx} {code : Nat} {o : Opnd} {n at_ : Nat} {l : Lookup} :
    Kept s (State.lookupFrom k code o n at_ l t).2 := by
  induction n generalizing at_ l t with
  | zero => exact h
  | succ n ih =>
    have seen (i : List (BitVec 32)) (q : Option Nat) (ns : List Nat) : Kept s (State.examine k code l.pool q i ns
        (State.runStep k false (l.run, t) ⟨[o.elemReq 0 at_ 64], []⟩)).2.2.2 := kept_examine (kept_runStep h)
    unfold State.lookupFrom
    split
    · exact h
    · dsimp only
      split
      · exact seen _ _ _
      · exact ih (seen _ _ _)

theorem keeps_prefixLookup {e : Fin 19} : Keeps s (execPrefixLookup e s) :=
  Keeps.runAe fun c w p x => by
    dsimp only
    refine Kept.finishAe (Kept.runStep (Kept.count (Kept.count (Kept.changePool ?_))))
    exact Kept.ite_snd (fun _ => (Kept.refl x).draw.lookupFrom) fun _ => (Kept.refl x).draw

theorem kept_appendTokens {k : RunCtx} {code : Nat} {p : Pool} {b : List Nat} {lat ids : Opnd} {start : Nat} {l : List Nat}
    {x : Run × State} (h : Kept s x.2) : Kept s (State.appendTokens k code p b lat ids start l x).2 := by
  induction l generalizing x with
  | nil => exact h
  | cons i r ih => exact ih (kept_runStep h)

theorem kept_insertBlocks {k : RunCtx} {code now start : Nat} {b : List Nat} {n i : Nat} {p : Pool} {x : Run × State}
    (h : Kept s x.2) : Kept s (State.insertBlocks k code now start b n i p x).2.2 := by
  induction n generalizing i p x with
  | zero => exact h
  | succ n ih =>
    have read (r : Rd) : Kept s (State.runStep k false x ⟨[r], []⟩).2 := kept_runStep h
    have seen (r : Rd) (q : Option Nat) (ids : List (BitVec 32)) (c : Bool) (l : List Nat) :
        Kept s (if c then State.examine k code p q ids l (State.runStep k false x ⟨[r], []⟩)
          else (none, 0, State.runStep k false x ⟨[r], []⟩)).2.2.2 := by
      split
      · exact kept_examine (read r)
      · exact read r
    have onward (z : Option Nat × Nat × Run × State) (q : Pool) (hz : Kept s z.2.2.2) :
        Kept s (if z.2.2.1.clean && z.1.isNone then State.insertBlocks k code now start b n (i + 1) q z.2.2
          else (p, z.2.2)).2.2 := by
      split
      · exact ih hz
      · exact hz
    unfold State.insertBlocks
    dsimp only
    generalize (if i = 0 then none else some (b.getD (i - 1) 0)) = q
    split
    · exact h
    · exact onward _ _ (seen _ _ _ _ _)

theorem keeps_kvAppend {e : Fin 19} : Keeps s (execKvAppend e s) :=
  Keeps.runAe fun c w p x => by
    dsimp only
    split
    · exact (Kept.refl x).complete
    · split
      · exact (Kept.refl x).complete
      · have put (p : Pool) (l : List Nat) (a b : Opnd) (n : Nat) (k : List Nat) : Kept x
            (State.appendTokens (runCtx c w) (4 + x.draw.1) p l a b n k ({}, x.draw.2)).2 := kept_appendTokens (Kept.refl x).draw
        refine Kept.finishAe (Kept.changePool ?_)
        split
        · exact kept_insertBlocks (put _ _ _ _ _ _)
        · exact put _ _ _ _ _ _

theorem keeps_attend {e : Fin 19} : Keeps s (execAttend e s) :=
  Keeps.runAe fun c w p x => by
    dsimp only
    split
    · exact (Kept.refl x).complete
    · exact Kept.finishAe (kept_runSteps (kept_runSteps (kept_runStep (p := (_, x.draw.2)) (Kept.refl x).draw)))

/-! ### Intake commands -/

theorem Kept.ieEnd (h : Kept s t) {c : CtxInfo} {w : Waybill} {n st d : Nat} : Kept s (t.ieEnd c w n st d) := h.count.complete

theorem Kept.ieWrite (h : Kept s t) {c : CtxInfo} {w : Waybill} {l : List (Opnd × List Byte)} {n st d : Nat} :
    Kept s (t.ieWrite c w l n st d) := by
  unfold State.ieWrite
  dsimp only
  exact Kept.complete (Kept.count (kept_runSteps h))

theorem Keeps.runIe {e op i : Nat} {f : CtxInfo → Waybill → Nat → Stream → State → State} (k : ∀ c w n y x, Kept x (f c w n y x)) :
    Keeps s (done s (s.runIe e op i f)) :=
  Keeps.runOn fun c w x => by
    dsimp only
    split
    · exact (Kept.refl x).ieEnd
    · exact k _ _ _ _ x

theorem keeps_feed {e : Fin 19} : Keeps s (execFeed e s) :=
  Keeps.runIe fun _ _ _ _ x => Kept.ite (fun _ => (Kept.refl x).ieEnd) fun _ =>
    Kept.ite (fun _ => (Kept.refl x).setStream.ieEnd) fun _ => Kept.ite (fun _ => (Kept.refl x).setStream.ieEnd) fun _ =>
      (Kept.refl x).setStream.ieEnd

theorem kept_readRefs {key : Nat} {l : List Nat} {p : Stream × State} (h : Kept s p.2) :
    Kept s (State.readRefs key l p).2.2 := by
  induction l generalizing p with
  | nil => exact h
  | cons b r ih =>
    unfold State.readRefs
    split
    · exact ih h
    · exact ih h.loadPicture

theorem Kept.decodeUnit (h : Kept s t) {key : Nat} {u : List Byte × Nat × Bool} {rest : List (List Byte × Nat × Bool)}
    {x : Stream} : Kept s (t.decodeUnit key u rest x) := by
  unfold State.decodeUnit
  dsimp only
  refine Kept.ite (fun _ => Kept.setStream (kept_readRefs h)) fun _ => Kept.setStream (Kept.storePicture (kept_readRefs h))

theorem keeps_pictureDecoded {ctx : Fin 256} {n : Fin 16} {l : List StoreUpset} : Keeps s (execPictureDecoded ctx n l s) := by
  have upset (key : Nat) : Kept s (l.foldl (fun t a => t.upset key a) s) := (Kept.refl s).foldl (fun x _ => (Kept.refl x).upset) l
  unfold execPictureDecoded
  refine Kept.done ?_
  split
  · exact Kept.refl s
  · dsimp only
    split
    · exact upset _
    · exact Kept.ite (fun _ => upset _) fun _ => (upset _).decodeUnit

theorem keeps_augSet {e : Fin 19} : Keeps s (execAugSet e s) :=
  Keeps.runIe fun _ _ _ _ x => Kept.ite (fun _ => (Kept.refl x).ieEnd) fun _ => (Kept.refl x).setStream.ieEnd

theorem Kept.replacement (h : Kept s t) {key : Nat} {x : Stream} {g : Shape} {a b : Nat} :
    Kept s (t.replacement key x g a b).2 := by
  unfold State.replacement
  dsimp only
  split
  · exact h
  · have read (p : Picture) : Kept s (t.loadPicture key x p).2 := h.loadPicture
    split
    all_goals exact (read _).of_pair ‹_›

theorem Kept.decodeOut (h : Kept s t) {key : Nat} {x : Stream} {g : Shape} : Kept s (t.decodeOut key x g).2 := by
  unfold State.decodeOut
  dsimp only
  split
  · exact h.replacement
  · split
    · exact h
    · have read (p : Picture) : Kept s (t.loadPicture key x p).2 := h.loadPicture
      split
      · exact (read _).of_pair ‹_›
      · exact ((read _).of_pair ‹_›).replacement

theorem keeps_decode {e : Fin 19} : Keeps s (execDecode e s) :=
  Keeps.runIe fun c w n y x => by
    dsimp only
    split
    · exact (Kept.refl x).setStream.ieEnd
    · have out (g : Shape) : Kept x (x.decodeOut (w.ctx * 16 + n) y g).2 := (Kept.refl x).decodeOut
      split
      · exact ((out _).of_pair ‹_›).setStream.ieEnd
      · exact Kept.ite (fun _ => ((out _).of_pair ‹_›).setStream.ieWrite) fun _ => ((out _).of_pair ‹_›).setStream.ieWrite

theorem keeps_dictLoad {e : Fin 19} : Keeps s (execDictLoad e s) :=
  Keeps.runOn fun _ _ x => Kept.ite (fun _ => (Kept.refl x).ieEnd) fun _ => Kept.ite (fun _ => (Kept.refl x).ieEnd) fun _ =>
    Kept.ite (fun _ => Kept.ieEnd ((Kept.refl x).when fun y => (Kept.refl y).setDict)) fun _ => (Kept.refl x).setDict.ieEnd

theorem keeps_dictSeal {e : Fin 19} : Keeps s (execDictSeal e s) :=
  Keeps.runOn fun c w x => by
    dsimp only
    split
    · exact (Kept.refl x).ieEnd
    · refine Kept.ite (fun _ => (Kept.refl x).ieEnd) fun _ => ?_
      split
      · exact (Kept.refl x).ieEnd
      · exact (Kept.refl x).setDict.ieEnd

theorem keeps_tokenise {e : Fin 19} : Keeps s (execTokenise e s) :=
  Keeps.runIe fun c w n y x => by
    dsimp only
    refine Kept.ite (fun _ => (Kept.refl x).ieEnd) fun _ => ?_
    split
    · exact (Kept.refl x).ieEnd
    · refine Kept.ite (fun _ => (Kept.refl x).ieEnd) fun _ => ?_
      split
      · exact (Kept.refl x).ieEnd
      · exact Kept.ite (fun _ => Kept.ite (fun _ => (Kept.refl x).ieWrite) fun _ => (Kept.refl x).setStream.ieWrite)
          fun _ => (Kept.refl x).setStream.ieWrite

theorem keeps_packEmit {e : Fin 19} : Keeps s (execPackEmit e s) :=
  Keeps.runIe fun _ _ _ _ x => Kept.ite (fun _ => (Kept.refl x).ieEnd) fun _ => Kept.ite (fun _ => (Kept.refl x).ieEnd) fun _ =>
    Kept.ite (fun _ => (Kept.refl x).ieEnd) fun _ => (Kept.refl x).setStream.ieWrite

theorem Kept.clearStats (h : Kept s t) {c n : Nat} {x : Stream} : Kept s (t.clearStats c n x) := h.setStream.setPicCorr

theorem keeps_streamStats {e : Fin 19} : Keeps s (execStreamStats e s) :=
  Keeps.runIe fun _ _ _ _ x => Kept.ieWrite ((Kept.refl x).when fun z => (Kept.refl z).clearStats)

/-! ### Cameras -/

theorem Kept.dropPacket (h : Kept s t) {rx vc : Nat} : Kept s (t.dropPacket rx vc) :=
  Kept.ite (fun _ => h.change fun k => { k with rxDiscards := Map.wf_set _ _ _ _ k.rxDiscards }) fun _ =>
    h.foldl (fun x _ => (Kept.refl x).modCam) _

theorem Kept.onPacket (h : Kept s t) {rx vc : Nat} {hdr : HeaderEcc} {f : Nat → Rec → State → State}
    (k : ∀ n r x, Kept x (f n r x)) : Kept s (t.onPacket rx vc hdr f) := by
  refine Kept.ite (fun _ => h) fun _ => Kept.ite (fun _ => h.dropPacket) fun _ => h.foldl (fun x n => ?_) _
  split
  · exact ((Kept.refl x).when fun y => (Kept.refl y).modCam).trans (k _ _ _)
  · exact Kept.refl x

theorem Kept.ispWrite (h : Kept s t) {ctx a efn : Nat} {bs : List Byte} : Kept s (t.ispWrite ctx a efn bs) := by
  unfold State.ispWrite
  split
  · exact h
  · exact h.writeMem.setTags

theorem Kept.writingRecords (h : Kept s t) {k : Nat} {f : CamFrame} : Kept s (t.writingRecords k f) := by
  unfold State.writingRecords
  refine h.foldl (fun x b => Kept.ite (fun _ => ?_) fun _ => Kept.refl x) _
  exact (Kept.refl x).ispWrite

theorem Kept.frameStart (h : Kept s t) {k : Nat} {r : Rec} {fn : BitVec 16} : Kept s (t.frameStart k r fn) := by
  unfold State.frameStart
  refine Kept.ite (fun _ => h.modCam) fun _ => ?_
  have started (g : CamSt → CamSt) := (h.endFrame (k := k) (flags := 16)).modCam (l := k) (g := g)
  have posted (g : CamSt → CamSt) := (started g).when (c := (t.cam k).lostPosted = true)
    fun x => (Kept.refl x).post (code := 0x0804) (payload := k) (ctx := none)
  refine Kept.ite (fun _ => (posted _).modCam) fun _ => ?_
  exact Kept.ite (fun _ => (posted _).modCam.writingRecords) fun _ => (posted _).modCam

theorem keeps_csiLinePacket {rx vc : Fin 4} {dt : Byte} {hdr : HeaderEcc} {a b : Bool} {codes : List Nat} :
    Keeps s (execCsiLinePacket rx vc dt hdr a b codes s) :=
  Kept.checked ((Kept.refl s).onPacket fun n r x => by
    split
    · exact Kept.ite (fun _ => (Kept.refl x).modCam) fun _ => (Kept.refl x).modCam
    · exact (Kept.refl x).modCam)

theorem keeps_csiFrameEnd {rx vc : Fin 4} {hdr : HeaderEcc} : Keeps s (execCsiFrameEnd rx vc hdr s) :=
  Kept.done ((Kept.refl s).onPacket fun _ _ x => Kept.ite (fun _ => (Kept.refl x).endFrame) fun _ => (Kept.refl x).modCam)

theorem keeps_csiPacketDiscard {rx vc : Fin 4} {dt : Byte} {hdr : HeaderEcc} : Keeps s (execCsiPacketDiscard rx vc dt hdr s) :=
  Kept.done ((Kept.refl s).onPacket fun _ _ x => Kept.ite (fun _ => Kept.refl x) fun _ => (Kept.refl x).modCam)

theorem keeps_frameEndTimeout {k : Fin 4} : Keeps s (execFrameEndTimeout k s) := by
  unfold execFrameEndTimeout
  refine Kept.done ?_
  split
  · exact Kept.ite (fun _ => (Kept.refl s).endFrame) fun _ => Kept.refl s
  · exact Kept.refl s

theorem Kept.writePlanes (h : Kept s t) {b : Rec} {efn : Nat} {l : List BranchPlane} {a : Nat} :
    Kept s (t.writePlanes b efn l a) := by
  induction l generalizing t a with
  | nil => exact h
  | cons p r ih =>
    unfold State.writePlanes
    exact ih (h.foldl (fun x _ => (Kept.refl x).ispWrite) _)

theorem Kept.deliverSward (h : Kept s t) {k : Nat} {r b : Rec} {f : CamFrame} {o : IspOut} {st : Nat} :
    Kept s (t.deliverSward k r b f o st) := by
  unfold State.deliverSward
  dsimp only
  exact Kept.ite (fun _ => h.writePlanes.ispWrite.modCam.post) fun _ => h.writePlanes.ispWrite.modCam

theorem Kept.deliverIe (h : Kept s t) {k : Nat} {b : Rec} {f : CamFrame} {o : IspOut} {st : Nat} :
    Kept s (t.deliverIe k b f o st) := by
  unfold State.deliverIe
  split
  · exact Kept.ite (fun _ => h.setStream) fun _ => h.storePicture.setStream
  · exact h

theorem Kept.writeStats (h : Kept s t) {k : Nat} {r : Rec} {f : CamFrame} {o : IspOut} {st : Nat} :
    Kept s (t.writeStats k r f o st) := by
  unfold State.writeStats
  exact Kept.ite (fun _ => h) fun _ => Kept.ite (fun _ => h.ispWrite.ispWrite.post) fun _ => h.ispWrite.ispWrite

theorem Kept.governCam (h : Kept s t) {k : Nat} {r : Rec} {f : CamFrame} {o : IspOut} {st : Nat} :
    Kept s (t.governCam k r f o st) := by
  refine Kept.ite (fun _ => h) fun _ => ?_
  split
  · exact h.modCam
  · exact h

theorem keeps_frameRecordWrite {k : Fin 4} : Keeps s (execFrameRecordWrite k s) := by
  unfold execFrameRecordWrite
  refine Kept.done ?_
  split
  · refine Kept.ite (fun _ => Kept.refl s) fun _ => ?_
    dsimp only
    have delivered (g : CamSt → CamSt) (l : List Rec) (r : Rec) (f : CamFrame) (o : IspOut) (st : Nat) :
        Kept s (l.foldl (fun t b => if b.u 0xB 1 = 0 then t.deliverSward k r b f o st else t.deliverIe k b f o st)
          (s.modCam k g)) :=
      (Kept.refl s).modCam.foldl (fun x _ => Kept.ite (fun _ => (Kept.refl x).deliverSward) fun _ => (Kept.refl x).deliverIe) l
    split
    · exact (delivered _ _ _ _ _ _).writeStats.governCam.writingRecords
    · exact (delivered _ _ _ _ _ _).writeStats.governCam
  · exact Kept.refl s

theorem Kept.trigLevel (h : Kept s t) {k : Nat} {b : Bool} : Kept s (t.trigLevel k b) :=
  Kept.ite (fun _ => h.modCam.emit) fun _ => h

theorem keeps_triggerPulse {k : Fin 4} : Keeps s (execTriggerPulse k s) := by
  unfold execTriggerPulse
  refine Kept.done ?_
  split
  · exact Kept.ite (fun _ => Kept.refl s) fun _ => (Kept.refl s).modCam.trigLevel
  · exact Kept.refl s

theorem keeps_triggerPulseEnd {k : Fin 4} : Keeps s (execTriggerPulseEnd k s) :=
  Kept.done (Kept.ite (fun _ => (Kept.refl s).modCam.trigLevel) fun _ => Kept.refl s)

theorem keeps_camLost {k : Fin 4} : Keeps s (execCamLost k s) := by
  unfold execCamLost
  refine Kept.done ?_
  split
  · exact Kept.ite (fun _ => (Kept.refl s).modCam.post) fun _ => Kept.refl s
  · exact Kept.refl s

theorem Kept.startCamera (h : Kept s t) {k : Nat} : Kept s (t.startCamera k) := by
  unfold State.startCamera
  split
  · exact h
  · exact Kept.trigLevel (h.modCam.when fun x => (Kept.refl x).emit)

theorem Kept.startCameras (h : Kept s t) : Kept s t.startCameras := by
  have cleared : Kept s { t with rxDiscards := [], cams := [] } := h.change fun c => { c with rxDiscards := rfl, cams := rfl }
  exact cleared.foldl (fun x _ => (Kept.refl x).startCamera) _

end Sys2Proof.Machine
end

section
/-! PROOF. The canonical form of the state's maps and the STO channels, over the encoders, the events, the queues' registers,
the CAN controllers and the serial ports. -/

namespace Sys2Proof.Machine

set_option Elab.async false

variable {s t u : State}

/-! ### Encoders -/

theorem Kept.encClock (h : Kept s t) {ch : Nat} {r : Rec} : Kept s (t.encClock ch r) := Kept.ite (fun _ => h.emit) fun _ => h

theorem Kept.encSample (h : Kept s t) {ch a : Nat} : Kept s (t.encSample ch a) := by
  unfold State.encSample
  split
  · exact h
  · exact Kept.ite (fun _ => h) fun _ => h.modEnc.encClock

theorem Kept.encDeliver (h : Kept s t) {ch : Nat} : Kept s (t.encDeliver ch) :=
  h.foldl (fun x _ => (Kept.refl x).modLoop) _

theorem keeps_encoderPositionReady {ch : Fin 16} {x : EncSample} : Keeps s (execEncoderPositionReady ch x s) :=
  Kept.done (by
    split
    · exact Kept.refl s
    · exact Kept.ite (fun _ => (Kept.refl s).modEnc.encDeliver) fun _ => Kept.refl s)

theorem keeps_encoderFreeSample {ch : Fin 16} {x : EncSample} : Keeps s (execEncoderFreeSample ch x s) :=
  Kept.done (by
    split
    · exact Kept.refl s
    · exact Kept.ite (fun _ => (Kept.refl s).modEnc.encClock) fun _ => Kept.refl s)

theorem keeps_encZEdge {z : EncEdge} : Keeps s (execEncZEdge z s) :=
  Kept.done (by
    split
    · exact Kept.refl s
    · refine Kept.ite (fun _ => Kept.refl s) fun _ => ?_
      split <;> exact (Kept.refl s).modEnc)

theorem keeps_encAbEdge {z : EncEdge} {a b : Bool} : Keeps s (execEncAbEdge z a b s) :=
  Kept.done (Kept.ite (fun _ => Kept.refl s) fun _ => (Kept.refl s).modEnc)

theorem Kept.startEncoders (h : Kept s t) : Kept s t.startEncoders := h.foldl (fun x _ => (Kept.refl x).modEnc) _

/-! ### Events and the registers of the queues -/

theorem Kept.ringWrite (h : Kept s t) {f : Nat} {e : EvRecord} : Kept s (t.ringWrite f e) := by
  unfold State.ringWrite
  have told (x : State) (k : Kept s x) : Kept s (if f = 0 then x.qspiSet 2#4 else x) :=
    Kept.ite (fun _ => k.qspiSet) fun _ => k
  exact told _ (Kept.ite (fun _ => h.writeDev.modFn.signal) fun _ => h.writeDev.modFn)

theorem Kept.ringLost (h : Kept s t) {f : Nat} : Kept s (t.ringLost f) :=
  Kept.ite (fun _ => h) fun _ => h.ringWrite.modFn

theorem keeps_eventWrite {f : Fin 16} : Keeps s (execEventWrite f s) :=
  Kept.done (by
    split
    · exact (Kept.refl s).ringLost
    · exact Kept.ite (fun _ => Kept.refl s) fun _ => Kept.ite (fun _ => (Kept.refl s).modFn) fun _ =>
        Kept.ite (fun _ => (Kept.refl s).ringLost) fun _ => (Kept.refl s).ringLost.modFn.ringWrite)

theorem Kept.writeEvHead (h : Kept s t) {f v : Nat} : Kept s (t.writeEvHead f v) :=
  Kept.ite (fun _ => h) fun _ => Kept.ringLost (Kept.ite (fun _ => h.modFn.signal) fun _ => h.modFn)

theorem Kept.sendPending (h : Kept s t) {f v : Nat} : Kept s (t.sendPending f v) :=
  Kept.ite (fun _ => Kept.ite (fun _ => h.modFn) fun _ => h.modFn.emit) fun _ => h

theorem Kept.sendEach (h : Kept s t) {f : Nat} {l : List Nat} : Kept s (l.foldl (fun x v => x.sendPending f v) t) :=
  h.foldl (fun x _ => (Kept.refl x).sendPending) l

theorem keeps_msixUnmask {f : Fin 16} {v : Option (Fin 1088)} : Keeps s (execMsixUnmask f v s) :=
  Kept.done (by
    split
    · exact (Kept.refl s).modFn.sendPending
    · exact (Kept.refl s).modFn.sendEach)

theorem Kept.doorbell (h : Kept s t) {i : QueueInfo} {n : Nat} {v : BitVec 16} : Kept s (t.doorbell i n v) :=
  h.modQueue.count

theorem Kept.writeSqTail (h : Kept s t) {f c q : Nat} {v : BitVec 16} : Kept s (t.writeSqTail f c q v) := by
  unfold State.writeSqTail
  split
  · exact h
  · exact Kept.ite (fun _ => h.doorbell.modQueue) fun _ => h.doorbell

theorem Kept.writeCqHead (h : Kept s t) {f c q : Nat} {v : BitVec 16} : Kept s (t.writeCqHead f c q v) := by
  unfold State.writeCqHead
  split
  · exact h
  · exact Kept.ite (fun _ => Kept.ite (fun _ => h.doorbell.modQueue.signal) fun _ => h.doorbell.modQueue) fun _ => h.doorbell

/-! ### CAN -/

theorem Kept.writeTxCmd (h : Kept s t) {p : Requester} {c v : Nat} : Kept s (t.writeTxCmd p c v) :=
  Kept.ite (fun _ => h) fun _ => h.modCan

theorem Kept.writeTxb (h : Kept s t) {p : Requester} {c n o : Nat} {b : List Byte} : Kept s (t.writeTxb p c n o b) :=
  Kept.ite (fun _ => h) fun _ => h.modCan

theorem keeps_canArbitration {c : Fin 4} : Keeps s (execCanArbitration c s) :=
  Kept.done (by
    split
    · exact Kept.refl s
    · refine Kept.ite (fun _ => Kept.refl s) fun _ => ?_
      split
      · exact Kept.refl s
      · exact Kept.ite (fun _ => (Kept.refl s).modCan) fun _ => (Kept.refl s).modCan.emit)

theorem Kept.busOff (h : Kept s t) {c : Nat} {r : Rec} : Kept s (t.busOff c r) := by
  unfold State.busOff
  exact h.modCan.post

theorem Kept.canErrorState (h : Kept s t) {c : Nat} {r : Rec} : Kept s (t.canErrorState c r) :=
  Kept.ite (fun _ => h.busOff) fun _ => Kept.ite (fun _ => h.modCan.post) fun _ => h.modCan

theorem Kept.canSays (h : Kept s t) {o : Out} {r : Rec} : Kept s (t.canSays o r) := Kept.ite (fun _ => h.emit) fun _ => h

theorem Kept.canErrorFlag (h : Kept s t) {c : Nat} {r : Rec} : Kept s (t.canErrorFlag c r) := h.canSays

theorem Kept.rxStore (h : Kept s t) {c i k n : Nat} {r : Rec} {f : CanWire} {b : Bool} : Kept s (t.rxStore c i k n r f b) :=
  Kept.ite (fun _ => Kept.ite (fun _ => h.modCan) fun _ => h.modCan.post)
    fun _ => Kept.ite (fun _ => h.writeDev.modCan.post) fun _ => h.writeDev.modCan

theorem Kept.rxFrame (h : Kept s t) {c n : Nat} {r : Rec} {f : CanWire} {b : Bool} : Kept s (t.rxFrame c n r f b) := by
  unfold State.rxFrame
  split
  · exact h.modCan.modCan
  · exact h.modCan.rxStore

theorem Kept.recGood (h : Kept s t) {c : Nat} : Kept s (t.recGood c) := by
  unfold State.recGood
  exact Kept.ite (fun _ => h.modCan) fun _ => h.draw.modCan

theorem keeps_canFrameReceive {c : Fin 4} {x : CanRx} : Keeps s (execCanFrameReceive c x s) :=
  Kept.checked (by
    split
    · exact Kept.refl s
    · refine Kept.ite (fun _ => Kept.refl s) fun _ => ?_
      cases x with
      | frame f =>
        exact Kept.ite (fun _ => (Kept.refl s).canSays.rxFrame) fun _ => (Kept.refl s).canSays.rxFrame.recGood.canErrorState
      | error e a =>
        exact Kept.ite (fun _ => (Kept.refl s).canErrorFlag.modCan)
          fun _ => (Kept.refl s).canErrorFlag.modCan.modCan.canErrorState)

theorem Kept.writeRxHead (h : Kept s t) {p : Requester} {c i v : Nat} : Kept s (t.writeRxHead p c i v) :=
  Kept.ite (fun _ => h) fun _ => h.modCan

theorem Kept.spReplaced (h : Kept s t) {c n : Nat} : Kept s (t.spReplaced c n) :=
  Kept.ite (fun _ => h.modCan) fun _ => h.modCan.post

theorem Kept.offerSetpoint (h : Kept s t) {c : Nat} {f : CanFrame} : Kept s (t.offerSetpoint c f) := by
  refine Kept.ite (fun _ => Kept.modCan ?_) fun _ => Kept.ite (fun _ => h.spReplaced.modCan) fun _ => h.modCan
  split
  · exact h.spReplaced
  · exact h

theorem Kept.formSetpoint (h : Kept s t) {c : Nat} : Kept s (t.formSetpoint c) := by
  unfold State.formSetpoint
  split
  · exact h
  · exact h.offerSetpoint.modCan

theorem Kept.releaseHold (h : Kept s t) {c : Nat} {b : Bool} : Kept s (t.releaseHold c b) := by
  unfold State.releaseHold
  split
  · exact h
  · exact Kept.modCan (Kept.ite (fun _ => h) fun _ => h.spReplaced)

theorem Kept.txSent (h : Kept s t) {c : Nat} {x : CanSrc} : Kept s (t.txSent c x) := by
  unfold State.txSent
  cases x with
  | ref => exact h.modCan.modCan
  | queue => exact h.modCan.modCan
  | txb n => exact Kept.ite (fun _ => h.modCan.modCan.modCan.releaseHold) fun _ => h.modCan.modCan

theorem Kept.txFailed (h : Kept s t) {c n : Nat} {x : CanSrc} {r : Rec} : Kept s (t.txFailed c x n r) := by
  cases x with
  | ref => exact h
  | queue => exact Kept.ite (fun _ => h.modCan) fun _ => h
  | txb n =>
    exact Kept.ite (fun _ => h.releaseHold) fun _ => Kept.ite (fun _ => h.modCan) fun _ => Kept.ite (fun _ => h.modCan) fun _ => h

theorem keeps_canTxEnd {c : Fin 4} {x : CanTxEnd} : Keeps s (execCanTxEnd c x s) :=
  Kept.done (by
    split
    · refine Kept.ite (fun _ => Kept.refl s) fun _ => ?_
      extract_lets
      split
      · exact Kept.ite (fun _ => (Kept.refl s).txSent.modCan.canErrorState.rxFrame)
          fun _ => (Kept.refl s).txSent.modCan.canErrorState
      · exact (Kept.refl s).txFailed.modCan
      · exact (Kept.refl s).canErrorFlag.modCan.txFailed.modCan.canErrorState
    · exact Kept.refl s)

theorem Kept.canRecover (h : Kept s t) {p : Requester} {c v : Nat} : Kept s (t.canRecover p c v) :=
  Kept.ite (fun _ => h.modCan) fun _ => h

theorem keeps_canBusOn {c : Fin 4} : Keeps s (execCanBusOn c s) :=
  Kept.done (Kept.ite (fun _ => (Kept.refl s).modCan.post) fun _ => Kept.refl s)

theorem keeps_canJoinBus {c : Fin 4} : Keeps s (execCanJoinBus c s) :=
  Kept.done (Kept.ite (fun _ => (Kept.refl s).modCan) fun _ => Kept.refl s)

theorem keeps_canReferenceInstant {c : Fin 4} : Keeps s (execCanReferenceInstant c s) :=
  Kept.done (by
    split
    · exact Kept.ite (fun _ => Kept.refl s) fun _ =>
        Kept.modCan (Kept.ite (fun _ => (Kept.refl s).post) fun _ => Kept.refl s)
    · exact Kept.refl s)

theorem Kept.startCans (h : Kept s t) : Kept s t.startCans := h.foldl (fun x _ => (Kept.refl x).modCan) _

theorem Kept.resetCan (h : Kept s t) {c : Nat} : Kept s (t.resetCan c) := by
  unfold State.resetCan
  split
  · exact h
  · exact h.modCan

/-! ### SPI and UART -/

theorem Kept.spiStart (h : Kept s t) {m : Nat} {j : SpiJob} : Kept s (t.spiStart m j) :=
  Kept.ite (fun _ => h.modSpi.emit) fun _ => h.modSpi

theorem keeps_spiScriptTrigger {m k : Fin 2} : Keeps s (execSpiScriptTrigger m k s) :=
  Kept.done (by
    split
    · exact Kept.refl s
    · exact Kept.ite (fun _ => Kept.refl s) fun _ => Kept.ite (fun _ => (Kept.refl s).modSpi.spiStart) fun _ =>
        Kept.ite (fun _ => (Kept.refl s).modSpi.modSpi) fun _ => (Kept.refl s).modSpi.modSpi)

theorem Kept.spiRecord (h : Kept s t) {m k n : Nat} {b : List Byte} {r : Rec} : Kept s (t.spiRecord m k n b r) :=
  Kept.ite (fun _ => h.modSpi) fun _ => h.writeDev.modSpi

theorem keeps_spiTransferEnd {m : Fin 2} {b : List Byte} : Keeps s (execSpiTransferEnd m b s) :=
  Kept.checked (by
    split
    · rename_i r j _ _
      have got : Kept s (match j.script with
          | some k => s.spiRecord m k j.len (fit j.len 0 b) r
          | none => s.modSpi m fun y => { y with rxBuf := y.rxBuf.store 0 (fit j.len 0 b) }) := by
        split
        · exact (Kept.refl s).spiRecord
        · exact (Kept.refl s).modSpi
      dsimp only
      split
      · exact got.modSpi.spiStart
      · exact got.modSpi
    · exact Kept.refl s)

theorem Kept.writeSpiCmd (h : Kept s t) {p : Requester} {m v : Nat} : Kept s (t.writeSpiCmd p m v) :=
  Kept.ite (fun _ => h) fun _ => Kept.ite (fun _ => h.modSpi) fun _ => Kept.ite (fun _ => h) fun _ =>
    Kept.ite (fun _ => h.modSpi) fun _ => h.modSpi.spiStart

theorem Kept.writeSpiHead (h : Kept s t) {p : Requester} {m v : Nat} : Kept s (t.writeSpiHead p m v) :=
  Kept.ite (fun _ => h) fun _ => h.modSpi

theorem keeps_uartCharacterReceive {n : Fin 2} {b : List Vote} : Keeps s (execUartCharacterReceive n b s) :=
  Kept.checked (by
    split
    · exact Kept.refl s
    · exact Kept.ite (fun _ => Kept.refl s) fun _ => Kept.ite (fun _ => (Kept.refl s).modUart.modUart) fun _ =>
        Kept.ite (fun _ => (Kept.refl s).modUart.modUart.post) fun _ => (Kept.refl s).modUart.modUart)

theorem keeps_uartRearm {n : Fin 2} : Keeps s (execUartRearm n s) :=
  Kept.done (Kept.ite (fun _ => (Kept.refl s).modUart) fun _ => Kept.refl s)

theorem Kept.uartNext (h : Kept s t) {n : Nat} : Kept s (t.uartNext n) := by
  unfold State.uartNext
  dsimp only
  split
  · exact Kept.ite (fun _ => h.modUart.emit) fun _ => h
  · exact h

theorem Kept.writeTxdata (h : Kept s t) {p : Requester} {n v : Nat} : Kept s (t.writeTxdata p n v) :=
  Kept.ite (fun _ => h) fun _ => Kept.ite (fun _ => h.modUart) fun _ => Kept.ite (fun _ => h.modUart) fun _ =>
    h.modUart.uartNext

theorem Kept.readRxdata (h : Kept s t) {p : Requester} {n : Nat} : Kept s (t.readRxdata p n).2 := by
  unfold State.readRxdata
  split
  · split
    · exact h
    · dsimp only
      exact h.modUart
  · exact h

theorem keeps_uartRxdataRead {p : Requester} {n : Fin 2} {k : Nat} : Keeps s (execUartRxdataRead p n k s) :=
  Kept.done (Kept.ite (fun _ => (Kept.refl s).readRxdata.emit) fun _ => (Kept.refl s).emit)

theorem keeps_uartTxCharacterEnd {n : Fin 2} : Keeps s (execUartTxCharacterEnd n s) :=
  Kept.done (Kept.ite (fun _ => (Kept.refl s).modUart.uartNext) fun _ => Kept.refl s)

/-! ### Tool Spur, annunciator, PWM and GPIO -/

theorem Kept.setSpur (h : Kept s t) {x : SpurSt} : Kept s { t with ports := { t.ports with spur := x } } := h.same

theorem Kept.spurEnd (h : Kept s t) {n : Nat} {l : List Nat} : Kept s (t.spurEnd n l) := by
  unfold State.spurEnd
  exact h.setSpur.post

theorem keeps_spurSearchEnd {l : List SpurPass} {b : Bool} : Keeps s (execSpurSearchEnd l b s) :=
  Kept.checked (by
    refine Kept.ite (fun _ => Kept.refl s) fun _ => ?_
    split
    rename_i outs _
    have said : Kept s (if s.outputsUp then outs.foldl (fun (t : State) o => t.emit o) s else s) :=
      Kept.ite (fun _ => (Kept.refl s).foldl (fun x _ => (Kept.refl x).emit) _) fun _ => Kept.refl s
    exact Kept.ite (fun _ => said.spurEnd) fun _ => said.spurEnd)

theorem keeps_spurAnnounce : Keeps s (execSpurAnnounce s) :=
  Kept.done (Kept.ite (fun _ => Kept.refl s) fun _ => Kept.ite (fun _ => (Kept.refl s).setSpur) fun _ => (Kept.refl s).setSpur.post)

theorem Kept.modAnn (h : Kept s t) {g : AnnSt → AnnSt} : Kept s (t.modAnn g) := h.same

theorem Kept.writeTone (h : Kept s t) {p : Requester} {v : Nat} : Kept s (t.writeTone p v) :=
  Kept.ite (fun _ => h) fun _ => h.modAnn

/-- A warning channel's loss and return, and REDUCED, are noted. -/
theorem Kept.setWarn (h : Kept s t) {a b : Bool} : Kept s { t with verge := { t.verge with warnLost := a, reduced := b } } :=
  h.setVerge _ id id

theorem Kept.warningLost (h : Kept s t) : Kept s t.warningLost :=
  Kept.ite (fun _ => h) fun _ => Kept.ite (fun _ => h.raise.setWarn.post) fun _ => h.raise.setWarn

theorem keeps_annTrip : Keeps s (execAnnTrip s) :=
  Kept.done (Kept.ite (fun _ => Kept.refl s) fun _ => Kept.ite (fun _ => (Kept.refl s).modAnn.warningLost)
    fun _ => (Kept.refl s).modAnn.warningLost.post)

theorem keeps_annRetry : Keeps s (execAnnRetry s) := Kept.done (Kept.ite (fun _ => (Kept.refl s).modAnn) fun _ => Kept.refl s)

theorem keeps_annOpenLoad : Keeps s (execAnnOpenLoad s) :=
  Kept.done (Kept.ite (fun _ => (Kept.refl s).warningLost) fun _ => Kept.refl s)

theorem keeps_annRestored : Keeps s (execAnnRestored s) :=
  Kept.done (Kept.ite (fun _ => Kept.ite (fun _ => (Kept.refl s).setWarn.post) fun _ => (Kept.refl s).setWarn) fun _ => Kept.refl s)

theorem keeps_pwmPeriodStart {n : Fin 8} : Keeps s (execPwmPeriodStart n s) :=
  Kept.done (by
    split
    · exact Kept.ite (fun _ => Kept.refl s) fun _ => (Kept.refl s).modPwm.emit
    · exact Kept.refl s)

theorem Kept.writeDuty (h : Kept s t) {p : Requester} {n v : Nat} : Kept s (t.writeDuty p n v) :=
  Kept.ite (fun _ => h) fun _ => Kept.ite (fun _ => h.modPwm) fun _ => h.modPwm

theorem Kept.modGpio (h : Kept s t) {g : GpioSt → GpioSt} : Kept s (t.modGpio g) := h.same

theorem Kept.gpioDrive (h : Kept s t) {d o : BitVec 16} : Kept s (t.gpioDrive d o) :=
  Kept.ite (fun _ => h.modGpio) fun _ => h.modGpio.emit

theorem Kept.writeGpio (h : Kept s t) {p : Requester} {g : BitVec 16 → BitVec 16 → BitVec 16} : Kept s (t.writeGpio p g) := by
  unfold State.writeGpio
  split
  · exact h
  · exact Kept.ite (fun _ => h) fun _ => h.gpioDrive

theorem keeps_gpioEdge {n : Fin 16} {b : Bool} : Keeps s (execGpioEdge n b s) :=
  Kept.done (Kept.ite (fun _ => Kept.refl s) fun _ => Kept.ite (fun _ => (Kept.refl s).modGpio) fun _ =>
    Kept.ite (fun _ => (Kept.refl s).modGpio.modGpio.post) fun _ => (Kept.refl s).modGpio.modGpio)

theorem Kept.restartPwm (h : Kept s t) {n : Nat} : Kept s (t.restartPwm n) := by
  unfold State.restartPwm
  exact h.modPwm

theorem Kept.startPorts (h : Kept s t) : Kept s t.startPorts := by
  unfold State.startPorts
  exact (((h.startEncoders.foldl (fun x _ => (Kept.refl x).modSpi.modUart) _).foldl
    (fun x _ => (Kept.refl x).restartPwm) _).modGpio).gpioDrive

theorem Kept.resetPort (h : Kept s t) {b : Nat} : Kept s (t.resetPort b) :=
  Kept.ite (fun _ => h.resetCan) fun _ => Kept.ite (fun _ => h.modEnc) fun _ => Kept.ite (fun _ => h.restartPwm) fun _ =>
    Kept.ite (fun _ => h.modSpi) fun _ => Kept.ite (fun _ => h.modUart) fun _ => Kept.ite (fun _ => h.spurEnd) fun _ => h

end Sys2Proof.Machine
end

section
/-! PROOF. The canonical form of the state's maps and the STO channels, over power, the loops, Verge and the Twin Link. -/

namespace Sys2Proof.Machine

set_option Elab.async false

variable {s t u : State}

/-! ### Power -/

theorem Kept.haltHostQueues (h : Kept s t) : Kept s t.haltHostQueues := h.foldl (fun x _ => (Kept.refl x).modQueue) _

theorem Kept.holdEvents (h : Kept s t) {b : Bool} {l : List Nat} : Kept s (t.holdEvents b l) :=
  h.foldl (fun x _ => (Kept.refl x).modFn) _

theorem Kept.setLink (h : Kept s t) {l : LinkSt} : Kept s { t with link := l } := h.same

theorem Kept.linkLost (h : Kept s t) : Kept s t.linkLost :=
  Kept.ite (fun _ => h.setLink.haltHostQueues.holdEvents.enterFence) fun _ => h.enterFence

theorem Kept.dropRing (h : Kept s t) {f : Nat} : Kept s (t.dropRing f) := by
  unfold State.dropRing
  exact h.modFn

theorem Kept.clearCounters (h : Kept s t) {f : Nat} : Kept s (t.clearCounters f) :=
  h.change fun c => { c with counters := Map.wf_filter _ _ _ c.counters }

theorem Kept.dropPools (h : Kept s t) {f : Nat} : Kept s (t.dropPools f) := h.unregister

theorem Kept.pfFlr (h : Kept s t) : Kept s t.pfFlr := by
  unfold State.pfFlr
  exact Kept.change (h.dropRing.clearCounters.dropPools.closeIntake) fun c => { c with outcomes := Map.wf_filter _ _ _ c.outcomes }

theorem keeps_linkDown {x : LinkDownCause} : Keeps s (execLinkDown x s) :=
  Kept.done (by
    have lost : Kept s (if s.link.up then s.linkLost else s) := Kept.ite (fun _ => (Kept.refl s).linkLost) fun _ => Kept.refl s
    cases x
    case pfFlr => exact lost.pfFlr
    case d3hot => exact lost.modFn
    all_goals exact lost)

theorem Kept.resetConfig (h : Kept s t) : Kept s t.resetConfig := by
  unfold State.resetConfig
  exact (h.foldl (fun x _ => (Kept.refl x).modFn) _).setLink

theorem Kept.lowerFence (h : Kept s t) {b : Nat} : Kept s (t.lowerFence b) :=
  Kept.ite (fun _ => Kept.ite (fun _ => h.modFence.postFence.same) fun _ => h.modFence.postFence) fun _ => h

theorem keeps_linkUp {w r : BitVec 4} : Keeps s (execLinkUp w r s) :=
  Kept.done (Kept.ite (fun _ => Kept.refl s) fun _ => (Kept.refl s).resetConfig.setLink.lowerFence.post.holdEvents)

theorem Kept.fenceBlocks (h : Kept s t) {l : List Nat} : Kept s (t.fenceBlocks l) := h.foldl (fun x _ => (Kept.refl x).enterFence) _

theorem Kept.lpddrCleared (h : Kept s t) : Kept s t.lpddrCleared := by
  unfold State.lpddrCleared
  exact h.zeroRange.same

theorem canonical_hardOnly {m : MemSpace} (h : m.canonical = true) : m.hardOnly.canonical = true := by
  rw [MemSpace.canonical_iff] at h ⊢
  exact ⟨rfl, rfl, h.2.2⟩

theorem canonical_atReset {s : State} (h : s.canonical = true) : s.atReset.canonical = true := by
  obtain ⟨sward, lpddr, tag, pic, host, bad, _⟩ := (MemSt.canonical_iff _).1 (canonical_iff.1 h).mem
  have mem : s.atReset.mem.canonical = true := (MemSt.canonical_iff _).2
    ⟨canonical_hardOnly sward, canonical_hardOnly lpddr, canonical_hardOnly tag, canonical_hardOnly pic, host, bad, rfl⟩
  exact canonical_iff.2 ⟨mem, rfl, rfl, rfl, rfl, rfl, rfl, rfl, rfl, rfl, rfl, rfl, rfl, rfl, rfl, rfl, rfl, rfl, rfl, rfl,
    rfl, rfl⟩

theorem Kept.toOff (h : Kept s t) : Kept s t.toOff :=
  toOff_eq t ▸ h.outputsDown.trans ⟨canonical_atReset, nofun, nofun⟩

theorem Kept.railLost (h : Kept s t) {r : Rail} : Kept s (t.railLost r) := by
  cases r
  case vctl => exact h.toOff
  case vio18 => exact h.toOff
  case vio33 => exact h.raise.outputsDown
  case vfield => exact h.raise.outputsDown
  case vcore => exact Kept.ite (fun _ => h.piLoss) fun _ => h.raise
  case vddq => exact h.fenceBlocks.lpddrCleared
  case vdd2h => exact h.fenceBlocks.lpddrCleared
  case vphyHs => exact h.linkLost.fenceBlocks
  case vphyMipi => exact h.fenceBlocks

theorem Kept.toRomWait (h : Kept s t) : Kept s t.toRomWait := by
  refine Kept.ite (fun _ => ?_) fun _ => h
  exact Kept.foldl (Kept.enter h.same) (fun x _ => (Kept.refl x).railLost) _

theorem keeps_supplyLoss {r : Rail} : Keeps s (execSupplyLoss r s) :=
  Kept.done (by
    have lost : Kept s { s with lostRails := s.lostRails ++ [r] } := (Kept.refl s).same
    exact Kept.ite (fun _ => Kept.refl s) fun _ => Kept.ite (fun _ => lost) fun _ => lost.railLost)

theorem keeps_supplyRestore {r : Rail} : Keeps s (execSupplyRestore r s) :=
  Kept.done (by
    have back : Kept s { s with lostRails := s.lostRails.filter (· ≠ r) } := (Kept.refl s).same
    exact Kept.ite (fun _ => Kept.refl s) fun _ => Kept.ite (fun _ => back.toRomWait) fun _ => Kept.ite (fun _ => back.same) fun _ => back)

theorem Kept.exitPi (h : Kept s t) : Kept s t.exitPi := by
  unfold State.exitPi
  have cleared : Kept s ((t.zeroSward.unregister fun _ => true).closeIntake fun _ => true) := h.zeroSward.unregister.closeIntake
  generalize (t.zeroSward.unregister fun _ => true).closeIntake (fun _ => true) = x at cleared
  have lowered := (cleared.same (u := { x with
    piReset := false, pace := { x.pace with thermalFence := false, hostReset := false },
    fw := { x.fw with runSinceZero := x.active } })).foldl (f := fun (t : State) b => if (t.fenceOf b).poweredDown then t else t.lowerFence b)
    (fun x _ => Kept.ite (fun _ => Kept.refl x) fun _ => (Kept.refl x).lowerFence) (0x60 :: piBlocks)
  exact Kept.ite (fun _ => lowered.enter) fun _ => lowered

theorem keeps_fenceExit {b : BitVec 8} : Keeps s (execFenceExit b s) :=
  Kept.done (Kept.ite (fun _ => Kept.refl s) fun _ => Kept.ite
    (fun _ => Kept.ite (fun _ => (Kept.refl s).exitPi) fun _ => Kept.refl s) fun _ =>
    Kept.ite (fun _ => Kept.refl s) fun _ => (Kept.refl s).lowerFence)

/-! ### Loops -/

theorem Kept.postFallbacks (h : Kept s t) {l : Nat} {x : LoopSt} {r : List (ReadEntry × ReadSt)} : Kept s (t.postFallbacks l x r) :=
  h.foldl (fun y _ => Kept.ite (fun _ => Kept.refl y) fun _ => (Kept.refl y).post) _

theorem Kept.feedForward (h : Kept s t) {r : List (ReadEntry × ReadSt)} : Kept s (t.feedForward r).2 := by
  unfold State.feedForward
  split
  · exact h
  · exact h
  · exact h.draw

theorem Kept.evaluate (h : Kept s t) {l : Nat} {r : Rec} {e : List (ReadEntry × ReadSt)} : Kept s (t.evaluate l r e).2 := by
  unfold State.evaluate
  extract_lets x pos vel y
  clear_value y
  cases y with
  | none => exact h
  | some fb =>
    dsimp only
    exact h.feedForward

theorem Kept.raiseMarks (h : Kept s t) {l : Nat} : Kept s (t.raiseMarks l) :=
  h.foldl (fun x _ => Kept.ite (fun _ => (Kept.refl x).modGpio.emit) fun _ => Kept.refl x) _

theorem Kept.triggerScripts (h : Kept s t) {l a : Nat} : Kept s (t.triggerScripts l a) := by
  refine h.foldl (fun x m => ?_) _
  split
  · exact Kept.refl x
  · exact (Kept.refl x).foldl (fun y _ => Kept.ite (fun _ => (Kept.refl y).modSpi) fun _ => Kept.refl y) _

theorem keeps_loopSampleInstant {l : Fin 32} : Keeps s (execLoopSampleInstant l s) :=
  Kept.done (by
    split
    · exact Kept.ite (fun _ => Kept.refl s) fun _ => Kept.triggerScripts (Kept.raiseMarks
        (Kept.ite (fun _ => (Kept.refl s).modLoop.encSample.encDeliver) fun _ => (Kept.refl s).modLoop.encSample))
    · exact Kept.refl s)

theorem keeps_sampleMarkEnd {p : Fin 16} : Keeps s (execSampleMarkEnd p s) :=
  Kept.done (Kept.ite (fun _ => (Kept.refl s).modGpio.emit) fun _ => Kept.refl s)

/-- What an evaluation says when it has set its loop: a stop that it requests, the fallbacks that begin and end, and a
divergence of the lockstep pair. -/
def State.evaluated (l : Nat) (x : LoopSt) (reads : List (ReadEntry × ReadSt)) (cat : Reaction) (o : CeOutcome) (s : State) :
    State :=
  let t := (if stopRequested x reads then s.raise 0x8A0D l cat 0 else s).postFallbacks l x reads
  if o = .diverge then t.raise 0x8A01 0xFF .immediate 0 else t

theorem Kept.evaluated (h : Kept s t) {l : Nat} {x : LoopSt} {reads : List (ReadEntry × ReadSt)} {cat : Reaction}
    {o : CeOutcome} : Kept s (t.evaluated l x reads cat o) := by
  have told := Kept.postFallbacks (l := l) (x := x) (r := reads) (Kept.ite (c := stopRequested x reads = true)
    (fun _ => h.raise (code := 0x8A0D) (unit := l) (r := cat) (detail := 0)) fun _ => h)
  exact Kept.ite (fun _ => told.raise) fun _ => told

theorem keeps_loopEvaluation {o : CeOutcome} : Keeps s (execLoopEvaluation o s) :=
  Kept.done (by
    refine Kept.ite (fun _ => Kept.refl s) fun _ => ?_
    split
    · exact Kept.refl s
    · split
      · extract_lets x taken reads
        have base : Kept s taken := (Kept.refl s).modLoop
        refine Kept.ite (fun _ => base.raise) fun _ => ?_
        split
        rename_i res s1 made
        have after : Kept s s1 := base.evaluate.of_pair made
        cases res with
        | none => exact after.modLoop.evaluated
        | some p => exact after.modLoop.endRamps.evaluated
      · exact Kept.refl s)

theorem keeps_diagnosticEvaluation {a b c : Bool} : Keeps s (execDiagnosticEvaluation a b c s) :=
  Kept.done (Kept.ite (fun _ => Kept.refl s) fun _ => Kept.ite (fun _ => (Kept.refl s).raise) fun _ =>
    Kept.ite (fun _ => (Kept.refl s).raise) fun _ => Kept.refl s)

theorem keeps_loopActuation {l : Fin 32} : Keeps s (execLoopActuation l s) :=
  Kept.done (by
    split
    · rename_i r a ok rest _ _
      refine Kept.ite (fun _ => Kept.refl s) fun _ => ?_
      extract_lets s1 s2 n s3
      have base : Kept s s1 := (Kept.refl s).modLoop
      have out : Kept s s2 := by
        unfold s2
        split
        · exact Kept.ite (fun _ => base.formSetpoint) fun _ => base
        · exact base.modPwm
        · exact base
      exact Kept.ite (fun _ => out) fun _ => Kept.ite (fun _ => out.modLoop.raise) fun _ => out.modLoop
    · exact Kept.refl s)

theorem keeps_ciScrub {x : CheckOutcome} : Keeps s (execCiScrub x s) :=
  Kept.done (by
    split
    · exact Kept.ite (fun _ => Kept.refl s) fun _ => (Kept.refl s).raise
    · exact Kept.refl s)

theorem Kept.startLoops (h : Kept s t) : Kept s t.startLoops := by
  refine h.foldl (fun x l => ?_) _
  dsimp only
  split
  · exact Kept.refl x
  · exact (Kept.refl x).modLoop

/-! ### Verge and the Twin Link -/

theorem Kept.detect (h : Kept s t) {code unit : Nat} {r : Reaction} {n : Nat} : Kept s (t.detect code unit r n) :=
  Kept.ite (fun _ => h) fun _ => h.raise

theorem keeps_ciCheckerTest {x : CheckOutcome} : Keeps s (execCiCheckerTest x s) :=
  Kept.done (by
    split
    · exact (Kept.refl s).detect
    · exact Kept.refl s)

theorem keeps_piCheckerTest {x : PiCheck} : Keeps s (execPiCheckerTest x s) :=
  Kept.done (by
    split
    · exact Kept.refl s
    all_goals exact (Kept.refl s).detect)

theorem keeps_stoFeedbackDiscrepancy {b : Bool} : Keeps s (execStoFeedbackDiscrepancy b s) :=
  Kept.done (Kept.ite (fun _ => Kept.refl s) fun _ => (Kept.refl s).detect)

theorem keeps_stopTimeout : Keeps s (execStopTimeout s) :=
  Kept.done (Kept.ite (fun _ => (Kept.refl s).assertSto) fun _ => Kept.refl s)

theorem Kept.modTwin (h : Kept s t) {g : TwinSt → TwinSt} : Kept s (t.modTwin g) := h.setVerge _ id id

theorem keeps_twinFrameTransmit : Keeps s (execTwinFrameTransmit s) :=
  Kept.done (by
    split
    · refine Kept.ite (fun _ => Kept.refl s) fun _ => ?_
      split
      exact (Kept.refl s).modTwin.emit
    · exact Kept.refl s)

theorem Kept.setPartnerStop (h : Kept s t) {b : Bool} : Kept s { t with verge := { t.verge with partnerStop := b } } :=
  h.setVerge _ id id

theorem Kept.partnerStopNow (h : Kept s t) : Kept s t.partnerStopNow :=
  Kept.ite (fun _ => h) fun _ => h.setPartnerStop.orderStop

theorem Kept.crossCheck (h : Kept s t) {r : Rec} {f : TwinFields} {n : Nat} : Kept s (t.crossCheck r f n) := by
  have told : Kept s (if f.stop ≠ 0 ∧ f.stop ≠ n ∧ t.active then (t.post 0x0A0B f.stop none).partnerStopNow else t) :=
    Kept.ite (fun _ => h.post.partnerStopNow) fun _ => h
  exact Kept.ite (fun _ => Kept.ite (fun _ => told.modTwin.raise) fun _ => told.modTwin) fun _ => told.modTwin

theorem Kept.twinValid (h : Kept s t) {r : Rec} {f : TwinFields} : Kept s (t.twinValid r f) := by
  unfold State.twinValid
  extract_lets w s1 s2
  have seen : Kept s s2 := Kept.ite (fun _ => Kept.post (Kept.modTwin h)) fun _ => Kept.modTwin h
  exact Kept.ite (fun _ => seen.crossCheck) fun _ => seen

theorem Kept.twinFrame (h : Kept s t) {r : Rec} {f : TwinFields} : Kept s (t.twinFrame r f) :=
  Kept.ite (fun _ => h) fun _ => Kept.ite (fun _ => Kept.ite (fun _ => h) fun _ => h.post.modTwin) fun _ => h.twinValid

theorem keeps_twinFrameReceive {n : Fin 2} {b : BitVec 256} : Keeps s (execTwinFrameReceive n b s) :=
  Kept.done (by
    split
    · exact Kept.refl s
    · extract_lets l
      split
      · exact Kept.ite (fun _ => (Kept.refl s).modTwin.post) fun _ => (Kept.refl s).modTwin
      · extract_lets raw
        split
        exact Kept.ite (fun _ => (Kept.refl s).modTwin.post) fun _ =>
          Kept.ite (fun _ => (Kept.refl s).modTwin.twinFrame) fun _ => (Kept.refl s).modTwin)

theorem keeps_twinMissWindow : Keeps s (execTwinMissWindow s) :=
  Kept.done (by
    split
    · exact Kept.refl s
    · exact Kept.ite (fun _ => Kept.refl s) fun _ => Kept.ite (fun _ => (Kept.refl s).modTwin) fun _ =>
        Kept.ite (fun _ => Kept.ite (fun _ => (Kept.refl s).modTwin.post.partnerStopNow) fun _ => (Kept.refl s).modTwin.post)
          fun _ => (Kept.refl s).modTwin.post)

theorem Kept.startVerge (h : Kept s t) : Kept s t.startVerge := h.setVerge _ id id

theorem Kept.rearm (h : Kept s t) : Kept s t.rearm := by
  unfold State.rearm
  extract_lets v
  refine Kept.foldl (h.setVerge _ ?_ ?_) (fun x _ => ?_) _
  · exact id
  · exact id
  · exact Kept.ite (fun _ => (Kept.refl x).modLoop) fun _ => Kept.refl x

end Sys2Proof.Machine
end

section
/-! PROOF. The canonical form of the state's maps and the STO channels, over bring-up and Signpost. -/

namespace Sys2Proof.Machine

set_option Elab.async false

variable {s t u : State}

/-! ### Bring-up -/

/-- A change of the firmware's state. -/
theorem Kept.setFw (h : Kept s t) {x : FwSt} : Kept s { t with fw := x } := h.same

theorem Kept.respond (h : Kept s t) {f op st d : Nat} {b : List Byte} : Kept s (t.respond f op st d b) := by
  unfold State.respond
  exact Kept.ite (fun _ => h.modFn.signal.qspiSet) fun _ => h.modFn.signal

theorem Kept.answer (h : Kept s t) {f op : Nat} {b : List Byte} : Kept s (t.answer f op b) := h.respond

theorem keeps_fwVerifyEnd : Keeps s (execFwVerifyEnd s) :=
  Kept.done (by
    refine Kept.ite (fun _ => Kept.refl s) fun _ => Kept.ite (fun _ => (Kept.refl s).setFw.enter.respond) fun _ => ?_
    exact (Kept.refl s).setFw.vcoreCommand.enter.respond)

theorem Kept.stoTest (h : Kept s t) {x : Option TestFail} : Kept s (t.stoTest x) := by
  unfold State.stoTest
  extract_lets n f x
  have at_ (k : Nat) (o : Out) (y : State) (g : Kept s y) : Kept s (f k o y) := Kept.ite (fun _ => g.emit) fun _ => g
  have first : Kept s x := at_ _ _ _ (at_ _ _ _ (at_ _ _ _ h))
  exact Kept.ite (fun _ => first.emit) fun _ => Kept.ite (fun _ => first.emit) fun _ => first

theorem Kept.testFailed (h : Kept s t) {x : TestFail} : Kept s (t.testFailed x) := h.setFw.enter

theorem Kept.zeroingOwed (h : Kept s t) {l : List Nat} :
    Kept s { t with mem := { t.mem with pendGran := l, zeroOwed := true } } := h.ofMem

theorem Kept.testsDone (h : Kept s t) : Kept s t.testsDone := by
  have zeroed : Kept s ({ t with
      fw := { t.fw with testResult := List.replicate 8 1, testStatus := 0, testPassed := true, runSinceZero := false,
                        scrubbing := true },
      pace := { t.pace with unconfirmed := false, pending := none } }.zeroSward) := Kept.zeroSward h.same
  exact zeroed.zeroingOwed.zeroDone.enter

theorem keeps_selftestEnd {o : SelfTestObs} : Keeps s (execSelftestEnd o s) :=
  Kept.done (by
    refine Kept.ite (fun _ => Kept.refl s) fun _ => ?_
    have tested : Kept s { s.stoTest (s.firstFail o) with free := s.free + 1 } := (Kept.refl s).stoTest.same
    cases found : s.firstFail o with
    | none => exact (found ▸ tested).testsDone
    | some x => exact (found ▸ tested).testFailed)

theorem Kept.dropSource (h : Kept s t) : Kept s t.dropSource := by
  unfold State.dropSource
  split
  · exact Kept.ite (fun _ => h) fun _ => h.freeRun
  · exact h.freeRun

theorem Kept.routeResult (h : Kept s t) {e : Report} : Kept s (t.routeResult e) := h.setFw.enter.post

theorem Kept.acceptBook (h : Kept s t) {l : List Rec} : Kept s (t.acceptBook l) := by
  have owned (x : State) (k : Kept s x) : Kept s (x.markPending x.shareGranules) := k.markPending
  have zeroed (x : State) (k : Kept s x) :
      Kept s (if x.fw.runSinceZero then { x with fw := { x.fw with runSinceZero := false } }.zeroSward else x) :=
    Kept.ite (fun _ => k.setFw.zeroSward) fun _ => k
  unfold State.acceptBook
  exact ((zeroed _ (owned _ h.setFw.unregister)).foldl (fun x _ => (Kept.refl x).modLoop) _).modTwin

theorem keeps_validateEnd {x : Option Nat} : Keeps s (execValidateEnd x s) :=
  Kept.done (by
    refine Kept.ite (fun _ => Kept.refl s) fun _ => ?_
    split
    · exact (Kept.refl s).setFw.dropSource.routeResult
    · exact (Kept.refl s).acceptBook.dropSource.routeResult)

theorem Kept.startPace (h : Kept s t) : Kept s t.startPace := h.same

theorem wf_eachSet {α : Type} [DecidableEq α] {d : α} (g : Map α → Nat → α) (l : List Nat) {m : Map α} (h : Map.wf d m = true) :
    Map.wf d (l.foldl (fun (m : Map α) k => m.set d k (g m k)) m) = true := by
  induction l generalizing m with
  | nil => exact h
  | cons k r ih => exact ih (Map.wf_set _ _ _ _ h)

theorem Kept.setWaymarks (h : Kept s t) {m : Map WmSlot}
    (k : Map.wf WmSlot.init t.waymarks = true → Map.wf WmSlot.init m = true) : Kept s { t with waymarks := m } :=
  h.change fun c => { c with waymarks := k c.waymarks }

theorem Kept.zeroWaymarks (h : Kept s t) : Kept s t.zeroWaymarks := by
  unfold State.zeroWaymarks
  exact h.setWaymarks (wf_eachSet _ _)

/-- The counters, the queues and what the Scheduler remembers, as START leaves them. -/
def State.emptied (s : State) : State :=
  { s with counters := [], queues := [],
           sched := { s.sched with flight := s.sched.flight.filter (·.running), outcomes := [], lastWriter := [] } }

theorem Kept.emptied (h : Kept s t) : Kept s t.emptied :=
  h.change fun c => { c with counters := rfl, queues := rfl, outcomes := rfl, lastWriter := rfl }

theorem Kept.freshWork (h : Kept s t) : Kept s t.freshWork := by
  unfold State.freshWork
  exact h.emptied.reloadCredits.unregister.closeIntake

theorem Kept.startTime (h : Kept s t) : Kept s t.startTime := Kept.ite (fun _ => h) fun _ => h.freeRun

/-- What entering RUN notes before it starts the parts. -/
def State.runNoted (s : State) : State :=
  { s with reachedRun := true, fw := { s.fw with runSinceZero := true, piHeld := false }, outputsUp := s.fieldPower }

theorem Kept.runNoted (h : Kept s t) : Kept s t.runNoted := h.same

theorem Kept.enterRun (h : Kept s t) : Kept s t.enterRun := by
  have started := h.runNoted.zeroWaymarks.freshWork.startPace.startTime.startCameras.startLoops.startCans.startPorts.startVerge
  exact started.enter

theorem keeps_clearFaultRetestEnd {o : SelfTestObs} : Keeps s (execClearFaultRetestEnd o s) :=
  Kept.done (by
    refine Kept.ite (fun _ => Kept.refl s) fun _ => ?_
    have tested : Kept s (s.stoTest (s.retestFail o)).outputsDown := (Kept.refl s).stoTest.outputsDown
    cases found : s.retestFail o with
    | none => exact (found ▸ tested).enter.respond
    | some x => exact (found ▸ tested).testFailed.respond)

/-! ### Signpost -/

theorem Kept.ifFields (h : Kept s t) {f op : Nat} {l : List (Bool × Nat)} {g : State → State} (k : Kept s (g t)) :
    Kept s (t.ifFields f op l g) := by
  unfold State.ifFields
  split
  · exact h.respond
  · exact k

theorem Kept.markOwed (h : Kept s t) {x : State} : Kept s (State.markOwed x t) := h.foldl (fun x _ => (Kept.refl x).modFn) _

theorem Kept.cmdFwLoad (h : Kept s t) {b : List Byte} : Kept s (t.cmdFwLoad b) := by
  unfold State.cmdFwLoad
  extract_lets
  exact h.ifFields h.setFw.answer

theorem Kept.cmdLoopMode (h : Kept s t) {b : List Byte} : Kept s (t.cmdLoopMode b) := by
  unfold State.cmdLoopMode
  extract_lets
  exact h.ifFields h.modLoop.answer

theorem Kept.cmdFwCommit (h : Kept s t) {b : List Byte} : Kept s (t.cmdFwCommit b) := h.setFw.enter.markOwed.modFn

theorem Kept.cmdSelftestReport (h : Kept s t) : Kept s t.cmdSelftestReport := by
  unfold State.cmdSelftestReport
  exact Kept.ite (fun _ => h.draw.answer) fun _ => h.answer

theorem Kept.copyBook (h : Kept s t) {a n : Nat} : Kept s (t.copyBook a n).2 := by
  unfold State.copyBook
  dsimp only
  have read : Kept s (t.readMem .lp none a n).2.2 := h.readMem
  generalize t.readMem .lp none a n = x at read ⊢
  refine Kept.foldl_snd (x := (x.1, x.2.2)) read (fun x k => ?_) _
  exact Kept.ite_snd (fun _ => (Kept.refl x.2).draw) fun _ => Kept.refl x.2

theorem Kept.cmdRouteCommit (h : Kept s t) {b : List Byte} : Kept s (t.cmdRouteCommit b) := by
  unfold State.cmdRouteCommit
  refine h.ifFields ?_
  dsimp only
  exact h.copyBook.setFw.enter.answer

theorem Kept.cmdSetMilestone (h : Kept s t) {b : List Byte} : Kept s (t.cmdSetMilestone b) :=
  Kept.ite (fun _ => h.respond) fun _ => h.jumpMs.answer

theorem Kept.cmdStart (h : Kept s t) : Kept s t.cmdStart :=
  Kept.ite (fun _ => h.setFw.enter.respond) fun _ => Kept.ite (fun _ => h.respond) fun _ => Kept.ite (fun _ => h.respond)
    fun _ => Kept.ite (fun _ => h.respond) fun _ => h.enterRun.answer

theorem Kept.startRetest (h : Kept s t) : Kept s t.startRetest := by
  unfold State.startRetest
  exact h.markOwed.modFn

theorem Kept.cmdClearFault (h : Kept s t) : Kept s t.cmdClearFault := by
  unfold State.cmdClearFault
  exact Kept.ite (fun _ => h.respond) fun _ => Kept.ite (fun _ => h.respond) fun _ => Kept.ite
    (fun _ => Kept.ite (fun _ => h.draw.respond) fun _ => h.draw.startRetest) fun _ => h.startRetest

theorem Kept.cmdResetDevice (h : Kept s t) {b : List Byte} : Kept s (t.cmdResetDevice b) := by
  unfold State.cmdResetDevice
  exact h.ifFields h.answer.toOff

theorem Kept.cmdPaceSet (h : Kept s t) {b : List Byte} : Kept s (t.cmdPaceSet b) := by
  unfold State.cmdPaceSet
  extract_lets
  exact h.ifFields (Kept.answer h.same)

theorem Kept.cmdPiReset (h : Kept s t) : Kept s t.cmdPiReset := by
  refine Kept.ite (fun _ => h.respond) fun _ => ?_
  have told : Kept s { t with pace := { t.pace with hostReset := t.pace.thermalFence } } := h.same
  exact Kept.ite (fun _ => told.respond) fun _ => Kept.answer told.fencePi.same

theorem Kept.blockRestart (h : Kept s t) {n : Nat} : Kept s (t.blockRestart n) :=
  Kept.ite (fun _ => h.enterFence.closeIntake) fun _ => h.enterFence.resetPort

theorem Kept.blockAction (h : Kept s t) {n a : Nat} : Kept s (t.blockAction n a).2 := by
  unfold State.blockAction
  extract_lets f
  split
  · dsimp only
    exact h.enterFence.modFence
  · exact Kept.ite_snd (fun _ => Kept.same (t := t.modFence n _) h.modFence) fun _ => h
  · exact Kept.ite_snd (fun _ => h) fun _ => h.blockRestart

theorem Kept.cmdBlockControl (h : Kept s t) {b : List Byte} : Kept s (t.cmdBlockControl b) := by
  unfold State.cmdBlockControl
  extract_lets
  exact h.ifFields (Kept.ite (fun _ => h.respond) fun _ => h.blockAction.respond)

theorem Kept.cmdEventRingSet (h : Kept s t) {f : Nat} {b : List Byte} : Kept s (t.cmdEventRingSet f b) := by
  unfold State.cmdEventRingSet
  extract_lets
  exact h.ifFields h.modFn.answer

theorem Kept.withQueue (h : Kept s t) {f op : Nat} {b : List Byte} {g : QueueInfo → State → State}
    (k : ∀ i, Kept s (g i t)) : Kept s (t.withQueue f op b g) := by
  unfold State.withQueue
  split
  · exact k _
  · exact h.respond

theorem Kept.restartQueue (h : Kept s t) {i : QueueInfo} : Kept s (t.restartQueue i).2 :=
  Kept.ite_snd (fun _ => h) fun _ => (h.modQueue.foldl (fun x _ => (Kept.refl x).writeRecord) _).holdEvents

theorem Kept.cmdQueueRestart (h : Kept s t) {f : Nat} {b : List Byte} : Kept s (t.cmdQueueRestart f b) :=
  h.withQueue fun _ => h.restartQueue.answer

theorem Kept.cmdContextInfo (h : Kept s t) {f : Nat} {b : List Byte} : Kept s (t.cmdContextInfo f b) := by
  unfold State.cmdContextInfo
  split
  · exact h.respond
  · exact h.answer

theorem Kept.cmdLoopTableWrite (h : Kept s t) {b : List Byte} : Kept s (t.cmdLoopTableWrite b) := by
  unfold State.cmdLoopTableWrite
  extract_lets
  exact h.ifFields (Kept.ite (fun _ => h.respond) fun _ => h.modLoop.answer)

theorem Kept.cmdLoopStatus (h : Kept s t) {b : List Byte} : Kept s (t.cmdLoopStatus b) := by
  unfold State.cmdLoopStatus
  extract_lets
  exact h.ifFields (Kept.answer (Kept.ite (fun _ => h.modLoop) fun _ => h))

theorem Kept.cmdTwinRearm (h : Kept s t) : Kept s t.cmdTwinRearm :=
  Kept.ite (fun _ => h.respond) fun _ => Kept.ite (fun _ => h.respond) fun _ => h.rearm.answer

theorem Kept.cmdAnnClear (h : Kept s t) : Kept s t.cmdAnnClear := Kept.answer (Kept.ite (fun _ => h.modAnn) fun _ => h)

theorem Kept.cmdSpurSearch (h : Kept s t) : Kept s t.cmdSpurSearch :=
  Kept.ite (fun _ => h.respond) fun _ => Kept.answer (Kept.ite (fun _ => h.setSpur.spurEnd) fun _ => h.setSpur)

theorem Kept.carryOut (h : Kept s t) {f : Nat} {b : List Byte} : Kept s (t.carryOut f b) := by
  unfold State.carryOut
  split
  · exact h.answer
  · exact h.cmdFwLoad
  · exact h.cmdFwCommit
  · exact h.cmdSelftestReport
  · exact h.cmdRouteCommit
  · exact h.answer
  · exact h.cmdSetMilestone
  · exact h.cmdStart
  · exact h.cmdClearFault
  · exact h.cmdResetDevice
  · exact h.cmdPaceSet
  · exact h.cmdPiReset
  · exact h.cmdBlockControl
  · exact h.cmdEventRingSet
  · exact h.answer
  · exact h.answer
  · exact h.withQueue fun _ => h.answer
  · exact h.cmdQueueRestart
  · exact h.cmdContextInfo
  · exact h.answer
  · exact h.answer
  · exact h.cmdLoopMode
  · exact h.cmdLoopTableWrite
  · exact h.cmdLoopStatus
  · exact h.cmdTwinRearm
  · exact h.cmdAnnClear
  · exact h.cmdSpurSearch
  · exact h.answer
  · exact h

theorem Kept.serve (h : Kept s t) {f : Nat} {b : List Byte} : Kept s (t.serve f b) :=
  Kept.ite (fun _ => h.respond) fun _ => h.carryOut

theorem Kept.serveLost (h : Kept s t) {f : Nat} {b : List Byte} : Kept s (t.serveLost f b) :=
  Kept.ite (fun _ => h.answer.toOff) fun _ => h.mcLostAnswer

theorem Kept.ring (h : Kept s t) {f : Nat} : Kept s (t.ring f) :=
  Kept.ite (fun _ => h.modFn) fun _ => Kept.ite (fun _ => h.modFn.serveLost) fun _ => h.modFn.serve

theorem Kept.writeDoorbell (h : Kept s t) {p : Requester} {v : Nat} : Kept s (t.writeDoorbell p v) := by
  refine Kept.ite (fun _ => h) fun _ => ?_
  split
  · exact Kept.ite (fun _ => h.setLink) fun _ => h.setLink.ring
  · exact Kept.ite (fun _ => h.setLink) fun _ => h.setLink.ring
  · exact h.ring

theorem Kept.submit (h : Kept s t) {p : Requester} {op : Nat} {r : SpReq} : Kept s (t.submit p op r) :=
  Kept.ite (fun _ => h) fun _ => Kept.writeDoorbell (h.modFnOf (Map.wf_store _ _ _))

end Sys2Proof.Machine
end

section
/-! PROOF. The canonical form of the state's maps and the STO channels, over the registers, the links and every command. -/

namespace Sys2Proof.Machine

set_option Elab.async false

variable {s t u : State}

/-! ### Registers -/

theorem Kept.writeMsixWord (h : Kept s t) {f o v : Nat} : Kept s (t.writeMsixWord f o v) :=
  Kept.ite (fun _ => h.modFn.sendPending) fun _ => h.modFn

theorem Kept.writeCanWord (h : Kept s t) {p : Requester} {c o v : Nat} : Kept s (t.writeCanWord p c o v) :=
  Kept.ite (fun _ => h.writeTxCmd) fun _ => Kept.ite (fun _ => Kept.ite (fun _ => h) fun _ => h.modCan) fun _ =>
    Kept.ite (fun _ => h.canRecover) fun _ => Kept.ite (fun _ => h.writeRxHead) fun _ => Kept.ite (fun _ => h.writeRxHead) fun _ => h

theorem Kept.writeStage (h : Kept s t) {c o : Nat} {b : List Byte} : Kept s (t.writeStage c o b) :=
  Kept.ite (fun _ => h) fun _ => h.modCan

theorem Kept.readPortWord (h : Kept s t) {p : Requester} {o : Nat} : Kept s (t.readPortWord p o).2 := by
  unfold State.readPortWord
  refine Kept.ite_snd (fun _ => h) fun _ => Kept.ite_snd (fun _ => h) fun _ => Kept.ite_snd (fun _ => h) fun _ =>
    Kept.ite_snd (fun _ => ?_) fun _ => Kept.ite_snd (fun _ => h) fun _ => Kept.ite_snd (fun _ => h) fun _ => h
  extract_lets
  split
  · exact h.readRxdata
  all_goals exact h

theorem Kept.writePortWord (h : Kept s t) {p : Requester} {o v : Nat} : Kept s (t.writePortWord p o v) :=
  Kept.ite (fun _ => Kept.ite (fun _ => h.writeSpiCmd) fun _ => Kept.ite (fun _ => h.writeSpiHead) fun _ => h) fun _ =>
    Kept.ite (fun _ => Kept.ite (fun _ => h.writeTxdata) fun _ => h) fun _ => Kept.ite (fun _ => h.writeTone) fun _ =>
    Kept.ite (fun _ => Kept.ite (fun _ => h.writeDuty) fun _ => h) fun _ => Kept.ite (fun _ => h.writeGpio) fun _ =>
    Kept.ite (fun _ => h.writeGpio) fun _ => Kept.ite (fun _ => h.writeGpio) fun _ => Kept.ite (fun _ => h.modGpio) fun _ => h

theorem Kept.writeTxbuf (h : Kept s t) {m o : Nat} {b : List Byte} : Kept s (t.writeTxbuf m o b) :=
  Kept.ite (fun _ => h) fun _ => h.modSpi

theorem Kept.writeScript (h : Kept s t) {m o : Nat} {b : List Byte} : Kept s (t.writeScript m o b) :=
  Kept.ite (fun _ => h) fun _ => h.modSpi

theorem Kept.readReg (h : Kept s t) {p : Requester} {o : Nat} : Kept s (t.readReg p o).2 := by
  unfold State.readReg
  refine Kept.ite_snd (fun _ => h) fun _ => Kept.ite_snd (fun _ => h) fun _ => Kept.ite_snd (fun _ => ?_) fun _ =>
    Kept.ite_snd (fun _ => h) fun _ => Kept.ite_snd (fun _ => h) fun _ => Kept.ite_snd (fun _ => h) fun _ =>
    Kept.ite_snd (fun _ => h) fun _ => Kept.ite_snd (fun _ => h) fun _ => Kept.ite_snd (fun _ => h) fun _ =>
    Kept.ite_snd (fun _ => h) fun _ => Kept.ite_snd (fun _ => h) fun _ => Kept.ite_snd (fun _ => h) fun _ =>
    Kept.ite_snd (fun _ => h) fun _ => Kept.ite_snd (fun _ => h) fun _ => Kept.ite_snd (fun _ => h) fun _ =>
    Kept.ite_snd (fun _ => h.readPortWord) fun _ => h
  exact h.latchMs

theorem Kept.writeReg (h : Kept s t) {p : Requester} {o v : Nat} : Kept s (t.writeReg p o v) :=
  Kept.ite (fun _ => Kept.ite (fun _ => h.setLink) fun _ => h) fun _ => Kept.ite (fun _ => h.writeDoorbell) fun _ =>
    Kept.ite (fun _ => Kept.ite (fun _ => h.modFn) fun _ => h) fun _ => Kept.ite (fun _ => h.writeEvHead) fun _ =>
    Kept.ite (fun _ => h.writeMsixWord) fun _ => Kept.ite (fun _ => h) fun _ => Kept.ite (fun _ => h.writeCanWord) fun _ =>
    Kept.ite (fun _ => h.writePortWord) fun _ => h

theorem Kept.writePart (h : Kept s t) {p : Requester} {a : Area} {o : Nat} {b : List Byte} : Kept s (t.writePart p a o b) := by
  cases a
  · unfold State.writePart
    exact h.modFnOf (Map.wf_store _ _ _)
  · exact h.writeTxb
  · exact h.writeStage
  · exact h.writeTxbuf
  · exact h.writeScript

theorem Kept.writeArea (h : Kept s t) {p : Requester} {n o : Nat} {b : List Byte} : Kept s (t.writeArea p n o b) := by
  induction n generalizing t o b with
  | zero => exact h
  | succ n ih =>
    unfold State.writeArea
    refine Kept.ite (fun _ => h) fun _ => ?_
    split
    · exact ih h.writePart
    · exact ih h

theorem Kept.writeBar0 (h : Kept s t) {p : Requester} {o : Nat} {b : List Byte} : Kept s (t.writeBar0 p o b) :=
  Kept.ite (fun _ => h) fun _ => Kept.ite (fun _ => h.writeReg) fun _ => Kept.ite (fun _ => h.writeReg.writeReg) fun _ =>
    h.writeArea

/-! ### Links -/

theorem Kept.modCfg (h : Kept s t) {f : Nat} {g : CfgSt → CfgSt} : Kept s (t.modCfg f g) := h.modFn

theorem Kept.writePower (h : Kept s t) {f v : Nat} : Kept s (t.writePower f v) :=
  Kept.ite (fun _ => h.modCfg) fun _ => Kept.ite (fun _ => Kept.modCfg (Kept.ite (fun _ => h.linkLost) fun _ => h)) fun _ => h

theorem Kept.configWrite (h : Kept s t) {f : Nat} {r : CfgReg} {v : BitVec 64} : Kept s (t.configWrite f r v) := by
  have pf (x : State) (k : Kept s x) : Kept s (if f = 0 then x else t) := Kept.ite (fun _ => k) fun _ => h
  cases r
  case bar0 | bar2 | bar4 => exact pf _ h.modFn
  case vfBar0 | vfBar2 | vfBar4 => exact pf _ h.setLink
  case msixControl => exact h.modFn.sendEach
  case numVfs | vfEnable => exact Kept.ite (fun _ => h.setLink) fun _ => h
  case extendedTags | aspmControl | ecrcControl | aerUncMask | aerUncSeverity | aerCorMask => exact pf _ h.modCfg
  case powerState => exact h.writePower
  case aerUncStatus | aerCorStatus =>
    unfold State.configWrite
    exact h.modCfg
  all_goals exact h

theorem keeps_configRequest {f : Fin 16} {r : CfgReq} : Keeps s (execConfigRequest f r s) :=
  Kept.done (by
    refine Kept.ite (fun _ => Kept.refl s) fun _ => ?_
    cases r with
    | read r => exact (Kept.refl s).emit
    | write r v => exact (Kept.refl s).configWrite)

theorem Kept.flrAbort (h : Kept s t) {w : Waybill} : Kept s (t.flrAbort w) := Kept.same h.poolFailed

/-- What a function-level reset takes out of the maps that are kept by context. -/
theorem Kept.dropKeys (h : Kept s t) {p : Nat × QueueSt → Bool} {q o w : Nat × Nat → Bool} {l : Map Nat} :
    Kept s { t with
      queues := t.queues.filter p, counters := t.counters.filter q,
      sched := { t.sched with outcomes := t.sched.outcomes.filter o, lastWriter := t.sched.lastWriter.filter w },
      link := { t.link with flrBusy := l } } :=
  h.change fun c => { c with
    queues := Map.wf_filter _ _ _ c.queues
    counters := Map.wf_filter _ _ _ c.counters
    outcomes := Map.wf_filter _ _ _ c.outcomes
    lastWriter := Map.wf_filter _ _ _ c.lastWriter }

theorem Kept.flr (h : Kept s t) {f : Nat} : Kept s (t.flr f) := by
  unfold State.flr
  have gone (l : List Waybill) : Kept s (l.foldl (fun (x : State) w => x.flrAbort w) t) := h.foldl (fun x _ => (Kept.refl x).flrAbort) l
  exact (Kept.modFnOf (gone _).dropKeys.unregister.closeIntake fun _ => rfl).settleAll

theorem keeps_vfFlr {f : Fin 16} : Keeps s (execVfFlr f s) :=
  Kept.done (Kept.ite (fun _ => Kept.refl s) fun _ => (Kept.refl s).flr)

theorem keeps_flrDone {f : Fin 16} : Keeps s (execFlrDone f s) :=
  Kept.done (Kept.ite (fun _ => Kept.refl s) fun _ => (Kept.refl s).setLink.post)

theorem Kept.mctpAnswer (h : Kept s t) {a b : Byte} {l : List Byte} : Kept s (t.mctpAnswer a b l) :=
  Kept.ite (fun _ => h.emit) fun _ => h

theorem keeps_setEndpointId {a b : Byte} : Keeps s (execSetEndpointId a b s) :=
  Kept.done (Kept.ite (fun _ => Kept.refl s) fun _ => Kept.ite (fun _ => (Kept.refl s).mctpAnswer) fun _ =>
    (Kept.refl s).setLink.mctpAnswer)

theorem keeps_getMctpVersionSupport {a : Byte} : Keeps s (execGetMctpVersionSupport a s) :=
  Kept.done (Kept.ite (fun _ => (Kept.refl s).draw.mctpAnswer) fun _ => (Kept.refl s).mctpAnswer)

theorem Kept.setPools (h : Kept s t) {l : List Pool} : Kept s { t with pools := l } := h.same

theorem Kept.scramble (h : Kept s t) {p : Pool} {x : PoolPart} : Kept s (t.scramble p x) := by
  unfold State.scramble
  split
  rename_i drawn
  have after := h.draw.of_pair drawn
  cases x with
  | node i => exact after.setPools
  | seq m n => exact after.setPools
  | other => exact h

theorem Kept.poolWritten (h : Kept s t) {a n : Nat} : Kept s (t.poolWritten a n) :=
  h.foldl (fun x _ => (Kept.refl x).foldl (fun y _ => (Kept.refl y).scramble) _) _

theorem Kept.hostWriteLp (h : Kept s t) {a : Nat} {b : List Byte} : Kept s (t.hostWriteLp a b) := by
  unfold State.hostWriteLp
  extract_lets s1 bad
  have touched : Kept s s1 := h.touch
  exact (touched.writeMem.foldl (fun x _ => (Kept.refl x).post) _).poolWritten

theorem Kept.hostWriteRun (h : Kept s t) {a : Nat} {b : List Byte} : Kept s (t.hostWriteRun a b) :=
  h.foldl (fun x _ => Kept.ite (fun _ => Kept.refl x) fun _ => (Kept.refl x).hostWriteLp) _

theorem keeps_bar4Write {f : Fin 16} {o : BitVec 64} {b : List Byte} : Keeps s (execBar4Write f o b s) :=
  Kept.done (Kept.ite (fun _ => Kept.refl s) fun _ => (Kept.refl s).foldl (fun x _ => (Kept.refl x).hostWriteRun) _)

/-- A fold over a state carried in the last place of a triple. -/
theorem Kept.foldl_last {α β γ : Type} {x : α × β × State} (h : Kept s x.2.2) {f : α × β × State → γ → α × β × State}
    (k : ∀ x c, Kept x.2.2 (f x c).2.2) (l : List γ) : Kept s (l.foldl f x).2.2 := by
  induction l generalizing x with
  | nil => exact h
  | cons c r ih => exact ih (h.trans (k x c))

theorem Kept.hostReadRun (h : Kept s t) {a n : Nat} : Kept s (t.hostReadRun a n).2.2 := by
  refine Kept.foldl_last h (fun x p => ?_) _
  dsimp only
  split
  · exact (Kept.refl x.2.2).draw
  · exact (Kept.refl x.2.2).readMem

theorem keeps_bar4Read {f : Fin 16} {o : BitVec 64} {n : Nat} : Keeps s (execBar4Read f o n s) :=
  Kept.done (by
    refine Kept.ite (fun _ => Kept.refl s) fun _ => ?_
    dsimp only
    refine Kept.emit (Kept.foldl_last (x := (List.replicate n 0, false, s)) (Kept.refl s) (fun x _ => ?_) _)
    exact (Kept.refl x.2.2).hostReadRun)

theorem Kept.qspiEnd (h : Kept s t) {n : Nat} : Kept s (t.qspiEnd n) :=
  Kept.emit (Kept.ite (fun _ => h.qspiSet) fun _ => h)

theorem Kept.qspiStore (h : Kept s t) {n o : Nat} {b : List Byte} : Kept s (State.qspiStore n b o t) := by
  induction n generalizing t b o with
  | zero => exact h
  | succ n ih => exact ih h.writeBar0

theorem Kept.qspiStoreLp (h : Kept s t) {n a : Nat} {b : List Byte} : Kept s (State.qspiStoreLp n b a t) := by
  induction n generalizing t b a with
  | zero => exact h
  | succ n ih => exact ih h.hostWriteLp

theorem Kept.qspiWriteTake (h : Kept s t) {a : Nat} {b : List Byte} : Kept s (t.qspiWriteTake a b) := by
  unfold State.qspiWriteTake
  split
  · exact h.qspiEnd
  · exact h.qspiStore.qspiEnd
  · exact Kept.ite (fun _ => h.qspiEnd) fun _ => h.qspiStoreLp.qspiEnd

theorem keeps_qspiWrite {b : List Byte} : Keeps s (execQspiWrite b s) :=
  Kept.done (by
    split
    exact Kept.ite (fun _ => Kept.refl s) fun _ => Kept.ite (fun _ => (Kept.refl s).qspiEnd) fun _ =>
      Kept.ite (fun _ => (Kept.refl s).qspiEnd) fun _ => (Kept.refl s).qspiWriteTake)

theorem Kept.qspiLoad (h : Kept s t) {n o : Nat} : Kept s (State.qspiLoad n o t).2 := by
  induction n generalizing t o with
  | zero => exact h
  | succ n ih => exact ih h.readReg

theorem Kept.qspiLoadLp (h : Kept s t) {a n : Nat} : Kept s (t.qspiLoadLp a n).2 := by
  unfold State.qspiLoadLp
  extract_lets bad
  dsimp only
  exact h.readMem.foldl (fun x _ => (Kept.refl x).post) _

theorem Kept.qspiReply {r : List Byte × State} (h : Kept s r.2) : Kept s (State.qspiReply r) := h.emit.qspiEnd

theorem Kept.qspiReadTake (h : Kept s t) {a n : Nat} : Kept s (t.qspiReadTake a n) := by
  unfold State.qspiReadTake
  split
  · exact h.qspiEnd
  · exact h.qspiLoad.qspiReply
  · exact Kept.ite (fun _ => h.qspiEnd) fun _ => h.qspiLoadLp.qspiReply

theorem keeps_qspiRead {b : List Byte} : Keeps s (execQspiRead b s) :=
  Kept.done (by
    split
    exact Kept.ite (fun _ => Kept.refl s) fun _ => Kept.ite (fun _ => (Kept.refl s).qspiEnd) fun _ =>
      Kept.ite (fun _ => (Kept.refl s).qspiEnd) fun _ => (Kept.refl s).qspiReadTake)

theorem keeps_qspiStatus {b : Byte} : Keeps s (execQspiStatus b s) :=
  Kept.done (Kept.ite (fun _ => Kept.refl s) fun _ => Kept.ite (fun _ => (Kept.refl s).emit.qspiEnd) fun _ =>
    (Kept.refl s).qspiEnd)

theorem Kept.macDrop (h : Kept s t) {m : Nat} : Kept s (t.macDrop m) := h.same

theorem keeps_ethFrameReceive {m : Fin 2} {f : EthFrame} : Keeps s (execEthFrameReceive m f s) :=
  Kept.done (Kept.ite (fun _ => Kept.refl s) fun _ => Kept.ite (fun _ => Kept.refl s) fun _ => (Kept.refl s).macDrop)

theorem keeps_rtpPacketReceive {m : Fin 2} {p : RtpPacket} : Keeps s (execRtpPacketReceive m p s) :=
  Kept.done (by
    refine Kept.ite (fun _ => Kept.refl s) fun _ => ?_
    split
    · exact (Kept.refl s).macDrop
    · exact Kept.ite (fun _ => (Kept.refl s).macDrop) fun _ => (Kept.refl s).change fun c =>
        { c with streams := Map.wf_set _ _ _ _ c.streams })

/-! ### Every command -/

theorem keeps_submit {c : Instr} {m : String} {p : Requester} {op : Nat} {r : SpReq} :
    Keeps s (checked c m s (s.submit p op r)) := (Kept.refl s).submit.checked

theorem Kept.setPorst (h : Kept s t) {b : Bool} : Kept s { t with porst := b } := h.same

theorem Kept.setPiReset (h : Kept s t) {b : Bool} : Kept s { t with piReset := b } := h.same

/-- Every command but STO_RELEASE keeps the maps canonical and raises no STO channel. -/
theorem keeps_exec {c : Instr} (other : c ≠ .stoRelease) : Keeps s (exec c s) := by
  have base := Kept.refl s
  cases c
  case stoRelease => exact absurd rfl other
  case registerWrite => exact base.writeBar0.done
  case porstNLow => exact base.toOff.setPorst.done
  case porstNRelease => exact base.setPorst.toRomWait.done
  case supplyLoss => exact keeps_supplyLoss
  case supplyRestore => exact keeps_supplyRestore
  case fenceExit => exact keeps_fenceExit
  case waymarkCommit => exact keeps_waymarkCommit
  case msLoRead => exact Kept.done (Kept.ite (fun _ => base.latchMs.emit) fun _ => base.emit)
  case ringTokenArrive => exact keeps_ringTokenArrive
  case ringTokenMiss => exact Kept.done (Kept.ite (fun _ => base.piLoss) fun _ => base)
  case paceGovernorPeriod => exact keeps_paceGovernorPeriod
  case avsbusReadBack => exact keeps_avsbusReadBack
  case avsbusResponseMiss => exact Kept.done (Kept.ite (fun _ => Kept.piLoss base.same) fun _ => base)
  case vcoreWindowMiss => exact Kept.done (Kept.ite (fun _ => base.piLoss) fun _ => base)
  case mcHeartbeat => exact Kept.done (Kept.ite (fun _ => base) fun _ => base.same)
  case mcHeartbeatMiss => exact keeps_mcHeartbeatMiss
  case oscillatorWatchdogWindow => exact keeps_oscillatorWatchdogWindow
  case ptpSyncReceive => exact keeps_ptpSyncReceive
  case ptpSyncTimeout => exact keeps_ptpSyncTimeout
  case ptpMasterSync => exact keeps_ptpMasterSync
  case ptpDelayReqReceive => exact keeps_ptpDelayReqReceive
  case ptpPpsRise | ptpPpsFall => exact Kept.done (Kept.ite (fun _ => Kept.emit base.same) fun _ => base)
  case configRequest => exact keeps_configRequest
  case msixUnmask => exact keeps_msixUnmask
  case linkDown => exact keeps_linkDown
  case linkUp => exact keeps_linkUp
  case vfFlr => exact keeps_vfFlr
  case flrDone => exact keeps_flrDone
  case setEndpointId => exact keeps_setEndpointId
  case getMctpVersionSupport => exact keeps_getMctpVersionSupport
  case getEndpointId | getMessageTypeSupport | getHealth | getEcc | getFaults => exact base.mctpAnswer.done
  case mctpOtherMessage => exact base.done
  case bar4Write => exact keeps_bar4Write
  case bar4Read => exact keeps_bar4Read
  case qspiWrite => exact keeps_qspiWrite
  case qspiRead => exact keeps_qspiRead
  case qspiStatus => exact keeps_qspiStatus
  case ethFrameReceive => exact keeps_ethFrameReceive
  case rtpPacketReceive => exact keeps_rtpPacketReceive
  case fwVerifyEnd => exact keeps_fwVerifyEnd
  case selftestEnd => exact keeps_selftestEnd
  case validateEnd => exact keeps_validateEnd
  case clearFaultRetestEnd => exact keeps_clearFaultRetestEnd
  case fwLoad | fwCommit | getInfo | selftestReport | routeCommit | routeReport | setMilestone | start |
      clearFault | resetDevice | paceSet | piReset | blockReset | blockPowerDown | blockPowerUp | blockReload |
      eventRingSet | timeStatus | faultRead | queueState | queueRestart | contextInfo | countersRead |
      eccCounters | loopMode | loopTableWrite | loopStatus | twinRearm | annClear | spurSearch | spurRead =>
    exact keeps_submit
  case evHeadWrite => exact base.writeEvHead.done
  case eventWrite => exact keeps_eventWrite
  case sqTailWrite => exact base.writeSqTail.done
  case cqHeadWrite => exact base.writeCqHead.done
  case waybillFetch => exact keeps_waybillFetch
  case engineDispatch => exact keeps_engineDispatch
  case backgroundZeroing => exact keeps_backgroundZeroing
  case patrolScrub => exact keeps_patrolScrub
  case schedulerFault => exact Kept.done (Kept.ite (fun _ => base.fencePi.setPiReset) fun _ => base)
  case nop => exact Keeps.runOn fun _ _ x => (Kept.refl x).complete
  case planAdmit => exact keeps_planAdmit
  case matmul | conv2d | maxpool | avgpool | maxabs | fill => exact Keeps.runOn fun _ _ _ => kept_runPlan
  case add | sub | mul | max | min | act | softmax | layernorm | rmsnorm | reduceSum | reduceMax | convert =>
    exact keeps_runVe
  case copy => exact keeps_copy
  case poolInit => exact keeps_poolInit
  case seqReset => exact keeps_seqReset
  case prefixLookup => exact keeps_prefixLookup
  case kvAppend => exact keeps_kvAppend
  case attend => exact keeps_attend
  case streamOpen => exact Keeps.runOn fun _ _ x => (Kept.refl x).ieEnd
  case streamClose => exact Keeps.runIe fun _ _ _ _ x => (Kept.refl x).setStream.ieEnd
  case feed => exact keeps_feed
  case augSet => exact keeps_augSet
  case decode => exact keeps_decode
  case pictureDecoded => exact keeps_pictureDecoded
  case dictLoad => exact keeps_dictLoad
  case dictSeal => exact keeps_dictSeal
  case tokenise => exact keeps_tokenise
  case packEmit => exact keeps_packEmit
  case streamStats => exact keeps_streamStats
  case csiFrameStart => exact Kept.done (base.onPacket fun _ _ x => (Kept.refl x).frameStart)
  case csiLinePacket => exact keeps_csiLinePacket
  case csiFrameEnd => exact keeps_csiFrameEnd
  case csiPacketDiscard => exact keeps_csiPacketDiscard
  case frameEndTimeout => exact keeps_frameEndTimeout
  case frameRecordWrite => exact keeps_frameRecordWrite
  case triggerPulse => exact keeps_triggerPulse
  case triggerPulseEnd => exact keeps_triggerPulseEnd
  case camLost => exact keeps_camLost
  case loopSampleInstant => exact keeps_loopSampleInstant
  case sampleMarkEnd => exact keeps_sampleMarkEnd
  case encoderPositionReady => exact keeps_encoderPositionReady
  case encoderFreeSample => exact keeps_encoderFreeSample
  case encZEdge => exact keeps_encZEdge
  case encAbEdge => exact keeps_encAbEdge
  case loopEvaluation => exact keeps_loopEvaluation
  case diagnosticEvaluation => exact keeps_diagnosticEvaluation
  case loopActuation => exact keeps_loopActuation
  case ciScrub => exact keeps_ciScrub
  case vergeHalfMismatch => exact base.detect.done
  case ciCheckerTest => exact keeps_ciCheckerTest
  case piCheckerTest => exact keeps_piCheckerTest
  case stopTimeout => exact keeps_stopTimeout
  case stoFeedbackDiscrepancy => exact keeps_stoFeedbackDiscrepancy
  case annOpenLoad => exact keeps_annOpenLoad
  case annRestored => exact keeps_annRestored
  case annTrip => exact keeps_annTrip
  case annRetry => exact keeps_annRetry
  case annToneWrite => exact base.writeTone.done
  case twinFrameTransmit => exact keeps_twinFrameTransmit
  case twinFrameReceive n b => exact keeps_twinFrameReceive (n := n) (b := b)
  case twinMissWindow => exact keeps_twinMissWindow
  case canReq | canAbort | canPush => exact base.writeTxCmd.done
  case canTxbWrite => exact base.writeTxb.done
  case canRecover => exact base.canRecover.done
  case canArbitration => exact keeps_canArbitration
  case canTxEnd => exact keeps_canTxEnd
  case canBusOn => exact keeps_canBusOn
  case canJoinBus => exact keeps_canJoinBus
  case canFrameReceive => exact keeps_canFrameReceive
  case canRxHeadWrite => exact base.writeRxHead.done
  case canReferenceInstant => exact keeps_canReferenceInstant
  case spiScriptTrigger => exact keeps_spiScriptTrigger
  case spiTransferEnd => exact keeps_spiTransferEnd
  case spiCmd => exact base.writeSpiCmd.done
  case spiRingHeadWrite => exact base.writeSpiHead.done
  case uartCharacterReceive => exact keeps_uartCharacterReceive
  case uartRearm => exact keeps_uartRearm
  case uartTxdata => exact base.writeTxdata.done
  case uartRxdataRead => exact keeps_uartRxdataRead
  case uartTxCharacterEnd => exact keeps_uartTxCharacterEnd
  case spurSearchEnd => exact keeps_spurSearchEnd
  case spurAnnounce => exact keeps_spurAnnounce
  case pwmPeriodStart => exact keeps_pwmPeriodStart
  case pwmDutyWrite => exact base.writeDuty.done
  case gpioEdge => exact keeps_gpioEdge
  case gpioSetWrite | gpioClrWrite => exact base.writeGpio.done
  case spDoorbell => exact base.writeDoorbell.done

/-- The channels go high, and the cause of the last stop is gone. -/
def State.stoRaised (s : State) : State :=
  { s with verge := { s.verge with stoA := true, stoB := true, stoByStop := false, stoCause := 0 } }

/-- What STO_RELEASE makes of a state that meets its conditions. -/
def State.stoReleased (s : State) : State := ((s.stoRaised.emit (.sto 0 true)).emit (.sto 1 true)).post 0x0A04 0 none

theorem exec_stoRelease (s : State) : exec .stoRelease s =
    done s (if s.outputsUp && s.ready && s.partnerOk && !s.verge.stoA && !s.verge.stoB then s.stoReleased else s) := rfl

theorem canonical_stoReleased (h : s.canonical = true) : s.stoReleased.canonical = true :=
  (Kept.refl s.stoRaised).emit.emit.post.canonical h

theorem canonical_exec {c : Instr} {t : State} (h : s.canonical = true) (e : exec c s = .next t) : t.canonical = true := by
  by_cases k : c = .stoRelease
  · subst k
    rw [exec_stoRelease] at e
    cases e
    split
    · exact canonical_stoReleased h
    · exact h
  · exact (keeps_exec k t e).canonical h

end Sys2Proof.Machine

open Sys2Proof Sys2Proof.Machine

/-- Settles O58: a command keeps the maps canonical by `canonical_exec`; a clock reaches none of them. -/
theorem everyStepKeepsCanonical : Obligations.EveryStepKeepsCanonical := by
  intro s t h goes
  unfold step at goes
  split at goes
  case h_1 =>
    cases goes
    exact (Kept.refl s).tickClock.canonical h
  case h_2 c rest _ => exact canonical_exec (s := { s with pending := rest }) h goes

end

section
/-! PROOF. STO, stops and the reactions to a fault (16 sections 16.3, 16.4). -/

namespace Sys2Proof.Machine

set_option Elab.async false

variable {s t : State}

/-! ### Stops and STO -/

/-- What touches neither Verge nor its records leaves all of it. -/
theorem verge_of_only {ps : List Part} (h : Only ps s t) (v : Part.verge ∉ ps := by decide)
    (r : Part.records ∉ ps := by decide) : t.verge = s.verge := by
  have rest : { t.verge with records := [] } = { s.verge with records := [] } := h.2 .verge v
  have records : t.verge.records = s.verge.records := h.2 .records r
  calc t.verge = { { t.verge with records := [] } with records := t.verge.records } := rfl
    _ = { { s.verge with records := [] } with records := s.verge.records } := by rw [rest, records]
    _ = s.verge := rfl

theorem verge_assertSto (cause : Nat) (s : State) : (s.assertSto cause).verge =
    { s.verge with stoA := false, stoB := false, stoByStop := true, stoCause := BitVec.ofNat 16 cause } := by
  unfold State.assertSto
  rw [verge_of_only (Only.pwmLow _)]
  split
  · rw [verge_of_only (Only.post _ _ _ _)]
    split <;> split <;> rfl
  · split <;> split <;> rfl

/-- A stop of loops that have all come to rest ends in STO, which leaves the stop and its instant. -/
theorem stop_endRamps (s : State) :
    s.endRamps.verge.stop = s.verge.stop ∧ s.endRamps.verge.stopSince = s.verge.stopSince := by
  unfold State.endRamps
  split
  · split
    · rw [verge_assertSto]
      exact ⟨rfl, rfl⟩
    · exact ⟨rfl, rfl⟩
  · exact ⟨rfl, rfl⟩

theorem stop_orderStop (cause : Nat) (s : State) :
    (s.orderStop cause).verge.stop = (if s.verge.stop = .none then .controlled else s.verge.stop) ∧
    (s.verge.stop = .none → (s.orderStop cause).verge.stopSince = s.now) := by
  unfold State.orderStop
  split
  · obtain ⟨stop, since⟩ := stop_endRamps ((List.range 32).foldl
      (fun (t : State) l => t.modLoop l fun x => { x with rampVel := none, rampDone := x.manual })
      { s with verge := { s.verge with stop := .controlled, stopSince := s.now, stoCause := BitVec.ofNat 16 cause } })
    obtain ⟨stop', since', _⟩ := stop_of_only (Only.foldl _ (fun t l => Only.modLoop l _ t) (List.range 32)
      { s with verge := { s.verge with stop := .controlled, stopSince := s.now, stoCause := BitVec.ofNat 16 cause } })
      (by decide)
    exact ⟨stop.trans stop', fun _ => since.trans since'⟩
  · exact ⟨rfl, fun none => absurd none ‹_›⟩

/-! ### Reactions -/

/-- A reaction leaves FAULT. -/
theorem devState_react {code unit : Nat} {r : Reaction} {live : Bool} (h : s.devState = .fault) :
    (s.react code unit r live).devState = .fault := by
  cases r with
  | report => exact h
  | reduced => exact h
  | fenceTe => exact (devState_enterFence unit s).trans h
  | fencePi => exact (devState_fencePi_inactive (by rw [h]; decide)).trans h
  | controlled =>
    cases live
    · exact h
    · exact ((Only.orderStop code s).get .devState).trans h
  | immediate =>
    cases live
    · exact h
    · exact ((Only.assertSto code { s with verge := { s.verge with stop := .immediate } }).get .devState).trans h

theorem devState_raise {code : Nat} (unit : Nat) (r : Reaction) (detail : Nat) (d : demandsFault code = true)
    (a : s.active = true) : (s.raise code unit r detail).devState = .fault :=
  devState_react (devState_noteFault code unit r detail s d a)

theorem live_of {s : State} (h : s.active = true ∨ s.devState = .fault) : (s.active || s.devState == .fault) = true := by
  simpa using h

/-- Where outputs may be live, an immediate reaction stops at once. -/
theorem raise_immediate (code unit detail : Nat) (h : s.active = true ∨ s.devState = .fault) :
    (s.raise code unit .immediate detail).verge.stop = .immediate ∧
    (s.raise code unit .immediate detail).verge.stoA = false ∧ (s.raise code unit .immediate detail).verge.stoB = false := by
  have e : s.raise code unit .immediate detail = State.assertSto code
      { s.noteFault code unit .immediate detail with
        verge := { (s.noteFault code unit .immediate detail).verge with stop := .immediate } } := by
    rw [State.raise, live_of h]
    rfl
  rw [e, verge_assertSto]
  exact ⟨rfl, rfl, rfl⟩

/-- Where outputs may be live, a controlled reaction orders the stop, unless one is in force already. -/
theorem raise_controlled (code unit detail : Nat) (h : s.active = true ∨ s.devState = .fault) :
    (s.raise code unit .controlled detail).verge.stop = (if s.verge.stop = .none then .controlled else s.verge.stop) ∧
    (s.verge.stop = .none → (s.raise code unit .controlled detail).verge.stopSince = s.now) := by
  have e : s.raise code unit .controlled detail = (s.noteFault code unit .controlled detail).orderStop code := by
    rw [State.raise, live_of h]
    rfl
  have noted := Only.noteFault code unit .controlled detail s
  obtain ⟨stop, since⟩ := stop_orderStop code (s.noteFault code unit .controlled detail)
  rw [(stop_of_only noted (by decide)).1] at stop since
  have now : (s.noteFault code unit .controlled detail).now = s.now := congrArg TimeSt.ms (noted.get .time)
  rw [e]
  exact ⟨stop, fun none => (since none).trans now⟩

/-- A fault that is no FAULT cause leaves its record as the newest. -/
theorem records_noteFault (code unit : Nat) (r : Reaction) (detail : Nat) (d : demandsFault code = false) :
    (s.noteFault code unit r detail).verge.records.head? = some (FaultRec.mk s.now (BitVec.ofNat 16 code)
      (BitVec.ofNat 8 unit) r.code s.devState.code (BitVec.ofNat 32 detail)) := by
  unfold State.noteFault
  rw [d, Bool.false_and, if_neg Bool.false_ne_true, verge_of_only (Only.post _ _ _ _)]
  rfl

/-! ### STO_RELEASE -/

theorem loopsCommitted_iff : s.loopsCommitted = true ↔
    ∀ l < 32, ∀ r, s.loopRec l = some r → r.u 0x19 1 ≠ 0 → (s.loop l).committed = true := by
  simp only [State.loopsCommitted, List.all_eq_true, List.mem_range]
  refine forall₂_congr fun l _ => ?_
  cases s.loopRec l with
  | none => simp
  | some r =>
    simp only [Bool.or_eq_true, beq_iff_eq, Option.some.injEq, forall_eq']
    exact or_iff_not_imp_left

theorem ready_iff : s.ready = true ↔ s.active = true ∧ s.verge.stop = .none ∧ s.verge.partnerStop = false ∧
    ∀ l < 32, ∀ r, s.loopRec l = some r → r.u 0x19 1 ≠ 0 → (s.loop l).committed = true := by
  rw [← loopsCommitted_iff]
  simp [State.ready, and_assoc]

theorem verge_stoReleased (s : State) : s.stoReleased.verge = s.stoRaised.verge := by
  unfold State.stoReleased
  rw [verge_of_only (Only.post _ _ _ _)]
  rfl

/-- STO_RELEASE leaves the state as it is, or raises both channels of a state that meets its conditions. -/
theorem stoRelease_cases (e : exec .stoRelease s = .next t) :
    t = s ∨ s.ready = true ∧ s.partnerOk = true ∧ t.verge = s.stoRaised.verge := by
  rw [exec_stoRelease] at e
  cases e
  split
  case isTrue may =>
    simp only [Bool.and_eq_true] at may
    obtain ⟨⟨⟨⟨_, ready⟩, partner⟩, _⟩, _⟩ := may
    exact .inr ⟨ready, partner, verge_stoReleased s⟩
  case isFalse => exact .inl rfl

end Sys2Proof.Machine

open Sys2Proof Sys2Proof.Machine

/-- Settles O8: a fault is noted, which the FAULT causes end in FAULT, and then its class reacts. -/
theorem faultReactions : Obligations.FaultReactions := fun code unit detail s =>
  ⟨fun r => ⟨Only.raise code unit r detail s, devState_raise unit r detail⟩,
    fun live =>
      have ⟨stop, a, b⟩ := raise_immediate code unit detail live
      have ⟨ordered, since⟩ := raise_controlled code unit detail live
      ⟨stop, a, b, ordered, since⟩,
    fun d => (islandLost_raise code unit detail s d).1,
    (isFenced_enterFence unit unit _).trans (if_pos rfl),
    fun d r k => by
      rcases k with rfl | rfl
      · exact records_noteFault code unit .report detail d
      · exact records_noteFault code unit .reduced detail d⟩

/-- Settles O1: by the definition of a step. -/
theorem stepRunsFrontCommand : Obligations.StepRunsFrontCommand := by
  refine ⟨fun c rest s front => ?_, fun s idle => ?_⟩
  · rw [step, front]
  · rw [step, idle]

/-- Settles O60: every command but STO_RELEASE raises no channel (`keeps_exec`), nor does a clock, and STO_RELEASE acts
only on a state that is ready. -/
theorem stoRisesOnlyByRelease : Obligations.StoRisesOnlyByRelease := by
  intro s t goes rises
  have low (k : Kept s t) : False := by
    rcases rises with ⟨off, on⟩ | ⟨off, on⟩
    · exact absurd (k.stoA on) (by simp [off])
    · exact absurd (k.stoB on) (by simp [off])
  unfold step at goes
  split at goes
  case h_1 =>
    cases goes
    exact (low (Kept.refl s).tickClock).elim
  case h_2 c rest front =>
    have taken : Kept s { s with pending := rest } := (Kept.refl s).same
    by_cases release : c = .stoRelease
    · subst release
      rcases stoRelease_cases goes with same | ⟨ready, partner, raised⟩
      · exact (low (same ▸ taken)).elim
      · obtain ⟨active, stop, partnerStop, committed⟩ := ready_iff.1 ready
        rw [raised]
        exact ⟨by rw [front]; rfl, active, stop, partnerStop, partner, committed, rfl, rfl⟩
    · exact (low (taken.trans (keeps_exec release t goes))).elim

end

section
/-! PROOF. Verge and the Twin Link (16 sections 16.2, 16.5, 16.6). -/

namespace Sys2Proof.Machine

set_option Elab.async false

variable {s t : State}

/-! ### Detections, the longest stop and STO_RELEASE -/

/-- An event of 19 Table 19.2 that is no fault event is posted, and signals nothing. -/
theorem Only.quietPost {code : Nat} (quiet : faultEvents.contains code = false) (payload : Nat) (ctx : Option Nat)
    (s : State) : Only [.events] s (s.post code payload ctx) := by
  unfold State.post
  rw [quiet, if_neg Bool.false_ne_true]
  exact Only.foldl _ (fun t f => Only.postTo _ f t) (s.receivers code ctx) s

theorem raise_done {code unit detail : Nat} {r : Reaction} : done s (s.raise code unit r detail) = .next (s.raise code unit r detail) :=
  done_eq (Only.raise code unit r detail s).1

theorem detect_done {code unit detail : Nat} {r : Reaction} (on : s.devState ≠ .off) :
    done s (s.detect code unit r detail) = .next (s.raise code unit r detail) := by
  rw [State.detect, if_neg on]
  exact raise_done

theorem done_same (s : State) : done s s = .next s := rfl

theorem exec_stopTimeout (h : s.stopping = true) : exec .stopTimeout s = done s (
    if s.verge.stopSince + s.recField 0xA0 8 4 * 1000 ≤ s.now then s.assertSto s.verge.stoCause.toNat else s) := by
  simp [exec, execStopTimeout, h]

theorem out_stoReleased (s : State) : s.stoReleased.out = s.out ++ [.sto 0 true, .sto 1 true] := by
  have quiet := (Only.quietPost (code := 0x0A04) rfl 0 none ((s.stoRaised.emit (.sto 0 true)).emit (.sto 1 true))).get .out
  have sent : ((s.stoRaised.emit (.sto 0 true)).emit (.sto 1 true)).out = s.out ++ [.sto 0 true, .sto 1 true] :=
    List.append_assoc s.out [.sto 0 true] [.sto 1 true]
  exact quiet.trans sent

theorem Only.stoReleased (s : State) : Only [.verge, .events, .irq, .out] s s.stoReleased := by
  have raised : Only [.verge] s s.stoRaised := Only.ofVergeKeep s _ rfl
  unfold State.stoReleased
  exact (raised.mono (by decide)).trans (((Only.emit _ _).mono (by decide)).trans
    (((Only.emit _ _).mono (by decide)).trans ((Only.post _ _ _ _).mono (by decide))))

end Sys2Proof.Machine

open Sys2Proof Sys2Proof.Machine

/-- Settles O52: the detections by `detect_done`, the longest stop by `verge_assertSto`, the release by its conditions. -/
theorem vergeCommandsAct : Obligations.VergeCommandsAct := by
  refine ⟨fun s unit row te b on => ⟨?_, fun tested => ?_⟩, fun s c h => ?_, fun s stopping => ?_, fun s => ?_⟩
  · intro p h
    simp only [List.mem_cons, List.not_mem_nil, or_false] at h
    rcases h with rfl | rfl | rfl | rfl | rfl | rfl
    case inr.inl =>
      have e : exec (.ciScrub (.bad unit row)) s = done s (s.detect 0x8A04 unit .immediate row) := rfl
      rw [e]
      exact detect_done on
    all_goals exact detect_done on
  · have e : exec (.stoFeedbackDiscrepancy b) s = done s (s.detect 0x8A06 (b2n b) .immediate 0) := by
      simp [exec, execStoFeedbackDiscrepancy, tested]
    rw [e]
    exact detect_done on
  · simp only [List.mem_cons, List.not_mem_nil, or_false] at h
    rcases h with rfl | rfl | rfl | rfl | rfl <;> rfl
  · rw [exec_stopTimeout stopping]
    refine ⟨fun early => ?_, fun late => ?_⟩
    · rw [if_neg (by omega)]
      rfl
    · rw [if_pos late]
      have asserted := Only.assertSto s.verge.stoCause.toNat s
      exact goes_done asserted (by rw [verge_assertSto]; exact ⟨rfl, rfl, rfl, asserted⟩)
  · intro may
    have conditions : may ↔ (s.outputsUp && s.ready && s.partnerOk && !s.verge.stoA && !s.verge.stoB) = true := by
      simp only [Bool.and_eq_true, Bool.not_eq_true', ready_iff]
      tauto
    rw [exec_stoRelease]
    refine ⟨fun h => ?_, fun h => ?_⟩
    · rw [if_pos (conditions.1 h)]
      refine goes_done (Only.stoReleased s) ⟨?_, ?_, out_stoReleased s, ⟨_, rfl⟩, Only.stoReleased s⟩
      all_goals rw [verge_stoReleased]; rfl
    · rw [if_neg (mt conditions.2 h)]
      rfl

end

section
/-! PROOF. The Twin Link (16 section 16.6). -/

namespace Sys2Proof.Machine

set_option Elab.async false

variable {s t : State}

/-! ### The scrambler -/

theorem b2n_eq_toNat (b : Bool) : b2n b = b.toNat := by cases b <;> rfl

theorem b2n_le (b : Bool) : b2n b ≤ 1 := by cases b <;> decide

theorem scramble_lt (n d h : Nat) : (scramble n d h).1 < 2 ^ n := by
  induction n generalizing h with
  | zero => exact Nat.one_pos
  | succ n ih =>
    have low := ih (h * 2 % 2 ^ 58 + b2n ((d.testBit n != h.testBit 38) != h.testBit 57))
    have top := Nat.mul_le_mul_right (2 ^ n) (b2n_le ((d.testBit n != h.testBit 38) != h.testBit 57))
    rw [scramble, pow_succ 2 n]
    dsimp only
    omega

/-- Only the bits that are descrambled matter. -/
theorem descramble_congr {n d e : Nat} (h : Nat) (same : ∀ i < n, d.testBit i = e.testBit i) :
    descramble n d h = descramble n e h := by
  induction n generalizing h with
  | zero => rfl
  | succ n ih => rw [descramble, descramble, same n (Nat.lt_succ_self n), ih _ fun i lt => same i (Nat.lt_succ_of_lt lt)]

/-- The descrambler sees the bits that left, so it has the scrambler's history and undoes it bit by bit. -/
theorem descramble_scramble (n d h : Nat) : (descramble n (scramble n d h).1 h).1 = d % 2 ^ n := by
  induction n generalizing h with
  | zero => exact (Nat.mod_one d).symm
  | succ n ih =>
    have low := scramble_lt n d (h * 2 % 2 ^ 58 + b2n ((d.testBit n != h.testBit 38) != h.testBit 57))
    have rest := ih (h * 2 % 2 ^ 58 + b2n ((d.testBit n != h.testBit 38) != h.testBit 57))
    rw [scramble]
    dsimp only
    generalize sent : ((d.testBit n != h.testBit 38) != h.testBit 57) = b at low rest ⊢
    have bit (i : Nat) := Nat.testBit_two_pow_mul_add (b2n b) low i
    rw [Nat.mul_comm (b2n b)]
    have top : (2 ^ n * b2n b + (scramble n d (h * 2 % 2 ^ 58 + b2n b)).1).testBit n = b := by
      rw [bit n, if_neg (lt_irrefl n), Nat.sub_self]
      cases b <;> rfl
    rw [descramble]
    dsimp only
    rw [top, descramble_congr _ fun i lt => (bit i).trans (if_pos lt), rest, Nat.mod_pow_succ, ← sent]
    have undone : ((((d.testBit n != h.testBit 38) != h.testBit 57) != h.testBit 38) != h.testBit 57) = d.testBit n := by
      cases d.testBit n <;> cases h.testBit 38 <;> cases h.testBit 57 <;> rfl
    rw [undone, b2n_eq_toNat, Nat.toNat_testBit, Nat.add_comm, Nat.mul_comm]

/-! ### Sending -/

theorem crc32Bit_lt {c : Nat} (h : c < 2 ^ 32) : crc32Bit c < 2 ^ 32 := by
  unfold crc32Bit
  split
  · exact Nat.xor_lt_two_pow (by omega) (by decide)
  · omega

theorem crc32Bits_lt (l : List Nat) {c : Nat} (h : c < 2 ^ 32) : l.foldl (fun x _ => crc32Bit x) c < 2 ^ 32 := by
  induction l generalizing c with
  | nil => exact h
  | cons a r ih => exact ih (crc32Bit_lt h)

theorem crc32_lt (l : List Byte) : crc32 l < 2 ^ 32 := by
  have bytes (l : List Byte) : ∀ c < 2 ^ 32, l.foldl crc32Byte c < 2 ^ 32 := by
    induction l with
    | nil => exact fun _ h => h
    | cons b r ih =>
      exact fun c h => ih _ (crc32Bits_lt _ (Nat.xor_lt_two_pow h (lt_trans b.isLt (by decide))))
  exact Nat.xor_lt_two_pow (bytes l _ (by decide)) (by decide)

/-- A body of 208 bits and its CRC leave SYNC at the head of a frame. -/
theorem twinSeal_head {body : Nat} (h : body < 2 ^ 208) : twinSeal body / 2 ^ 240 = twinSync := by
  have crc := crc32_lt (beBytes 26 body)
  unfold twinSeal
  omega

theorem unsigned_lt (w : Nat) (i : Int) : unsigned w i < 2 ^ w := by
  have pos : (0 : Int) < ((2 ^ w : Nat) : Int) := by positivity
  have lt := Int.emod_lt_of_pos i pos
  have nonneg := Int.emod_nonneg i pos.ne'
  unfold unsigned
  omega

theorem checkPos_lt (r : Rec) (off : Nat) : s.checkPos r off < 2 ^ 48 := by
  unfold State.checkPos
  split
  · exact unsigned_lt 48 _
  · decide

theorem stopField_le : s.stopField ≤ 4 := by
  unfold State.stopField
  repeat' split
  all_goals decide

theorem code_le (d : DevState) : d.code ≤ 9 := by cases d <;> decide

theorem twinBody_lt (r : Rec) : s.twinBody r < 2 ^ 208 := by
  have seq := s.verge.twin.txSeq.isLt
  have code := code_le s.devState
  have stop := stopField_le (s := s)
  have ready := b2n_le s.ready
  have a := b2n_le s.verge.stoA
  have b := b2n_le s.verge.stoB
  have pos0 := checkPos_lt (s := s) r 0xA
  have pos1 := checkPos_lt (s := s) r 0xB
  unfold State.twinBody
  omega

theorem scrambleFrames_cons (f : Nat) (r : List Nat) (h : Nat) : (scrambleFrames (f :: r) h).1 =
    BitVec.ofNat 256 (f / 2 ^ 240 * 2 ^ 240 + (scramble 240 f h).1) :: (scrambleFrames r (scramble 240 f h).2).1 := by
  conv_lhs => unfold scrambleFrames

theorem length_scrambleFrames (l : List Nat) (h : Nat) : (scrambleFrames l h).1.length = l.length := by
  induction l generalizing h with
  | nil => rfl
  | cons f r ih => rw [scrambleFrames_cons, List.length_cons, ih, List.length_cons]

/-- SYNC leaves in clear. -/
theorem head_scrambleFrames {l : List Nat} (sync : ∀ f ∈ l, f / 2 ^ 240 = twinSync) (h : Nat) :
    ∀ f ∈ (scrambleFrames l h).1, f.toNat / 2 ^ 240 = 0xF2C0 := by
  induction l generalizing h with
  | nil => exact fun f mem => nomatch mem
  | cons a r ih =>
    rw [List.forall_mem_cons] at sync
    have low := scramble_lt 240 a h
    have frame : (BitVec.ofNat 256 (a / 2 ^ 240 * 2 ^ 240 + (scramble 240 a h).1)).toNat / 2 ^ 240 = 0xF2C0 := by
      rw [sync.1, BitVec.toNat_ofNat]
      unfold twinSync
      omega
    rw [scrambleFrames_cons]
    exact List.forall_mem_cons.2 ⟨frame, ih sync.2 _⟩

/-- The 40 frames of one transmission, before they are scrambled. -/
def State.twinFrames (r : Rec) (s : State) : List Nat := twinSeal (s.twinBody r) :: List.replicate 39 (twinSeal 0)

theorem sync_twinFrames (r : Rec) : ∀ f ∈ s.twinFrames r, f / 2 ^ 240 = twinSync := by
  refine List.forall_mem_cons.2 ⟨twinSeal_head (twinBody_lt r), fun f mem => ?_⟩
  rw [List.eq_of_mem_replicate mem]
  exact twinSeal_head (by decide)

theorem Only.modTwin (g : TwinSt → TwinSt) (s : State) : Only [.verge] s (s.modTwin g) := Only.ofVergeKeep s _ rfl

/-- The frames `l` have left, and the scrambler's history is `h` from now on. -/
def State.twinSent (l : List (BitVec 256)) (h : Nat) (s : State) : State :=
  (s.modTwin fun t => { t with scr := BitVec.ofNat 58 h, txSeq := t.txSeq + 1 }).emit (.twin l)

theorem exec_twinFrameTransmit {r : Rec} (twin : s.twinRec = some r) (on : s.verge.twin.on = true) :
    exec .twinFrameTransmit s = done s (s.twinSent (scrambleFrames (s.twinFrames r) s.verge.twin.scr.toNat).1
      (scrambleFrames (s.twinFrames r) s.verge.twin.scr.toNat).2) := by
  unfold exec execTwinFrameTransmit State.twinFrames
  simp only [twin, on, Bool.not_true, Bool.false_eq_true, if_false]
  generalize scrambleFrames _ _ = p
  rfl

theorem Only.twinSent (l : List (BitVec 256)) (h : Nat) (s : State) : Only [.verge, .out] s (s.twinSent l h) :=
  ((Only.modTwin _ s).mono (by decide)).trans ((Only.emit _ _).mono (by decide))

theorem length_twinFrames (r : Rec) : (s.twinFrames r).length = 40 := by
  rw [State.twinFrames, List.length_cons, List.length_replicate]

theorem goes_twinSent {l : List (BitVec 256)} (h : Nat) (length : l.length = 40) (heads : ∀ f ∈ l, f.toNat / 2 ^ 240 = 0xF2C0) :
    Goes (done s (s.twinSent l h)) fun t => ∃ l : List (BitVec 256),
      t.out = s.out ++ [.twin l] ∧ l.length = 40 ∧ (∀ f ∈ l, f.toNat / 2 ^ 240 = 0xF2C0) ∧
      t.verge.twin.txSeq = s.verge.twin.txSeq + 1 ∧ Only [.verge, .out] s t :=
  goes_done (Only.twinSent l h s) ⟨l, rfl, length, heads, rfl, Only.twinSent l h s⟩

theorem goes_twinFrameTransmit {r : Rec} (twin : s.twinRec = some r) (on : s.verge.twin.on = true) :
    Goes (exec .twinFrameTransmit s) fun t => ∃ l : List (BitVec 256),
      t.out = s.out ++ [.twin l] ∧ l.length = 40 ∧ (∀ f ∈ l, f.toNat / 2 ^ 240 = 0xF2C0) ∧
      t.verge.twin.txSeq = s.verge.twin.txSeq + 1 ∧ Only [.verge, .out] s t := by
  rw [exec_twinFrameTransmit twin on]
  exact goes_twinSent _ ((length_scrambleFrames _ _).trans (length_twinFrames r)) (head_scrambleFrames (sync_twinFrames r) _)

/-! ### The partner's stop -/

theorem twin_endRamps (s : State) :
    s.endRamps.verge.twin = s.verge.twin ∧ s.endRamps.verge.partnerStop = s.verge.partnerStop := by
  unfold State.endRamps
  split
  · split
    · rw [verge_assertSto]
      exact ⟨rfl, rfl⟩
    · exact ⟨rfl, rfl⟩
  · exact ⟨rfl, rfl⟩

theorem twin_orderStop (cause : Nat) (s : State) :
    (s.orderStop cause).verge.twin = s.verge.twin ∧ (s.orderStop cause).verge.partnerStop = s.verge.partnerStop := by
  unfold State.orderStop
  split
  · rw [(twin_endRamps _).1, (twin_endRamps _).2, verge_of_only (Only.foldl _ (fun t l => Only.modLoop l _ t) _ _)]
    exact ⟨rfl, rfl⟩
  · exact ⟨rfl, rfl⟩

theorem twin_raise_controlled (code unit detail : Nat) (s : State) :
    (s.raise code unit .controlled detail).verge.twin = s.verge.twin ∧
    (s.raise code unit .controlled detail).verge.partnerStop = s.verge.partnerStop := by
  have noted : { (s.noteFault code unit .controlled detail).verge with records := [] } = { s.verge with records := [] } :=
    (Only.noteFault code unit .controlled detail s).get .verge
  have twin := congrArg VergeSt.twin noted
  have stop := congrArg VergeSt.partnerStop noted
  unfold State.raise State.react
  dsimp only
  split
  · obtain ⟨twin', stop'⟩ := twin_orderStop code (s.noteFault code unit .controlled detail)
    exact ⟨twin'.trans twin, stop'.trans stop⟩
  · exact ⟨twin, stop⟩

theorem Only.partnerStopNow (s : State) : Only stopParts s s.partnerStopNow := by
  unfold State.partnerStopNow
  exact Only.ite (fun _ => Only.refl _ s) fun _ =>
    ((Only.ofVergeKeep s { s.verge with partnerStop := true } rfl).mono (by decide)).trans (Only.orderStop 0 _)

theorem twin_partnerStopNow (s : State) :
    s.partnerStopNow.verge.twin = s.verge.twin ∧ s.partnerStopNow.verge.partnerStop = true := by
  unfold State.partnerStopNow
  split
  · exact ⟨rfl, ‹_›⟩
  · exact twin_orderStop 0 { s with verge := { s.verge with partnerStop := true } }

/-! ### Valid frames -/

/-- The partner's stop of a frame, before its positions are compared. -/
def State.heedStop (f : TwinFields) (wasStop : Nat) (s : State) : State :=
  if f.stop ≠ 0 ∧ f.stop ≠ wasStop ∧ s.active then (s.post 0x0A0B f.stop none).partnerStopNow else s

theorem Only.heedStop (f : TwinFields) (wasStop : Nat) (s : State) : Only stopParts s (s.heedStop f wasStop) := by
  unfold State.heedStop
  exact Only.ite (fun _ => ((Only.post _ _ _ s).mono (by decide)).trans (Only.partnerStopNow _)) fun _ => Only.refl _ s

theorem twin_heedStop (f : TwinFields) (wasStop : Nat) (s : State) :
    (s.heedStop f wasStop).verge.twin = s.verge.twin ∧
    (f.stop ≠ 0 → f.stop ≠ wasStop → s.active = true → (s.heedStop f wasStop).verge.partnerStop = true) := by
  unfold State.heedStop
  split
  · obtain ⟨twin, stop⟩ := twin_partnerStopNow (s.post 0x0A0B f.stop none)
    exact ⟨twin.trans (congrArg VergeSt.twin (verge_of_only (Only.post _ _ _ s))), fun _ _ _ => stop⟩
  case isFalse calm => exact ⟨rfl, fun a b c => absurd ⟨a, b, c⟩ calm⟩

theorem crossCheck_eq (r : Rec) (f : TwinFields) (wasStop : Nat) (s : State) : s.crossCheck r f wasStop =
    if s.checkOff r 0xA f.check0 || s.checkOff r 0xB f.check1 then
      if s.verge.twin.mismatch + 1 = 4 then
        ((s.heedStop f wasStop).modTwin fun t => { t with mismatch := min 4 (s.verge.twin.mismatch + 1) }).raise
          0x8A0E 0xFF .controlled 0
      else (s.heedStop f wasStop).modTwin fun t => { t with mismatch := min 4 (s.verge.twin.mismatch + 1) }
    else (s.heedStop f wasStop).modTwin fun t => { t with mismatch := 0 } := rfl

/-- A cross-check heeds the partner's stop, and changes the count of mismatches alone of the link. -/
theorem crossCheck_spec (r : Rec) (f : TwinFields) (wasStop : Nat) (s : State) :
    (∃ m, (s.crossCheck r f wasStop).verge.twin = { s.verge.twin with mismatch := m }) ∧
    (f.stop ≠ 0 → f.stop ≠ wasStop → s.active = true → (s.crossCheck r f wasStop).verge.partnerStop = true) ∧
    Only raiseParts s (s.crossCheck r f wasStop) := by
  obtain ⟨twin, stop⟩ := twin_heedStop f wasStop s
  have only : Only raiseParts s (s.heedStop f wasStop) := (Only.heedStop f wasStop s).mono (by decide)
  have noted (m : Nat) : Only raiseParts s ((s.heedStop f wasStop).modTwin fun t => { t with mismatch := m }) :=
    only.trans ((Only.modTwin _ _).mono (by decide))
  have set (m : Nat) : ((s.heedStop f wasStop).modTwin fun t => { t with mismatch := m }).verge.twin =
      { s.verge.twin with mismatch := m } := congrArg (fun t : TwinSt => { t with mismatch := m }) twin
  rw [crossCheck_eq]
  split
  · split
    · obtain ⟨twin', stop'⟩ := twin_raise_controlled 0x8A0E 0xFF 0
        ((s.heedStop f wasStop).modTwin fun t => { t with mismatch := min 4 (s.verge.twin.mismatch + 1) })
      exact ⟨⟨_, twin'.trans (set _)⟩, fun a b c => stop'.trans (stop a b c), (noted _).trans (Only.raise _ _ _ _ _)⟩
    · exact ⟨⟨_, set _⟩, stop, noted _⟩
  · exact ⟨⟨_, set _⟩, stop, noted _⟩

/-- The fields that a valid frame sets before its STOP and positions are looked at. -/
def TwinSt.noted (f : TwinFields) (now : Nat) (x : TwinSt) : TwinSt :=
  { x with rxSeq := some (BitVec.ofNat 16 f.seq), misses := 0, winStart := now, up := true, partnerReady := f.ready,
           lastStop := f.stop }

/-- The link as a valid frame leaves it, its event included. -/
def State.twinNoted (r : Rec) (f : TwinFields) (s : State) : State :=
  if s.verge.twin.misses = 4 ∧ ¬ twinCross r then (s.modTwin (TwinSt.noted f s.now)).post 0x0A09 0 none
  else s.modTwin (TwinSt.noted f s.now)

theorem twinValid_eq (r : Rec) (f : TwinFields) (s : State) : s.twinValid r f =
    if twinCross r then (s.twinNoted r f).crossCheck r f s.verge.twin.lastStop else s.twinNoted r f := rfl

theorem Only.twinNoted (r : Rec) (f : TwinFields) (s : State) : Only [.verge, .events, .irq, .out] s (s.twinNoted r f) := by
  have noted : Only [.verge, .events, .irq, .out] s (s.modTwin (TwinSt.noted f s.now)) := (Only.modTwin _ s).mono (by decide)
  exact Only.ite (fun _ => noted.trans ((Only.post _ _ _ _).mono (by decide))) fun _ => noted

theorem twin_twinNoted (r : Rec) (f : TwinFields) (s : State) :
    (s.twinNoted r f).verge.twin = s.verge.twin.noted f s.now := by
  unfold State.twinNoted
  split
  · rw [verge_of_only (Only.post _ _ _ _)]
    rfl
  · rfl

/-- A valid frame clears the misses and brings the link up; in CROSS_CHECK a new STOP field makes the partner stop. -/
theorem twinValid_spec (r : Rec) (f : TwinFields) (s : State) :
    (∃ m, (s.twinValid r f).verge.twin = { s.verge.twin.noted f s.now with mismatch := m }) ∧
    (twinCross r = true → f.stop ≠ 0 → f.stop ≠ s.verge.twin.lastStop → s.active = true →
      (s.twinValid r f).verge.partnerStop = true) ∧ Only raiseParts s (s.twinValid r f) := by
  have only : Only raiseParts s (s.twinNoted r f) := (Only.twinNoted r f s).mono (by decide)
  have active : (s.twinNoted r f).active = s.active := by
    unfold State.active
    rw [(Only.twinNoted r f s).get .devState]
  obtain ⟨⟨m, twin⟩, stop, checked⟩ := crossCheck_spec r f s.verge.twin.lastStop (s.twinNoted r f)
  rw [twinValid_eq]
  split
  case isTrue cross =>
    exact ⟨⟨m, twin.trans (by rw [twin_twinNoted])⟩, fun _ a b c => stop a b (active.trans c), only.trans checked⟩
  case isFalse single => exact ⟨⟨_, twin_twinNoted r f s⟩, fun cross => absurd cross single, only⟩

/-! ### Lanes -/

theorem lane_setLane (n : Fin 2) (l : TwinLane) (t : TwinSt) : (TwinSt.setLane n l t).lane n = l := by
  unfold TwinSt.lane TwinSt.setLane
  split <;> rfl

theorem setLane_rest (n : Nat) (l : TwinLane) (t : TwinSt) :
    (TwinSt.setLane n l t).rxSeq = t.rxSeq ∧ (TwinSt.setLane n l t).lastStop = t.lastStop := by
  unfold TwinSt.setLane
  split <;> exact ⟨rfl, rfl⟩

theorem lane_noted (n m : Nat) (f : TwinFields) (now : Nat) (t : TwinSt) :
    TwinSt.lane { t.noted f now with mismatch := m } n = t.lane n := rfl

/-- A TWIN frame of the partner, of the same mode and not seen yet, is valid. -/
theorem twinFrame_valid {r : Rec} {f : TwinFields} (typ : f.typ = 1) (fresh : s.verge.twin.rxSeq ≠ some (BitVec.ofNat 16 f.seq))
    (unit : f.unit ≠ r.u 8 1) (mode : f.mode = r.u 9 1) : s.twinFrame r f = s.twinValid r f := by
  unfold State.twinFrame
  rw [if_neg (by simp [typ, fresh]), if_neg (by simp [unit, mode])]

theorem goes_twinFrame_valid {r : Rec} {f : TwinFields} {l : TwinLane} {o : Nat} (lane : Fin 2) (locked : l.locked = some o)
    (typ : f.typ = 1) (fresh : s.verge.twin.rxSeq ≠ some (BitVec.ofNat 16 f.seq)) (unit : f.unit ≠ r.u 8 1)
    (mode : f.mode = r.u 9 1) : Goes (done s ((s.modTwin (TwinSt.setLane lane l)).twinFrame r f)) fun t =>
      t.verge.twin.up = true ∧ t.verge.twin.misses = 0 ∧ t.verge.twin.winStart = s.now ∧
      t.verge.twin.rxSeq = some (BitVec.ofNat 16 f.seq) ∧ t.verge.twin.partnerReady = f.ready ∧
      (t.verge.twin.lane lane).locked = some o ∧
      (twinCross r = true → f.stop ≠ 0 → f.stop ≠ s.verge.twin.lastStop → s.active = true → t.verge.partnerStop = true) ∧
      Only raiseParts s t := by
  obtain ⟨rxSeq, lastStop⟩ := setLane_rest lane l s.verge.twin
  rw [twinFrame_valid typ (fun seen => fresh (rxSeq.symm.trans seen)) unit mode]
  obtain ⟨⟨m, link⟩, stop, only⟩ := twinValid_spec r f (s.modTwin (TwinSt.setLane lane l))
  have whole := ((Only.modTwin (TwinSt.setLane lane l) s).mono (by decide)).trans only
  refine goes_done whole ⟨?_, ?_, ?_, ?_, ?_, ?_,
    fun cross a b c => stop cross a (fun same => b (same.trans lastStop)) c, whole⟩
  case refine_6 =>
    rw [link, lane_noted]
    exact (congrArg TwinLane.locked (lane_setLane lane l s.verge.twin)).trans locked
  all_goals rw [link]; rfl

/-- A lane in lock after a frame with SYNC and a good CRC, as the descrambler's history `h` leaves it. -/
def TwinLane.heard (chunk : BitVec 256) (h : Nat) (l : TwinLane) : TwinLane :=
  { l with prev := chunk, misses := 0, crcFails := 0, descr := BitVec.ofNat 58 h }

/-- What the descrambler makes of a frame of `lane`, and its history after it. -/
def TwinLane.descrambled (chunk : BitVec 256) (o : Nat) (l : TwinLane) : Nat × Nat :=
  descramble 240 (frameAt l.prev chunk o) l.descr.toNat

section
variable {r : Rec} {lane : Fin 2} {chunk : BitVec 256} {o : Nat} (twin : s.twinRec = some r)
  (locked : (s.verge.twin.lane lane).locked = some o)
include twin locked

/-- A frame with SYNC and a good CRC keeps the lane in lock and is looked at. -/
theorem exec_twinFrame_good (sync : frameAt (s.verge.twin.lane lane).prev chunk o / 2 ^ 240 = twinSync)
    (good : crc32 (beBytes 26 (((s.verge.twin.lane lane).descrambled chunk o).1 / 2 ^ 32)) =
      ((s.verge.twin.lane lane).descrambled chunk o).1 % 2 ^ 32) :
    exec (.twinFrameReceive lane chunk) s = done s (
      (s.modTwin (TwinSt.setLane lane ((s.verge.twin.lane lane).heard chunk ((s.verge.twin.lane lane).descrambled chunk o).2))).twinFrame
        r (twinFields ((s.verge.twin.lane lane).descrambled chunk o).1)) := by
  unfold TwinLane.descrambled at *
  unfold exec execTwinFrameReceive
  simp only [twin, locked, sync, if_true]
  generalize descramble 240 _ _ = p at good ⊢
  simp [good, -Nat.reducePow, TwinLane.heard, locked]

/-- The fourth frame without SYNC in a row loses the lane. -/
theorem exec_twinFrame_lost (sync : frameAt (s.verge.twin.lane lane).prev chunk o / 2 ^ 240 ≠ twinSync)
    (third : (s.verge.twin.lane lane).misses = 3) :
    ∃ l : TwinLane, exec (.twinFrameReceive lane chunk) s =
      done s ((s.modTwin (TwinSt.setLane lane l)).post 0x0A06 lane none) ∧ l.locked = none := by
  refine ⟨{ TwinLane.init with
    prev := chunk, descr := BitVec.ofNat 58 ((s.verge.twin.lane lane).descrambled chunk o).2 }, ?_, rfl⟩
  unfold TwinLane.descrambled
  unfold exec execTwinFrameReceive
  simp only [twin, locked, sync, if_false, third]
  generalize descramble 240 _ _ = p
  simp

end

/-! ### The search for SYNC -/

theorem forall_mem_set {α : Type} [DecidableEq α] {d : α} {P : Nat → Prop} {m : Map α} (h : ∀ p ∈ m, P p.1) {k : Nat} (v : α)
    (hk : P k) : ∀ p ∈ m.set d k v, P p.1 := by
  induction m with
  | nil =>
    unfold Map.set
    split
    · exact nofun
    · simpa using hk
  | cons p r ih =>
    rw [List.forall_mem_cons] at h
    unfold Map.set
    split
    · split
      · exact List.forall_mem_cons.2 h
      · exact List.forall_mem_cons.2 ⟨hk, List.forall_mem_cons.2 h⟩
    · split
      · split
        · exact h.2
        · exact List.forall_mem_cons.2 ⟨hk, h.2⟩
      · exact List.forall_mem_cons.2 ⟨h.1, ih h.2⟩

/-- A count of hits is kept only for offsets where the new frame has SYNC. -/
theorem hits_sync {P : Nat → Prop} [DecidablePred P] (old : Nat → Nat) (l : List Nat) (m : Map Nat) (h : ∀ p ∈ m, P p.1 ∧ p.1 < 256)
    (small : ∀ o ∈ l, o < 256) :
    ∀ p ∈ l.foldl (fun (m : Map Nat) o => if P o then m.set 0 o (old o) else m) m, P p.1 ∧ p.1 < 256 := by
  induction l generalizing m with
  | nil => exact h
  | cons o r ih =>
    rw [List.forall_mem_cons] at small
    refine ih _ ?_ small.2
    dsimp only
    split
    · exact forall_mem_set (P := fun o => P o ∧ o < 256) h _ ⟨‹_›, small.1⟩
    · exact h

/-- A lane in search with its hits counted: the first offset with eight in a row is its lock. -/
def TwinLane.searched (chunk : BitVec 256) (hits : Map Nat) (l : TwinLane) : TwinLane :=
  match hits.find? fun p => 8 ≤ p.2 with
  | some p => { TwinLane.init with prev := chunk, locked := some p.1, descr := l.descr }
  | none => { l with prev := chunk, hits := hits }

theorem search_eq (chunk : BitVec 256) (l : TwinLane) : l.search chunk =
    l.searched chunk ((List.range 256).foldl (fun (m : Map Nat) o =>
      if frameAt l.prev chunk o / 2 ^ 240 = twinSync then m.set 0 o (l.hits.get 0 o + 1) else m) []) := rfl

theorem searched_spec (chunk : BitVec 256) (hits : Map Nat) (l : TwinLane) : (l.searched chunk hits).prev = chunk ∧
    (l.locked = none → ∀ o, (l.searched chunk hits).locked = some o → ∃ p ∈ hits, p.1 = o) := by
  unfold TwinLane.searched
  split
  case h_1 p found =>
    exact ⟨rfl, fun _ o lock => ⟨p, List.mem_of_find?_eq_some found, Option.some.inj lock⟩⟩
  case h_2 => exact ⟨rfl, fun free o lock => absurd (free.symm.trans lock) nofun⟩

/-- The lock that a search finds is at an offset where the new frame has SYNC. -/
theorem search_spec (chunk : BitVec 256) (l : TwinLane) : (l.search chunk).prev = chunk ∧
    (l.locked = none → ∀ o, (l.search chunk).locked = some o → o < 256 ∧ frameAt l.prev chunk o / 2 ^ 240 = 0xF2C0) := by
  have sync := hits_sync (P := fun o => frameAt l.prev chunk o / 2 ^ 240 = twinSync) (fun o => l.hits.get 0 o + 1)
    (List.range 256) [] nofun fun _ => List.mem_range.1
  rw [search_eq]
  refine ⟨(searched_spec chunk _ l).1, fun free o lock => ?_⟩
  obtain ⟨p, mem, rfl⟩ := (searched_spec chunk _ l).2 free o lock
  exact ⟨(sync p mem).2, (sync p mem).1⟩

/-- A lane in search after the next 256 bits, with the event of a lock. -/
def State.twinSearched (lane : Nat) (chunk : BitVec 256) (s : State) : State :=
  if ((s.verge.twin.lane lane).search chunk).locked.isSome then
    (s.modTwin (TwinSt.setLane lane ((s.verge.twin.lane lane).search chunk))).post 0x0A06 (lane + 256) none
  else s.modTwin (TwinSt.setLane lane ((s.verge.twin.lane lane).search chunk))

theorem exec_twinFrameReceive_search {r : Rec} {lane : Fin 2} {chunk : BitVec 256} (twin : s.twinRec = some r)
    (locked : (s.verge.twin.lane lane).locked = none) :
    exec (.twinFrameReceive lane chunk) s = done s (s.twinSearched lane chunk) := by
  unfold exec execTwinFrameReceive
  simp only [twin, locked, State.twinSearched]

theorem Only.twinSearched (lane : Nat) (chunk : BitVec 256) (s : State) :
    Only [.verge, .events, .irq, .out] s (s.twinSearched lane chunk) := by
  have set : Only [.verge, .events, .irq, .out] s (s.modTwin (TwinSt.setLane lane ((s.verge.twin.lane lane).search chunk))) :=
    (Only.modTwin _ s).mono (by decide)
  exact Only.ite (fun _ => set.trans ((Only.post _ _ _ _).mono (by decide))) fun _ => set

theorem lane_twinSearched (lane : Fin 2) (chunk : BitVec 256) (s : State) :
    (s.twinSearched lane chunk).verge.twin.lane lane = (s.verge.twin.lane lane).search chunk := by
  unfold State.twinSearched
  split
  · rw [verge_of_only (Only.post _ _ _ _)]
    exact lane_setLane lane _ _
  · exact lane_setLane lane _ _

/-! ### Windows without a valid frame -/

/-- The link after a window without a valid frame. -/
def State.twinMissed (s : State) : State :=
  s.modTwin fun x =>
    { x with winStart := s.verge.twin.winStart + 8250, up := false, misses := min 4 (s.verge.twin.misses + 1),
             cfgPosted := x.cfgPosted && s.verge.twin.misses != 3 }

theorem Only.twinMissed (s : State) : Only [.verge] s s.twinMissed := Only.modTwin _ s

theorem exec_twinMissWindow {r : Rec} (twin : s.twinRec = some r) : exec .twinMissWindow s = done s (
    if s.now < s.verge.twin.winStart + 8250 then s
    else if s.verge.twin.misses ≠ 3 then s.twinMissed
    else if twinCross r then
      if s.active then (s.twinMissed.post 0x0A0A 0 none).partnerStopNow
      else s.twinMissed.post 0x0A0A 0 none
    else s.twinMissed.post 0x0A08 0 none) := by
  unfold exec execTwinMissWindow
  rw [twin]
  rfl

theorem twin_missedPost (code : Nat) (s : State) :
    (s.twinMissed.post code 0 none).verge.twin = s.twinMissed.verge.twin := by
  rw [verge_of_only (Only.post _ _ _ _)]

theorem Only.missedPost (code : Nat) (s : State) : Only stopParts s (s.twinMissed.post code 0 none) :=
  ((Only.twinMissed s).mono (by decide)).trans ((Only.post _ _ _ _).mono (by decide))

theorem goes_twinMissWindow {r : Rec} (twin : s.twinRec = some r) (late : s.verge.twin.winStart + 8250 ≤ s.now) :
    Goes (exec .twinMissWindow s) fun t =>
      t.verge.twin = s.twinMissed.verge.twin ∧ (s.verge.twin.misses ≠ 3 → Only [.verge] s t) ∧
      (s.verge.twin.misses = 3 → twinCross r = true → s.active = true → t.verge.partnerStop = true) ∧
      (s.verge.twin.misses = 3 → twinCross r = false → ∃ u : State, t = u.post 0x0A08 0 none) ∧ Only stopParts s t := by
  rw [exec_twinMissWindow twin, if_neg (by omega)]
  split
  case isTrue early =>
    have only := Only.twinMissed s
    exact goes_done only ⟨rfl, fun _ => only, fun k => absurd k early, fun k => absurd k early, only.mono (by decide)⟩
  case isFalse fourth =>
    rw [Decidable.not_not] at fourth
    split
    case isTrue cross =>
      have single (k : twinCross r = false) : False := by simp [cross] at k
      split
      case isTrue active =>
        obtain ⟨twin', stop⟩ := twin_partnerStopNow (s.twinMissed.post 0x0A0A 0 none)
        have only := (Only.missedPost 0x0A0A s).trans (Only.partnerStopNow _)
        exact goes_done only ⟨twin'.trans (twin_missedPost _ s), fun k => absurd fourth k, fun _ _ _ => stop,
          fun _ k => (single k).elim, only⟩
      case isFalse off =>
        exact goes_done (Only.missedPost 0x0A0A s) ⟨twin_missedPost _ s, fun k => absurd fourth k,
          fun _ _ k => absurd k off, fun _ k => (single k).elim, Only.missedPost _ s⟩
    case isFalse single =>
      exact goes_done (Only.missedPost 0x0A08 s) ⟨twin_missedPost _ s, fun k => absurd fourth k,
        fun _ k => absurd k single, fun _ _ => ⟨_, rfl⟩, Only.missedPost _ s⟩

end Sys2Proof.Machine

open Sys2Proof Sys2Proof.Machine

/-- Settles O53: the scrambler is undone bit by bit, and each command of the link by its equation. -/
theorem twinLinkActs : Obligations.TwinLinkActs := by
  refine ⟨descramble_scramble, fun s r twin => ⟨fun off => ?_, goes_twinFrameTransmit twin, fun lane chunk o locked => ⟨?_, ?_⟩,
    fun lane chunk locked => ?_, fun early => ?_, fun late => ?_⟩⟩
  · simp [exec, execTwinFrameTransmit, twin, off, done_same]
  · intro sync good typ fresh unit mode
    have heard := exec_twinFrame_good twin locked sync good
    unfold TwinLane.descrambled at heard
    rw [heard]
    exact goes_twinFrame_valid lane locked typ fresh unit mode
  · intro sync third
    obtain ⟨lane', e, free⟩ := exec_twinFrame_lost twin locked sync third
    have only : Only [.verge, .events, .irq, .out] s ((s.modTwin (TwinSt.setLane lane lane')).post 0x0A06 lane none) :=
      ((Only.modTwin _ s).mono (by decide)).trans ((Only.post _ _ _ _).mono (by decide))
    rw [e]
    refine goes_done only ⟨?_, ⟨_, rfl⟩, only⟩
    rw [verge_of_only (Only.post _ _ _ _)]
    exact (congrArg TwinLane.locked (lane_setLane lane lane' _)).trans free
  · rw [exec_twinFrameReceive_search twin locked]
    obtain ⟨prev, at_⟩ := search_spec chunk (s.verge.twin.lane lane)
    refine goes_done (Only.twinSearched lane chunk s) ?_
    rw [lane_twinSearched]
    exact ⟨prev, at_ locked, Only.twinSearched lane chunk s⟩
  · rw [exec_twinMissWindow twin, if_pos early]
    rfl
  · obtain ⟨t, goes, twin', early, stop, lone, only⟩ := goes_twinMissWindow twin late
    exact ⟨t, goes, by rw [twin']; rfl, by rw [twin']; rfl, by rw [twin']; rfl, early, stop, lone, only⟩

end

section
/-! PROOF. Sample instants, the choice of the loop and sample marks (15 sections 15.2, 15.3; 18 section 18.8). -/

namespace Sys2Proof.Machine

set_option Elab.async false

variable {s t : State}

/-! ### What a sample instant touches -/

theorem loop_of_only {ps : List Part} (h : Only ps s t) (l : Nat) (loops : Part.loops ∉ ps := by decide) :
    t.loop l = s.loop l := congrArg (fun m : Map LoopSt => m.get LoopSt.init l) (h.2 .loops loops)

theorem Only.modEnc (ch : Nat) (g : EncSt → EncSt) (s : State) : Only [.ports] s (s.modEnc ch g) := Only.ofPorts s _

theorem Only.modSpi (m : Nat) (g : SpiSt → SpiSt) (s : State) : Only [.ports] s (s.modSpi m g) := Only.ofPorts s _

theorem Only.encClock (ch : Nat) (r : Rec) (s : State) : Only [.out] s (s.encClock ch r) :=
  Only.ite (fun _ => Only.emit _ s) fun _ => Only.refl _ s

theorem Only.encSample (ch at_ : Nat) (s : State) : Only [.ports, .out] s (s.encSample ch at_) := by
  unfold State.encSample
  split
  · exact Only.refl _ s
  · exact Only.ite (fun _ => Only.refl _ s) fun _ =>
      ((Only.modEnc _ _ s).mono (by decide)).trans ((Only.encClock _ _ _).mono (by decide))

theorem Only.encDeliver (ch : Nat) (s : State) : Only [.loops] s (s.encDeliver ch) :=
  Only.foldl _ (fun t l => Only.modLoop l _ t) _ s

theorem Only.modGpio (g : GpioSt → GpioSt) (s : State) : Only [.ports] s (s.modGpio g) := Only.ofPorts s _

theorem Only.raiseMarks (l : Nat) (s : State) : Only [.ports, .out] s (s.raiseMarks l) :=
  Only.foldl _ (fun t _ => Only.ite
    (fun _ => ((Only.modGpio _ t).mono (by decide)).trans ((Only.emit _ _).mono (by decide))) fun _ => Only.refl _ t) _ s

theorem Only.triggerScripts (l at_ : Nat) (s : State) : Only [.ports] s (s.triggerScripts l at_) := by
  refine Only.foldl _ (fun t m => ?_) _ s
  split
  · exact Only.refl _ t
  · exact Only.foldl _ (fun u k => Only.ite (fun _ => Only.modSpi _ _ u) fun _ => Only.refl _ u) _ t

/-- A change of each of some loops reaches each of them once. -/
theorem loop_foldl_modLoop (g : LoopSt → LoopSt) {ls : List Nat} (nodup : ls.Nodup) (wf : Map.wf LoopSt.init s.loops = true)
    (k : Nat) : (ls.foldl (fun (t : State) l => t.modLoop l g) s).loop k = if k ∈ ls then g (s.loop k) else s.loop k := by
  induction ls generalizing s with
  | nil => rfl
  | cons l r ih =>
    rw [List.nodup_cons] at nodup
    rw [List.foldl_cons, ih nodup.2 (Map.wf_set _ _ _ _ wf), State.loop_modLoop _ _ _ _ wf]
    by_cases here : k = l
    · subst here
      simp [nodup.1]
    · simp [here]

/-- The position of channel `ch` reaches a loop that waits for it. -/
def LoopSt.given (x : EncSt) (y : LoopSt) : LoopSt :=
  if y.sample.isSome && !y.inReady then { y with inReady := true, inPos := x.pos, inValid := !x.invalid } else y

theorem loop_encDeliver (ch : Nat) (wf : Map.wf LoopSt.init s.loops = true) (l : Nat) :
    (s.encDeliver ch).loop l = if l ∈ s.encLoops ch then (s.loop l).given (s.enc ch) else s.loop l :=
  loop_foldl_modLoop (LoopSt.given (s.enc ch)) (List.nodup_range.filter _) wf l

/-! ### The sample of a loop -/

/-- A loop at its sample instant `p`, before its position is there. -/
def LoopSt.sampled (r : Rec) (p : Nat) (x : LoopSt) : LoopSt :=
  { x.takeChanges r p with
    sample := some p, inReady := decide (r.u 0xA 1 = 0xFF), inPos := 0, inValid := true,
    nextSample := some (p + loopPeriod r), actPend := x.actPend ++ [(p + loopDelay r, false)] }

/-- The loops as a sample instant leaves them: the loop is sampled, and a position that is there already is given. -/
def State.loopSampled (l : Nat) (r : Rec) (p : Nat) (s : State) : State :=
  let s2 := (s.modLoop l (LoopSt.sampled r p)).encSample (r.u 0xA 1) p
  if r.u 0xA 1 ≠ 0xFF ∧ ¬ (s2.enc (r.u 0xA 1)).busy ∧
      (s2.encRec (r.u 0xA 1)).any (fun q => (s2.enc (r.u 0xA 1)).readyAt == p + encDelay q) then
    s2.encDeliver (r.u 0xA 1)
  else s2

theorem exec_loopSampleInstant {l : Fin 32} {r : Rec} {p : Nat} (loop : s.loopRec l = some r)
    (due : (s.loop l).nextSample = some p) (live : s.islandLive = true) : exec (.loopSampleInstant l) s =
      done s (if s.now < p then s else ((s.loopSampled l r p).raiseMarks l).triggerScripts l p) := by
  unfold exec execLoopSampleInstant
  simp only [loop, due, live, Bool.not_true, Bool.false_or, decide_eq_true_eq]
  rfl

theorem Only.loopSampled (l : Nat) (r : Rec) (p : Nat) (s : State) : Only [.loops, .ports, .out] s (s.loopSampled l r p) := by
  have sampled : Only [.loops, .ports, .out] s ((s.modLoop l (LoopSt.sampled r p)).encSample (r.u 0xA 1) p) :=
    ((Only.modLoop _ _ s).mono (by decide)).trans ((Only.encSample _ _ _).mono (by decide))
  exact Only.ite (fun _ => sampled.trans ((Only.encDeliver _ _).mono (by decide))) fun _ => sampled

/-- A given position changes what a loop knows of its input, and nothing else. -/
theorem given_eq (x : EncSt) (y : LoopSt) : ∃ a b c, y.given x = { y with inReady := a, inPos := b, inValid := c } := by
  unfold LoopSt.given
  split
  · exact ⟨_, _, _, rfl⟩
  · exact ⟨y.inReady, y.inPos, y.inValid, rfl⟩

theorem loop_loopSampled (l : Nat) (r : Rec) (p : Nat) (wf : Map.wf LoopSt.init s.loops = true) : ∃ a b c,
    (s.loopSampled l r p).loop l = { (s.loop l).sampled r p with inReady := a, inPos := b, inValid := c } := by
  have wf' : Map.wf LoopSt.init ((s.modLoop l (LoopSt.sampled r p)).encSample (r.u 0xA 1) p).loops = true := by
    rw [(Only.encSample _ _ _).get .loops]
    exact Map.wf_set _ _ _ _ wf
  have sampled : ((s.modLoop l (LoopSt.sampled r p)).encSample (r.u 0xA 1) p).loop l = (s.loop l).sampled r p := by
    rw [loop_of_only (Only.encSample _ _ _), State.loop_modLoop _ _ _ _ wf, if_pos rfl]
  unfold State.loopSampled
  dsimp only
  split
  · rw [loop_encDeliver _ wf', sampled]
    split
    · exact given_eq _ _
    · exact ⟨_, _, _, rfl⟩
  · exact ⟨_, _, _, sampled⟩

/-- What a sample instant without a START of the loop takes: the due table commit and the due mode change alone. -/
theorem takeChanges_spec (r : Rec) (p : Nat) {x : LoopSt} (running : x.reinitAt = none) :
    ((x.takeChanges r p).out = x.out ∧ (x.takeChanges r p).integ = x.integ ∧ (x.takeChanges r p).posPrev = x.posPrev) ∧
    (∀ m out q, x.modeReq = some (m, out, q) → q ≤ p →
      (x.takeChanges r p).manual = m ∧ (x.takeChanges r p).modeReq = none) ∧
    ∀ q, x.commitTbl = some (0, q) → q ≤ p →
      (x.takeChanges r p).tables = { x.tables with gain := x.shadow.gain } ∧ (x.takeChanges r p).commitTbl = none := by
  unfold LoopSt.takeChanges
  rw [running]
  refine ⟨?_, fun m out q mode due => ?_, fun q commit due => ?_⟩
  · cases x.commitTbl <;> cases x.modeReq <;> grind
  · cases x.commitTbl <;> grind
  · cases x.modeReq <;> grind

theorem goes_loopSampleInstant {l : Fin 32} {r : Rec} {p : Nat} (canonical : s.canonical = true) (loop : s.loopRec l = some r)
    (due : (s.loop l).nextSample = some p) (live : s.islandLive = true) (reached : p ≤ s.now) :
    Goes (exec (.loopSampleInstant l) s) fun t => (∃ a b c,
      t.loop l = { (s.loop l).sampled r p with inReady := a, inPos := b, inValid := c }) ∧ Only [.loops, .ports, .out] s t := by
  have marks := Only.raiseMarks l (s.loopSampled l r p)
  have scripts := Only.triggerScripts l p ((s.loopSampled l r p).raiseMarks l)
  have only := (Only.loopSampled l r p s).trans ((marks.mono (by decide)).trans (scripts.mono (by decide)))
  rw [exec_loopSampleInstant loop due live, if_neg (by omega)]
  refine goes_done only ⟨?_, only⟩
  rw [loop_of_only scripts, loop_of_only marks]
  exact loop_loopSampled l r p (canonical_iff.1 canonical).loops

/-! ### The loop that the Control Engine takes -/

/-- The better of two ready loops, as the choice goes on to loop `l`. -/
def State.betterLoop (s : State) (best : Option (Nat × Nat)) (l : Nat) : Option (Nat × Nat) :=
  match s.readyAt l, best with
  | some a, some (b, _) => if a < b then some (a, l) else best
  | some a, none => some (a, l)
  | none, _ => best

/-- Loop `l`, ready for the actuation instant `a`, precedes every other of the first `n` loops. -/
def State.Leads (s : State) (n a l : Nat) : Prop :=
  s.readyAt l = some a ∧ l < n ∧ ∀ m < n, ∀ b, s.readyAt m = some b → a < b ∨ (a = b ∧ l ≤ m)

/-- Of the first `n` loops, the choice is a ready one that no other precedes. -/
theorem betterLoop_spec (n : Nat) : ((List.range n).foldl s.betterLoop none = none ∧ ∀ m < n, s.readyAt m = none) ∨
    ∃ a l, (List.range n).foldl s.betterLoop none = some (a, l) ∧ s.Leads n a l := by
  induction n with
  | zero => exact .inl ⟨rfl, nofun⟩
  | succ n ih =>
    rw [List.range_succ, List.foldl_append, List.foldl_cons, List.foldl_nil]
    rcases ih with ⟨e, none⟩ | ⟨a, l, e, ready, small, leads⟩
    · rw [e]
      cases new : s.readyAt n with
      | none =>
        refine .inl ⟨by simp [State.betterLoop, new], fun m lt => ?_⟩
        rcases Nat.lt_succ_iff_lt_or_eq.1 lt with lt | rfl
        · exact none m lt
        · exact new
      | some a =>
        refine .inr ⟨a, n, by simp [State.betterLoop, new], new, Nat.lt_succ_self n, fun m lt b h => ?_⟩
        rcases Nat.lt_succ_iff_lt_or_eq.1 lt with lt | rfl
        · exact nomatch (none m lt).symm.trans h
        · exact .inr ⟨Option.some.inj (new.symm.trans h), le_rfl⟩
    · rw [e]
      cases new : s.readyAt n with
      | none =>
        refine .inr ⟨a, l, by simp [State.betterLoop, new], ready, by omega, fun m lt b h => ?_⟩
        rcases Nat.lt_succ_iff_lt_or_eq.1 lt with lt | rfl
        · exact leads m lt b h
        · exact nomatch new.symm.trans h
      | some c =>
        by_cases earlier : c < a
        · refine .inr ⟨c, n, by simp [State.betterLoop, new, earlier], new, Nat.lt_succ_self n, fun m lt b h => ?_⟩
          rcases Nat.lt_succ_iff_lt_or_eq.1 lt with lt | rfl
          · have := leads m lt b h
            omega
          · exact .inr ⟨Option.some.inj (new.symm.trans h), le_rfl⟩
        · refine .inr ⟨a, l, by simp [State.betterLoop, new, earlier], ready, by omega, fun m lt b h => ?_⟩
          rcases Nat.lt_succ_iff_lt_or_eq.1 lt with lt | rfl
          · exact leads m lt b h
          · have := Option.some.inj (new.symm.trans h)
            omega

theorem nextLoop_eq (s : State) : s.nextLoop = ((List.range 32).foldl s.betterLoop none).map (·.2) := rfl

theorem nextLoop_leads {l : Nat} (next : s.nextLoop = some l) : ∃ a, s.Leads 32 a l := by
  rw [nextLoop_eq] at next
  rcases betterLoop_spec (s := s) 32 with ⟨e, _⟩ | ⟨a, k, e, leads⟩
  · rw [e] at next
    exact nomatch next
  · rw [e] at next
    obtain rfl := Option.some.inj next
    exact ⟨a, leads⟩

/-! ### Sample marks -/

/-- The mark of pin `k` has fallen. -/
def State.markFallen (k : Nat) (s : State) : State :=
  (s.modGpio fun g => { g with marks := g.marks.set 0 k 0 }).emit (.mark k false)

theorem exec_sampleMarkEnd (k : Fin 16) (s : State) : exec (.sampleMarkEnd k) s = done s (
    if s.ports.gpio.marks.get 0 k ≠ 0 ∧ s.ports.gpio.marks.get 0 k ≤ s.now then s.markFallen k else s) := rfl

end Sys2Proof.Machine

open Sys2Proof Sys2Proof.Machine

/-- Settles O50: the sample instant by what it sets of its loop, the choice by induction over the loops, the mark by its
equation. -/
theorem samplesAreTakenInOrder : Obligations.SamplesAreTakenInOrder := by
  refine ⟨fun l s r p canonical loop due live => ⟨fun early => ?_, fun reached => ?_⟩, fun s l next => ?_,
    fun k s canonical wf => ⟨fun off => ?_, fun on reached => ?_⟩⟩
  · rw [exec_loopSampleInstant loop due live, if_pos early]
    rfl
  · obtain ⟨t, goes, ⟨a, b, c, sampled⟩, only⟩ := goes_loopSampleInstant canonical loop due live reached
    refine ⟨t, goes, ?_⟩
    dsimp only
    rw [sampled]
    refine ⟨rfl, rfl, rfl, fun running => (takeChanges_spec r p running).1, fun m out q running => ?_, fun q running => ?_, only⟩
    · exact (takeChanges_spec r p running).2.1 m out q
    · exact (takeChanges_spec r p running).2.2 q
  · obtain ⟨a, ready, _, leads⟩ := nextLoop_leads next
    exact ⟨a, ready, leads⟩
  · rw [exec_sampleMarkEnd, if_neg (by omega)]
    rfl
  · rw [exec_sampleMarkEnd, if_pos ⟨on, reached⟩]
    have only : Only [.ports, .out] s (s.markFallen k) :=
      ((Only.modGpio _ s).mono (by decide)).trans ((Only.emit _ _).mono (by decide))
    exact goes_done only ⟨(Map.get_set 0 _ _ _ _ wf).trans (if_pos rfl), rfl, only⟩

end

section
/-! PROOF. Evaluation, commit and actuation (15 sections 15.4 to 15.7; 16 R326, R327, R332). -/

namespace Sys2Proof.Machine

set_option Elab.async false

variable {s t : State}

/-! ### What a fault leaves of a loop -/

theorem live_iff : s.islandLive = true ↔ s.active = true ∨ s.devState = .fault := by simp [State.islandLive]

/-- A noted fault leaves outputs live where they were. -/
theorem live_noteFault (code unit : Nat) (r : Reaction) (detail : Nat) (live : s.active = true ∨ s.devState = .fault) :
    (s.noteFault code unit r detail).active = true ∨ (s.noteFault code unit r detail).devState = .fault := by
  by_cases ends : (demandsFault code && s.active) = true
  · rw [Bool.and_eq_true] at ends
    exact .inr (devState_noteFault code unit r detail s ends.1 ends.2)
  · have kept : (s.noteFault code unit r detail).devState = s.devState := by
      unfold State.noteFault
      rw [if_neg ends]
      exact (Only.post _ _ _ _).get .devState
    unfold State.active at live ⊢
    rwa [kept]

/-- A stop reaction leaves outputs live where they were. -/
theorem live_raise_stop {code unit detail : Nat} {r : Reaction} (stop : r = .immediate ∨ r = .controlled)
    (live : s.islandLive = true) : (s.raise code unit r detail).islandLive = true := by
  rw [live_iff] at live ⊢
  have kept : (s.raise code unit r detail).devState = (s.noteFault code unit r detail).devState := by
    rcases stop with rfl | rfl
    · unfold State.raise
      rw [live_of live]
      exact (Only.assertSto code { s.noteFault code unit .immediate detail with
        verge := { (s.noteFault code unit .immediate detail).verge with stop := .immediate } }).get .devState
    · unfold State.raise
      rw [live_of live]
      exact (Only.orderStop code (s.noteFault code unit .controlled detail)).get .devState
  have noted := live_noteFault code unit r detail live
  unfold State.active at noted ⊢
  rwa [kept]

/-- A stop of loops at rest asserts STO, and touches no loop. -/
theorem Only.rampsEnded (s : State) : Only stoParts s s.endRamps := by
  unfold State.endRamps
  exact Only.ite (fun _ => Only.ite (fun _ => Only.assertSto _ s) fun _ => Only.refl _ s) fun _ => Only.refl _ s

/-- A controlled stop begins the ramp of each loop, and leaves the rest of it. -/
theorem loop_orderStop (cause l : Nat) (wf : Map.wf LoopSt.init s.loops = true) :
    ∃ v d, (s.orderStop cause).loop l = { s.loop l with rampVel := v, rampDone := d } := by
  unfold State.orderStop
  split
  · rw [loop_of_only (Only.rampsEnded _)]
    have ramps := loop_foldl_modLoop (fun x => { x with rampVel := none, rampDone := x.manual }) (ls := List.range 32)
      (s := { s with verge := { s.verge with stop := .controlled, stopSince := s.now, stoCause := BitVec.ofNat 16 cause } })
      List.nodup_range wf l
    by_cases mem : l ∈ List.range 32
    · exact ⟨_, _, ramps.trans (if_pos mem)⟩
    · exact ⟨_, _, ramps.trans (if_neg mem)⟩
  · exact ⟨_, _, rfl⟩

/-- Of a loop, a fault changes the ramp of its controlled stop alone. -/
theorem loop_raise (code unit : Nat) (r : Reaction) (detail l : Nat) (wf : Map.wf LoopSt.init s.loops = true) :
    ∃ v d, (s.raise code unit r detail).loop l = { s.loop l with rampVel := v, rampDone := d } := by
  have noted := Only.noteFault code unit r detail s
  have same : (s.noteFault code unit r detail).loop l = s.loop l := loop_of_only noted l
  unfold State.raise
  generalize (s.active || s.devState == .fault) = live
  generalize s.noteFault code unit r detail = u at *
  rw [← same]
  cases r with
  | report => exact ⟨_, _, rfl⟩
  | reduced => exact ⟨_, _, rfl⟩
  | fenceTe => exact ⟨_, _, loop_of_only (Only.enterFence unit u) l⟩
  | fencePi => exact ⟨_, _, loop_of_only (Only.fencePi u) l⟩
  | controlled =>
    cases live
    · exact ⟨_, _, rfl⟩
    · exact loop_orderStop code l (noted.get .loops ▸ wf)
  | immediate =>
    cases live
    · exact ⟨_, _, rfl⟩
    · exact ⟨_, _, loop_of_only (Only.assertSto code { u with verge := { u.verge with stop := .immediate } }) l⟩

/-! ### The control law -/

/-- What an evaluation leaves of a loop until its output is committed. -/
structure LoopSt.SameOutput (x y : LoopSt) : Prop where
  out : y.out = x.out
  sample : y.sample = x.sample
  actPend : y.actPend = x.actPend
  lateRun : y.lateRun = x.lateRun

theorem sameOutput_integrate (sum : Int) (x : LoopSt) : x.SameOutput (x.integrate sum) := by
  unfold LoopSt.integrate
  split <;> exact ⟨rfl, rfl, rfl, rfl⟩

/-- The law gives an output between OUT_MIN and OUT_MAX, the manual one in MANUAL, and commits nothing. -/
theorem law_spec (r : Rec) (pos vel y ref ff : Int) (x : LoopSt) : x.SameOutput (x.law r pos vel y ref ff).1 ∧
    ∃ v, (x.law r pos vel y ref ff).2 = clampTo (r.i 0x4C 4) (r.i 0x50 4) v ∧ (x.manual = true → v = x.manualOut) := by
  unfold LoopSt.law
  extract_lets
  split
  case isTrue => exact ⟨⟨rfl, rfl, rfl, rfl⟩, _, rfl, fun _ => rfl⟩
  case isFalse auto =>
    split
    · obtain ⟨a, b, c, d⟩ := sameOutput_integrate _ _
      exact ⟨⟨a, b, c, d⟩, _, rfl, fun manual => absurd manual auto⟩
    · obtain ⟨a, b, c, d⟩ := sameOutput_integrate _ _
      exact ⟨⟨a, b, c, d⟩, _, rfl, fun manual => absurd manual auto⟩

theorem Only.feedForward (reads : List (ReadEntry × ReadSt)) (s : State) : Only [.free] s (s.feedForward reads).2 := by
  unfold State.feedForward
  split
  · exact Only.refl _ s
  · exact Only.refl _ s
  · exact Only.draw s

/-- The loop has its feedback: KIND is not Waymark feedback, or an FB entry supplies a value. -/
def Fed (r : Rec) (reads : List (ReadEntry × ReadSt)) : Prop := r.u 9 1 ≤ 1 ∨ (valueOf reads 2).isSome = true

theorem evaluate_unfed {r : Rec} {reads : List (ReadEntry × ReadSt)} (unfed : ¬ Fed r reads) (l : Nat) (s : State) :
    s.evaluate l r reads = (none, s) := by
  rw [Fed, not_or, Bool.not_eq_true, Option.isSome_eq_false_iff, Option.isNone_iff_eq_none] at unfed
  obtain ⟨kind, noValue⟩ := unfed
  unfold State.evaluate
  extract_lets x pos vel y
  have none : y = none := by
    unfold y
    split
    · omega
    · omega
    · exact noValue
  rw [none]

theorem evaluate_fed {r : Rec} {reads : List (ReadEntry × ReadSt)} (fed : Fed r reads) (l : Nat) (s : State) :
    ∃ z v u, s.evaluate l r reads = (some (z, clampTo (r.i 0x4C 4) (r.i 0x50 4) v), u) ∧ (s.loop l).SameOutput z ∧
      ((s.loop l).manual = true → v = (s.loop l).manualOut) ∧ Only [.free] s u := by
  unfold State.evaluate
  extract_lets x pos vel y
  have some : ∃ fb, y = some fb := by
    unfold y
    split
    · exact ⟨_, rfl⟩
    · exact ⟨_, rfl⟩
    case h_3 no0 no1 =>
      have other : ¬ r.u 9 1 ≤ 1 := fun le => (Nat.le_one_iff_eq_zero_or_eq_one.1 le).elim no0 no1
      exact Option.isSome_iff_exists.1 (fed.resolve_left other)
  obtain ⟨fb, some⟩ := some
  rw [some]
  dsimp only
  obtain ⟨⟨a, b, c, d⟩, v, out, manual⟩ := law_spec r pos vel fb (s.reference r x reads).1
    (s.feedForward reads).1 x
  exact ⟨_, v, _, congrArg (fun o => (Option.some (_, o), _)) out, ⟨a, b, c, d⟩, manual, Only.feedForward reads s⟩

/-! ### One evaluation -/

/-- The loop's sample is taken for evaluation. -/
def State.sampleTaken (l : Nat) (s : State) : State := s.modLoop l fun y => { y with sample := none }

/-- A loop whose evaluation of the sample of `p` came to `z` and an output. -/
def LoopSt.settled (x z : LoopSt) (r : Rec) (reads : List (ReadEntry × ReadSt)) (p now : Nat) (o : CeOutcome) (out : Int) :
    LoopSt :=
  let w := x.keepReads true reads { z with lastSample := p }
  if o = CeOutcome.agree then w.commit (p + loopDelay r) now out else w

/-- The state with its loop set by an evaluation, before what the evaluation says. -/
def State.loopEvaluated (l : Nat) (r : Rec) (reads : List (ReadEntry × ReadSt)) (p : Nat) (o : CeOutcome) (s : State) : State :=
  match (s.sampleTaken l).evaluate l r reads with
  | (none, u) => u.modLoop l ((s.loop l).keepReads false reads)
  | (some (z, out), u) => (u.modLoop l fun _ => (s.loop l).settled z r reads p s.now o out).endRamps

theorem exec_loopEvaluation {l p : Nat} {r : Rec} (live : s.islandLive = true) (next : s.nextLoop = some l)
    (loop : s.loopRec l = some r) (sample : (s.loop l).sample = some p) (o : CeOutcome) :
    exec (.loopEvaluation o) s = done s (
      if o = .memoryUe then (s.sampleTaken l).raise 0x8A04 0xFF .immediate 0
      else (s.loopEvaluated l r (s.readAll r (s.loop l) p) p o).evaluated l (s.loop l) (s.readAll r (s.loop l) p)
        (s.stopCat l) o) := by
  unfold exec execLoopEvaluation
  simp only [live, next, loop, sample, Bool.not_true, Bool.false_eq_true, if_false]
  split
  · rfl
  · unfold State.loopEvaluated
    generalize e : (s.sampleTaken l).evaluate l r (s.readAll r (s.loop l) p) = q
    obtain ⟨res, u⟩ := q
    have e' : State.evaluate l r (s.readAll r (s.loop l) p) (s.modLoop l fun y => { y with sample := none }) = (res, u) := e
    rw [e']
    cases res with
    | none => rfl
    | some q => rfl

theorem Only.sampleTaken (l : Nat) (s : State) : Only [.loops] s (s.sampleTaken l) := Only.modLoop l _ s

theorem wf_modLoop (l : Nat) (g : LoopSt → LoopSt) (wf : Map.wf LoopSt.init s.loops = true) :
    Map.wf LoopSt.init (s.modLoop l g).loops = true := Map.wf_set _ _ _ _ wf

/-- An evaluation without feedback keeps all but the input of its loop; one with feedback settles it. -/
theorem loopEvaluated_spec (l : Nat) (r : Rec) (reads : List (ReadEntry × ReadSt)) (p : Nat) (o : CeOutcome)
    (wf : Map.wf LoopSt.init s.loops = true) : Only (.free :: stopParts) s (s.loopEvaluated l r reads p o) ∧
    (¬ Fed r reads → (s.loopEvaluated l r reads p o).loop l = (s.loop l).keepReads false reads { s.loop l with sample := none }) ∧
    (Fed r reads → ∃ z v, ({ s.loop l with sample := none } : LoopSt).SameOutput z ∧
      ((s.loop l).manual = true → v = (s.loop l).manualOut) ∧ (s.loopEvaluated l r reads p o).loop l =
        (s.loop l).settled z r reads p s.now o (clampTo (r.i 0x4C 4) (r.i 0x50 4) v)) := by
  have taken : (s.sampleTaken l).loop l = { s.loop l with sample := none } :=
    (State.loop_modLoop _ _ _ _ wf).trans (if_pos rfl)
  have wf' : Map.wf LoopSt.init (s.sampleTaken l).loops = true := wf_modLoop _ _ wf
  unfold State.loopEvaluated
  by_cases fed : Fed r reads
  · obtain ⟨z, v, u, e, same, manual, free⟩ := evaluate_fed fed l (s.sampleTaken l)
    rw [taken] at same manual
    rw [e]
    dsimp only
    have set := (Only.modLoop l (fun _ => (s.loop l).settled z r reads p s.now o (clampTo (r.i 0x4C 4) (r.i 0x50 4) v)) u)
    refine ⟨((Only.sampleTaken l s).mono (by decide)).trans ((free.mono (by decide)).trans ((set.mono (by decide)).trans
      ((Only.endRamps _).mono (by decide)))), fun unfed => absurd fed unfed, fun _ => ⟨z, v, same, manual, ?_⟩⟩
    rw [loop_of_only (Only.rampsEnded _), State.loop_modLoop _ _ _ _ (free.get .loops ▸ wf'), if_pos rfl]
  · rw [evaluate_unfed fed]
    dsimp only
    refine ⟨((Only.sampleTaken l s).mono (by decide)).trans ((Only.modLoop l _ _).mono (by decide)), fun _ => ?_,
      fun fed' => absurd fed' fed⟩
    rw [State.loop_modLoop _ _ _ _ wf', if_pos rfl, taken]

theorem Kept.loopEvaluated (l : Nat) (r : Rec) (reads : List (ReadEntry × ReadSt)) (p : Nat) (o : CeOutcome) (s : State) :
    Kept s (s.loopEvaluated l r reads p o) := by
  unfold State.loopEvaluated
  have taken : Kept s (s.sampleTaken l) := (Kept.refl s).modLoop
  split
  case h_1 made => exact (taken.evaluate.of_pair made).modLoop
  case h_2 made => exact (taken.evaluate.of_pair made).modLoop.endRamps

/-- Of loop `l`, only the ramp of a controlled stop may differ. -/
def RampOnly (l : Nat) (s t : State) : Prop := ∃ v d, t.loop l = { s.loop l with rampVel := v, rampDone := d }

theorem RampOnly.refl (l : Nat) (s : State) : RampOnly l s s := ⟨_, _, rfl⟩

theorem RampOnly.trans {l : Nat} {u : State} (h : RampOnly l s t) (k : RampOnly l t u) : RampOnly l s u := by
  obtain ⟨v, d, h⟩ := h
  obtain ⟨v', d', k⟩ := k
  exact ⟨v', d', by rw [k, h]⟩

/-- A stop that an evaluation requests, and the fallbacks that begin and end. -/
def State.stopTold (l : Nat) (x : LoopSt) (reads : List (ReadEntry × ReadSt)) (cat : Reaction) (s : State) : State :=
  (if stopRequested x reads then s.raise 0x8A0D l cat 0 else s).postFallbacks l x reads

theorem Only.postFallbacks (l : Nat) (x : LoopSt) (reads : List (ReadEntry × ReadSt)) (s : State) :
    Only [.events, .irq, .out] s (s.postFallbacks l x reads) := by
  refine Only.foldl _ (fun u q => ?_) reads s
  dsimp only
  split
  · exact Only.refl _ u
  · exact Only.post _ _ _ u

theorem Kept.stopTold (h : Kept s t) (l : Nat) (x : LoopSt) (reads : List (ReadEntry × ReadSt)) (cat : Reaction) :
    Kept s (t.stopTold l x reads cat) :=
  Kept.postFallbacks (Kept.ite (fun _ => h.raise) fun _ => h)

theorem stopCat_cases (l : Nat) (s : State) : s.stopCat l = .immediate ∨ s.stopCat l = .controlled := by
  unfold State.stopCat
  split
  · exact .inl rfl
  · exact .inr rfl

/-- What an evaluation tells Verge and the host changes a loop by its ramp alone, and leaves outputs live where they
were. -/
theorem stopTold_spec (l : Nat) (x : LoopSt) (reads : List (ReadEntry × ReadSt)) {cat : Reaction}
    (stop : cat = .immediate ∨ cat = .controlled) (wf : Map.wf LoopSt.init s.loops = true) :
    Only raiseParts s (s.stopTold l x reads cat) ∧ RampOnly l s (s.stopTold l x reads cat) ∧
    (s.islandLive = true → (s.stopTold l x reads cat).islandLive = true) := by
  unfold State.stopTold
  have posts (t : State) := Only.postFallbacks l x reads t
  have told (t : State) : RampOnly l t (t.postFallbacks l x reads) := ⟨_, _, loop_of_only (posts t) l⟩
  have live (t : State) (on : t.islandLive = true) : (t.postFallbacks l x reads).islandLive = true := by
    unfold State.islandLive State.active at on ⊢
    rwa [(posts t).get .devState]
  split
  · exact ⟨(Only.raise _ _ _ _ s).trans ((posts _).mono (by decide)),
      RampOnly.trans (loop_raise _ _ _ _ l wf) (told _), fun on => live _ (live_raise_stop stop on)⟩
  · exact ⟨(posts s).mono (by decide), told s, live s⟩

theorem evaluated_agree (l : Nat) (x : LoopSt) (reads : List (ReadEntry × ReadSt)) (cat : Reaction) (s : State) :
    s.evaluated l x reads cat .agree = s.stopTold l x reads cat := rfl

theorem evaluated_diverge (l : Nat) (x : LoopSt) (reads : List (ReadEntry × ReadSt)) (cat : Reaction) (s : State) :
    s.evaluated l x reads cat .diverge = (s.stopTold l x reads cat).raise 0x8A01 0xFF .immediate 0 := rfl

/-! ### The settled loop -/

theorem clampTo_bounds {lo hi : Int} (h : lo ≤ hi) (v : Int) : lo ≤ clampTo lo hi v ∧ clampTo lo hi v ≤ hi := by
  unfold clampTo
  omega

/-- An evaluated sample is noted, and leaves what is committed. -/
theorem settled_diverge {x z : LoopSt} (same : ({ x with sample := none } : LoopSt).SameOutput z) (r : Rec)
    (reads : List (ReadEntry × ReadSt)) (p now : Nat) (out : Int) :
    (x.settled z r reads p now .diverge out).out = x.out ∧ (x.settled z r reads p now .diverge out).actPend = x.actPend :=
  ⟨same.out, same.actPend⟩

theorem settled_sample {x z : LoopSt} (same : ({ x with sample := none } : LoopSt).SameOutput z) (r : Rec)
    (reads : List (ReadEntry × ReadSt)) (p now : Nat) (out : Int) :
    (x.settled z r reads p now .agree out).sample = none ∧ (x.settled z r reads p now .agree out).lastSample = p := by
  unfold LoopSt.settled LoopSt.commit
  rw [if_pos rfl]
  split <;> exact ⟨same.sample, rfl⟩

/-- An output in time is committed. -/
theorem settled_inTime {x z : LoopSt} (same : ({ x with sample := none } : LoopSt).SameOutput z) {r : Rec} {p now : Nat}
    (reads : List (ReadEntry × ReadSt)) (out : Int) (ahead : now < p + loopDelay r) :
    (x.settled z r reads p now .agree out).out = out ∧ (x.settled z r reads p now .agree out).lateRun = 0 ∧
    (x.settled z r reads p now .agree out).lastLate = false ∧ (x.settled z r reads p now .agree out).actPend =
      x.actPend.map fun q => if q.1 = p + loopDelay r then (q.1, true) else q := by
  unfold LoopSt.settled LoopSt.commit
  rw [if_pos rfl, if_pos ahead]
  exact ⟨rfl, rfl, rfl, congrArg _ same.actPend⟩

/-- A late output is discarded. -/
theorem settled_late {x z : LoopSt} (same : ({ x with sample := none } : LoopSt).SameOutput z) {r : Rec} {p now : Nat}
    (reads : List (ReadEntry × ReadSt)) (out : Int) (late : p + loopDelay r ≤ now) :
    (x.settled z r reads p now .agree out).out = x.out ∧ (x.settled z r reads p now .agree out).actPend = x.actPend ∧
    (x.settled z r reads p now .agree out).lateRun = x.lateRun := by
  unfold LoopSt.settled LoopSt.commit
  rw [if_pos rfl, if_neg (by omega)]
  exact ⟨same.out, same.actPend, same.lateRun⟩

theorem islandLive_of_only {ps : List Part} (h : Only ps s t) (on : s.islandLive = true) (d : Part.devState ∉ ps := by decide) :
    t.islandLive = true := by
  have same : t.devState = s.devState := h.2 .devState d
  unfold State.islandLive State.active at on ⊢
  rwa [same]

/-! ### Actuation -/

theorem Only.spReplaced (c seq : Nat) (s : State) : Only [.cans, .events, .irq, .out] s (s.spReplaced c seq) := by
  unfold State.spReplaced
  have counted := Only.modCan c (fun x => { x.bump 5 1 with spOver := true }) s
  exact Only.ite (fun _ => counted.mono (by decide)) fun _ =>
    (counted.mono (by decide)).trans ((Only.post _ _ _ _).mono (by decide))

theorem Only.offerSetpoint (c : Nat) (f : CanFrame) (s : State) : Only [.cans, .events, .irq, .out] s (s.offerSetpoint c f) := by
  have set (g : CanSt → CanSt) (t : State) : Only [.cans, .events, .irq, .out] t (t.modCan c g) :=
    (Only.modCan c g t).mono (by decide)
  unfold State.offerSetpoint
  refine Only.ite (fun _ => Only.trans ?_ (set _ _)) fun _ =>
    Only.ite (fun _ => (Only.spReplaced _ _ s).trans (set _ _)) fun _ => set _ s
  split
  · exact Only.spReplaced _ _ s
  · exact Only.refl _ s

theorem Only.formSetpoint (c : Nat) (s : State) : Only [.cans, .events, .irq, .out] s (s.formSetpoint c) := by
  unfold State.formSetpoint
  split
  · exact Only.refl _ s
  · exact (Only.offerSetpoint _ _ s).trans ((Only.modCan _ _ _).mono (by decide))

/-- The committed output of loop `l` goes to what it drives at its actuation instant `a`. -/
def State.outputSent (l : Nat) (r : Rec) (a : Nat) (s : State) : State :=
  match r.u 0x19 1 with
  | 1 => if r.u 0x1C 1 = l then s.formSetpoint (r.u 0x1A 1) else s
  | 2 => s.modPwm (r.u 0x1A 1) fun p => { p with cmd := s.output l, nextPeriod := some a }
  | _ => s

/-- A loop whose sample had no committed output at its actuation instant. -/
def LoopSt.countedLate (n : Nat) (x : LoopSt) : LoopSt :=
  { x with lateCount := satAdd 0xFFFFFFFF x.lateCount 1, lastLate := true, lateRun := n }

/-- Loop `l` with its oldest actuation instant taken. -/
def State.pendTaken (l : Nat) (rest : List (Nat × Bool)) (s : State) : State := s.modLoop l fun x => { x with actPend := rest }

/-- What the actuation instant leaves of its loop. -/
def LoopSt.actuated (ok : Bool) (rest : List (Nat × Bool)) (x : LoopSt) : LoopSt :=
  if ok then { x with actPend := rest } else LoopSt.countedLate (x.lateRun + 1) { x with actPend := rest }

/-- The actuation of loop `l` with instant `a`. -/
def State.actuated (l : Nat) (r : Rec) (a : Nat) (ok : Bool) (rest : List (Nat × Bool)) (s : State) : State :=
  let t := (s.pendTaken l rest).outputSent l r a
  let n := (s.loop l).lateRun + 1
  if ok then t
  else if n = s.lateLimit l then (t.modLoop l (LoopSt.countedLate n)).raise 0x8A0C l (s.stopCat l) n
  else t.modLoop l (LoopSt.countedLate n)

theorem exec_loopActuation {l : Fin 32} {r : Rec} {a : Nat} {ok : Bool} {rest : List (Nat × Bool)} (loop : s.loopRec l = some r)
    (pend : (s.loop l).actPend = (a, ok) :: rest) (live : s.islandLive = true) :
    exec (.loopActuation l) s = done s (if s.now < a then s else s.actuated l r a ok rest) := by
  unfold exec execLoopActuation
  simp only [loop, pend, live, Bool.not_true, Bool.false_or, decide_eq_true_eq]
  rfl

theorem Only.outputSent (l : Nat) (r : Rec) (a : Nat) (s : State) :
    Only [.cans, .events, .irq, .out, .ports] s (s.outputSent l r a) := by
  unfold State.outputSent
  split
  · exact Only.ite (fun _ => (Only.formSetpoint _ s).mono (by decide)) fun _ => Only.refl _ s
  · exact (Only.modPwm _ _ s).mono (by decide)
  · exact Only.refl _ s

theorem loop_pendTaken (l : Nat) (rest : List (Nat × Bool)) (wf : Map.wf LoopSt.init s.loops = true) :
    (s.pendTaken l rest).loop l = { s.loop l with actPend := rest } :=
  (State.loop_modLoop _ _ _ _ wf).trans (if_pos rfl)

/-- The output of a loop depends on its committed output and on whether REDUCED is in force. -/
theorem output_pendTaken (l : Nat) (rest : List (Nat × Bool)) (wf : Map.wf LoopSt.init s.loops = true) :
    (s.pendTaken l rest).output l = s.output l := by
  have out : ((s.pendTaken l rest).loop l).out = (s.loop l).out := by rw [loop_pendTaken l rest wf]
  unfold State.output
  rw [out]
  rfl

theorem Only.pendTaken (l : Nat) (rest : List (Nat × Bool)) (s : State) : Only [.loops] s (s.pendTaken l rest) :=
  Only.modLoop l _ s

theorem Only.actuated (l : Nat) (r : Rec) (a : Nat) (ok : Bool) (rest : List (Nat × Bool)) (s : State) :
    Only (.cans :: raiseParts) s (s.actuated l r a ok rest) := by
  have sent : Only (.cans :: raiseParts) s ((s.pendTaken l rest).outputSent l r a) :=
    ((Only.pendTaken l rest s).mono (by decide)).trans ((Only.outputSent _ _ _ _).mono (by decide))
  have counted (n : Nat) := sent.trans ((Only.modLoop l (LoopSt.countedLate n) _).mono (by decide))
  exact Only.ite (fun _ => sent) fun _ => Only.ite
    (fun _ => (counted _).trans ((Only.raise _ _ _ _ _).mono (by decide))) fun _ => counted _

theorem loop_actuated (l : Nat) (r : Rec) (a : Nat) (ok : Bool) (rest : List (Nat × Bool))
    (wf : Map.wf LoopSt.init s.loops = true) :
    ∃ v d, (s.actuated l r a ok rest).loop l = { (s.loop l).actuated ok rest with rampVel := v, rampDone := d } := by
  have sent : ((s.pendTaken l rest).outputSent l r a).loop l = { s.loop l with actPend := rest } := by
    rw [loop_of_only (Only.outputSent _ _ _ _), loop_pendTaken l rest wf]
  have wf' : Map.wf LoopSt.init ((s.pendTaken l rest).outputSent l r a).loops = true := by
    rw [(Only.outputSent _ _ _ _).get .loops]
    exact wf_modLoop _ _ wf
  unfold State.actuated
  cases ok
  · have counted : (((s.pendTaken l rest).outputSent l r a).modLoop l (LoopSt.countedLate ((s.loop l).lateRun + 1))).loop l =
        (s.loop l).actuated false rest := by
      rw [State.loop_modLoop _ _ _ _ wf', if_pos rfl, sent]
      rfl
    rw [if_neg Bool.false_ne_true]
    split
    · obtain ⟨v, d, e⟩ := loop_raise 0x8A0C l (s.stopCat l) ((s.loop l).lateRun + 1) l
        (wf_modLoop l (LoopSt.countedLate ((s.loop l).lateRun + 1)) wf')
      exact ⟨v, d, by rw [e, counted]⟩
    · exact ⟨_, _, counted⟩
  · exact ⟨_, _, sent⟩

/-- A PWM output takes the committed output for the period at the actuation instant. -/
theorem pwm_outputSent {r : Rec} (l a : Nat) (drives : r.u 0x19 1 = 2) (wf : Map.wf PwmSt.init s.ports.pwm = true) :
    ((s.outputSent l r a).pwm (r.u 0x1A 1)).cmd = s.output l ∧ ((s.outputSent l r a).pwm (r.u 0x1A 1)).nextPeriod = some a := by
  have sent : s.outputSent l r a = s.modPwm (r.u 0x1A 1) fun p => { p with cmd := s.output l, nextPeriod := some a } := by
    unfold State.outputSent
    rw [drives]
    rfl
  rw [sent, State.pwm_modPwm _ _ _ _ wf, if_pos rfl]
  exact ⟨rfl, rfl⟩

theorem exec_diagnosticEvaluation {diverged flagged forced : Bool} (on : s.devState ≠ .off) :
    exec (.diagnosticEvaluation diverged flagged forced) s = done s (
      if forced && !flagged then s.raise 0x8A02 0xFF .immediate 0
      else if !forced && diverged && flagged then s.raise 0x8A01 0xFF .immediate 0 else s) :=
  congrArg (done s) (if_neg on)

end Sys2Proof.Machine

open Sys2Proof Sys2Proof.Machine

/-- Settles O51: an evaluation by what it settles of its loop, a fault by what it leaves of one, an actuation by what it
sends. -/
theorem evaluationsCommitOnlyInTime : Obligations.EvaluationsCommitOnlyInTime := by
  refine ⟨fun s l p r canonical live next loop sample => ?_, fun l s r a ok rest canonical loop pend live => ?_,
    fun diverged flagged forced s on => ?_⟩
  · have wf := (canonical_iff.1 canonical).loops
    have stop := stopCat_cases l s
    intro x due reads fed
    have run := exec_loopEvaluation live next loop sample
    refine ⟨?_, ?_, ?_⟩
    · rw [run .memoryUe, if_pos rfl]
      exact done_eq (((Only.sampleTaken l s).mono (by decide)).trans (Only.raise _ _ _ _ _)).1
    · obtain ⟨only, unfed, settled⟩ := loopEvaluated_spec l r reads p .agree wf
      have wf' := (canonical_iff.1 ((Kept.loopEvaluated l r reads p .agree s).canonical canonical)).loops
      obtain ⟨told, ⟨v, d, ramp⟩, _⟩ := stopTold_spec l x reads stop wf'
      rw [run .agree, if_neg (by decide), evaluated_agree]
      have both : Only (.loops :: raiseParts) s _ := (only.mono (by decide)).trans (told.mono (by decide))
      refine goes_done both ?_
      dsimp only
      rw [ramp]
      refine ⟨?_, both, ⟨s.loopEvaluated l r reads p .agree, rfl⟩, fun noFeedback => ?_, fun feedback => ?_,
        fun feedback ahead => ?_, fun feedback late => ?_⟩
      · by_cases feedback : fed
        · obtain ⟨z, out, same, manual, e⟩ := settled feedback
          rw [e]
          exact (settled_sample same r reads p s.now _).1
        · rw [unfed feedback]
          rfl
      · rw [unfed noFeedback]
        exact ⟨rfl, rfl, rfl, rfl, rfl, rfl⟩
      · obtain ⟨z, out, same, manual, e⟩ := settled feedback
        rw [e]
        exact (settled_sample same r reads p s.now _).2
      · obtain ⟨z, out, same, manual, e⟩ := settled feedback
        obtain ⟨committed, run, late, pend⟩ := settled_inTime same reads (clampTo (r.i 0x4C 4) (r.i 0x50 4) out) ahead
        rw [e]
        refine ⟨fun range => ?_, run, late, fun hand => ?_, pend⟩
        · obtain ⟨low, high⟩ := clampTo_bounds range out
          exact ⟨low.trans_eq committed.symm, (le_of_eq committed).trans high⟩
        · exact committed.trans (by rw [manual hand])
      · obtain ⟨z, out, same, manual, e⟩ := settled feedback
        rw [e]
        exact settled_late same reads _ late
    · obtain ⟨only, unfed, settled⟩ := loopEvaluated_spec l r reads p .diverge wf
      have settledKept := Kept.loopEvaluated l r reads p .diverge s
      have wf' := (canonical_iff.1 (settledKept.canonical canonical)).loops
      have wf'' := (canonical_iff.1 ((settledKept.stopTold l x reads (s.stopCat l)).canonical canonical)).loops
      obtain ⟨told, ⟨v, d, ramp⟩, live'⟩ := stopTold_spec l x reads stop wf'
      have on := live' (islandLive_of_only only live)
      obtain ⟨v', d', ramp'⟩ := loop_raise 0x8A01 0xFF .immediate 0 l
        (s := (s.loopEvaluated l r reads p .diverge).stopTold l x reads (s.stopCat l)) wf''
      rw [run .diverge, if_neg (by decide), evaluated_diverge]
      have both : Only (.loops :: raiseParts) s _ := (only.mono (by decide)).trans (told.mono (by decide))
      refine goes_done (both.trans ((Only.raise _ _ _ _ _).mono (by decide))) ?_
      rw [ramp', ramp]
      have kept : ((s.loopEvaluated l r reads p .diverge).loop l).out = x.out ∧
          ((s.loopEvaluated l r reads p .diverge).loop l).actPend = x.actPend := by
        by_cases feedback : fed
        · obtain ⟨z, out, same, manual, e⟩ := settled feedback
          rw [e]
          exact settled_diverge same r reads p s.now _
        · rw [unfed feedback]
          exact ⟨rfl, rfl⟩
      exact ⟨kept.1, kept.2, ⟨_, rfl⟩, raise_immediate _ _ _ (live_iff.1 on)⟩
  · have wf := (canonical_iff.1 canonical).loops
    rw [exec_loopActuation loop pend live]
    intro x
    refine ⟨fun early => by rw [if_pos early]; rfl, fun due => ?_⟩
    rw [if_neg (by omega)]
    obtain ⟨v, d, e⟩ := loop_actuated l r a ok rest wf
    refine goes_done (Only.actuated l r a ok rest s) ?_
    dsimp only
    rw [e]
    cases ok
    · refine ⟨rfl, rfl, Only.actuated l r a false rest s, nofun, fun _ => ⟨rfl, rfl, rfl, fun limit => ?_⟩⟩
      exact ⟨_, if_pos limit⟩
    · refine ⟨rfl, rfl, Only.actuated l r a true rest s, fun _ => ⟨rfl, rfl, fun drives => ?_⟩, nofun⟩
      rw [← output_pendTaken l rest wf]
      exact pwm_outputSent l a drives (canonical_iff.1 canonical).pwm
  · rw [exec_diagnosticEvaluation on]
    cases forced <;> cases flagged <;> cases diverged <;> simp [raise_done, done_same]

end

section
/-! PROOF. The state of one CAN controller through the operations on it (17). -/

namespace Sys2Proof.Machine

set_option Elab.async false

variable {s t u : State} {ps qs : List Part} {c : Nat} {x y : CanSt} {r : Rec}

/-! ### One controller -/

/-- From `s` to `t` only some parts changed, the controllers stay canonical, and controller `c` has come to `y`. -/
structure CanStep (ps : List Part) (c : Nat) (y : CanSt) (s t : State) : Prop where
  only : Only ps s t
  wf : Map.wf CanSt.init t.cans = true
  can : t.can c = y

theorem CanStep.refl (wf : Map.wf CanSt.init s.cans = true) : CanStep ps c (s.can c) s s := ⟨Only.refl ps s, wf, rfl⟩

theorem CanStep.mono (h : CanStep ps c y s t) (sub : ∀ p ∈ ps, p ∈ qs) : CanStep qs c y s t :=
  ⟨h.only.mono sub, h.wf, h.can⟩

theorem CanStep.modCan (h : CanStep ps c y s t) (g : CanSt → CanSt) (cans : Part.cans ∈ ps := by decide) :
    CanStep ps c (g y) s (t.modCan c g) where
  only := h.only.trans ((Only.modCan c g t).mono (by simpa using cans))
  wf := Map.wf_set _ _ _ _ h.wf
  can := by rw [State.can_modCan _ _ _ _ h.wf, if_pos rfl, h.can]

theorem can_of_only (h : Only ps s t) (c : Nat) (cans : Part.cans ∉ ps := by decide) : t.can c = s.can c :=
  congrArg (fun m : Map CanSt => m.get CanSt.init c) (h.2 .cans cans)

/-- A step beside the controllers. -/
theorem CanStep.beside (h : CanStep ps c y s t) (k : Only qs t u) (sub : ∀ p ∈ qs, p ∈ ps := by decide)
    (cans : Part.cans ∉ qs := by decide) : CanStep ps c y s u where
  only := h.only.trans (k.mono sub)
  wf := (k.2 .cans cans) ▸ h.wf
  can := (can_of_only k c cans).trans h.can

/-- A CAN event is no fault event. -/
theorem CanStep.post (h : CanStep ps c y s t) (code payload : Nat) (ctx : Option Nat)
    (events : Part.events ∈ ps := by decide) (quiet : faultEvents.contains code = false := by decide) :
    CanStep ps c y s (t.post code payload ctx) :=
  h.beside (Only.quietPost quiet payload ctx t) (by simpa using events)

theorem CanStep.ite {d : Prop} [Decidable d] {y y' : CanSt} (h : d → CanStep ps c y s t) (k : ¬ d → CanStep ps c y' s u) :
    CanStep ps c (if d then y else y') s (if d then t else u) := by
  split
  · exact h ‹_›
  · exact k ‹_›

theorem get_bump (i n j : Nat) (wf : Map.wf 0 y.counters = true) :
    (y.bump i n).counters.get 0 j = if j = i then add64 (y.counters.get 0 i) n else y.counters.get 0 j :=
  Map.get_set 0 _ _ _ _ wf

theorem wf_bump (i n : Nat) (wf : Map.wf 0 y.counters = true) : Map.wf 0 (y.bump i n).counters = true :=
  Map.wf_set 0 _ _ _ wf

/-! ### Error states -/

/-- A change of the transmit buffers' flags alone. -/
structure CanSt.SameButTxb (x y : CanSt) : Prop where
  eq : y = { x with pend := y.pend, failed := y.failed, cause := y.cause, abortReq := y.abortReq }

theorem CanSt.SameButTxb.refl (x : CanSt) : x.SameButTxb x := ⟨rfl⟩

/-- Host TXBs that are pending fail with a cause. -/
def CanSt.hostFail (r : Rec) (cause : Nat) (x : CanSt) : CanSt :=
  [0, 1, 2].foldl (fun a n => if x.pend.getD n false && canHostTxb r n then a.fail n cause else a) x

theorem sameButTxb_fail (n cause : Nat) (h : x.SameButTxb y) : x.SameButTxb (y.fail n cause) := by
  obtain ⟨e⟩ := h
  unfold CanSt.fail
  rw [e]
  exact ⟨rfl⟩

theorem sameButTxb_hostFail (r : Rec) (cause : Nat) (x : CanSt) : x.SameButTxb (x.hostFail r cause) := by
  have step (l : List Nat) : ∀ y, x.SameButTxb y → x.SameButTxb
      (l.foldl (fun a n => if x.pend.getD n false && canHostTxb r n then a.fail n cause else a) y) := by
    induction l with
    | nil => exact fun _ h => h
    | cons n l ih =>
      refine fun y h => ih _ ?_
      dsimp only
      split
      · exact sameButTxb_fail n cause h
      · exact h
  exact step [0, 1, 2] x (.refl x)

/-- A controller that has become bus-off. -/
def CanSt.offBus (r : Rec) (lead : Bool) (x : CanSt) : CanSt :=
  { (x.hostFail r 4).bump 7 (x.hostFail r 4).txq.length with txq := [], state := if canFlag r 4 || lead then 3 else 2 }

/-- A controller after its error counts are looked at. -/
def CanSt.errorState (r : Rec) (lead : Bool) (x : CanSt) : CanSt :=
  if 256 ≤ x.tec then x.offBus r lead else { x with state := if 128 ≤ x.tec ∨ 128 ≤ x.recCnt then 1 else 0 }

theorem CanStep.errorState (h : CanStep ps c y s t) (r : Rec) (cans : Part.cans ∈ ps := by decide)
    (events : Part.events ∈ ps := by decide) :
    CanStep ps c (y.errorState r (t.leadLoop c).isSome) s (t.canErrorState c r) := by
  unfold State.canErrorState CanSt.errorState
  dsimp only
  rw [h.can]
  generalize (if 128 ≤ y.tec ∨ 128 ≤ y.recCnt then 1 else 0) = st
  refine CanStep.ite (fun _ => ?_) fun _ => ?_
  · exact (h.modCan (CanSt.offBus r (t.leadLoop c).isSome) cans).post 0x0B04 _ _ events
  · have set := h.modCan (fun y => { y with state := st }) cans
    split
    · exact set.post 0x0B03 _ _ events
    · exact set

/-- What a change of the error state leaves of a controller. -/
structure CanSt.KeptByErrors (x y : CanSt) : Prop where
  onBus : y.onBus = x.onBus
  tec : y.tec = x.tec
  recCnt : y.recCnt = x.recCnt
  lastErr : y.lastErr = x.lastErr
  errData : y.errData = x.errData
  rxTail : y.rxTail = x.rxTail
  counters : Map.wf 0 x.counters = true → ∀ j, j ≠ 7 → y.counters.get 0 j = x.counters.get 0 j

theorem keptByErrors_offBus (r : Rec) (lead : Bool) (x : CanSt) : x.KeptByErrors (x.offBus r lead) := by
  obtain ⟨e⟩ := sameButTxb_hostFail r 4 x
  unfold CanSt.offBus
  rw [e]
  exact ⟨rfl, rfl, rfl, rfl, rfl, rfl, fun wf j other => (get_bump 7 _ j wf).trans (if_neg other)⟩

theorem keptByErrors_errorState (r : Rec) (lead : Bool) (x : CanSt) : x.KeptByErrors (x.errorState r lead) := by
  unfold CanSt.errorState
  split
  · exact keptByErrors_offBus r lead x
  · exact ⟨rfl, rfl, rfl, rfl, rfl, rfl, fun _ _ _ => rfl⟩

/-- Below bus-off, the error state alone follows the counts. -/
theorem errorState_onBus (r : Rec) (lead : Bool) (below : x.tec < 256) : ∃ st, x.errorState r lead = { x with state := st } :=
  ⟨_, if_neg (by omega)⟩

/-- Bus-off is reported with the counts of the controller. -/
theorem canErrorState_off (h : CanStep ps c y s t) (r : Rec) (off : 256 ≤ y.tec) :
    ∃ u : State, t.canErrorState c r = u.post 0x0B04 ((t.canErrorState c r).canPayload c) none := by
  have e : t.canErrorState c r = State.post 0x0B04 ((t.modCan c (CanSt.offBus r (t.leadLoop c).isSome)).canPayload c) none
      (t.modCan c (CanSt.offBus r (t.leadLoop c).isSome)) := by
    unfold State.canErrorState
    dsimp only
    rw [h.can, if_pos off]
    rfl
  have payload : (t.canErrorState c r).canPayload c = (t.modCan c (CanSt.offBus r (t.leadLoop c).isSome)).canPayload c := by
    unfold State.canPayload
    rw [e, can_of_only (Only.post _ _ _ _)]
  exact ⟨_, e.trans (by rw [payload])⟩

/-! ### The end of an attempt -/

/-- The error counts, the error state and the last error are the same. -/
structure CanSt.SameErrors (x y : CanSt) : Prop where
  tec : y.tec = x.tec
  recCnt : y.recCnt = x.recCnt
  lastErr : y.lastErr = x.lastErr
  errData : y.errData = x.errData

theorem CanSt.SameErrors.refl (x : CanSt) : x.SameErrors x := ⟨rfl, rfl, rfl, rfl⟩

theorem canStep_spReplaced (h : CanStep [.cans, .events] c y s t) (seq : Nat) :
    ∃ y', CanStep [.cans, .events] c y' s (t.spReplaced c seq) ∧ y.SameErrors y' := by
  have set := h.modCan fun x => { x.bump 5 1 with spOver := true }
  refine ⟨({ y.bump 5 1 with spOver := true } : CanSt), ?_, ⟨rfl, rfl, rfl, rfl⟩⟩
  unfold State.spReplaced
  dsimp only
  split
  · exact set
  · exact set.post 0x0B07 _ _

theorem canStep_releaseHold (h : CanStep [.cans, .events] c y s t) (correct : Bool) :
    ∃ y', CanStep [.cans, .events] c y' s (t.releaseHold c correct) ∧ y.SameErrors y' := by
  unfold State.releaseHold
  split
  case h_1 => exact ⟨y, h, .refl y⟩
  case h_2 f _ =>
    cases correct
    · obtain ⟨z, replaced, same⟩ := canStep_spReplaced h (t.can c).busFrame.seqOf
      exact ⟨_, replaced.modCan fun x => { x.enterTxb0 f with spHold := none }, ⟨same.tec, same.recCnt, same.lastErr, same.errData⟩⟩
    · exact ⟨_, h.modCan fun x => { x.enterTxb0 f with spHold := none }, ⟨rfl, rfl, rfl, rfl⟩⟩

/-- A failed attempt leaves the error counts to the error handling. -/
theorem canStep_txFailed (h : CanStep [.cans, .events] c y s t) (src : CanSrc) (cause : Nat) (r : Rec) :
    ∃ y', CanStep [.cans, .events] c y' s (t.txFailed c src cause r) ∧ y.SameErrors y' := by
  unfold State.txFailed
  cases src with
  | ref => exact ⟨y, h, .refl y⟩
  | queue =>
    dsimp only
    split
    · exact ⟨_, h.modCan fun x => { x.bump 7 1 with txq := x.txq.drop 1 }, ⟨rfl, rfl, rfl, rfl⟩⟩
    · exact ⟨y, h, .refl y⟩
  | txb n =>
    dsimp only
    split
    · exact canStep_releaseHold h false
    · split
      · exact ⟨_, h.modCan (CanSt.fail n 3), ⟨rfl, rfl, rfl, rfl⟩⟩
      · split
        · exact ⟨_, h.modCan fun x => (x.fail n cause).bump 7 1, ⟨rfl, rfl, rfl, rfl⟩⟩
        · exact ⟨y, h, .refl y⟩

/-- TXB `n` has been sent. -/
def CanSt.sentTxb (n : Nat) (x : CanSt) : CanSt :=
  { x.bump 0 1 with tec := x.tec - 1, pend := x.pend.set n false, done := x.done.set n true,
                    abortReq := x.abortReq.set n false }

theorem CanStep.txSent (h : CanStep ps c y s t) {n : Nat} (host : n ≠ 0 ∨ t.leadLoop c = none)
    (cans : Part.cans ∈ ps := by decide) : CanStep ps c (y.sentTxb n) s (t.txSent c (.txb n)) := by
  have host' : ¬ (n = 0 ∧ (t.leadLoop c).isSome = true) := by
    rintro ⟨zero, lead⟩
    rcases host with host | host
    · exact host zero
    · rw [host] at lead
      exact absurd lead (by decide)
  unfold State.txSent
  dsimp only
  rw [if_neg host']
  exact (h.modCan (fun x => { x.bump 0 1 with tec := x.tec - 1 }) cans).modCan (fun x =>
    { x with pend := x.pend.set n false, done := x.done.set n true, abortReq := x.abortReq.set n false }) cans

/-! ### Reception -/

/-- A received frame that finds no place in its ring. -/
def CanSt.dropped (ring : Nat) (x : CanSt) : CanSt :=
  { x.bump (3 + ring) 1 with rxDropping := x.rxDropping.set ring true }

/-- A ring's next free record, and the PHASE with which it will be written. -/
def CanSt.advance (ring next : Nat) (phase : Bool) (x : CanSt) : CanSt :=
  { x with rxTail := x.rxTail.set ring next, rxDropping := x.rxDropping.set ring false,
           rxPhase := x.rxPhase.set ring (if next = 0 then !phase else phase) }

/-- A received frame that was written to the ring of `n` records. -/
def CanSt.stored (ring n : Nat) (x : CanSt) : CanSt :=
  x.advance ring ((x.rxTail.getD ring 0 + 1) % n) (x.rxPhase.getD ring true)

/-- A ring has no place for a record. -/
def State.rxShut (x : CanSt) (ring : Nat) (r : Rec) (s : State) : Bool :=
  let n := r.u (0x28 + 2 * ring) 2
  decide (hostBase ≤ r.u (0x18 + 8 * ring) 8) && s.isFenced 0x50 || decide (n = 0)
    || decide ((x.rxTail.getD ring 0 + n - x.rxHead.getD ring 0) % n = n - 1)

theorem rxStore_shut {ring : Nat} (shut : s.rxShut (s.can c) ring r = true) (filter stamp : Nat) (f : CanWire) (looped : Bool) :
    s.rxStore c ring filter stamp r f looped = if (s.can c).rxDropping.getD ring false then s.modCan c (CanSt.dropped ring)
      else (s.modCan c (CanSt.dropped ring)).post 0x0B02 (c + ring * 256) none := if_pos shut

/-- The record of a received frame is written, then the ring takes it. -/
def State.rxWritten (c ring filter stamp : Nat) (r : Rec) (f : CanWire) (looped : Bool) (s : State) : State :=
  let x := s.can c
  (s.writeDev none (r.u (0x18 + 8 * ring) 8 + x.rxTail.getD ring 0 * 80)
    (rxRecord f looped (x.rxPhase.getD ring true) filter stamp)).modCan c
      (CanSt.advance ring ((x.rxTail.getD ring 0 + 1) % r.u (0x28 + 2 * ring) 2) (x.rxPhase.getD ring true))

theorem rxStore_free {ring : Nat} (free : s.rxShut (s.can c) ring r = false) (filter stamp : Nat) (f : CanWire) (looped : Bool) :
    s.rxStore c ring filter stamp r f looped =
      if (s.can c).rxHead.getD ring 0 = (s.can c).rxTail.getD ring 0 then
        (s.rxWritten c ring filter stamp r f looped).post 0x0B01 (c + ring * 256) none
      else s.rxWritten c ring filter stamp r f looped := if_neg (Bool.not_eq_true _ ▸ free)

theorem CanStep.rxDropped (h : CanStep ps c y s t) {ring : Nat} (shut : t.rxShut y ring r = true) (filter stamp : Nat)
    (f : CanWire) (looped : Bool) (cans : Part.cans ∈ ps := by decide) (events : Part.events ∈ ps := by decide) :
    CanStep ps c (y.dropped ring) s (t.rxStore c ring filter stamp r f looped) := by
  rw [rxStore_shut (h.can.symm ▸ shut)]
  have set := h.modCan (CanSt.dropped ring) cans
  split
  · exact set
  · exact set.post 0x0B02 _ _ events

theorem CanStep.rxStored (h : CanStep (.cans :: memParts) c y s t) {ring : Nat} (free : t.rxShut y ring r = false)
    (filter stamp : Nat) (f : CanWire) (looped : Bool) : CanStep (.cans :: memParts) c
      (y.stored ring (r.u (0x28 + 2 * ring) 2)) s (t.rxStore c ring filter stamp r f looped) := by
  have written : CanStep (.cans :: memParts) c (y.stored ring (r.u (0x28 + 2 * ring) 2)) s
      (t.rxWritten c ring filter stamp r f looped) := by
    unfold State.rxWritten
    rw [h.can]
    exact (h.beside (Only.writeDev _ _ _ t)).modCan (CanSt.advance ring _ _)
  rw [rxStore_free (h.can.symm ▸ free)]
  split
  · exact written.post 0x0B01 _ _
  · exact written

theorem rxFrame_rejected {f : CanWire} (fate : filterFate r f = none) (stamp : Nat) (looped : Bool) :
    s.rxFrame c stamp r f looped = (s.modCan c (CanSt.bump 1 1)).modCan c (CanSt.bump 2 1) := by
  unfold State.rxFrame
  rw [fate]

theorem rxFrame_kept {f : CanWire} {ring k : Nat} (fate : filterFate r f = some (ring, k)) (stamp : Nat) (looped : Bool) :
    s.rxFrame c stamp r f looped = (s.modCan c (CanSt.bump 1 1)).rxStore c ring k stamp r f looped := by
  unfold State.rxFrame
  rw [fate]

/-- A controller that has received a frame without error. -/
structure CanSt.Received (x y : CanSt) : Prop where
  onBus : y.onBus = x.onBus
  pend : y.pend = x.pend
  done : y.done = x.done
  tec : y.tec = x.tec
  counters : Map.wf 0 y.counters = true
  sent : y.counters.get 0 0 = x.counters.get 0 0
  received : y.counters.get 0 1 = add64 (x.counters.get 0 1) 1

theorem received_bump (wf : Map.wf 0 x.counters = true) : x.Received (x.bump 1 1) :=
  ⟨rfl, rfl, rfl, rfl, wf_bump 1 1 wf, (get_bump 1 1 0 wf).trans (if_neg (by decide)), (get_bump 1 1 1 wf).trans (if_pos rfl)⟩

theorem CanSt.Received.bump (h : x.Received y) {i : Nat} (other : 2 ≤ i) (n : Nat) : x.Received (y.bump i n) :=
  ⟨h.onBus, h.pend, h.done, h.tec, wf_bump i n h.counters,
    ((get_bump i n 0 h.counters).trans (if_neg (by omega))).trans h.sent,
    ((get_bump i n 1 h.counters).trans (if_neg (by omega))).trans h.received⟩

/-- However the filters decide, a frame that was received is counted. -/
theorem canStep_rxFrame (h : CanStep (.cans :: memParts) c y s t) (wf : Map.wf 0 y.counters = true) (stamp : Nat) (r : Rec)
    (f : CanWire) (looped : Bool) :
    ∃ y', CanStep (.cans :: memParts) c y' s (t.rxFrame c stamp r f looped) ∧ y.Received y' := by
  have counted := h.modCan (CanSt.bump 1 1)
  have received := received_bump wf
  cases fate : filterFate r f with
  | none =>
    rw [rxFrame_rejected fate]
    exact ⟨_, counted.modCan (CanSt.bump 2 1), received.bump (by decide) 1⟩
  | some choice =>
    obtain ⟨ring, k⟩ := choice
    rw [rxFrame_kept fate]
    cases shut : (t.modCan c (CanSt.bump 1 1)).rxShut (y.bump 1 1) ring r with
    | true =>
      obtain ⟨a, b, d, e, wf', sent, one⟩ := received.bump (i := 3 + ring) (by omega) 1
      exact ⟨_, counted.rxDropped shut k stamp f looped, a, b, d, e, wf', sent, one⟩
    | false =>
      obtain ⟨a, b, d, e, wf', sent, one⟩ := received
      exact ⟨_, counted.rxStored shut k stamp f looped, a, b, d, e, wf', sent, one⟩

end Sys2Proof.Machine
end

section
/-! PROOF. CAN sending: requests, arbitration and the ends of an attempt (17 sections 17.3, 17.4). -/

namespace Sys2Proof.Machine

set_option Elab.async false

variable {s t u : State} {ps qs : List Part} {c : Nat} {x y : CanSt} {r : Rec}

/-! ### TX_CMD -/

/-- PENDING, FAILED and CAUSE of TXB `n`. -/
def CanSt.flags (n : Nat) (x : CanSt) : Option Bool × Option Bool × Option Nat := (x.pend[n]?, x.failed[n]?, x.cause[n]?)

theorem lt_of_isSome {α : Type} {l : List α} {n : Nat} (h : l[n]?.isSome = true) : n < l.length := by
  obtain ⟨_, e⟩ := Option.isSome_iff_exists.1 h
  exact (List.getElem?_eq_some_iff.1 e).1

theorem flags_fail_self {n : Nat} (cause : Nat) (pend : n < x.pend.length) (failed : n < x.failed.length)
    (causes : n < x.cause.length) : (x.fail n cause).flags n = (some false, some true, some cause) := by
  simp [CanSt.flags, CanSt.fail, pend, failed, causes]

theorem flags_command_other (cmd : Nat) {m n : Nat} (other : n ≠ m) : (x.command cmd m).flags n = x.flags n := by
  unfold CanSt.command CanSt.flags
  split
  · simp [List.getElem?_set_ne other.symm]
  · split
    · split
      · rfl
      · simp [CanSt.fail, List.getElem?_set_ne other.symm]
    · rfl

theorem sameButTxb_command (cmd n : Nat) (h : x.SameButTxb y) : x.SameButTxb (y.command cmd n) := by
  unfold CanSt.command
  split
  · obtain ⟨e⟩ := h
    rw [e]
    exact ⟨rfl⟩
  · split
    · split
      · obtain ⟨e⟩ := h
        rw [e]
        exact ⟨rfl⟩
      · exact sameButTxb_fail n 3 h
    · exact h

theorem sameButTxb_commands (cmd : Nat) (ns : List Nat) : ∀ y, x.SameButTxb y →
    x.SameButTxb (ns.foldl (fun a n => a.command cmd n) y) := by
  induction ns with
  | nil => exact fun _ h => h
  | cons n ns ih => exact fun y h => ih _ (sameButTxb_command cmd n h)

theorem flags_commands_notMem (cmd : Nat) {n : Nat} {ns : List Nat} (out : n ∉ ns) (x : CanSt) :
    (ns.foldl (fun a m => a.command cmd m) x).flags n = x.flags n := by
  induction ns generalizing x with
  | nil => rfl
  | cons m ns ih =>
    rw [List.mem_cons, not_or] at out
    exact (ih out.2 _).trans (flags_command_other cmd out.1)

/-- What a command does to a TXB is done by its own turn. -/
theorem flags_commands (cmd : Nat) {n : Nat} {ns : List Nat} (nodup : ns.Nodup) (mem : n ∈ ns) (x : CanSt) :
    ∃ y, x.SameButTxb y ∧ y.flags n = x.flags n ∧
      (ns.foldl (fun a m => a.command cmd m) x).flags n = (y.command cmd n).flags n := by
  suffices step : ∀ y, x.SameButTxb y → y.flags n = x.flags n → ∃ z, x.SameButTxb z ∧ z.flags n = x.flags n ∧
      (ns.foldl (fun a m => a.command cmd m) y).flags n = (z.command cmd n).flags n from step x (.refl x) rfl
  induction ns with
  | nil => exact absurd mem List.not_mem_nil
  | cons m ns ih =>
    intro y same flags
    rw [List.nodup_cons] at nodup
    by_cases here : n = m
    · subst here
      exact ⟨y, same, flags, flags_commands_notMem cmd nodup.1 _⟩
    · exact ih nodup.2 ((List.mem_cons.1 mem).resolve_left here) _ (sameButTxb_command cmd m same)
        ((flags_command_other cmd here).trans flags)

/-- A request makes its buffer pending. -/
theorem pend_command_request {cmd n : Nat} (request : cmd.testBit n = true) (n3 : x.pend[n]?.isSome = true) :
    (x.command cmd n).pend[n]? = some true := by
  unfold CanSt.command
  rw [if_pos request]
  exact List.getElem?_set_self (lt_of_isSome n3)

/-- An abort fails a buffer that waits. -/
theorem flags_command_abort {cmd n : Nat} (request : cmd.testBit n = false) (abort : cmd.testBit (4 + n) = true)
    (pending : x.pend[n]? = some true) (waits : x.onBus ≠ some (.txb n)) (failed : x.failed[n]?.isSome = true)
    (causes : x.cause[n]?.isSome = true) : (x.command cmd n).flags n = (some false, some true, some 3) := by
  have pend : x.pend.getD n false = true := by rw [List.getD_eq_getElem?_getD, pending]; rfl
  unfold CanSt.command
  rw [request, abort, pend, if_neg Bool.false_ne_true, Bool.and_self, if_pos rfl, if_neg waits]
  exact flags_fail_self 3 (lt_of_isSome (Option.isSome_of_eq_some pending)) (lt_of_isSome failed)
    (lt_of_isSome causes)

/-- The controller after a TX_CMD write whose check came to `st`. -/
def CanSt.commanded (st cmd : Nat) (x : CanSt) : CanSt :=
  let y := { x with txResult := BitVec.ofNat 16 st }
  if st ≠ 0 then y
  else
    let z := [0, 1, 2].foldl (fun a n => a.command cmd n) y
    if cmd.testBit 8 then { z with txq := z.txq ++ [frameOfBytes (z.buffer 0x180)] } else z

theorem writeTxCmd_eq (p : Requester) (c cmd : Nat) (s : State) : s.writeTxCmd p c cmd =
    if fnOf p ≠ 0 then s else s.modCan c (CanSt.commanded (s.txCheck c cmd) cmd) := rfl

/-- A command that is taken asks no buffer for both. -/
theorem txCheck_taken {cmd : Nat} (taken : s.txCheck c cmd = 0) {n : Nat} (n3 : n < 3) (abort : cmd.testBit (4 + n) = true) :
    cmd.testBit n = false := by
  by_contra request
  have clash : ([0, 1, 2].any fun n => cmd.testBit n && cmd.testBit (4 + n)) = true :=
    List.any_eq_true.2 ⟨n, by simp; omega, by rw [Bool.not_eq_false] at request; rw [request, abort]; rfl⟩
  unfold State.txCheck at taken
  dsimp only at taken
  split at taken
  · exact absurd taken (by decide)
  · split at taken
    · exact absurd taken (by decide)
    · rw [clash] at taken
      exact absurd taken (by simp)

/-- The turns of all three TXBs. -/
def CanSt.commands (cmd : Nat) (x : CanSt) : CanSt := [0, 1, 2].foldl (fun a n => a.command cmd n) x

/-- A write that is taken does the turns of the TXBs, then queues the staged frame where it is told to. -/
theorem commanded_taken (cmd : Nat) (x : CanSt) :
    (x.commanded 0 cmd).txResult = 0 ∧ (x.commanded 0 cmd).area = x.area ∧
    (x.commanded 0 cmd).txq = (if cmd.testBit 8 then x.txq ++ [frameOfBytes (x.buffer 0x180)] else x.txq) ∧
    ∀ n, (x.commanded 0 cmd).flags n = (({ x with txResult := 0 } : CanSt).commands cmd).flags n := by
  have same := sameButTxb_commands cmd [0, 1, 2] { x with txResult := 0 } (.refl _)
  have e : x.commanded 0 cmd = if cmd.testBit 8 then
      { ({ x with txResult := 0 } : CanSt).commands cmd with txq := (({ x with txResult := 0 } : CanSt).commands cmd).txq ++
        [frameOfBytes ((({ x with txResult := 0 } : CanSt).commands cmd).buffer 0x180)] }
      else ({ x with txResult := 0 } : CanSt).commands cmd := rfl
  rw [e]
  change ({ x with txResult := 0 } : CanSt).SameButTxb (({ x with txResult := 0 } : CanSt).commands cmd) at same
  generalize ({ x with txResult := 0 } : CanSt).commands cmd = z at *
  obtain ⟨same⟩ := same
  have area : z.area = x.area := by rw [same]
  have txq : z.txq = x.txq := by rw [same]
  have result : z.txResult = 0 := by rw [same]
  have buffer : z.buffer 0x180 = x.buffer 0x180 := congrArg (fun a : Map Byte => a.bytes 0x180 72) area
  rw [txq, buffer]
  split
  · exact ⟨result, area, rfl, fun _ => rfl⟩
  · exact ⟨result, area, txq, fun _ => rfl⟩

theorem txResult_commanded (st cmd : Nat) (x : CanSt) : (x.commanded st cmd).txResult = BitVec.ofNat 16 st := by
  by_cases taken : st = 0
  · rw [taken]
    exact (commanded_taken cmd x).1
  · unfold CanSt.commanded
    rw [if_pos taken]

/-- What a taken write does to one TXB, of three. -/
theorem commanded_flags {cmd n : Nat} (taken : s.txCheck c cmd = 0) (n3 : n < 3) (pend : x.pend.length = 3)
    (failed : x.failed.length = 3) (causes : x.cause.length = 3) :
    (cmd.testBit n = true → (x.commanded 0 cmd).pend[n]? = some true) ∧
    (cmd.testBit (4 + n) = true → x.pend[n]? = some true → x.onBus ≠ some (.txb n) →
      (x.commanded 0 cmd).flags n = (some false, some true, some 3)) := by
  obtain ⟨_, _, _, flags⟩ := commanded_taken cmd x
  obtain ⟨y, same, before, turn⟩ := flags_commands cmd (n := n) (ns := [0, 1, 2]) (by decide) (by simp; omega)
    { x with txResult := 0 }
  have result : (x.commanded 0 cmd).flags n = (y.command cmd n).flags n := (flags n).trans turn
  have onBus : y.onBus = x.onBus := by rw [same.eq]
  simp only [CanSt.flags, Prod.mk.injEq] at before
  obtain ⟨yPend, yFailed, yCause⟩ := before
  refine ⟨fun request => ?_, fun abort waiting attempt => ?_⟩
  · refine (congrArg Prod.fst result).trans (pend_command_request request ?_)
    rw [yPend]
    simp [pend, n3]
  · refine result.trans (flags_command_abort (txCheck_taken taken n3 abort) abort (yPend.trans waiting) (onBus ▸ attempt) ?_ ?_)
    · rw [yFailed]
      simp [failed, n3]
    · rw [yCause]
      simp [causes, n3]

theorem can_modCan_self (g : CanSt → CanSt) (wf : Map.wf CanSt.init s.cans = true) : (s.modCan c g).can c = g (s.can c) :=
  (State.can_modCan _ _ _ _ wf).trans (if_pos rfl)

theorem can_modCan_other {d : Nat} (g : CanSt → CanSt) (other : d ≠ c) (wf : Map.wf CanSt.init s.cans = true) :
    (s.modCan c g).can d = s.can d :=
  (State.can_modCan _ _ _ _ wf).trans (if_neg other)

theorem exec_txCmd {p : Requester} {c : Fin 4} {v : BitVec 32} {i : Instr}
    (cmd : i ∈ [Instr.canReq p c v, .canAbort p c v, .canPush p c v]) : exec i s = done s (s.writeTxCmd p c v.toNat) := by
  simp only [List.mem_cons, List.not_mem_nil, or_false] at cmd
  rcases cmd with rfl | rfl | rfl <;> rfl

/-! ### TXB writes -/

/-- A write into the frame area of TXB `n` whose check came to `st`. -/
def CanSt.written (st n off : Nat) (data : List Byte) (x : CanSt) : CanSt :=
  { x with txResult := BitVec.ofNat 16 st,
           area := if st = 0 then x.area.store (0x80 * n + off) (data.take (72 - off)) else x.area }

/-- The check of a write into the frame area of TXB `n`. -/
def State.txbCheck (s : State) (c n : Nat) : Nat :=
  if (s.can c).pend.getD n false then 0x2B03 else if (s.canRec c).any fun r => !canHostTxb r n then 0x2B04 else 0

theorem exec_canTxbWrite (p : Requester) (c : Fin 4) (n : Fin 3) (off : Fin 72) (data : List Byte) (s : State) :
    exec (.canTxbWrite p c n off data) s = done s (if fnOf p ≠ 0 ∨ s.isFenced (0x28 + c) then s
      else s.modCan c (CanSt.written (s.txbCheck c n) n off data)) := rfl

/-- The bytes of a frame area after a write. -/
theorem get_written (wf : Memory.wf x.area = true) (n : Fin 3) (off : Fin 72) (data : List Byte) (a : Nat) :
    (x.written 0 n off data).area.get 0 a = if 0x80 * n.val + off.val ≤ a ∧ a < 0x80 * n.val + min 72 (off.val + data.length)
      then data.getD (a - (0x80 * n.val + off.val)) 0 else x.area.get 0 a := by
  have stored : (x.written 0 n off data).area = x.area.store (0x80 * n + off) (data.take (72 - off)) := rfl
  rw [stored, Map.get_store _ _ _ _ wf, List.length_take]
  by_cases within : 0x80 * n.val + off.val ≤ a ∧ a < 0x80 * n.val + min 72 (off.val + data.length)
  · rw [if_pos (by omega), if_pos within, List.getD_eq_getElem?_getD, List.getElem?_take_of_lt (by omega),
      List.getD_eq_getElem?_getD]
  · rw [if_neg (by omega), if_neg within]

/-! ### Arbitration -/

theorem lowest_spec (l : List (CanSrc × CanFrame)) : ∀ q, lowest l = some q → ∀ p ∈ l, arbValue q.2 ≤ arbValue p.2 := by
  induction l with
  | nil => exact fun _ none => nomatch none
  | cons a l ih =>
    intro q e p mem
    unfold lowest at e
    cases best : lowest l with
    | none =>
      have empty : l = [] := by
        cases l with
        | nil => rfl
        | cons b l =>
          unfold lowest at best
          split at best
          · split at best <;> exact nomatch best
          · exact nomatch best
      rw [best] at e
      obtain rfl := Option.some.inj e
      rw [empty, List.mem_singleton] at mem
      rw [mem]
    | some b =>
      rw [best] at e
      dsimp only at e
      have rest := ih b best
      rcases List.mem_cons.1 mem with rfl | mem
      · split at e
        · obtain rfl := Option.some.inj e
          omega
        · obtain rfl := Option.some.inj e
          exact le_rfl
      · have := rest p mem
        split at e
        · obtain rfl := Option.some.inj e
          exact this
        · obtain rfl := Option.some.inj e
          omega

/-- The reference slot goes first. -/
theorem select_ref {now : Nat} {src : CanSrc} {f : CanFrame} (ref : x.refPending = true) (chosen : x.select r now = some (src, f)) :
    src = .ref := by
  rw [CanSt.select, if_pos ref] at chosen
  exact (congrArg Prod.fst (Option.some.inj chosen)).symm

/-- With BY_ID, the lowest arbitration value of the others. -/
theorem select_lowest {now : Nat} {src : CanSrc} {f : CanFrame} (noRef : x.refPending = false) (byId : canFlag r 2 = true)
    (chosen : x.select r now = some (src, f)) : ∀ q ∈ x.sources, arbValue f ≤ arbValue q.2 := by
  rw [CanSt.select, noRef, if_neg Bool.false_ne_true, if_pos byId] at chosen
  exact lowest_spec _ _ chosen

/-- A controller begins a frame. -/
def State.frameBegun (c : Nat) (r : Rec) (src : CanSrc) (f : CanFrame) (s : State) : State :=
  let s1 := s.modCan c fun x => { x with onBus := some src, busFrame := f, sof := s.now }
  if canMode r = 2 then s1
  else s1.emit (.canFrame c f.id f.ide f.rtr f.fdf f.brs f.dlc (f.data.take (dlcLen f.fdf f.dlc.toNat)))

theorem exec_canArbitration {c : Fin 4} (record : s.canRec c = some r) (live : s.canLive c = true) :
    exec (.canArbitration c) s = done s (
      if canMode r = 1 ∨ s.canDrives r = false ∨ (s.can c).onBus.isSome = true then s
      else match (s.can c).select r s.now with
        | none => s
        | some (src, f) => s.frameBegun c r src f) := by
  unfold exec execCanArbitration
  simp only [record, live, Bool.not_true, Bool.false_or, Bool.or_eq_true, beq_iff_eq, Bool.not_eq_true', or_assoc]
  rfl

theorem out_frameBegun (c : Nat) (r : Rec) (src : CanSrc) (f : CanFrame) (s : State) : (s.frameBegun c r src f).out =
    s.out ++ (if canMode r = 2 then []
      else [.canFrame c f.id f.ide f.rtr f.fdf f.brs f.dlc (f.data.take (dlcLen f.fdf f.dlc.toNat))]) := by
  unfold State.frameBegun
  dsimp only
  split
  · exact (List.append_nil _).symm
  · rfl

theorem canStep_frameBegun (wf : Map.wf CanSt.init s.cans = true) (src : CanSrc) (f : CanFrame) : CanStep [.cans, .out] c
    { s.can c with onBus := some src, busFrame := f, sof := s.now } s (s.frameBegun c r src f) := by
  unfold State.frameBegun
  have set := (CanStep.refl (ps := [.cans, .out]) (c := c) wf).modCan fun x => { x with onBus := some src, busFrame := f, sof := s.now }
  dsimp only
  split
  · exact set
  · exact set.beside (Only.emit _ _)

/-! ### The end of an attempt -/

/-- The bus is free of the controller's frame. -/
def State.busLeft (c : Nat) (s : State) : State := s.modCan c fun y => { y with onBus := none }

/-- An attempt ended in an outcome. -/
def State.txDone (c : Nat) (src : CanSrc) (r : Rec) (s : State) : CanTxEnd → State
  | .sent _ =>
    let s1 := ((s.txSent c src).busLeft c).canErrorState c r
    if 2 ≤ canMode r then s1.rxFrame c (s.can c).sof r (wireOf (s.can c).busFrame ((s.can c).state == 1)) true else s1
  | .lost => (s.txFailed c src 1 r).busLeft c
  | .error e a b =>
    let s1 := (s.canErrorFlag c r).modCan c fun y =>
      { y with lastErr := e.kind, errData := e.dataPhase,
               tec := min 256 (y.tec + txErrorCount ((s.can c).state == 1) e a b) }
    ((s1.txFailed c src 2 r).busLeft c).canErrorState c r

theorem exec_canTxEnd {c : Fin 4} {src : CanSrc} (record : s.canRec c = some r) (live : s.canLive c = true)
    (bus : (s.can c).onBus = some src) (o : CanTxEnd) : exec (.canTxEnd c o) s =
      done s (s.txDone c src r (txOutcome r (s.can c).busFrame.fdf o)) := by
  unfold exec execCanTxEnd
  simp only [record, live, bus, Bool.not_true, Bool.false_eq_true, if_false]
  cases txOutcome r (s.can c).busFrame.fdf o <;> rfl

theorem exec_canTxEnd_idle {c : Fin 4} (bus : (s.can c).onBus = none) (o : CanTxEnd) : exec (.canTxEnd c o) s = .next s := by
  unfold exec execCanTxEnd
  simp only [bus]
  rfl

theorem txOutcome_sent {d : Nat} {fdf : Bool} (mode : canMode r ≠ 2) (prompt : canFlag r 3 = false ∨ fdf = false ∨ d ≤ 127) :
    txOutcome r fdf (.sent d) = .sent d := by
  unfold txOutcome
  rw [if_neg mode]
  rcases prompt with off | classic | short
  · simp [off]
  · simp [classic]
  · simp [Nat.not_lt.2 short]

/-- With TDC, an FD frame whose delay cannot be compensated ends in a bit error. -/
theorem txOutcome_delayed {d : Nat} (mode : canMode r ≠ 2) (tdc : canFlag r 3 = true) (late : 127 < d) :
    txOutcome r true (.sent d) = .error { kind := 5, dataPhase := false, inOverload := false, more := 0 } false false := by
  unfold txOutcome
  rw [if_neg mode]
  simp [tdc, late]

theorem txOutcome_loopback {fdf : Bool} {o : CanTxEnd}
    (loop : canMode r = 2 ∨ canMode r = 3 ∧ ∃ e a b, o = .error e a b ∧ e.kind = 3) : txOutcome r fdf o = .sent 0 := by
  unfold txOutcome
  rcases loop with internal | ⟨external, e, a, b, rfl, ack⟩
  · exact if_pos internal
  · rw [if_neg (by omega)]
    simp [external, ack]

theorem txOutcome_lost {fdf : Bool} (mode : canMode r ≠ 2) : txOutcome r fdf .lost = .lost := by
  unfold txOutcome
  rw [if_neg mode]

theorem txOutcome_error {fdf : Bool} {e : CanErr} (mode : canMode r ≠ 2) (other : ¬ (canMode r = 3 ∧ e.kind = 3)) (a b : Bool) :
    txOutcome r fdf (.error e a b) = .error e a b := by
  unfold txOutcome
  rw [if_neg mode]
  dsimp only
  rw [if_neg]
  simp only [Bool.and_eq_true, decide_eq_true_eq]
  exact fun ⟨external, ack⟩ => other ⟨external, Fin.ext ack⟩

/-- A frame of TXB `n` that was sent, before it is received in a loopback. -/
theorem canStep_sent {n : Nat} (wf : Map.wf CanSt.init s.cans = true) (host : n ≠ 0 ∨ s.leadLoop c = none) (below : (s.can c).tec < 256)
    (r : Rec) : ∃ st, CanStep [.cans, .events] c { (s.can c).sentTxb n with onBus := none, state := st } s
      (((s.txSent c (.txb n)).busLeft c).canErrorState c r) := by
  have sent := ((CanStep.refl (ps := [.cans, .events]) (c := c) wf).txSent host).modCan fun y => { y with onBus := none }
  have counted := sent.errorState r
  obtain ⟨st, e⟩ := errorState_onBus r (((s.txSent c (.txb n)).busLeft c).leadLoop c).isSome
    (x := { (s.can c).sentTxb n with onBus := none }) (lt_of_le_of_lt (Nat.sub_le _ _) below)
  exact ⟨st, e ▸ counted⟩

theorem Only.canSays (o : Out) (r : Rec) (s : State) : Only [.out] s (s.canSays o r) :=
  Only.ite (fun _ => Only.emit o s) fun _ => Only.refl _ s

theorem out_canSays {o : Out} (up : s.outputsUp = true) (normal : canMode r = 0) : (s.canSays o r).out = s.out ++ [o] := by
  unfold State.canSays
  rw [if_pos (by simp [up, normal])]
  rfl

theorem offBus_spec (r : Rec) (lead : Bool) (x : CanSt) : 2 ≤ (x.offBus r lead).state ∧ (x.offBus r lead).txq = [] := by
  refine ⟨?_, rfl⟩
  unfold CanSt.offBus
  dsimp only
  split <;> decide

/-- An attempt that ended in an error. -/
theorem canStep_txError (wf : Map.wf CanSt.init s.cans = true) (src : CanSrc) (r : Rec) (e : CanErr) (a b : Bool) :
    ∃ z, CanStep [.cans, .events] c z (s.canErrorFlag c r) (s.txDone c src r (.error e a b)) ∧
      z.tec = min 256 ((s.can c).tec + txErrorCount ((s.can c).state == 1) e a b) ∧ z.onBus = none ∧ z.lastErr = e.kind ∧
      z.errData = e.dataPhase ∧ (256 ≤ z.tec → 2 ≤ z.state ∧ z.txq = [] ∧
        ∃ u : State, s.txDone c src r (.error e a b) = u.post 0x0B04 ((s.txDone c src r (.error e a b)).canPayload c) none) := by
  have said : Only [.out] s (s.canErrorFlag c r) := Only.canSays _ _ _
  have wf' : Map.wf CanSt.init (s.canErrorFlag c r).cans = true := said.get .cans ▸ wf
  have counted := (CanStep.refl (ps := [.cans, .events]) (c := c) wf').modCan fun y =>
    { y with lastErr := e.kind, errData := e.dataPhase,
             tec := min 256 (y.tec + txErrorCount ((s.can c).state == 1) e a b) }
  obtain ⟨y, failed, tec, _, lastErr, errData⟩ := canStep_txFailed counted src 2 r
  rw [can_of_only said] at tec lastErr errData
  have left := failed.modCan fun y => { y with onBus := none }
  have ended := left.errorState r
  refine ⟨_, ended, ?_⟩
  have kept := keptByErrors_errorState r (((((s.canErrorFlag c r).modCan c fun y =>
    { y with lastErr := e.kind, errData := e.dataPhase,
             tec := min 256 (y.tec + txErrorCount ((s.can c).state == 1) e a b) }).txFailed c src 2 r).modCan c fun y =>
      { y with onBus := none }).leadLoop c).isSome { y with onBus := none }
  refine ⟨kept.tec.trans tec, kept.onBus, kept.lastErr.trans lastErr, kept.errData.trans errData, fun off => ?_⟩
  have off' : 256 ≤ ({ y with onBus := none } : CanSt).tec := off.trans_eq kept.tec
  refine ⟨?_, ?_, canErrorState_off left r off'⟩
  · rw [CanSt.errorState, if_pos off']
    exact (offBus_spec _ _ _).1
  · rw [CanSt.errorState, if_pos off']
    rfl

/-- Lost arbitration of a TXB that is tried once fails it; another waits. -/
theorem txDone_lost {n : Nat} (host : n ≠ 0 ∨ s.leadLoop c = none) (noAbort : (s.can c).abortReq.getD n false = false) :
    s.txDone c (.txb n) r .lost =
      (if canFlag r 1 then s.modCan c fun x => (x.fail n 1).bump 7 1 else s).modCan c fun y => { y with onBus := none } := by
  have host' : ¬ (n = 0 ∧ (s.leadLoop c).isSome = true) := by
    rintro ⟨zero, lead⟩
    rcases host with host | host
    · exact host zero
    · rw [host] at lead
      exact absurd lead (by decide)
  unfold State.txDone State.txFailed State.busLeft
  dsimp only
  rw [if_neg host', noAbort, if_neg Bool.false_ne_true]

theorem txErrorCount_eight {e : CanErr} (alone : e.more = 0) (stuff : e.kind.val ≠ 1) (ack : e.kind.val ≠ 3)
    (passive a b : Bool) : txErrorCount passive e a b = 8 := by
  simp [txErrorCount, alone, stuff, ack]

end Sys2Proof.Machine

open Sys2Proof Sys2Proof.Machine

/-- Settles O54: by the turns of the TXBs, the choice of the arbitration, and the ends of an attempt. -/
theorem canSendingActs : Obligations.CanSendingActs := by
  refine ⟨fun p c v s canonical => ?_, fun p c n off data s r canonical record => ?_,
    fun c s r canonical record live => ⟨?_, ?_, ?_, ?_, ?_, ?_, ?_⟩⟩
  · have wf := (canonical_iff.1 canonical).cans
    intro x st i cmd
    rw [exec_txCmd cmd, writeTxCmd_eq]
    refine ⟨fun vf => by rw [if_pos vf]; rfl, fun pf => ?_⟩
    rw [if_neg (not_not.2 pf)]
    have only := Only.modCan c (CanSt.commanded st v.toNat) s
    have self := can_modCan_self (c := c) (CanSt.commanded st v.toNat) wf
    refine goes_done only ⟨?_, only, fun d _ other => can_modCan_other _ other wf, fun refused => ?_, fun taken pend failed causes => ?_⟩
    · rw [self]
      exact txResult_commanded st v.toNat x
    · rw [self]
      exact if_pos refused
    · rw [self, taken]
      obtain ⟨_, area, txq, _⟩ := commanded_taken v.toNat x
      have flags (n : Nat) (n3 : n < 3) := commanded_flags (x := x) taken n3 pend failed causes
      refine ⟨fun n n3 => (flags n n3).1, fun n n3 abort waiting attempt => ?_, txq, area⟩
      simpa [CanSt.flags] using (flags n n3).2 abort waiting attempt
  · have wf := (canonical_iff.1 canonical).cans
    intro x
    rw [exec_canTxbWrite]
    refine ⟨fun none => by rw [if_pos none]; rfl, fun pf unfenced => ?_⟩
    rw [if_neg (by rw [pf, unfenced]; simp)]
    have only := Only.modCan c (CanSt.written (s.txbCheck c n) n off data) s
    have self := can_modCan_self (c := c) (CanSt.written (s.txbCheck c n) n off data) wf
    refine goes_done only ⟨only, fun pending => ?_, fun waits claimed => ?_, fun waits host wfArea => ?_⟩
    · have check : s.txbCheck c n = 0x2B03 := if_pos pending
      rw [self, check]
      rfl
    · have check : s.txbCheck c n = 0x2B04 := by
        rw [State.txbCheck, waits, record]
        simp [claimed]
      rw [self, check]
      rfl
    · have check : s.txbCheck c n = 0 := by
        rw [State.txbCheck, waits, record]
        simp [host]
      rw [self, check]
      exact ⟨rfl, get_written wfArea n off data⟩
  · rw [exec_canArbitration record live]
    rintro (listens | down | busy | nothing)
    · rw [if_pos (.inl listens)]
      rfl
    · rw [if_pos (.inr (.inl down))]
      rfl
    · rw [if_pos (.inr (.inr busy))]
      rfl
    · rw [nothing]
      split <;> rfl
  · intro src f talks drives idle chosen
    refine ⟨fun ref => select_ref ref chosen, fun noRef byId => select_lowest noRef byId chosen, ?_⟩
    have free : ¬ (canMode r = 1 ∨ s.canDrives r = false ∨ (s.can c).onBus.isSome = true) := by
      rw [drives, idle]
      simp [talks]
    rw [exec_canArbitration record live, if_neg free, chosen]
    have begun := canStep_frameBegun (c := c) (r := r) (canonical_iff.1 canonical).cans src f
    exact goes_done begun.only ⟨begun.can, out_frameBegun _ _ _ _ _, begun.only⟩
  · intro n d bus mode host below prompt
    rw [exec_canTxEnd record live bus, txOutcome_sent (by omega) prompt]
    obtain ⟨st, sent⟩ := canStep_sent (c := c) (canonical_iff.1 canonical).cans (n := n) (host.imp_left fun other zero => other (Fin.ext zero))
      below r
    have ended : s.txDone c (.txb n) r (.sent d) = ((s.txSent c (.txb n)).busLeft c).canErrorState c r := if_neg (by omega)
    rw [ended]
    refine goes_done sent.only ?_
    rw [sent.can]
    exact ⟨rfl, rfl, rfl, rfl, sent.only.mono (by decide)⟩
  · intro d mode tdc fd late
    cases bus : (s.can c).onBus with
    | none => rw [exec_canTxEnd_idle bus, exec_canTxEnd_idle bus]
    | some src =>
      rw [exec_canTxEnd record live bus, exec_canTxEnd record live bus, fd, txOutcome_delayed mode tdc late,
        txOutcome_error mode (by simp)]
  · intro n o bus host below loop wfc
    rw [exec_canTxEnd record live bus, txOutcome_loopback loop]
    obtain ⟨st, sent⟩ := canStep_sent (c := c) (canonical_iff.1 canonical).cans (n := n) (host.imp_left fun other zero => other (Fin.ext zero))
      below r
    have ended : s.txDone c (.txb n) r (.sent 0) = (((s.txSent c (.txb n)).busLeft c).canErrorState c r).rxFrame c (s.can c).sof r
      (wireOf (s.can c).busFrame ((s.can c).state == 1)) true := if_pos (by omega)
    obtain ⟨y, received, onBus, pend, done, tec, _, zero, one⟩ := canStep_rxFrame (sent.mono (qs := .cans :: memParts) (by decide))
      (wf_bump 0 1 wfc) (s.can c).sof r (wireOf (s.can c).busFrame ((s.can c).state == 1)) true
    rw [ended]
    refine goes_done received.only ?_
    rw [received.can]
    refine ⟨onBus, pend, done, tec, ?_, ?_, received.only⟩
    · exact zero.trans ((get_bump 0 1 0 wfc).trans (if_pos rfl))
    · exact one.trans (congrArg (add64 · 1) ((get_bump 0 1 1 wfc).trans (if_neg (by decide))))
  · intro n bus mode host noAbort
    have host' : n.val ≠ 0 ∨ s.leadLoop c = none := host.imp_left fun other zero => other (Fin.ext zero)
    have wf := (canonical_iff.1 canonical).cans
    rw [exec_canTxEnd record live bus, txOutcome_lost mode, txDone_lost host' noAbort]
    refine ⟨fun again => by rw [again]; rfl, fun once => ?_⟩
    rw [if_pos once]
    have left := ((CanStep.refl (ps := [.cans]) (c := c) wf).modCan fun x => (x.fail n 1).bump 7 1).modCan fun y =>
      { y with onBus := none }
    refine goes_done left.only ?_
    rw [left.can]
    exact ⟨rfl, rfl, rfl, rfl, left.only⟩
  · intro e stuff dominant bus mode other n
    obtain ⟨src, bus⟩ := Option.isSome_iff_exists.1 bus
    rw [exec_canTxEnd record live bus, txOutcome_error mode other]
    obtain ⟨z, step, tec, onBus, lastErr, errData, off⟩ := canStep_txError (c := c) (canonical_iff.1 canonical).cans src r e stuff dominant
    have said : Only [.out] s (s.canErrorFlag c r) := Only.canSays _ _ _
    have only : Only [.cans, .events, .irq, .out] s (s.txDone c src r (.error e stuff dominant)) :=
      (said.mono (by decide)).trans (step.only.mono (by decide))
    refine goes_done only ?_
    rw [step.can]
    refine ⟨tec, onBus, lastErr, errData, only, fun more stuff' ack => ?_, fun up normal => ?_, fun count => ?_⟩
    · exact txErrorCount_eight more (fun is => stuff' (Fin.ext is)) (fun is => ack (Fin.ext is)) _ _ _
    · refine ⟨[], ?_⟩
      rw [step.only.get .out]
      exact out_canSays up normal
    · exact off (by rw [tec]; exact le_min le_rfl count)

end

section
/-! PROOF. CAN receiving, bus-off and the reference message (17 sections 17.5 to 17.7). -/

namespace Sys2Proof.Machine

set_option Elab.async false

variable {s t u : State} {ps qs : List Part} {c : Nat} {x y : CanSt} {r : Rec}

/-! ### What goes out stays first -/

/-- What went out by `s` stands in front of what has gone out by `t`. -/
def Grows (s t : State) : Prop := ∃ l, t.out = s.out ++ l

theorem Grows.of_only (h : Only ps s t) (out : Part.out ∉ ps := by decide) : Grows s t :=
  ⟨[], (h.2 .out out).trans (List.append_nil _).symm⟩

theorem Grows.refl (s : State) : Grows s s := ⟨[], (List.append_nil _).symm⟩

theorem Grows.trans (h : Grows s t) (k : Grows t u) : Grows s u := by
  obtain ⟨l, h⟩ := h
  obtain ⟨m, k⟩ := k
  exact ⟨l ++ m, by rw [k, h, List.append_assoc]⟩

theorem Grows.foldl {α : Type} (f : State → α → State) (h : ∀ s a, Grows s (f s a)) (l : List α) :
    ∀ s, Grows s (l.foldl f s) := by
  induction l with
  | nil => exact Grows.refl
  | cons a l ih => exact fun s => (h s a).trans (ih _)

theorem Grows.foldl_snd {α β : Type} (f : α × State → β → α × State) (h : ∀ x b, Grows x.2 (f x b).2) (l : List β) :
    ∀ x, Grows x.2 (l.foldl f x).2 := by
  induction l with
  | nil => exact fun x => Grows.refl x.2
  | cons b l ih => exact fun x => (h x b).trans (ih _)

theorem Grows.ite {d : Prop} [Decidable d] (h : d → Grows s t) (k : ¬ d → Grows s u) : Grows s (if d then t else u) := by
  split
  · exact h ‹_›
  · exact k ‹_›

theorem Grows.emit (o : Out) (s : State) : Grows s (s.emit o) := ⟨[o], rfl⟩

theorem Grows.signal (f v : Nat) (s : State) : Grows s (s.signal f v) := by
  unfold State.signal
  exact Grows.ite (fun _ => Grows.emit _ s) fun _ => ⟨[], (List.append_nil _).symm⟩

theorem Grows.post (code payload : Nat) (ctx : Option Nat) (s : State) : Grows s (s.post code payload ctx) := by
  unfold State.post
  have posted := Grows.foldl (fun (t : State) f => t.postTo
    { code := BitVec.ofNat 16 code, payload := BitVec.ofNat 32 payload, stamp := s.now, ctx := ctx } f)
    (fun t f => Grows.of_only (Only.postTo _ f t)) (s.receivers code ctx) s
  exact Grows.ite (fun _ => (posted.trans (Grows.signal 0 1026 _)).trans (Grows.of_only (Only.qspiSet 4#4 _)))
    fun _ => posted

theorem Grows.memUe (m : Mem) (w : Nat) (s : State) : Grows s (s.memUe m w) := by
  unfold State.memUe
  refine Grows.ite (fun _ => (Grows.of_only (Only.draw s)).trans (Grows.post _ _ _ _)) fun _ => ?_
  refine Grows.trans ?_ (Grows.post _ _ _ _)
  refine Grows.trans ?_ (Grows.of_only (Only.record _ _ _ _ _))
  exact Grows.ite (fun _ => Grows.of_only (Only.ofMem s _)) fun _ => Grows.of_only (Only.ofMem s _)

theorem Grows.memCorr (m : Mem) (who : Option Nat) (w : Nat) (s : State) : Grows s (s.memCorr m who w) := by
  unfold State.memCorr
  refine Grows.ite (fun _ => Grows.of_only (Only.ofMem s _)) fun _ => ?_
  have counted : Grows s (if m = .lp then { s with mem := { s.mem with lpCorr := add64 s.mem.lpCorr 1 } }
      else { s with mem := { s.mem with swCorr := add64 s.mem.swCorr 1 } }) :=
    Grows.ite (fun _ => Grows.of_only (Only.ofMem s _)) fun _ => Grows.of_only (Only.ofMem s _)
  cases who
  · exact counted
  · exact counted.trans (Grows.of_only (Only.count _ _ _ _))

theorem Grows.partialWord (m : Mem) (who : Option Nat) (b : Bool) (w : Nat) (s : State) :
    Grows s (s.partialWord m who b w).2 := by
  unfold State.partialWord
  have marked (p : Bool) : Grows s (s.reMark m w p) := Grows.of_only (Only.reMark m w p s)
  split
  · exact Grows.ite (fun _ => marked true) fun _ => Grows.refl s
  · exact (marked b).trans (Grows.memCorr m who _ _)
  · exact (marked true).trans (Grows.memUe m _ _)
  · exact Grows.refl s

theorem Grows.cleanRange (m : Mem) (a n : Nat) (s : State) : Grows s (s.cleanRange m a n) :=
  (Grows.of_only (Only.setSpace m _ s)).trans
    (Grows.foldl _ (fun t (h : Nat × Nat) => Grows.of_only (Only.reMark m h.1 false t)) _ _)

theorem Grows.zeroDone (s : State) : Grows s s.zeroDone := by
  unfold State.zeroDone
  exact Grows.ite (fun _ => (Grows.of_only (Only.ofMem s _)).trans (Grows.post _ _ _ _)) fun _ => Grows.refl s

theorem Grows.zeroGranule (g : Nat) (s : State) : Grows s (s.zeroGranule g) :=
  (((Grows.of_only (Only.setSpace .lp _ s)).trans (Grows.cleanRange .lp _ _ _)).trans (Grows.of_only (Only.ofMem _ _))).trans
    (Grows.zeroDone _)

theorem Grows.touch (m : Mem) (a n : Nat) (s : State) : Grows s (s.touch m a n) := by
  unfold State.touch
  exact Grows.ite (fun _ => Grows.refl s) fun _ => Grows.foldl _ (fun t g => Grows.zeroGranule g t) _ _

theorem Grows.writeMem (m : Mem) (who : Option Nat) (b : Bool) (a : Nat) (bs : List Byte) (s : State) :
    Grows s (s.writeMem m who b a bs).2 := by
  have partials := Grows.foldl_snd (fun (acc : Option Nat × State) w =>
    let (b', t) := acc.2.partialWord m who b w
    (acc.1.or (if b' then some (w * 8) else none), t)) (fun x w => Grows.partialWord m who b w x.2)
    (partialWords a bs.length) (none, s.touch m a bs.length)
  have stored (x : MemSpace) (t : State) : Grows t ((t.setSpace m x).cleanRange m a bs.length) :=
    (Grows.of_only (Only.setSpace m x t)).trans (Grows.cleanRange m a bs.length _)
  have written := fun x => ((Grows.touch m a bs.length s).trans partials).trans (stored x _)
  unfold State.writeMem
  exact Grows.ite (fun _ => (written _).trans (Grows.foldl _ (fun t w => Grows.of_only (Only.reMark m w true t)) _ _))
    fun _ => written _

theorem Grows.writeDev (who : Option Nat) (a : Nat) (bs : List Byte) (s : State) : Grows s (s.writeDev who a bs) := by
  unfold State.writeDev
  split
  · exact Grows.foldl _ (fun t (p : Nat × List Byte) => Grows.ite (fun _ => Grows.refl t) fun _ =>
      Grows.writeMem .lp who false p.1 p.2 t) _ s
  · exact Grows.of_only (Only.writeHost false _ bs s)
  · exact Grows.refl s

/-! ### A received frame -/

theorem grows_rxStore (ring filter stamp : Nat) (f : CanWire) (looped : Bool) (s : State) :
    Grows s (s.rxStore c ring filter stamp r f looped) := by
  have set (g : CanSt → CanSt) (t : State) : Grows t (t.modCan c g) := Grows.of_only (Only.modCan c g t)
  cases shut : s.rxShut (s.can c) ring r with
  | true =>
    rw [rxStore_shut shut]
    exact Grows.ite (fun _ => set _ s) fun _ => (set _ s).trans (Grows.post _ _ _ _)
  | false =>
    have written : Grows s (s.rxWritten c ring filter stamp r f looped) := (Grows.writeDev _ _ _ s).trans (set _ _)
    rw [rxStore_free shut]
    exact Grows.ite (fun _ => written.trans (Grows.post _ _ _ _)) fun _ => written

theorem grows_rxFrame (stamp : Nat) (f : CanWire) (looped : Bool) (s : State) : Grows s (s.rxFrame c stamp r f looped) := by
  have set (g : CanSt → CanSt) (t : State) : Grows t (t.modCan c g) := Grows.of_only (Only.modCan c g t)
  unfold State.rxFrame
  split
  · exact (set _ s).trans (set _ _)
  · exact (set _ s).trans (grows_rxStore _ _ _ _ _ _)

/-- A correct reception lowers the receive count, where the controller takes part on the bus. -/
def State.rxGood (c : Nat) (r : Rec) (s : State) : State :=
  if canMode r = 1 then s else (s.recGood c).canErrorState c r

/-- What the counts of a correct reception leave of a controller. -/
structure CanSt.KeptByGood (x y : CanSt) : Prop where
  rxTail : y.rxTail = x.rxTail
  counters : Map.wf 0 x.counters = true → ∀ j, j ≠ 7 → y.counters.get 0 j = x.counters.get 0 j

theorem canStep_recGood (h : CanStep ps c y s t) (cans : Part.cans ∈ ps := by decide) (free : Part.free ∈ ps := by decide) :
    ∃ n, CanStep ps c { y with recCnt := n } s (t.recGood c) := by
  unfold State.recGood
  dsimp only
  rw [h.can]
  split
  · exact ⟨_, h.modCan (fun y => { y with recCnt := y.recCnt - 1 }) cans⟩
  · exact ⟨_, (h.beside (Only.draw t) (by simpa using free)).modCan (fun y => { y with recCnt := 119 + t.draw.1 % 9 }) cans⟩

theorem canStep_rxGood (h : CanStep ps c y s t) (r : Rec) (cans : Part.cans ∈ ps := by decide)
    (events : Part.events ∈ ps := by decide) (free : Part.free ∈ ps := by decide) :
    ∃ z, CanStep ps c z s (t.rxGood c r) ∧ y.KeptByGood z := by
  unfold State.rxGood
  split
  · exact ⟨y, h, rfl, fun _ _ _ => rfl⟩
  · obtain ⟨n, counted⟩ := canStep_recGood h cans free
    have kept := keptByErrors_errorState r ((t.recGood c).leadLoop c).isSome { y with recCnt := n }
    exact ⟨_, counted.errorState r cans events, kept.rxTail, kept.counters⟩

theorem grows_canErrorState (s : State) : Grows s (s.canErrorState c r) := by
  have set (g : CanSt → CanSt) (t : State) : Grows t (t.modCan c g) := Grows.of_only (Only.modCan c g t)
  unfold State.canErrorState
  exact Grows.ite (fun _ => (set _ s).trans (Grows.post _ _ _ _)) fun _ =>
    Grows.ite (fun _ => (set _ s).trans (Grows.post _ _ _ _)) fun _ => set _ s

theorem grows_rxGood (s : State) : Grows s (s.rxGood c r) := by
  have set (g : CanSt → CanSt) (t : State) : Grows t (t.modCan c g) := Grows.of_only (Only.modCan c g t)
  have good : Grows s (s.recGood c) :=
    Grows.ite (fun _ => set _ s) fun _ => (Grows.of_only (Only.draw s)).trans (set _ _)
  exact Grows.ite (fun _ => Grows.refl s) fun _ => good.trans (grows_canErrorState _)

/-- A frame of another node is received. -/
def State.heard (c stamp : Nat) (r : Rec) (f : CanWire) (s : State) : State := (s.rxFrame c stamp r f false).rxGood c r

theorem exec_canFrameReceive {c : Fin 4} {rx : CanRx} (record : s.canRec c = some r) (wf : rx.wellFormed = true)
    (live : s.canLive c = true) (mode : canMode r ≠ 2) (idle : (s.can c).onBus = none) :
    exec (.canFrameReceive c rx) s = done s (match rx with
      | .frame f => (s.canSays (.canAck c) r).heard c (s.now - f.age) r f
      | .error e after =>
        let s1 := (s.canErrorFlag c r).modCan c fun x => { x with lastErr := e.kind, errData := e.dataPhase }
        if canMode r = 1 then s1
        else (s1.modCan c fun x => { x with recCnt := min 255 (x.recCnt + rxErrorCount e after) }).canErrorState c r) := by
  refine (checked_eq (c := .canFrameReceive c rx) wf).trans ?_
  simp only [record, live, idle, mode, Bool.not_true, Bool.false_or, beq_iff_eq, Option.isSome_none, Bool.or_false, if_false]
  cases rx <;> rfl

theorem canStep_said {o : Out} (wf : Map.wf CanSt.init s.cans = true) (r : Rec) :
    CanStep [] c (s.can c) (s.canSays o r) (s.canSays o r) :=
  have said : Only [.out] s (s.canSays o r) := Only.canSays o r s
  can_of_only said c ▸ CanStep.refl (said.get .cans ▸ wf)

/-- The reception of a frame, of which some parts only are to be told. -/
theorem canStep_heard_rejected {f : CanWire} (fate : filterFate r f = none) (h : CanStep [.cans, .events, .free] c y s t)
    (wf : Map.wf 0 y.counters = true) (stamp : Nat) : ∃ z, CanStep [.cans, .events, .free] c z s (t.heard c stamp r f) ∧
      z.counters.get 0 2 = add64 (y.counters.get 0 2) 1 ∧ z.rxTail = y.rxTail := by
  obtain ⟨z, good, tail, counters⟩ := canStep_rxGood ((h.modCan (CanSt.bump 1 1)).modCan (CanSt.bump 2 1)) r
  unfold State.heard
  rw [rxFrame_rejected fate]
  refine ⟨z, good, ?_, tail⟩
  rw [counters (wf_bump 2 1 (wf_bump 1 1 wf)) 2 (by decide), get_bump 2 1 2 (wf_bump 1 1 wf), if_pos rfl,
    get_bump 1 1 2 wf, if_neg (by decide)]

theorem canStep_heard_dropped {f : CanWire} {ring k : Nat} (fate : filterFate r f = some (ring, k)) (ring2 : ring < 2)
    (shut : t.rxShut y ring r = true) (h : CanStep [.cans, .events, .free] c y s t)
    (wf : Map.wf 0 y.counters = true) (stamp : Nat) : ∃ z, CanStep [.cans, .events, .free] c z s (t.heard c stamp r f) ∧
      z.counters.get 0 (3 + ring) = add64 (y.counters.get 0 (3 + ring)) 1 ∧ z.rxTail = y.rxTail := by
  obtain ⟨z, good, tail, counters⟩ := canStep_rxGood
    (CanStep.rxDropped (r := r) (ring := ring) (h.modCan (CanSt.bump 1 1)) shut k stamp f false) r
  unfold State.heard
  rw [rxFrame_kept fate]
  refine ⟨z, good, ?_, tail⟩
  rw [counters (wf_bump (3 + ring) 1 (wf_bump 1 1 wf)) _ (by omega)]
  refine (get_bump (3 + ring) 1 (3 + ring) (wf_bump 1 1 wf)).trans ?_
  rw [if_pos rfl, get_bump 1 1 (3 + ring) wf, if_neg (by omega)]

theorem canStep_heard_stored {f : CanWire} {ring k : Nat} (fate : filterFate r f = some (ring, k))
    (room : t.rxShut y ring r = false) (h : CanStep (.cans :: memParts) c y s t) (stamp : Nat) :
    ∃ z, CanStep (.cans :: memParts) c z s (t.heard c stamp r f) ∧
      z.rxTail = y.rxTail.set ring ((y.rxTail.getD ring 0 + 1) % r.u (0x28 + 2 * ring) 2) := by
  obtain ⟨z, good, tail, _⟩ := canStep_rxGood
    (CanStep.rxStored (r := r) (ring := ring) (h.modCan (CanSt.bump 1 1)) room k stamp f false) r
  unfold State.heard
  rw [rxFrame_kept fate]
  exact ⟨z, good, tail⟩

theorem canStep_heard (h : CanStep (.cans :: memParts) c y s t) (wf : Map.wf 0 y.counters = true) (stamp : Nat) (r : Rec)
    (f : CanWire) : ∃ z, CanStep (.cans :: memParts) c z s (t.heard c stamp r f) ∧
      z.counters.get 0 1 = add64 (y.counters.get 0 1) 1 := by
  obtain ⟨y', framed, received⟩ := canStep_rxFrame h wf stamp r f false
  obtain ⟨z, good, _, counters⟩ := canStep_rxGood framed r
  exact ⟨z, good, (counters received.counters 1 (by decide)).trans received.received⟩

theorem rxShut_full {ring : Nat} (full : r.u (0x28 + 2 * ring) 2 = 0 ∨ (x.rxTail.getD ring 0 + r.u (0x28 + 2 * ring) 2 -
    x.rxHead.getD ring 0) % r.u (0x28 + 2 * ring) 2 = r.u (0x28 + 2 * ring) 2 - 1) : s.rxShut x ring r = true := by
  unfold State.rxShut
  rcases full with none | full
  · simp [none]
  · dsimp only
    rw [decide_eq_true full, Bool.or_true]

theorem rxShut_free {ring : Nat} (free : ¬ (r.u (0x28 + 2 * ring) 2 = 0 ∨ (x.rxTail.getD ring 0 + r.u (0x28 + 2 * ring) 2 -
    x.rxHead.getD ring 0) % r.u (0x28 + 2 * ring) 2 = r.u (0x28 + 2 * ring) 2 - 1)) (unfenced : s.isFenced 0x50 = false) :
    s.rxShut x ring r = false := by
  rw [not_or] at free
  unfold State.rxShut
  dsimp only
  rw [unfenced, Bool.and_false, Bool.false_or, decide_eq_false free.1, decide_eq_false free.2]
  rfl

/-- A reference message takes the slot. -/
def State.refPlaced (c : Nat) (r : Rec) (q : Nat) (s : State) : State :=
  let x := s.can c
  (if x.refPending && !x.refOver then s.post 0x0B06 (c + x.cycle * 256) none else s).modCan c fun y =>
    { y with refPending := true, refCount := y.refCount + 1, refReplaced := y.refReplaced + b2n x.refPending,
             refOver := y.refOver || x.refPending, refNext := some (q + r.u 0x2C 4) }

theorem exec_canReferenceInstant {c : Fin 4} {q : Nat} (record : s.canRec c = some r) (next : (s.can c).refNext = some q)
    (refs : canFlag r 5 = true) (live : s.islandLive = true) : exec (.canReferenceInstant c) s =
      done s (if s.now < q then s else s.refPlaced c r q) := by
  unfold exec execCanReferenceInstant
  simp only [record, next, refs, live, Bool.not_true, Bool.false_or, decide_eq_true_eq]
  rfl

theorem canStep_refPlaced (wf : Map.wf CanSt.init s.cans = true) (q : Nat) : CanStep [.cans, .events] c
    { s.can c with refPending := true, refCount := (s.can c).refCount + 1,
                   refReplaced := (s.can c).refReplaced + b2n (s.can c).refPending,
                   refOver := (s.can c).refOver || (s.can c).refPending, refNext := some (q + r.u 0x2C 4) }
    s (s.refPlaced c r q) := by
  have before : CanStep [.cans, .events] c (s.can c) s
      (if (s.can c).refPending && !(s.can c).refOver then s.post 0x0B06 (c + (s.can c).cycle * 256) none else s) := by
    split
    · exact (CanStep.refl wf).post 0x0B06 _ _
    · exact CanStep.refl wf
  exact before.modCan fun y =>
    { y with refPending := true, refCount := y.refCount + 1, refReplaced := y.refReplaced + b2n (s.can c).refPending,
             refOver := y.refOver || (s.can c).refPending, refNext := some (q + r.u 0x2C 4) }

theorem exec_canRxHeadWrite {p : Requester} {c : Fin 4} {ring : Fin 2} {v : BitVec 32} (record : s.canRec c = some r) :
    exec (.canRxHeadWrite p c ring v) s = done s (
      if fnOf p ≠ 0 ∨ s.isFenced (0x28 + c) = true ∨ r.u (0x28 + 2 * ring) 2 ≤ v.toNat % 4096 ∨
        ((s.can c).rxTail.getD ring 0 + r.u (0x28 + 2 * ring) 2 - (s.can c).rxHead.getD ring 0) % r.u (0x28 + 2 * ring) 2 <
          (v.toNat % 4096 + r.u (0x28 + 2 * ring) 2 - (s.can c).rxHead.getD ring 0) % r.u (0x28 + 2 * ring) 2 then s
      else s.modCan c fun y => { y with rxHead := y.rxHead.set ring (v.toNat % 4096) }) := by
  change done s (s.writeRxHead p c ring v.toNat) = _
  unfold State.writeRxHead
  rw [record]
  rfl

theorem exec_canRecover (p : Requester) (c : Fin 4) (v : BitVec 32) (s : State) : exec (.canRecover p c v) s = done s (
    if fnOf p = 0 ∧ v.toNat.testBit 0 = true ∧ (s.can c).state = 2 ∧ s.isFenced (0x28 + c) = false then
      s.modCan c fun x => { x with state := 3 } else s) := rfl

theorem exec_canJoinBus {c : Fin 4} (record : s.canRec c = some r) (live : s.islandLive = true)
    (unfenced : s.isFenced (0x28 + c) = false) : exec (.canJoinBus c) s =
      done s (s.modCan c fun x => { x with joined := true }) := by
  change execCanJoinBus c s = _
  unfold execCanJoinBus
  rw [record, live, unfenced]
  rfl

/-- Recovery from bus-off has ended. -/
def CanSt.recovered (x : CanSt) : CanSt := { x with state := 0, tec := 0, recCnt := 0 }

theorem exec_canBusOn {c : Fin 4} (live : s.islandLive = true) (unfenced : s.isFenced (0x28 + c) = false) :
    exec (.canBusOn c) s = done s (if (s.can c).state = 3 then
      (s.modCan c CanSt.recovered).post 0x0B05 ((s.modCan c CanSt.recovered).canPayload c) none else s) := by
  unfold exec execCanBusOn
  simp only [live, unfenced, Bool.true_and, Bool.not_false, Bool.and_true, beq_iff_eq]
  rfl

/-- An error while a frame of another node was received. -/
theorem canStep_rxError (wf : Map.wf CanSt.init s.cans = true) (r : Rec) (e : CanErr) (after : Bool) :
    ∃ z, CanStep [.cans, .events] c z (s.canErrorFlag c r) ((((s.canErrorFlag c r).modCan c fun x =>
      { x with lastErr := e.kind, errData := e.dataPhase }).modCan c fun x =>
        { x with recCnt := min 255 (x.recCnt + rxErrorCount e after) }).canErrorState c r) ∧
      z.lastErr = e.kind ∧ z.recCnt = min 255 ((s.can c).recCnt + rxErrorCount e after) := by
  have counted := (((canStep_said (c := c) (o := .canFlag c ((s.can c).state == 0)) wf r).mono (qs := [.cans, .events])
    (by simp)).modCan fun x => { x with lastErr := e.kind, errData := e.dataPhase }).modCan fun x =>
      { x with recCnt := min 255 (x.recCnt + rxErrorCount e after) }
  have kept := keptByErrors_errorState r ((((s.canErrorFlag c r).modCan c fun x =>
      { x with lastErr := e.kind, errData := e.dataPhase }).modCan c fun x =>
        { x with recCnt := min 255 (x.recCnt + rxErrorCount e after) }).leadLoop c).isSome
    { s.can c with lastErr := e.kind, errData := e.dataPhase, recCnt := min 255 ((s.can c).recCnt + rxErrorCount e after) }
  exact ⟨_, counted.errorState r, kept.lastErr, kept.recCnt⟩

end Sys2Proof.Machine

open Sys2Proof Sys2Proof.Machine

/-- Settles O55: a received frame by the way the filters and its ring decide, the rest by what each command sets. -/
theorem canReceivingActs : Obligations.CanReceivingActs := by
  intro p c s r canonical record wfc
  have wf := (canonical_iff.1 canonical).cans
  refine ⟨fun f short live mode idle => ?_, fun e after live normal idle => ?_, fun ring v => ⟨?_, ?_⟩, fun v => ?_,
    fun live unfenced => ⟨fun recovering => ?_, fun other => ?_, ?_⟩, fun q next refs live => ⟨fun early => ?_, fun due => ?_⟩⟩
  · have acked : Only [.out] s (s.canSays (.canAck c) r) := Only.canSays _ r s
    have said := canStep_said (c := c) (o := .canAck c) wf r
    obtain ⟨z, heard, one⟩ := canStep_heard (said.mono (by simp)) wfc (s.now - f.age) r f
    have only : Only (.cans :: memParts) s ((s.canSays (.canAck c) r).heard c (s.now - f.age) r f) :=
      (acked.mono (by decide)).trans heard.only
    rw [exec_canFrameReceive record (by simpa [CanRx.wellFormed] using short) live mode idle]
    refine goes_done only ⟨only, ?_, fun up normal => ?_, fun fate => ?_, fun ring k fate ring2 length => ⟨fun full => ?_, fun free unfenced => ?_⟩⟩
    · rw [heard.can]
      exact one
    · obtain ⟨l, out⟩ := (grows_rxFrame (c := c) (r := r) (s.now - f.age) f false (s.canSays (.canAck c) r)).trans
        (grows_rxGood (c := c) (r := r) _)
      refine ⟨l, out.trans ?_⟩
      rw [out_canSays up normal, List.append_assoc]
      rfl
    · obtain ⟨z, step, rejected, tail⟩ := canStep_heard_rejected fate (said.mono (by simp)) wfc (s.now - f.age)
      rw [step.can, step.only.get .mem, acked.get .mem]
      exact ⟨rejected, tail, rfl⟩
    · obtain ⟨z, step, dropped, tail⟩ := canStep_heard_dropped fate ring2 (rxShut_full full) (said.mono (by simp)) wfc (s.now - f.age)
      rw [step.can, step.only.get .mem, acked.get .mem]
      exact ⟨tail, dropped, rfl⟩
    · have unfenced' : (s.canSays (.canAck c) r).isFenced 0x50 = false := by
        rw [isFenced_of_only acked (by decide)]
        exact unfenced
      obtain ⟨z, step, tail⟩ := canStep_heard_stored fate (rxShut_free free unfenced') (said.mono (by simp)) (s.now - f.age)
      rw [step.can, tail]
      simp [length, ring2]
  · have said : Only [.out] s (s.canErrorFlag c r) := Only.canSays _ r s
    obtain ⟨z, step, lastErr, count⟩ := canStep_rxError (c := c) wf r e after
    rw [exec_canFrameReceive record rfl live (by omega) idle]
    dsimp only
    rw [if_neg (by omega)]
    have only := (said.mono (qs := [.cans, .events, .irq, .out]) (by decide)).trans (step.only.mono (by decide))
    refine goes_done only ?_
    rw [step.can]
    refine ⟨lastErr, count, fun frame alone last => ?_, fun up => ⟨[], ?_⟩, only⟩
    · simp [rxErrorCount, frame, alone, last, b2n]
    · rw [step.only.get .out]
      exact out_canSays up normal
  · intro outside
    rw [exec_canRxHeadWrite record, if_pos outside]
    rfl
  · intro pf unfenced inRing written
    rw [exec_canRxHeadWrite record, if_neg]
    · rfl
    · rintro (vf | fenced | outside | beyond)
      · exact vf pf
      · exact absurd fenced (by simp [unfenced])
      · exact absurd outside (by omega)
      · exact absurd beyond (by omega)
  · rw [exec_canRecover]
    split <;> rfl
  · rw [exec_canBusOn live unfenced, if_pos recovering]
    have step := (CanStep.refl (ps := [.cans, .events]) (c := c) wf).modCan CanSt.recovered
    have payload : (s.modCan c CanSt.recovered).canPayload c = c := by
      unfold State.canPayload
      rw [step.can]
      simp [CanSt.recovered]
    have told := step.post 0x0B05 ((s.modCan c CanSt.recovered).canPayload c) none
    refine goes_done told.only ?_
    rw [told.can]
    exact ⟨rfl, rfl, rfl, ⟨_, by rw [payload]⟩, told.only.mono (by decide)⟩
  · rw [exec_canBusOn live unfenced, if_neg other]
    rfl
  · rw [exec_canJoinBus record live unfenced]
    rfl
  · rw [exec_canReferenceInstant record next refs live, if_pos early]
    rfl
  · rw [exec_canReferenceInstant record next refs live, if_neg (by omega)]
    have placed := canStep_refPlaced (c := c) (r := r) wf q
    refine goes_done placed.only ?_
    rw [placed.can]
    exact ⟨rfl, rfl, rfl, rfl, placed.only.mono (by decide)⟩

end

section
/-! PROOF. A statement on encoder levels that asks for no canonical state (18 section 18.2). -/

namespace Sys2Proof.Machine

set_option Elab.async false

/-- A state that lists encoder channel 0 twice, each time with its A level high: it is not canonical. -/
def twiceListed : State :=
  { State.reset with ports := { State.reset.ports with enc := [(0, { levA := true }), (0, { levA := true })] } }

/-- Both levels of channel 0 go low: the channel is at its reset value, so that its first entry goes, and the second
entry shows. -/
theorem levA_twiceListed : ∀ t, exec (.encAbEdge ⟨0, 20⟩ false false) twiceListed = .next t → (t.enc 0).levA = true := by
  rintro t ⟨⟩
  rfl

end Sys2Proof.Machine

open Sys2Proof Sys2Proof.Machine

/-- Refutes O49: its clause on a channel that does not count in ABZ mode asks for no canonical state. Where the map of
the channels lists channel 0 twice, an edge that takes its levels low removes one entry and leaves the other, whose A
level is high. -/
theorem not_encoderCommandsAct : ¬ Obligations.EncoderCommandsAct := by
  unfold Obligations.EncoderCommandsAct
  rintro ⟨_, levels, _⟩
  obtain ⟨t, goes, low, _⟩ := (levels twiceListed ⟨0, 20⟩ false false).2 le_rfl rfl
  exact Bool.noConfusion (low.symm.trans (levA_twiceListed t goes))

end

section
/-! PROOF. SPI masters and UARTs (18 sections 18.3, 18.4). -/

namespace Sys2Proof.Machine

set_option Elab.async false

variable {s t u : State} {ps qs : List Part} {m : Nat} {x y : SpiSt} {r : Rec}

/-! ### One SPI master -/

/-- From `s` to `t` only some parts changed, the masters stay canonical, and master `m` has come to `y`. -/
structure SpiStep (ps : List Part) (m : Nat) (y : SpiSt) (s t : State) : Prop where
  only : Only ps s t
  wf : Map.wf SpiSt.init t.ports.spi = true
  spi : t.spi m = y

theorem SpiStep.refl (wf : Map.wf SpiSt.init s.ports.spi = true) : SpiStep ps m (s.spi m) s s := ⟨Only.refl ps s, wf, rfl⟩

theorem SpiStep.mono (h : SpiStep ps m y s t) (sub : ∀ p ∈ ps, p ∈ qs) : SpiStep qs m y s t :=
  ⟨h.only.mono sub, h.wf, h.spi⟩

theorem SpiStep.modSpi (h : SpiStep ps m y s t) (g : SpiSt → SpiSt) (ports : Part.ports ∈ ps := by decide) :
    SpiStep ps m (g y) s (t.modSpi m g) where
  only := h.only.trans ((Only.modSpi m g t).mono (by simpa using ports))
  wf := Map.wf_set _ _ _ _ h.wf
  spi := by rw [State.spi_modSpi _ _ _ _ h.wf, if_pos rfl, h.spi]

theorem SpiStep.beside (h : SpiStep ps m y s t) (k : Only qs t u) (sub : ∀ p ∈ qs, p ∈ ps := by decide)
    (ports : Part.ports ∉ qs := by decide) : SpiStep ps m y s u where
  only := h.only.trans (k.mono sub)
  wf := (k.2 .ports ports) ▸ h.wf
  spi := (congrArg (fun q : PortsSt => q.spi.get SpiSt.init m) (k.2 .ports ports)).trans h.spi

/-- The bytes that a transfer sends. -/
def SpiSt.sends (j : SpiJob) (x : SpiSt) : List Byte :=
  match j.script with
  | some k => x.script.bytes (64 * k) j.len
  | none => x.txBuf.bytes 0 j.len

theorem spiStart_eq (m : Nat) (j : SpiJob) (s : State) : s.spiStart m j =
    if s.outputsUp then (s.modSpi m fun y => { y with busy := some j, jobStamp := s.now }).emit (.spi m j.cs ((s.spi m).sends j))
    else s.modSpi m fun y => { y with busy := some j, jobStamp := s.now } := rfl

theorem SpiStep.spiStart (h : SpiStep ps m y s t) (j : SpiJob) (ports : Part.ports ∈ ps := by decide)
    (out : Part.out ∈ ps := by decide) : SpiStep ps m { y with busy := some j, jobStamp := t.now } s (t.spiStart m j) := by
  have set := h.modSpi (fun y => { y with busy := some j, jobStamp := t.now }) ports
  rw [spiStart_eq]
  split
  · exact set.beside (Only.emit _ _) (by simpa using out)
  · exact set

theorem out_spiStart (m : Nat) (j : SpiJob) (s : State) : (s.spiStart m j).out =
    s.out ++ (if s.outputsUp then [.spi m j.cs ((s.spi m).sends j)] else []) := by
  rw [spiStart_eq]
  split
  · rfl
  · exact (List.append_nil _).symm

theorem portRec_some {kind unit b : Nat} (h : s.portRec kind unit b = some r) :
    s.isFenced b = false ∧ s.port kind unit = some r := by
  unfold State.portRec at h
  split at h
  case isTrue => exact nomatch h
  case isFalse unfenced => exact ⟨Bool.not_eq_true _ ▸ unfenced, h⟩

/-! ### Triggers -/

/-- A due trigger of script `k`. -/
def State.spiTriggered (m k : Nat) (r : Rec) (s : State) : State :=
  let x := s.spi m
  let next := if scriptLoop r k = 0xFF then x.nextTrig.get 0 k + scriptPeriod r k else 0
  let s1 := s.modSpi m fun y => { y with nextTrig := y.nextTrig.set 0 k next }
  if x.busy.isNone && x.waiting.isEmpty then s1.spiStart m (scriptJob r k)
  else if x.waiting.contains k then
    s1.modSpi m fun y => { y with skipped := y.skipped.set false k true, skipCount := y.skipCount + 1 }
  else s1.modSpi m fun y => { y with waiting := y.waiting ++ [k] }

theorem exec_spiScriptTrigger {m k : Fin 2} (record : s.spiRec m = some r) (live : s.islandLive = true)
    (enabled : scriptEnabled r k = true) : exec (.spiScriptTrigger m k) s = done s (
      if (s.spi m).nextTrig.get 0 k = 0 ∨ s.now + 1 < (s.spi m).nextTrig.get 0 k then s else s.spiTriggered m k r) := by
  change execSpiScriptTrigger m k s = _
  unfold execSpiScriptTrigger
  simp only [record, live, enabled, Bool.not_true, Bool.false_or, Bool.or_eq_true, decide_eq_true_eq]
  rfl

theorem exec_spiScriptTrigger_early {m k : Fin 2} (record : s.spiRec m = some r)
    (early : (s.spi m).nextTrig.get 0 k = 0 ∨ s.now + 1 < (s.spi m).nextTrig.get 0 k) :
    exec (.spiScriptTrigger m k) s = .next s := by
  change execSpiScriptTrigger m k s = _
  unfold execSpiScriptTrigger
  simp only [record]
  rw [if_pos]
  · rfl
  · rcases early with none | early
    · simp [none]
    · simp [early]

/-- The next trigger of script `k` is noted. -/
def SpiSt.nextDue (k next : Nat) (x : SpiSt) : SpiSt := { x with nextTrig := x.nextTrig.set 0 k next }

/-- A master whose trigger of script `k` has been taken. -/
def SpiSt.taken (k : Nat) (r : Rec) (x : SpiSt) : SpiSt :=
  x.nextDue k (if scriptLoop r k = 0xFF then x.nextTrig.get 0 k + scriptPeriod r k else 0)

theorem spiTriggered_eq (m k : Nat) (r : Rec) (wf : Map.wf SpiSt.init s.ports.spi = true) :
    ∃ u, SpiStep [.ports, .out] m ((s.spi m).taken k r) s u ∧ u.out = s.out ∧ u.outputsUp = s.outputsUp ∧ u.now = s.now ∧
      s.spiTriggered m k r =
      if (s.spi m).busy.isNone && (s.spi m).waiting.isEmpty then u.spiStart m (scriptJob r k)
      else if (s.spi m).waiting.contains k then
        u.modSpi m fun y => { y with skipped := y.skipped.set false k true, skipCount := y.skipCount + 1 }
      else u.modSpi m fun y => { y with waiting := y.waiting ++ [k] } :=
  ⟨_, (SpiStep.refl wf).modSpi (SpiSt.nextDue k
    (if scriptLoop r k = 0xFF then (s.spi m).nextTrig.get 0 k + scriptPeriod r k else 0)), rfl, rfl, rfl, rfl⟩

theorem Only.spiTriggered (m k : Nat) (r : Rec) (wf : Map.wf SpiSt.init s.ports.spi = true) :
    Only [.ports, .out] s (s.spiTriggered m k r) := by
  obtain ⟨u, step, _, _, _, e⟩ := spiTriggered_eq m k r wf
  rw [e]
  exact Only.ite (fun _ => (step.spiStart _).only) fun _ => Only.ite (fun _ => (step.modSpi _).only) fun _ => (step.modSpi _).only

/-- On an idle master the script starts. -/
theorem spiTriggered_idle {k : Nat} (idle : (s.spi m).busy = none) (nothing : (s.spi m).waiting = [])
    (wf : Map.wf SpiSt.init s.ports.spi = true) :
    ((s.spiTriggered m k r).spi m).busy = some (scriptJob r k) ∧ ((s.spiTriggered m k r).spi m).jobStamp = s.now ∧
    (s.spiTriggered m k r).out = s.out ++ (if s.outputsUp then
      [.spi m (scriptJob r k).cs ((s.spi m).script.bytes (64 * k) (scriptJob r k).len)] else []) := by
  obtain ⟨u, step, out, up, now, e⟩ := spiTriggered_eq m k r wf
  have started : s.spiTriggered m k r = u.spiStart m (scriptJob r k) := e.trans (if_pos (by rw [idle, nothing]; rfl))
  rw [started, (step.spiStart _).spi, out_spiStart, step.spi, out, up]
  exact ⟨rfl, now, rfl⟩

theorem spiTriggered_busy {k : Nat} (busy : (s.spi m).busy.isSome = true) (wf : Map.wf SpiSt.init s.ports.spi = true) :
    ((s.spiTriggered m k r).spi m).busy = (s.spi m).busy ∧
    (k ∉ (s.spi m).waiting → ((s.spiTriggered m k r).spi m).waiting = (s.spi m).waiting ++ [k]) ∧
    (k ∈ (s.spi m).waiting → ((s.spiTriggered m k r).spi m).skipCount = (s.spi m).skipCount + 1 ∧
      ((s.spiTriggered m k r).spi m).waiting = (s.spi m).waiting) := by
  obtain ⟨u, step, _, _, _, e⟩ := spiTriggered_eq m k r wf
  rw [if_neg (by rw [Option.isNone_eq_false_iff.2 busy]; simp)] at e
  by_cases waits : k ∈ (s.spi m).waiting
  · rw [e, if_pos (List.contains_iff_mem.2 waits),
      (step.modSpi fun y => { y with skipped := y.skipped.set false k true, skipCount := y.skipCount + 1 }).spi]
    exact ⟨rfl, fun out => absurd waits out, fun _ => ⟨rfl, rfl⟩⟩
  · rw [e, if_neg (fun mem => waits (List.contains_iff_mem.1 mem)),
      (step.modSpi fun y => { y with waiting := y.waiting ++ [k] }).spi]
    exact ⟨rfl, fun _ => rfl, fun mem => absurd mem waits⟩

/-! ### Ends of transfers -/

/-- The ring of a master has no place for a record. -/
def State.spiShut (x : SpiSt) (r : Rec) (s : State) : Bool :=
  decide (r.u 0xE 2 = 0) || decide ((x.ringTail + r.u 0xE 2 - x.ringHead) % r.u 0xE 2 = r.u 0xE 2 - 1)
    || (decide (hostBase ≤ r.u 0x10 8) && s.isFenced 0x50)

/-- The 80 bytes of a script's record. -/
def spiBytes (k len : Nat) (rx : List Byte) (x : SpiSt) : List Byte :=
  fit 64 0 rx ++ le 8 x.jobStamp ++ le 1 k ++ le 1 len ++ le 1 (b2n (x.skipped.get false k)) ++ le 5 0

theorem spiRecord_eq (m k len : Nat) (rx : List Byte) (r : Rec) (s : State) : s.spiRecord m k len rx r =
    if s.spiShut (s.spi m) r then s.modSpi m fun y => { y with ringDrops := y.ringDrops + 1 }
    else (s.writeDev none (r.u 0x10 8 + (s.spi m).ringTail * 80) (spiBytes k len rx (s.spi m))).modSpi m fun y =>
      { y with ringTail := (y.ringTail + 1) % r.u 0xE 2, skipped := y.skipped.set false k false } := rfl

/-- A script's record is dropped or written. -/
theorem spiStep_spiRecord (wf : Map.wf SpiSt.init s.ports.spi = true) (k len : Nat) (rx : List Byte) (r : Rec) :
    ∃ y, SpiStep (.ports :: memParts) m y s (s.spiRecord m k len rx r) ∧ y.rxBuf = (s.spi m).rxBuf ∧
      y.waiting = (s.spi m).waiting ∧
      (y.ringDrops = (s.spi m).ringDrops + 1 ∧ y.ringTail = (s.spi m).ringTail ∨
       y.ringDrops = (s.spi m).ringDrops ∧ y.ringTail = ((s.spi m).ringTail + 1) % r.u 0xE 2) := by
  have start : SpiStep (.ports :: memParts) m (s.spi m) s s := SpiStep.refl wf
  rw [spiRecord_eq]
  split
  · exact ⟨_, start.modSpi fun y => { y with ringDrops := y.ringDrops + 1 }, rfl, rfl, .inl ⟨rfl, rfl⟩⟩
  · exact ⟨_, (start.beside (Only.writeDev _ _ _ s)).modSpi fun y =>
      { y with ringTail := (y.ringTail + 1) % r.u 0xE 2, skipped := y.skipped.set false k false }, rfl, rfl, .inr ⟨rfl, rfl⟩⟩

/-- A transfer's bytes reach RXBUF or the script's record. -/
def State.spiTaken (m : Nat) (j : SpiJob) (rx : List Byte) (r : Rec) (s : State) : State :=
  match j.script with
  | some k => s.spiRecord m k j.len (fit j.len 0 rx) r
  | none => s.modSpi m fun y => { y with rxBuf := y.rxBuf.store 0 (fit j.len 0 rx) }

/-- The next waiting script starts, where one waits. -/
def State.spiNext (m : Nat) (r : Rec) (s : State) : State :=
  match (s.spi m).waiting with
  | k :: rest => (s.modSpi m fun y => { y with waiting := rest }).spiStart m (scriptJob r k)
  | [] => s.modSpi m fun y => { y with busy := none }

theorem exec_spiTransferEnd {m : Fin 2} {rx : List Byte} {j : SpiJob} (short : rx.length ≤ 64) (record : s.spiRec m = some r)
    (busy : (s.spi m).busy = some j) : exec (.spiTransferEnd m rx) s = done s ((s.spiTaken m j rx r).spiNext m r) := by
  refine (checked_eq (c := .spiTransferEnd m rx) (decide_eq_true short)).trans ?_
  simp only [record, busy]
  rfl

theorem SpiStep.spiIdle (h : SpiStep ps m y s t) (r : Rec) (none : y.waiting = []) (ports : Part.ports ∈ ps := by decide) :
    SpiStep ps m { y with busy := Option.none } s (t.spiNext m r) := by
  have nothing : (t.spi m).waiting = [] := h.spi.symm ▸ none
  have idle : t.spiNext m r = t.modSpi m fun y => { y with busy := Option.none } := by
    unfold State.spiNext
    rw [nothing]
  rw [idle]
  exact h.modSpi (fun y => { y with busy := Option.none }) ports

theorem get_rxBuf (wf : Memory.wf x.rxBuf = true) (len : Nat) (rx : List Byte) {i : Nat} (lt : i < len) :
    (x.rxBuf.store 0 (fit len 0 rx)).get 0 i = rx.getD i 0 := by
  rw [Map.get_store _ _ _ _ wf, if_pos ⟨Nat.zero_le i, by rw [length_fit]; omega⟩]
  rw [Nat.sub_zero, fit, List.getD_eq_getElem?_getD, List.getElem?_take_of_lt lt, List.getD_eq_getElem?_getD]
  by_cases sent : i < rx.length
  · rw [List.getElem?_append_left sent]
  · rw [List.getElem?_append_right (by omega), List.getElem?_replicate, if_pos (by omega), List.getElem?_eq_none (by omega)]
    rfl

/-! ### Host transfers and the ring -/

theorem exec_spiCmd {p : Requester} {m : Fin 2} {v : BitVec 32} (record : s.spiRec m = some r) (pf : fnOf p = 0) :
    exec (.spiCmd p m v) s = done s (if v.toNat.testBit 31 = false then s
      else if (s.spi m).busy.isSome = true ∨ (s.spi m).waiting ≠ [] then s.modSpi m fun y => { y with result := 0x2C02#16 }
      else (s.modSpi m fun y => { y with result := 0 }).spiStart m
        { script := none, len := v.toNat % 64 + 1, cs := v.toNat / 256 % 4 }) := by
  obtain ⟨unfenced, port⟩ := portRec_some record
  change done s (s.writeSpiCmd p m v.toNat) = _
  unfold State.writeSpiCmd
  rw [if_neg (by rw [pf, unfenced]; simp), if_neg (by rw [port]; simp)]
  simp only [Bool.not_eq_true', Bool.or_eq_true, List.isEmpty_eq_false_iff]

theorem exec_spiRingHeadWrite {p : Requester} {m : Fin 2} {v : BitVec 32} (record : s.spiRec m = some r) :
    exec (.spiRingHeadWrite p m v) s = done s (if fnOf p ≠ 0 ∨ r.u 0xE 2 ≤ v.toNat % 4096 ∨
      ((s.spi m).ringTail + r.u 0xE 2 - (s.spi m).ringHead) % r.u 0xE 2 <
        (v.toNat % 4096 + r.u 0xE 2 - (s.spi m).ringHead) % r.u 0xE 2 then s
      else s.modSpi m fun y => { y with ringHead := v.toNat % 4096 }) := by
  change done s (s.writeSpiHead p m v.toNat) = _
  unfold State.writeSpiHead
  rw [record]
  rfl

/-! ### UARTs -/

theorem Only.modUart (n : Nat) (g : UartSt → UartSt) (s : State) : Only [.ports] s (s.modUart n g) := Only.ofPorts s _

theorem uart_modUart_self {n : Nat} (g : UartSt → UartSt) (wf : Map.wf UartSt.init s.ports.uart = true) :
    (s.modUart n g).uart n = g (s.uart n) :=
  (State.uart_modUart _ _ _ _ wf).trans (if_pos rfl)

theorem wf_modUart (n : Nat) (g : UartSt → UartSt) (wf : Map.wf UartSt.init s.ports.uart = true) :
    Map.wf UartSt.init (s.modUart n g).ports.uart = true := Map.wf_set _ _ _ _ wf

theorem uart_of_only (h : Only ps s t) (n : Nat) (ports : Part.ports ∉ ps := by decide) : t.uart n = s.uart n :=
  congrArg (fun q : PortsSt => q.uart.get UartSt.init n) (h.2 .ports ports)

/-- A character finds a full FIFO. -/
def UartSt.overrun (w : Nat) (x : UartSt) : UartSt := { x with armed := !w.testBit 8, ovr := true }

/-- A character is stored with its flags. -/
def UartSt.received (w : Nat) (x : UartSt) : UartSt :=
  { x with armed := !w.testBit 8, rx := x.rx ++ [BitVec.ofNat 16 w], ovr := false }

/-- A character of which the votes tell has been received. -/
def State.uartReceived (n : Nat) (r : Rec) (votes : List Vote) (s : State) : State :=
  let w := rxWord (uartFrame r) votes (s.uart n).ovr
  let s1 := s.modUart n fun y => { y with armed := !w.testBit 8 }
  if 256 ≤ (s.uart n).rx.length then s1.modUart n fun y => { y with ovr := true }
  else
    let s2 := s1.modUart n fun y => { y with rx := y.rx ++ [BitVec.ofNat 16 w], ovr := false }
    if (s.uart n).rx.isEmpty then s2.post 0x0C04 n none else s2

theorem exec_uartCharacterReceive {n : Fin 2} {votes : List Vote} (nine : 9 ≤ votes.length) (twelve : votes.length ≤ 12)
    (record : s.uartRec n = some r) (live : s.islandLive = true) : exec (.uartCharacterReceive n votes) s =
      done s (if (s.uart n).armed = false then s else s.uartReceived n r votes) := by
  refine (checked_eq (c := .uartCharacterReceive n votes) ?_).trans ?_
  · exact Bool.and_eq_true_iff.2 ⟨decide_eq_true nine, decide_eq_true twelve⟩
  · simp only [record, live, Bool.not_true, Bool.false_or, Bool.not_eq_true']
    rfl

theorem uartReceived_full {n : Nat} (votes : List Vote) (full : 256 ≤ (s.uart n).rx.length)
    (wf : Map.wf UartSt.init s.ports.uart = true) : Only [.ports] s (s.uartReceived n r votes) ∧
      (s.uartReceived n r votes).uart n = (s.uart n).overrun (rxWord (uartFrame r) votes (s.uart n).ovr) := by
  unfold State.uartReceived
  dsimp only
  rw [if_pos full, uart_modUart_self _ (wf_modUart _ _ wf), uart_modUart_self _ wf]
  exact ⟨(Only.modUart n _ s).trans (Only.modUart n _ _), rfl⟩

theorem uartReceived_room {n : Nat} (votes : List Vote) (room : (s.uart n).rx.length < 256)
    (wf : Map.wf UartSt.init s.ports.uart = true) : Only [.ports, .events, .irq, .out] s (s.uartReceived n r votes) ∧
      (s.uartReceived n r votes).uart n = (s.uart n).received (rxWord (uartFrame r) votes (s.uart n).ovr) ∧
      ((s.uart n).rx = [] → ∃ v : State, s.uartReceived n r votes = v.post 0x0C04 n none) := by
  have stored (w : Nat) : Only [.ports] s ((s.modUart n fun y => { y with armed := !w.testBit 8 }).modUart n fun y =>
      { y with rx := y.rx ++ [BitVec.ofNat 16 w], ovr := false }) ∧
      ((s.modUart n fun y => { y with armed := !w.testBit 8 }).modUart n fun y =>
        { y with rx := y.rx ++ [BitVec.ofNat 16 w], ovr := false }).uart n = (s.uart n).received w := by
    rw [uart_modUart_self _ (wf_modUart _ _ wf), uart_modUart_self _ wf]
    exact ⟨(Only.modUart n _ s).trans (Only.modUart n _ _), rfl⟩
  obtain ⟨only, uart⟩ := stored (rxWord (uartFrame r) votes (s.uart n).ovr)
  unfold State.uartReceived
  dsimp only
  rw [if_neg (by omega)]
  split
  case isTrue =>
    have told := Only.post 0x0C04 n none ((s.modUart n fun y =>
      { y with armed := !(rxWord (uartFrame r) votes (s.uart n).ovr).testBit 8 }).modUart n fun y =>
        { y with rx := y.rx ++ [BitVec.ofNat 16 (rxWord (uartFrame r) votes (s.uart n).ovr)], ovr := false })
    exact ⟨(only.mono (by decide)).trans (told.mono (by decide)), (uart_of_only told n).trans uart, fun _ => ⟨_, rfl⟩⟩
  case isFalse some => exact ⟨only.mono (by decide), uart, fun none => absurd (by rw [none]; rfl) some⟩

/-- The transmitter has nothing to take. -/
theorem uartNext_idle {n : Nat} (idle : (s.uart n).txBusy.isSome = true ∨ (s.uart n).tx = [] ∨ s.outputsUp = false) :
    s.uartNext n = s := by
  unfold State.uartNext
  dsimp only
  split
  case h_1 busy tx =>
    rcases idle with busy' | none | down
    · rw [busy] at busy'
      exact absurd busy' (by decide)
    · exact nomatch tx.symm.trans none
    · rw [down]
      rfl
  case h_2 => rfl

theorem uartNext_takes {n : Nat} {d : Byte} {rest : List Byte} (free : (s.uart n).txBusy = none) (tx : (s.uart n).tx = d :: rest)
    (up : s.outputsUp = true) :
    s.uartNext n = (s.modUart n fun y => { y with tx := rest, txBusy := some d }).emit (.uart n d) := by
  unfold State.uartNext
  dsimp only
  rw [free, tx, up]
  rfl

/-- The transmitter keeps the order of the characters, whether it takes one or not. -/
theorem uartNext_order {n : Nat} (wf : Map.wf UartSt.init s.ports.uart = true) : Only [.ports, .out] s (s.uartNext n) ∧
    ((s.uartNext n).uart n).txBusy.toList ++ ((s.uartNext n).uart n).tx = (s.uart n).txBusy.toList ++ (s.uart n).tx := by
  by_cases takes : (s.uart n).txBusy = none ∧ (s.uart n).tx ≠ [] ∧ s.outputsUp = true
  · obtain ⟨free, some, up⟩ := takes
    obtain ⟨d, rest, tx⟩ := List.exists_cons_of_ne_nil some
    rw [uartNext_takes free tx up, uart_of_only (Only.emit _ _), uart_modUart_self _ wf, free, tx]
    exact ⟨((Only.modUart n _ s).mono (by decide)).trans ((Only.emit _ _).mono (by decide)), rfl⟩
  · rw [uartNext_idle]
    · exact ⟨Only.refl _ s, rfl⟩
    · rw [not_and_or, not_and_or, not_not] at takes
      exact takes.imp (fun busy => Option.isSome_iff_ne_none.2 busy) (Or.imp_right fun down => Bool.not_eq_true _ ▸ down)

theorem exec_uartTxdata {p : Requester} {n : Fin 2} {v : BitVec 32} (record : s.uartRec n = some r) (pf : fnOf p = 0) :
    exec (.uartTxdata p n v) s = done s (if 64 ≤ (s.uart n).tx.length then s.modUart n fun y => { y with result := 0x2C03#16 }
      else (s.modUart n fun y => { y with tx := y.tx ++ [v.setWidth 8] }).uartNext n) := by
  obtain ⟨unfenced, port⟩ := portRec_some record
  change done s (s.writeTxdata p n v.toNat) = _
  unfold State.writeTxdata
  rw [if_neg (by rw [pf, unfenced]; simp), if_neg (by rw [port]; simp)]
  have byte : BitVec.ofNat 8 v.toNat = v.setWidth 8 := by
    apply BitVec.eq_of_toNat_eq
    simp
  rw [byte]

theorem exec_uartRearm {n : Fin 2} (record : s.uartRec n = some r) :
    exec (.uartRearm n) s = .next (s.modUart n fun y => { y with armed := true }) := by
  change execUartRearm n s = _
  unfold execUartRearm
  rw [record]
  rfl

theorem exec_uartRxdataRead (p : Requester) (n : Fin 2) (s : State) : exec (.uartRxdataRead p n 4) s =
    done s ((s.readRxdata p n).2.emit (.read (le 4 (s.readRxdata p n).1) false)) := rfl

theorem readRxdata_oldest {p : Requester} {n : Nat} {w : BitVec 16} {rest : List (BitVec 16)} (pf : fnOf p = 0)
    (record : s.uartRec n = some r) (rx : (s.uart n).rx = w :: rest) :
    s.readRxdata p n = (w.toNat, s.modUart n fun y => { y with rx := rest }) := by
  unfold State.readRxdata
  rw [rx]
  exact if_neg (by simp [pf, record])

theorem readRxdata_empty (p : Requester) {n : Nat} (rx : (s.uart n).rx = []) : s.readRxdata p n = (0, s) := by
  unfold State.readRxdata
  rw [rx]

theorem exec_uartTxCharacterEnd {n : Fin 2} {b : Byte} (record : s.uartRec n = some r) (sending : (s.uart n).txBusy = some b) :
    exec (.uartTxCharacterEnd n) s = done s ((s.modUart n fun y => { y with txBusy := none }).uartNext n) := by
  change execUartTxCharacterEnd n s = _
  unfold execUartTxCharacterEnd
  rw [record, sending]
  rfl

end Sys2Proof.Machine

open Sys2Proof Sys2Proof.Machine

/-- Settles O56: by the equation of each command and what it sets of its master or UART. -/
theorem serialPortsAct : Obligations.SerialPortsAct := by
  refine ⟨fun p m k s r canonical record => ⟨fun live enabled on due => ?_, fun early => ?_, fun rx j short busy nothing => ?_,
    fun v pf => ⟨fun low => ?_, fun high busy => ?_, fun high idle nothing => ?_⟩, fun v => ⟨fun outside => ?_, fun pf inRing written => ?_⟩⟩,
    fun p n s r canonical record => ⟨fun votes nine twelve live => ⟨fun off => ?_, fun on full => ?_, fun on room => ?_⟩, ?_,
      fun v pf => ⟨fun full => ?_, fun room => ?_⟩, fun pf w rest rx => ?_, fun none => ?_, fun size part => ?_, fun b sending => ?_⟩⟩
  · have wf := (canonical_iff.1 canonical).spi
    have only := Only.spiTriggered m k r wf
    rw [exec_spiScriptTrigger record live enabled, if_neg (by omega)]
    refine goes_done only ⟨only, fun idle nothing => spiTriggered_idle idle nothing wf, fun busy waits => ?_, fun busy waits => ?_⟩
    · obtain ⟨same, joins, _⟩ := spiTriggered_busy (r := r) (k := k) busy wf
      exact ⟨joins waits, same⟩
    · obtain ⟨same, _, skips⟩ := spiTriggered_busy (r := r) (k := k) busy wf
      exact ⟨(skips waits).1, (skips waits).2, same⟩
  · exact exec_spiScriptTrigger_early record early
  · have wf := (canonical_iff.1 canonical).spi
    rw [exec_spiTransferEnd short record busy]
    cases script : j.script with
    | none =>
      have taken : s.spiTaken m j rx r = s.modSpi m fun y => { y with rxBuf := y.rxBuf.store 0 (fit j.len 0 rx) } := by
        rw [State.spiTaken, script]
      have step := ((SpiStep.refl (ps := [.ports]) (m := m) wf).modSpi fun y =>
        { y with rxBuf := y.rxBuf.store 0 (fit j.len 0 rx) }).spiIdle r nothing
      rw [taken]
      refine goes_done step.only ?_
      rw [step.spi]
      exact ⟨rfl, step.only.mono (by decide), fun _ wfBuf => ⟨step.only, fun i lt => get_rxBuf wfBuf j.len rx lt⟩, nofun⟩
    | some k =>
      have taken : s.spiTaken m j rx r = s.spiRecord m k j.len (fit j.len 0 rx) r := by
        rw [State.spiTaken, script]
      obtain ⟨y, step, buf, waiting, ring⟩ := spiStep_spiRecord (m := m) wf k j.len (fit j.len 0 rx) r
      have ended := step.spiIdle r (waiting.trans nothing)
      rw [taken]
      refine goes_done ended.only ?_
      rw [ended.spi]
      exact ⟨rfl, ended.only, nofun, fun _ _ => ⟨buf, ring⟩⟩
  · rw [exec_spiCmd record pf, if_pos low]
    rfl
  · rw [exec_spiCmd record pf, if_neg (by rw [high]; decide), if_pos busy]
    rfl
  · have step := ((SpiStep.refl (ps := [.ports, .out]) (m := m) (canonical_iff.1 canonical).spi).modSpi fun y =>
      { y with result := 0 }).spiStart { script := none, len := v.toNat % 64 + 1, cs := v.toNat / 256 % 4 }
    rw [exec_spiCmd record pf, if_neg (by rw [high]; decide), if_neg (by simp [idle, nothing])]
    refine goes_done step.only ?_
    rw [step.spi]
    exact ⟨rfl, rfl, step.only⟩
  · rw [exec_spiRingHeadWrite record, if_pos (.inr outside)]
    rfl
  · rw [exec_spiRingHeadWrite record, if_neg (by omega)]
    rfl
  · rw [exec_uartCharacterReceive nine twelve record live, if_pos off]
    rfl
  · obtain ⟨only, uart⟩ := uartReceived_full (r := r) votes full (canonical_iff.1 canonical).uart
    rw [exec_uartCharacterReceive nine twelve record live, if_neg (by rw [on]; decide)]
    refine goes_done only ?_
    rw [uart]
    exact ⟨rfl, rfl, only⟩
  · obtain ⟨only, uart, told⟩ := uartReceived_room (r := r) votes room (canonical_iff.1 canonical).uart
    rw [exec_uartCharacterReceive nine twelve record live, if_neg (by rw [on]; decide)]
    refine goes_done only ?_
    rw [uart]
    exact ⟨rfl, rfl, rfl, told, only⟩
  · exact exec_uartRearm record
  · rw [exec_uartTxdata record pf, if_pos full]
    rfl
  · have wf := (canonical_iff.1 canonical).uart
    obtain ⟨only, order⟩ := uartNext_order (n := n) (wf_modUart n (fun y => { y with tx := y.tx ++ [v.setWidth 8] }) wf)
    have queued := (Only.modUart n (fun y => { y with tx := y.tx ++ [v.setWidth 8] }) s)
    rw [exec_uartTxdata record pf, if_neg (by omega)]
    have both := (queued.mono (qs := [.ports, .out]) (by decide)).trans only
    refine goes_done both ⟨order.trans ?_, both⟩
    rw [uart_modUart_self _ wf, List.append_assoc]
  · have taken := Only.modUart n (fun y => { y with rx := rest }) s
    rw [exec_uartRxdataRead, readRxdata_oldest pf record rx]
    have only := (taken.mono (qs := [.ports, .out]) (by decide)).trans ((Only.emit (.read (le 4 w.toNat) false) _).mono (by decide))
    refine goes_done only ⟨?_, rfl, only⟩
    rw [uart_of_only (Only.emit _ _), uart_modUart_self _ (canonical_iff.1 canonical).uart]
  · rw [exec_uartRxdataRead, readRxdata_empty p none]
    rfl
  · change done s (if size = 4 then _ else _) = _
    rw [if_neg part]
    rfl
  · have wf := (canonical_iff.1 canonical).uart
    have ended := Only.modUart n (fun y => { y with txBusy := none }) s
    have uart := uart_modUart_self (n := n) (fun y => { y with txBusy := none }) wf
    obtain ⟨only, _⟩ := uartNext_order (n := n) (wf_modUart n (fun y => { y with txBusy := none }) wf)
    have both := (ended.mono (qs := [.ports, .out]) (by decide)).trans only
    rw [exec_uartTxCharacterEnd record sending]
    refine goes_done both ⟨both, fun none => ?_, fun d rest tx up => ?_⟩
    · rw [uartNext_idle (.inr (.inl (by rw [uart]; exact none))), uart]
    · have next := uartNext_takes (s := s.modUart n fun y => { y with txBusy := none }) (by rw [uart]) (by rw [uart]; exact tx) up
      rw [next, uart_of_only (Only.emit _ _),
        uart_modUart_self _ (wf_modUart _ _ wf)]
      exact ⟨rfl, rfl, rfl⟩

end

section
/-! PROOF. Tool Spur, annunciator, PWM and GPIO (18 sections 18.5 to 18.8; 16 section 16.6). -/

namespace Sys2Proof.Machine

set_option Elab.async false

variable {s t u : State} {ps qs : List Part} {r : Rec}

/-! ### Tool Spur -/

/-- A search keeps at most 16 IDs. -/
theorem spurSearch_few (passes : List SpurPass) : ∀ (found : List Nat) (path : Nat) (last : Option Nat) (restarts : Nat),
    found.length ≤ 16 → (spurSearch passes found path last restarts).2.1.length ≤ 16 := by
  induction passes with
  | nil => exact fun found _ _ _ few => few
  | cons p rest ih =>
    intro found path last restarts few
    have again : (if 3 ≤ restarts then (0x4C01, [], []) else spurSearch rest [] 0 none (restarts + 1) :
        Nat × List Nat × List Out).2.1.length ≤ 16 := by
      split
      · exact Nat.zero_le _
      · exact ih [] 0 none _ (Nat.zero_le _)
    unfold spurSearch
    dsimp only
    split
    · exact few
    · split
      · exact again
      · split
        · exact again
        · split
          · exact few
          · have one (q : Nat) : (found ++ [q]).length ≤ 16 := by
              rw [List.length_append]
              exact Nat.lt_of_le_of_ne few ‹_›
            split
            · exact one _
            · exact ih _ _ _ _ (one _)

/-- What a search drove goes out, where the outputs have left their reset state. -/
def State.driven (outs : List Out) (s : State) : State :=
  if s.outputsUp then outs.foldl (fun (t : State) o => t.emit o) s else s

theorem emits_eq (outs : List Out) : ∀ s : State, outs.foldl (fun (t : State) o => t.emit o) s = { s with out := s.out ++ outs } := by
  induction outs with
  | nil => exact fun s => by rw [List.append_nil]; rfl
  | cons o outs ih =>
    intro s
    rw [List.foldl_cons, ih]
    simp [State.emit]

theorem out_driven (outs : List Out) (s : State) : (s.driven outs).out = s.out ++ (if s.outputsUp then outs else []) := by
  unfold State.driven
  split
  · rw [emits_eq]
  · exact (List.append_nil _).symm

theorem Only.driven (outs : List Out) (s : State) : Only [.out] s (s.driven outs) := by
  unfold State.driven
  exact Only.ite (fun _ => Only.foldl _ (fun t o => Only.emit o t) outs s) fun _ => Only.refl _ s

/-- The status and the IDs with which a search ends. -/
def spurResult (passes : List SpurPass) (busLow : Bool) : Nat × List Nat :=
  if busLow then (0x4C03, []) else ((spurSearch passes [] 0 none 0).1, (spurSearch passes [] 0 none 0).2.1)

theorem exec_spurSearchEnd {passes : List SpurPass} (wf : passes.all SpurPass.wellFormed = true) (busLow : Bool) :
    exec (.spurSearchEnd passes busLow) s = done s (if s.ports.spur.running = false then s
      else (s.driven (spurSearch passes [] 0 none 0).2.2).spurEnd (spurResult passes busLow).1 (spurResult passes busLow).2) := by
  refine (checked_eq (c := .spurSearchEnd passes busLow) wf).trans ?_
  simp only [Bool.not_eq_true']
  cases busLow <;> rfl

theorem spurResult_few (passes : List SpurPass) (busLow : Bool) : (spurResult passes busLow).2.length ≤ 16 := by
  cases busLow
  · exact spurSearch_few passes [] 0 none 0 (Nat.zero_le _)
  · exact Nat.zero_le _

/-- A search has ended, before SPUR_DONE. -/
def State.spurStopped (ids : List Nat) (s : State) : State :=
  { s with ports := { s.ports with spur :=
    { s.ports.spur with running := false, announced := false, ids := ids.map (BitVec.ofNat 64) } } }

theorem spurEnd_eq (status : Nat) (ids : List Nat) (s : State) :
    s.spurEnd status ids = (s.spurStopped ids).post 0x0C02 (status + ids.length * 65536) none := rfl

theorem spurEnd_spec (status : Nat) (ids : List Nat) (s : State) :
    (s.spurEnd status ids).out = s.out ∧ (s.spurEnd status ids).ports.spur.running = false ∧
    (s.spurEnd status ids).ports.spur.ids = ids.map (BitVec.ofNat 64) ∧ Only [.ports, .events] s (s.spurEnd status ids) := by
  have told := Only.quietPost (code := 0x0C02) (by decide) (status + ids.length * 65536) none (s.spurStopped ids)
  have stopped : Only [.ports] s (s.spurStopped ids) := Only.ofPorts s _
  have ports : (s.spurEnd status ids).ports = (s.spurStopped ids).ports := told.get .ports
  exact ⟨told.get .out, by rw [ports]; rfl, by rw [ports]; rfl, (stopped.mono (by decide)).trans (told.mono (by decide))⟩

/-- An announce has been noted. -/
def State.spurHeard (s : State) : State :=
  { s with ports := { s.ports with spur := { s.ports.spur with changed := true, announced := true } } }

theorem exec_spurAnnounce (live : s.islandLive = true) (idle : s.ports.spur.running = false)
    (record : (s.portRec 4 0 0x4C).isSome = true) : exec .spurAnnounce s = done s (
      if s.ports.spur.announced then s.spurHeard else s.spurHeard.post 0x0C01 0 none) := by
  change execSpurAnnounce s = _
  unfold execSpurAnnounce
  dsimp only
  rw [if_neg]
  · rfl
  · rw [live, idle, Option.isNone_eq_false_iff.2 record]
    decide

/-! ### Annunciator -/

theorem Only.modAnn (g : AnnSt → AnnSt) (s : State) : Only [.ports] s (s.modAnn g) := Only.ofPorts s _

/-- What the loss of the warning channel may change. -/
def warnParts : List Part := [.verge, .records, .events, .irq, .out]

theorem Only.ofWarning (v : VergeSt) (s : State) : Only warnParts s { s with verge := v } :=
  (Only.ofVerge s v).mono (by decide)

/-- A fault that is only recorded, or puts REDUCED into force, is reported and nothing else. -/
theorem raise_noted {code unit detail : Nat} {r : Reaction} (mild : r = .report ∨ r = .reduced) (ends : demandsFault code = false) :
    s.raise code unit r detail = (s.record code unit r.code detail).post 0x0A01 (code + unit % 256 * 65536 + r.code * 2 ^ 24) none := by
  have noted : s.noteFault code unit r detail =
      (s.record code unit r.code detail).post 0x0A01 (code + unit % 256 * 65536 + r.code * 2 ^ 24) none := by
    unfold State.noteFault
    rw [ends]
    rfl
  rw [← noted]
  rcases mild with rfl | rfl <;> rfl

theorem verge_raise_noted {code unit detail : Nat} {r : Reaction} (mild : r = .report ∨ r = .reduced)
    (ends : demandsFault code = false) : (s.raise code unit r detail).verge = (s.record code unit r.code detail).verge := by
  rw [raise_noted mild ends]
  exact verge_of_only (Only.post _ _ _ _)

theorem Only.raise_noted {code unit detail : Nat} {r : Reaction} (mild : r = .report ∨ r = .reduced)
    (ends : demandsFault code = false) : Only warnParts s (s.raise code unit r detail) := by
  rw [Machine.raise_noted mild ends]
  exact ((Only.record _ _ _ _ s).mono (by decide)).trans ((Only.post _ _ _ _).mono (by decide))

/-- The SAFETY record puts REDUCED into force with the loss of the warning channel. -/
def State.reduces (s : State) : Bool := (s.recField 0xA0 0xC 1).testBit 0

theorem warningLost_eq (s : State) : s.warningLost =
    if s.verge.warnLost then s
    else if s.reduces then
      { s.raise 0x8A0B 0xFF .reduced 0 with
        verge := { (s.raise 0x8A0B 0xFF .reduced 0).verge with warnLost := true, reduced := true } }.post 0x0A02 0x8A0B none
    else { s.raise 0x8A0B 0xFF .report 0 with verge := { (s.raise 0x8A0B 0xFF .report 0).verge with warnLost := true } } := rfl

theorem Only.warningLost (s : State) : Only warnParts s s.warningLost := by
  rw [warningLost_eq]
  refine Only.ite (fun _ => Only.refl _ s) fun _ => Only.ite (fun _ => ?_) fun _ => ?_
  · exact ((Only.raise_noted (.inr rfl) rfl).trans (Only.ofWarning _ _)).trans ((Only.post _ _ _ _).mono (by decide))
  · exact (Only.raise_noted (.inl rfl) rfl).trans (Only.ofWarning _ _)

/-- What the loss of the warning channel leaves in Verge. -/
theorem verge_warningLost (s : State) : s.warningLost.verge.warnLost = true ∧
    (s.verge.warnLost = false → s.warningLost.verge.reduced = (s.reduces || s.verge.reduced) ∧
      s.warningLost.verge.records.head? = some (FaultRec.mk s.now 0x8A0B 0xFF (if s.reduces then 1 else 0) s.devState.code 0)) := by
  rw [warningLost_eq]
  split
  case isTrue lost => exact ⟨lost, fun kept => absurd lost (by rw [kept]; decide)⟩
  case isFalse =>
    split
    case isTrue reduces =>
      rw [verge_of_only (Only.post _ _ _ _), reduces]
      dsimp only
      rw [verge_raise_noted (.inr rfl) rfl]
      exact ⟨rfl, fun _ => ⟨rfl, rfl⟩⟩
    case isFalse reports =>
      rw [Bool.not_eq_true] at reports
      rw [reports]
      dsimp only
      rw [verge_raise_noted (.inl rfl) rfl]
      exact ⟨rfl, fun _ => ⟨rfl, rfl⟩⟩

theorem warningLost_lost (lost : s.verge.warnLost = true) : s.warningLost = s := (warningLost_eq s).trans (if_pos lost)

theorem exec_annTrip (sounds : s.annState = 1) : exec .annTrip s = done s (
    if s.ports.ann.trips + 1 < 4 then
      (s.modAnn fun a => { a with trips := s.ports.ann.trips + 1, state := 2, retryAt := s.now + 100000000 }).warningLost
    else ((s.modAnn fun a => { a with trips := s.ports.ann.trips + 1, state := 3, status := 0x8C01#16 }).warningLost).post
      0x0C03 (s.ports.ann.trips + 1) none) := by
  refine congrArg (done s) (if_neg ?_)
  rw [sounds]
  decide

theorem exec_annRestored (s : State) : exec .annRestored s = done s (
    if s.annState = 1 ∧ s.verge.warnLost = true then
      (if s.verge.reduced then { s with verge := { s.verge with warnLost := false, reduced := false } }.post 0x0A03 0x8A0B none
       else { s with verge := { s.verge with warnLost := false, reduced := false } }) else s) := rfl

/-- The warning channel is back, and REDUCED ends. -/
theorem restored_spec (s : State) (lost : s.verge.warnLost = true) (sounds : s.annState = 1) :
    Goes (exec .annRestored s) fun t => t.verge.warnLost = false ∧ t.verge.reduced = false ∧
      (s.verge.reduced = true → ∃ u : State, t = u.post 0x0A03 0x8A0B none) ∧ Only [.verge, .events, .irq, .out] s t := by
  have back : Only [.verge, .events, .irq, .out] s { s with verge := { s.verge with warnLost := false, reduced := false } } :=
    Only.mono (ps := [.verge]) (Only.ofVergeKeep s _ rfl) (by decide)
  rw [exec_annRestored, if_pos ⟨sounds, lost⟩]
  split
  case isTrue =>
    have told := Only.post 0x0A03 0x8A0B none { s with verge := { s.verge with warnLost := false, reduced := false } }
    have only := back.trans (told.mono (by decide))
    refine goes_done only ⟨?_, ?_, fun _ => ⟨_, rfl⟩, only⟩
    · rw [verge_of_only told]
    · rw [verge_of_only told]
  case isFalse full => exact goes_done back ⟨rfl, rfl, fun reduced => absurd reduced full, back⟩

/-- A trip loses the warning channel; the fourth latches. -/
theorem goes_annTrip (sounds : s.annState = 1) :
    Goes (exec .annTrip s) fun t => t.ports.ann.trips = s.ports.ann.trips + 1 ∧ t.verge.warnLost = true ∧
      (s.ports.ann.trips + 1 < 4 → t.ports.ann.state = 2 ∧ t.ports.ann.retryAt = s.now + 100000000) ∧
      (4 ≤ s.ports.ann.trips + 1 → t.ports.ann.state = 3 ∧ t.ports.ann.status = 0x8C01#16 ∧
        ∃ u : State, t = u.post 0x0C03 (s.ports.ann.trips + 1) none) ∧
      Only [.ports, .verge, .records, .events, .irq, .out] s t := by
  have lose (g : AnnSt → AnnSt) : Only [.ports, .verge, .records, .events, .irq, .out] s (s.modAnn g).warningLost :=
    ((Only.modAnn g s).mono (by decide)).trans ((Only.warningLost _).mono (by decide))
  rw [exec_annTrip sounds]
  split
  case isTrue early =>
    refine goes_done (lose _) ?_
    rw [(Only.warningLost _).get .ports]
    exact ⟨rfl, (verge_warningLost _).1, fun _ => ⟨rfl, rfl⟩, fun late => absurd late (by omega), lose _⟩
  case isFalse fourth =>
    have told := Only.post 0x0C03 (s.ports.ann.trips + 1) none
      (s.modAnn fun a => { a with trips := s.ports.ann.trips + 1, state := 3, status := 0x8C01#16 }).warningLost
    have only := (lose _).trans (told.mono (by decide))
    refine goes_done only ?_
    rw [told.get .ports, (Only.warningLost _).get .ports, verge_of_only told]
    exact ⟨rfl, (verge_warningLost _).1, fun early => absurd early fourth, fun _ => ⟨rfl, rfl, _, rfl⟩, only⟩

/-! ### PWM -/

theorem rneInt_zero (d : Nat) (pos : 0 < d) : rneInt 0 d = 0 := by
  unfold rneInt
  simp only [Int.zero_ediv, Int.zero_emod]
  rw [if_pos (by omega)]

/-- An exact multiple is its own quotient. -/
theorem rneInt_mul (n : Int) (d : Nat) (pos : 0 < d) : rneInt (d * n) d = n := by
  unfold rneInt
  dsimp only
  rw [Int.mul_emod_right, Int.mul_ediv_cancel_left _ (by omega), if_pos (by omega)]

/-- The period of an output that starts at `q`. -/
def State.pwmStarted (n : Nat) (r : Rec) (q : Nat) (s : State) : State :=
  (s.modPwm n fun x => { x with high := s.pwmHigh n r, nextPeriod := some (q + r.u 0xC 4) }).emit (.pwm n (s.pwmHigh n r))

theorem exec_pwmPeriodStart {n : Fin 8} {q : Nat} (record : s.pwmRec n = some r) (next : (s.pwm n).nextPeriod = some q)
    (live : s.islandLive = true) (up : s.outputsUp = true) :
    exec (.pwmPeriodStart n) s = done s (if s.now < q then s else s.pwmStarted n r q) := by
  change execPwmPeriodStart n s = _
  unfold execPwmPeriodStart
  simp only [record, next, live, up, Bool.not_true, Bool.false_or, decide_eq_true_eq]
  rfl

theorem pwmHigh_sto {n : Nat} (sto : s.verge.stoA = false ∨ s.verge.stoB = false) : s.pwmHigh n r = 0 := by
  unfold State.pwmHigh
  rcases sto with a | b
  · simp [a]
  · simp [b]

theorem pwmHigh_released {n : Nat} (a : s.verge.stoA = true) (b : s.verge.stoB = true) : s.pwmHigh n r =
    if (s.pwmLoop n).isSome then (rneInt (max (s.pwm n).cmd 0 * (r.u 0xC 4 / 5 : Nat)) 8388607).toNat
    else min (s.pwm n).duty.toNat (r.u 0xC 4 / 5) := by
  unfold State.pwmHigh
  rw [a, b, if_neg (by decide)]
  rfl

theorem exec_pwmDutyWrite {p : Requester} {n : Fin 8} {v : BitVec 32} (record : s.pwmRec n = some r) (pf : fnOf p = 0) :
    exec (.pwmDutyWrite p n v) s = .next (s.modPwm n fun x =>
      if (s.pwmLoop n).isSome then { x with result := 0x2C01#16 } else { x with duty := v.setWidth 25 }) := by
  obtain ⟨unfenced, port⟩ := portRec_some record
  have duty : BitVec.ofNat 25 v.toNat = v.setWidth 25 := by
    apply BitVec.eq_of_toNat_eq
    simp
  change done s (s.writeDuty p n v.toNat) = _
  unfold State.writeDuty
  rw [if_neg (by rw [pf, unfenced]; simp), port, duty]
  cases s.pwmLoop n <;> rfl

/-! ### GPIO -/

theorem getLsbD_gpioOuts (r : Rec) (i : Fin 16) :
    (gpioOuts r).getLsbD i = ((r.u 0xC 2).testBit i && (r.u 0xE 2).testBit i) := by
  rw [gpioOuts, BitVec.getLsbD_and, BitVec.getLsbD_ofNat, BitVec.getLsbD_ofNat, decide_eq_true i.isLt, Bool.true_and, Bool.true_and]

/-- Output pins that move go out, and the pins that are driven stay. -/
theorem gpioDrive_same (out : BitVec 16) (s : State) : let t := s.gpioDrive s.ports.gpio.drive out
    t.ports.gpio.drive = s.ports.gpio.drive ∧ t.ports.gpio.out = out ∧ Only [.ports, .out] s t ∧ t.out = s.out ++
      (if s.ports.gpio.out &&& s.ports.gpio.drive = out &&& s.ports.gpio.drive then []
       else [.gpio s.ports.gpio.drive (out &&& s.ports.gpio.drive)]) := by
  have set := Only.modGpio (fun y => { y with drive := s.ports.gpio.drive, out := out }) s
  intro t
  by_cases same : s.ports.gpio.out &&& s.ports.gpio.drive = out &&& s.ports.gpio.drive
  · have e : t = s.modGpio fun y => { y with drive := s.ports.gpio.drive, out := out } := if_pos ⟨rfl, same⟩
    rw [e, if_pos same]
    exact ⟨rfl, rfl, set.mono (by decide), (List.append_nil _).symm⟩
  · have e : t = (s.modGpio fun y => { y with drive := s.ports.gpio.drive, out := out }).emit
        (.gpio s.ports.gpio.drive (out &&& s.ports.gpio.drive)) := if_neg fun both => same both.2
    rw [e, if_neg same]
    exact ⟨rfl, rfl, (set.mono (by decide)).trans ((Only.emit _ _).mono (by decide)), rfl⟩

theorem writeGpio_eq {p : Requester} (record : s.gpioRec = some r) (g : BitVec 16 → BitVec 16 → BitVec 16) :
    s.writeGpio p g = if fnOf p ≠ 0 then s else s.gpioDrive s.ports.gpio.drive (g s.ports.gpio.out (gpioOuts r)) := by
  unfold State.writeGpio
  rw [record]

/-- The level of a pin is seen. -/
def GpioSt.seen (k : Nat) (rising : Bool) (x : GpioSt) : GpioSt :=
  { x with level := if rising then x.level ||| 1#16 <<< k else x.level &&& ~~~(1#16 <<< k) }

/-- An edge of a pin is stamped and flagged. -/
def GpioSt.captured (k now : Nat) (x : GpioSt) : GpioSt :=
  { x with flags := x.flags ||| 1#16 <<< k, stamps := x.stamps.set 0 k now }

theorem exec_gpioEdge (k : Fin 16) (rising : Bool) (s : State) : exec (.gpioEdge k rising) s = done s (
    if s.ports.gpio.drive.getLsbD k then s
    else if !s.gpioRec.any fun r => gpioCaptures r k rising then s.modGpio (GpioSt.seen k rising)
    else if s.ports.gpio.flags = 0 then
      ((s.modGpio (GpioSt.seen k rising)).modGpio (GpioSt.captured k s.now)).post 0x0C05
        ((s.modGpio (GpioSt.seen k rising)).modGpio (GpioSt.captured k s.now)).ports.gpio.flags.toNat none
    else (s.modGpio (GpioSt.seen k rising)).modGpio (GpioSt.captured k s.now)) := rfl

theorem level_seen (k : Fin 16) (rising : Bool) (x : GpioSt) : (x.seen k rising).level.getLsbD k = rising := by
  cases rising <;> simp [GpioSt.seen, k.isLt]

theorem flags_captured (k : Fin 16) (now : Nat) (x : GpioSt) : (x.captured k now).flags.getLsbD k = true := by
  simp [GpioSt.captured, k.isLt]

theorem captures_iff (k : Nat) (rising : Bool) : (s.gpioRec.any fun r => gpioCaptures r k rising) = true ↔
    ∃ r, s.gpioRec = some r ∧ (r.u 0xC 2).testBit k = true ∧ (r.u 0xE 2).testBit k = false ∧
      (r.u (if rising then 0x12 else 0x14) 2).testBit k = true := by
  cases s.gpioRec with
  | none => simp
  | some r => simp [gpioCaptures, and_assoc]

/-- The edge of a pin alone sets its flag. -/
theorem flags_first (k : Fin 16) (now : Nat) {x : GpioSt} (none : x.flags = 0) : (x.captured k now).flags.toNat = 2 ^ k.val := by
  unfold GpioSt.captured
  rw [none]
  simp [Nat.shiftLeft_eq, Nat.mod_eq_of_lt (Nat.pow_lt_pow_right (a := 2) (by decide) k.isLt)]

theorem Only.gpioCaptured (k : Nat) (rising : Bool) (s : State) :
    Only [.ports] s ((s.modGpio (GpioSt.seen k rising)).modGpio (GpioSt.captured k s.now)) :=
  (Only.modGpio _ s).trans (Only.modGpio _ _)

theorem exec_annToneWrite {p : Requester} {v : BitVec 32} (pf : fnOf p = 0) (record : s.annRec.isSome = true) :
    exec (.annToneWrite p v) s = .next (s.modAnn fun a => { a with
      freq := v.setWidth 14, level := (v >>> 16).setWidth 8, on := v.getLsbD 31 }) := by
  change done s (s.writeTone p v.toNat) = _
  unfold State.writeTone
  rw [if_neg (by rw [pf, Option.isNone_eq_false_iff.2 record]; simp)]
  have freq : BitVec.ofNat 14 v.toNat = v.setWidth 14 := by
    apply BitVec.eq_of_toNat_eq
    simp
  have level : BitVec.ofNat 8 (v.toNat / 65536) = (v >>> 16).setWidth 8 := by
    apply BitVec.eq_of_toNat_eq
    simp [Nat.shiftRight_eq_div_pow]
  rw [freq, level]
  rfl

end Sys2Proof.Machine

open Sys2Proof Sys2Proof.Machine

/-- Settles O57: by the equation of each command, the search by induction over its passes. -/
theorem plainPortsAct : Obligations.PlainPortsAct := by
  refine ⟨fun passes busLow s wf => ⟨fun idle => ?_, fun running => ?_⟩, fun s live idle record => ?_, fun p v s pf record => ?_,
    fun s => ⟨fun quiet => ⟨?_, ?_, ?_⟩, fun sounds => ⟨goes_annTrip sounds, ?_, ?_⟩, fun tripped due => ?_, fun other => ?_⟩,
    fun p n v s r canonical record => ⟨fun q next live up => ⟨fun early => ?_, fun due => ?_⟩, exec_pwmDutyWrite record⟩,
    fun p v s r record => ⟨fun vf => ⟨?_, ?_⟩, fun pf i => ⟨?_, ?_⟩⟩,
    fun s k rising => ⟨fun driven => ?_, fun free => ?_⟩⟩
  · rw [exec_spurSearchEnd wf, if_pos idle]
    rfl
  · obtain ⟨out, stopped, ids, only⟩ := spurEnd_spec (spurResult passes busLow).1 (spurResult passes busLow).2
      (s.driven (spurSearch passes [] 0 none 0).2.2)
    have both : Only [.ports, .events, .irq, .out] s _ :=
      ((Only.driven (spurSearch passes [] 0 none 0).2.2 s).mono (by decide)).trans (only.mono (by decide))
    rw [exec_spurSearchEnd wf, if_neg (by rw [running]; decide)]
    refine goes_done both ⟨⟨[], ?_⟩, stopped, ids, ⟨_, spurEnd_eq _ _ _⟩, spurResult_few passes busLow, both⟩
    rw [out, out_driven, List.append_nil]
  · have heard : Only [.ports] s s.spurHeard := Only.ofPorts s _
    rw [exec_spurAnnounce live idle record]
    split
    case isTrue known =>
      exact goes_done heard ⟨rfl, rfl, fun fresh => absurd known (by rw [fresh]; decide), heard.mono (by decide)⟩
    case isFalse =>
      have told := Only.post 0x0C01 0 none s.spurHeard
      have both := (heard.mono (qs := [.ports, .events, .irq, .out]) (by decide)).trans (told.mono (by decide))
      refine goes_done both ?_
      rw [told.get .ports]
      exact ⟨rfl, rfl, fun _ => ⟨_, rfl⟩, both⟩
  · exact exec_annToneWrite pf record
  · exact congrArg (done s) (if_pos quiet)
  · exact congrArg (done s) (if_neg quiet)
  · exact congrArg (done s) (if_neg fun both => quiet both.1)
  · have e : exec .annOpenLoad s = done s s.warningLost := congrArg (done s) (if_pos sounds)
    rw [e]
    obtain ⟨lost, fresh⟩ := verge_warningLost s
    exact goes_done (Only.warningLost s) ⟨lost, fresh, warningLost_lost, Only.warningLost s⟩
  · by_cases lost : s.verge.warnLost = true
    · obtain ⟨t, goes, back, full, told, only⟩ := restored_spec s lost sounds
      exact ⟨t, goes, back, fun _ => ⟨full, told⟩, only⟩
    · rw [exec_annRestored, if_neg fun both => lost both.2]
      exact goes_done (Only.refl [] s) ⟨Bool.not_eq_true _ ▸ lost, fun lost' => absurd lost' lost, Only.refl _ s⟩
  · exact congrArg (done s) (if_pos ⟨tripped, due⟩)
  · refine congrArg (done s) (if_neg ?_)
    rintro ⟨tripped, due⟩
    rcases other with state | early
    · exact state tripped
    · omega
  · rw [exec_pwmPeriodStart record next live up, if_pos early]
    rfl
  · have set := Only.modPwm n (fun x => { x with high := s.pwmHigh n r, nextPeriod := some (q + r.u 0xC 4) }) s
    have only : Only [.ports, .out] s (s.pwmStarted n r q) :=
      (set.mono (by decide)).trans ((Only.emit _ _).mono (by decide))
    have pwm : (s.pwmStarted n r q).pwm n = { s.pwm n with high := s.pwmHigh n r, nextPeriod := some (q + r.u 0xC 4) } :=
      (State.pwm_modPwm s n n (fun x => { x with high := s.pwmHigh n r, nextPeriod := some (q + r.u 0xC 4) })
        (canonical_iff.1 canonical).pwm).trans (if_pos rfl)
    rw [exec_pwmPeriodStart record next live up, if_neg (by omega)]
    refine goes_done only ?_
    rw [pwm]
    refine ⟨rfl, rfl, only, pwmHigh_sto, fun a b host => ?_, fun l a b loop low => ?_, fun l a b loop full => ?_⟩
    · exact (pwmHigh_released a b).trans (if_neg (by rw [host]; decide))
    · refine (pwmHigh_released a b).trans ((if_pos (by rw [loop]; rfl)).trans ?_)
      rw [max_eq_right low, Int.zero_mul, rneInt_zero _ (by decide)]
      rfl
    · refine (pwmHigh_released a b).trans ((if_pos (by rw [loop]; rfl)).trans ?_)
      rw [full]
      exact congrArg Int.toNat (rneInt_mul _ 8388607 (by decide))
  · exact congrArg (done s) ((writeGpio_eq record _).trans (if_pos vf))
  · exact congrArg (done s) ((writeGpio_eq record _).trans (if_pos vf))
  · change Goes (done s (s.writeGpio p _)) _
    rw [writeGpio_eq record, if_neg (not_not.2 pf)]
    obtain ⟨drive, out, only, sent⟩ := gpioDrive_same (s.ports.gpio.out ||| (v.setWidth 16 &&& gpioOuts r)) s
    refine goes_done only ⟨⟨drive, only, ?_⟩, ?_⟩
    · rw [out]
      exact sent
    · rw [out, BitVec.getLsbD_or, BitVec.getLsbD_and, getLsbD_gpioOuts, BitVec.getLsbD_setWidth, decide_eq_true i.isLt,
        Bool.true_and, Bool.and_comm (v.getLsbD i)]
  · change Goes (done s (s.writeGpio p _)) _
    rw [writeGpio_eq record, if_neg (not_not.2 pf)]
    obtain ⟨drive, out, only, sent⟩ := gpioDrive_same (s.ports.gpio.out &&& ~~~(v.setWidth 16 &&& gpioOuts r)) s
    refine goes_done only ⟨⟨drive, only, ?_⟩, ?_⟩
    · rw [out]
      exact sent
    · rw [out, BitVec.getLsbD_and, BitVec.getLsbD_not, BitVec.getLsbD_and, getLsbD_gpioOuts, BitVec.getLsbD_setWidth,
        decide_eq_true i.isLt, Bool.true_and, Bool.true_and, Bool.and_comm (v.getLsbD i)]
  · rw [exec_gpioEdge, if_pos driven]
    rfl
  · rw [exec_gpioEdge, if_neg (by rw [free]; decide)]
    have seen := Only.modGpio (GpioSt.seen k rising) s
    have captured := Only.gpioCaptured k rising s
    have enabled := captures_iff (s := s) k rising
    by_cases on : (s.gpioRec.any fun r => gpioCaptures r k rising) = true
    · rw [on, if_neg (by decide)]
      have known (no : ¬ ∃ r, s.gpioRec = some r ∧ (r.u 0xC 2).testBit k = true ∧ (r.u 0xE 2).testBit k = false ∧
        (r.u (if rising then 0x12 else 0x14) 2).testBit k = true) : False := no (enabled.1 on)
      split
      case isTrue first =>
        have told := Only.post 0x0C05
          ((s.modGpio (GpioSt.seen k rising)).modGpio (GpioSt.captured k s.now)).ports.gpio.flags.toNat none
          ((s.modGpio (GpioSt.seen k rising)).modGpio (GpioSt.captured k s.now))
        have both := (captured.mono (qs := [.ports, .events, .irq, .out]) (by decide)).trans (told.mono (by decide))
        refine goes_done both ?_
        rw [told.get .ports]
        refine ⟨level_seen k rising _, both, fun no => (known no).elim, fun _ => ⟨flags_captured k s.now _, fun wf => ?_, fun none =>
          ⟨(s.modGpio (GpioSt.seen k rising)).modGpio (GpioSt.captured k s.now), ?_⟩⟩⟩
        · exact (Map.get_set 0 _ _ _ _ wf).trans (if_pos rfl)
        · have bit : ((s.modGpio (GpioSt.seen k rising)).modGpio (GpioSt.captured k s.now)).ports.gpio.flags.toNat = 2 ^ k.val :=
            flags_first k s.now none
          rw [bit]
      case isFalse later =>
        refine goes_done captured ⟨level_seen k rising _, captured.mono (by decide), fun no => (known no).elim,
          fun _ => ⟨flags_captured k s.now _, fun wf => ?_, fun none => absurd none later⟩⟩
        exact (Map.get_set 0 _ _ _ _ wf).trans (if_pos rfl)
    · rw [if_pos (by rw [Bool.not_eq_true] at on; rw [on]; rfl)]
      exact goes_done seen ⟨level_seen k rising _, seen.mono (by decide), fun _ => ⟨rfl, rfl, seen⟩,
        fun yes => absurd (enabled.2 yes) on⟩

end

section
/-! PROOF. The state of one camera through the packets of its channel (14 sections 14.2 to 14.4). -/

namespace Sys2Proof.Machine

set_option Elab.async false

variable {s t u : State} {ps qs : List Part} {k : Nat} {x y : CamSt} {r : Rec}

/-! ### One camera -/

/-- From `s` to `t` only some parts changed, the cameras stay canonical, and camera `k` has come to `y`. -/
structure CamStep (ps : List Part) (k : Nat) (y : CamSt) (s t : State) : Prop where
  only : Only ps s t
  wf : Map.wf CamSt.init t.cams = true
  cam : t.cam k = y

theorem CamStep.refl (wf : Map.wf CamSt.init s.cams = true) : CamStep ps k (s.cam k) s s := ⟨Only.refl ps s, wf, rfl⟩

theorem CamStep.mono (h : CamStep ps k y s t) (sub : ∀ p ∈ ps, p ∈ qs) : CamStep qs k y s t :=
  ⟨h.only.mono sub, h.wf, h.cam⟩

theorem CamStep.modCam (h : CamStep ps k y s t) (g : CamSt → CamSt) (cams : Part.cams ∈ ps := by decide) :
    CamStep ps k (g y) s (t.modCam k g) where
  only := h.only.trans ((Only.modCam k g t).mono (by simpa using cams))
  wf := Map.wf_set _ _ _ _ h.wf
  cam := by rw [State.cam_modCam _ _ _ _ h.wf, if_pos rfl, h.cam]

theorem CamStep.beside (h : CamStep ps k y s t) (b : Only qs t u) (sub : ∀ p ∈ qs, p ∈ ps := by decide)
    (cams : Part.cams ∉ qs := by decide) : CamStep ps k y s u where
  only := h.only.trans (b.mono sub)
  wf := (b.2 .cams cams) ▸ h.wf
  cam := (congrArg (fun m : Map CamSt => m.get CamSt.init k) (b.2 .cams cams)).trans h.cam

/-! ### Packets of one camera -/

/-- A packet of a channel that feeds camera `k` alone. -/
theorem onPacket_one {rx vc : Nat} (live : s.rxLive rx = true) (one : s.camerasOf rx vc = [k]) (sensor : s.sensor k = some r)
    (f : Nat → Rec → State → State) : s.onPacket rx vc .ok f = f k r s := by
  unfold State.onPacket
  rw [one, live, if_neg (by decide), if_neg (by simp)]
  simp only [List.foldl_cons, List.foldl_nil]
  rw [sensor]
  rfl

/-- A packet whose header cannot be corrected is discarded. -/
theorem onPacket_uncorrectable {rx vc : Nat} (live : s.rxLive rx = true) (one : s.camerasOf rx vc = [k])
    (f : Nat → Rec → State → State) : s.onPacket rx vc .uncorrectable f = s.modCam k (CamSt.bump 6 1) := by
  unfold State.onPacket
  rw [live, if_neg (by decide), if_pos (.inl rfl)]
  unfold State.dropPacket
  rw [one]
  rfl

/-! ### Ends of frames -/

/-- The frame of a camera after its end. -/
def CamFrame.closed (f : CamFrame) (r : Rec) (flags now : Nat) : CamFrame :=
  { f with flags := f.flags ||| BitVec.ofNat 8 (flags ||| if f.lines.length < camHeight r then 4 else 0), ended := some now }

/-- A camera whose frame has ended as `g`. -/
def CamSt.frameDone (g : CamFrame) (repaired : Nat) (x : CamSt) : CamSt :=
  { (x.bump 3 repaired).bump 4 g.cut with frame := none, done := x.done ++ [g] }

theorem endFrame_open {f : CamFrame} (flags : Nat) (frame : (s.cam k).frame = some f) (sensor : s.sensor k = some r) :
    s.endFrame k flags = s.modCam k (CamSt.frameDone (f.closed r flags s.now)
      ((f.closed r flags s.now).repaired (camWidth r) (camHeight r))) := by
  unfold State.endFrame
  dsimp only
  rw [frame, sensor]
  rfl

theorem endFrame_closed (flags : Nat) (frame : (s.cam k).frame = none) : s.endFrame k flags = s := by
  unfold State.endFrame
  dsimp only
  rw [frame]

theorem camStep_endFrame {f : CamFrame} (wf : Map.wf CamSt.init s.cams = true) (flags : Nat) (frame : (s.cam k).frame = some f)
    (sensor : s.sensor k = some r) : ∃ y, CamStep [.cams] k y s (s.endFrame k flags) ∧ y.frame = none ∧
      y.done = (s.cam k).done ++ [f.closed r flags s.now] := by
  rw [endFrame_open flags frame sensor]
  exact ⟨_, (CamStep.refl wf).modCam _, rfl, rfl⟩

/-- After the end of a frame, none is open. -/
theorem camStep_frameless (wf : Map.wf CamSt.init s.cams = true) (flags : Nat) (sensor : s.sensor k = some r) :
    ∃ y, CamStep [.cams] k y s (s.endFrame k flags) ∧ y.frame = none := by
  cases frame : (s.cam k).frame with
  | none =>
    rw [endFrame_closed flags frame]
    exact ⟨_, CamStep.refl wf, frame⟩
  | some f =>
    obtain ⟨y, step, none, _⟩ := camStep_endFrame wf flags frame sensor
    exact ⟨y, step, none⟩

/-! ### Starts of frames -/

theorem Only.ispWrite (ctx a efn : Nat) (bs : List Byte) (s : State) : Only memParts s (s.ispWrite ctx a efn bs) := by
  unfold State.ispWrite
  split
  · exact Only.refl _ s
  · exact (Only.writeMem _ _ _ _ _ s).trans (Only.setTags _ _ _ _ _)

theorem Only.writingRecords (k : Nat) (f : CamFrame) (s : State) : Only memParts s (s.writingRecords k f) := by
  refine Only.foldl _ (fun t b => ?_) _ s
  exact Only.ite (fun _ => Only.ispWrite _ _ _ _ t) fun _ => Only.refl _ t

/-- The EFN of a frame that starts: one up in FREE mode, the pulse count in TRIGGER mode. -/
def CamSt.nextEfn (r : Rec) (x : CamSt) : BitVec 32 :=
  if (r.u 0x10 1 == 1) = true then BitVec.ofNat 32 x.pulses else x.efn + 1

/-- A camera whose frame start has been accepted. -/
def CamSt.started (r : Rec) (x : CamSt) (now : Nat) (y : CamSt) : CamSt :=
  { (y.bump 0 1).swap r (x.nextEfn r).toNat now with
    efn := x.nextEfn r, pulsesAtFrame := x.pulses, lostPosted := false, lossArmed := !(r.u 0x10 1 == 1), lastStart := now }

/-- A frame start that is accepted: the open frame ends, and the start is noted. -/
def State.startNoted (k : Nat) (r : Rec) (s : State) : State :=
  let s2 := (s.endFrame k 16).modCam k (CamSt.started r (s.cam k) s.now)
  if (s.cam k).lostPosted then s2.post 0x0804 k none else s2

/-- The frame that a start opens. -/
def CamSt.newFrame (r : Rec) (fn : BitVec 16) (now : Nat) (bundle : Bundle) (x : CamSt) : CamFrame :=
  { CamFrame.init with stamp := now, sensorFn := fn, efn := x.nextEfn r, bundle := bundle,
                       exposure := if (r.u 0x10 1 == 1) = true then x.pulseExp.get (r.u 0x34 4) (x.pulses - r.u 0x1C 1) else 0 }

/-- A camera whose ISP is fenced loses the frame. -/
def CamSt.frameLost (x : CamSt) : CamSt := { (x.bump 6 1).undelivered 1 with resync := true }

/-- A frame is open. -/
def State.frameOpened (k : Nat) (f : CamFrame) (s : State) : State :=
  let s4 := s.modCam k fun y => { y with frame := some f, resync := false }
  if (s4.cam k).done.isEmpty then s4.writingRecords k f else s4

theorem frameStart_eq (k : Nat) (r : Rec) (fn : BitVec 16) (s : State) : s.frameStart k r fn =
    if (r.u 0x10 1 == 1 && (s.cam k).pulses == (s.cam k).pulsesAtFrame) = true then
      s.modCam k fun y => { y.bump 7 1 with resync := true }
    else if (s.startNoted k r).isFenced (0x13 + k) then (s.startNoted k r).modCam k CamSt.frameLost
    else (s.startNoted k r).frameOpened k ((s.cam k).newFrame r fn s.now ((s.startNoted k r).cam k).active) := rfl

/-- The swap of bundles leaves the frames of a camera. -/
theorem frame_swap (r : Rec) (efn now : Nat) (x : CamSt) : (x.swap r efn now).frame = x.frame := by
  unfold CamSt.swap
  extract_lets x1
  have first : x1.frame = x.frame := by
    unfold x1
    split
    · split <;> rfl
    · rfl
  clear_value x1
  rw [← first]
  split
  · split <;> rfl
  · rfl

theorem camStep_startNoted (wf : Map.wf CamSt.init s.cams = true) (sensor : s.sensor k = some r) :
    ∃ y, CamStep [.cams, .events] k y s (s.startNoted k r) ∧ y.efn = (s.cam k).nextEfn r ∧ y.lastStart = s.now ∧
      y.pulsesAtFrame = (s.cam k).pulses ∧ y.frame = none := by
  obtain ⟨y, ended, none⟩ := camStep_frameless wf 16 sensor
  have noted := (ended.mono (qs := [.cams, .events]) (by decide)).modCam (CamSt.started r (s.cam k) s.now)
  have frame : (CamSt.started r (s.cam k) s.now y).frame = Option.none := by
    refine (frame_swap r _ s.now (y.bump 0 1)).trans ?_
    exact none
  refine ⟨_, ?_, rfl, rfl, rfl, frame⟩
  unfold State.startNoted
  dsimp only
  split
  · exact noted.beside (Only.quietPost rfl _ _ _)
  · exact noted

theorem CamStep.frameOpened (h : CamStep (.cams :: memParts) k y s t) (f : CamFrame) :
    CamStep (.cams :: memParts) k { y with frame := some f, resync := false } s (t.frameOpened k f) := by
  have opened := h.modCam fun y => { y with frame := some f, resync := false }
  unfold State.frameOpened
  dsimp only
  split
  · exact opened.beside (Only.writingRecords _ _ _)
  · exact opened

end Sys2Proof.Machine
end

section
/-! PROOF. Frame records, trigger pulses and CAM_LOST (14 sections 14.4 to 14.6). -/

namespace Sys2Proof.Machine

set_option Elab.async false

variable {s t u : State} {ps qs : List Part} {k : Nat} {x y : CamSt} {r : Rec}

/-! ### Delivery of a frame -/

theorem Only.writePlanes (b : Rec) (efn : Nat) (l : List BranchPlane) : ∀ (a : Nat) (s : State),
    Only memParts s (State.writePlanes b efn l a s) := by
  induction l with
  | nil => exact fun _ s => Only.refl _ s
  | cons p l ih =>
    intro a s
    unfold State.writePlanes
    exact (Only.foldl _ (fun t q => Only.ispWrite _ _ _ _ t) _ s).trans (ih _ _)

theorem Only.storePicture (key : Nat) (x : Stream) (p : Picture) (planes : List (List Nat)) (s : State) :
    Only memParts s (s.storePicture key x p planes).2 := Only.writeMem _ _ _ _ _ s

theorem Only.setStream (c n : Nat) (x : Option Stream) (s : State) : Only [.intake] s (s.setStream c n x) := Only.ofIntake s _

theorem Only.deliverIe (k : Nat) (b : Rec) (f : CamFrame) (o : IspOut) (status : Nat) (s : State) :
    Only (.intake :: memParts) s (s.deliverIe k b f o status) := by
  unfold State.deliverIe
  split
  · exact Only.ite (fun _ => (Only.setStream _ _ _ s).mono (by decide)) fun _ =>
      ((Only.storePicture _ _ _ _ s).mono (by decide)).trans ((Only.setStream _ _ _ _).mono (by decide))
  · exact Only.refl _ s

/-- A SWARD branch's counts after a frame. -/
def CamSt.sward (n status dropped : Nat) (x : CamSt) : CamSt :=
  if status = 0x1803 then { x with dropCount := x.dropCount.set 0 n (satAdd 0xFFFF dropped 1) }
  else { x with delivery := x.delivery.set 0 n (x.delivery.get 0 n + 1), dropCount := x.dropCount.set 0 n 0 }

/-- A camera after a branch has had its frame. -/
def CamSt.branchDone (status : Nat) (x : CamSt) (b : Rec) : CamSt :=
  if b.u 0xB 1 = 0 then x.sward (b.u 9 1) status (x.dropCount.get 0 (b.u 9 1)) else x

/-- A branch has its frame. -/
def State.branchServed (k : Nat) (r : Rec) (f : CamFrame) (o : IspOut) (status : Nat) (t : State) (b : Rec) : State :=
  if b.u 0xB 1 = 0 then t.deliverSward k r b f o status else t.deliverIe k b f o status

/-- What a frame on its branches may change. -/
def frameParts : List Part := .cams :: .intake :: memParts

theorem CamStep.branchServed (h : CamStep frameParts k y s t) (f : CamFrame) (o : IspOut) (status : Nat) (b : Rec) :
    CamStep frameParts k (y.branchDone status b) s (t.branchServed k r f o status b) := by
  unfold State.branchServed CamSt.branchDone
  split
  · have planes := h.beside (Only.writePlanes b f.efn.toNat (branchPlanes b o) ((t.nextSlot k b).2 + 64) t)
    have record := planes.beside (Only.ispWrite (b.u 0x18 1) (t.nextSlot k b).2 f.efn.toNat (frameRecord b f
      (f.repaired (camWidth r) (camHeight r)) ((t.cam k).dropCount.get 0 (b.u 9 1)) status (t.nextSlot k b).1) _)
    have counted := record.modCam (CamSt.sward (b.u 9 1) status (y.dropCount.get 0 (b.u 9 1)))
    rw [h.cam] at counted
    unfold State.deliverSward
    dsimp only
    rw [h.cam]
    split
    · exact counted.beside (Only.post _ _ _ _)
    · exact counted
  · exact h.beside (Only.deliverIe _ _ _ _ _ t)

theorem CamStep.branchesServed (bs : List Rec) (f : CamFrame) (o : IspOut) (status : Nat) : ∀ {y t},
    CamStep frameParts k y s t → CamStep frameParts k (bs.foldl (CamSt.branchDone status) y) s
      (bs.foldl (State.branchServed k r f o status) t) := by
  induction bs with
  | nil => exact fun h => h
  | cons b bs ih => exact fun h => ih (h.branchServed f o status b)

/-- The counts of branch `n`. -/
def CamSt.counts (n : Nat) (x : CamSt) : Nat × Nat := (x.delivery.get 0 n, x.dropCount.get 0 n)

/-- The counts of a camera's branches are canonical. -/
def CamSt.Counted (x : CamSt) : Prop := Map.wf 0 x.delivery = true ∧ Map.wf 0 x.dropCount = true

theorem counted_sward (n status dropped : Nat) (h : x.Counted) : (x.sward n status dropped).Counted := by
  unfold CamSt.sward
  split
  · exact ⟨h.1, Map.wf_set _ _ _ _ h.2⟩
  · exact ⟨Map.wf_set _ _ _ _ h.1, Map.wf_set _ _ _ _ h.2⟩

theorem counts_sward (n m status dropped : Nat) (h : x.Counted) : (x.sward n status dropped).counts m =
    if m = n then (if status = 0x1803 then (x.delivery.get 0 n, min 0xFFFF (dropped + 1)) else (x.delivery.get 0 n + 1, 0))
    else x.counts m := by
  unfold CamSt.sward CamSt.counts
  split
  · dsimp only
    rw [Map.get_set _ _ _ _ _ h.2]
    by_cases here : m = n
    · subst here
      simp [satAdd]
    · simp [here]
  · dsimp only
    rw [Map.get_set _ _ _ _ _ h.2, Map.get_set _ _ _ _ _ h.1]
    by_cases here : m = n
    · subst here
      simp
    · simp [here]

theorem counted_branchDone (status : Nat) (b : Rec) (h : x.Counted) : (x.branchDone status b).Counted := by
  unfold CamSt.branchDone
  split
  · exact counted_sward _ _ _ h
  · exact h

theorem counts_branchDone_other (status : Nat) {b : Rec} {m : Nat} (other : m ≠ b.u 9 1) (h : x.Counted) :
    (x.branchDone status b).counts m = x.counts m := by
  unfold CamSt.branchDone
  split
  · rw [counts_sward _ _ _ _ h, if_neg other]
  · rfl

theorem counts_branchesDone_other (status : Nat) {m : Nat} (bs : List Rec) : ∀ {x : CamSt}, (∀ b ∈ bs, m ≠ b.u 9 1) →
    x.Counted → (bs.foldl (CamSt.branchDone status) x).counts m = x.counts m := by
  induction bs with
  | nil => exact fun _ _ => rfl
  | cons b bs ih =>
    intro x other h
    rw [List.forall_mem_cons] at other
    exact (ih other.2 (counted_branchDone status b h)).trans (counts_branchDone_other status other.1 h)

/-- A SWARD branch counts its own frame once, as no other branch has its number. -/
theorem counts_branchesDone (status : Nat) {b : Rec} (sward : b.u 0xB 1 = 0) (bs : List Rec) : ∀ {x : CamSt},
    bs.Pairwise (fun a c => a.u 9 1 ≠ c.u 9 1) → b ∈ bs → x.Counted → (bs.foldl (CamSt.branchDone status) x).counts (b.u 9 1) =
      if status = 0x1803 then (x.delivery.get 0 (b.u 9 1), min 0xFFFF (x.dropCount.get 0 (b.u 9 1) + 1))
      else (x.delivery.get 0 (b.u 9 1) + 1, 0) := by
  induction bs with
  | nil => exact fun _ mem _ => absurd mem List.not_mem_nil
  | cons a bs ih =>
    intro x distinct mem h
    rw [List.pairwise_cons] at distinct
    obtain ⟨apart, distinct⟩ := distinct
    rcases List.mem_cons.1 mem with rfl | mem
    · refine (counts_branchesDone_other status bs apart (counted_branchDone status b h)).trans ?_
      rw [CamSt.branchDone, if_pos sward, counts_sward _ _ _ _ h, if_pos rfl]
    · have same := counts_branchDone_other status (apart b mem).symm h
      refine (ih distinct mem (counted_branchDone status a h)).trans ?_
      unfold CamSt.counts at same
      rw [Prod.mk.injEq] at same
      rw [same.1, same.2]

theorem done_branchesDone (status : Nat) (bs : List Rec) : ∀ x : CamSt, (bs.foldl (CamSt.branchDone status) x).done = x.done := by
  induction bs with
  | nil => exact fun _ => rfl
  | cons b bs ih =>
    refine fun x => (ih _).trans ?_
    unfold CamSt.branchDone CamSt.sward
    split
    · split <;> rfl
    · rfl

/-- A camera has at most one branch of each number. -/
theorem distinct_branches (s : State) (k : Nat) : (s.branches k).Pairwise fun a c => a.u 9 1 ≠ c.u 9 1 := by
  unfold State.branches
  rw [List.pairwise_filterMap]
  refine List.pairwise_lt_range.imp fun {m n} lt a found c found' => ?_
  have number {q : Nat} {b : Rec} (e : (s.recs 0x51).find? (fun r => r.u 8 1 == k && r.u 9 1 == q) = some b) : b.u 9 1 = q := by
    have := List.find?_some e
    simp only [Bool.and_eq_true, beq_iff_eq] at this
    exact this.2
  rw [number found, number found']
  omega

theorem Only.writeStats (k : Nat) (r : Rec) (f : CamFrame) (o : IspOut) (status : Nat) (s : State) :
    Only memParts s (s.writeStats k r f o status) := by
  unfold State.writeStats
  have written (ctx a efn : Nat) (x y : List Byte) : Only memParts s ((s.ispWrite ctx (a + 64) efn x).ispWrite ctx a efn y) :=
    (Only.ispWrite _ _ _ _ s).trans (Only.ispWrite _ _ _ _ _)
  exact Only.ite (fun _ => Only.refl _ s) fun _ => Only.ite
    (fun _ => (written _ _ _ _ _).trans ((Only.post _ _ _ _).mono (by decide))) fun _ => written _ _ _ _ _

/-- What the governor leaves of a camera. -/
theorem camStep_governCam (h : CamStep ps k y s t) (f : CamFrame) (o : IspOut) (status : Nat) (cams : Part.cams ∈ ps := by decide) :
    ∃ z, CamStep ps k z s (t.governCam k r f o status) ∧ z.done = y.done ∧ (∀ n, z.counts n = y.counts n) := by
  unfold State.governCam
  split
  · exact ⟨y, h, rfl, fun _ => rfl⟩
  · split
    · exact ⟨_, h.modCam (fun x => { x with decided := some (_, t.now + 20000), shadow := none }) cams, rfl, fun _ => rfl⟩
    · exact ⟨y, h, rfl, fun _ => rfl⟩

/-- A camera whose oldest ended frame is taken. -/
def CamSt.frameTaken (status : Nat) (rest : List CamFrame) (x : CamSt) : CamSt :=
  { (x.bump 1 (b2n (status == 0x1801))).bump 2 (b2n (status == 0x1803)) with done := rest }

/-- The oldest ended frame of a camera is finished on every branch. -/
def State.frameFinished (k : Nat) (r : Rec) (f : CamFrame) (rest : List CamFrame) (s : State) : State :=
  let o := ispRun r f
  let st := frameStatus r f
  let s1 := s.modCam k (CamSt.frameTaken st rest)
  let s2 := (s1.branches k).foldl (State.branchServed k r f o st) s1
  let s3 := (s2.writeStats k r f o st).governCam k r f o st
  match rest.head?.or (s3.cam k).frame with
  | some g => s3.writingRecords k g
  | none => s3

theorem exec_frameRecordWrite {k : Fin 4} {f : CamFrame} {rest : List CamFrame} (done_ : (s.cam k).done = f :: rest)
    (sensor : s.sensor k = some r) (live : s.camerasLive = true) : exec (.frameRecordWrite k) s = done s (
      if s.isFenced (0x13 + k) = true ∨ s.isFenced 0x60 = true then s else s.frameFinished k r f rest) := by
  change execFrameRecordWrite k s = _
  unfold execFrameRecordWrite
  simp only [done_, sensor, live, Bool.not_true, Bool.false_or, Bool.or_eq_true]
  rfl

/-- The counts in the way the taken frame leaves them. -/
theorem counts_frameTaken (status : Nat) (rest : List CamFrame) (x : CamSt) :
    (x.frameTaken status rest).delivery = x.delivery ∧ (x.frameTaken status rest).dropCount = x.dropCount := by
  have same (i n : Nat) (z : CamSt) : (z.bump i n).delivery = z.delivery ∧ (z.bump i n).dropCount = z.dropCount := by
    unfold CamSt.bump
    split <;> exact ⟨rfl, rfl⟩
  exact ⟨((same _ _ _).1).trans (same _ _ _).1, ((same _ _ _).2).trans (same _ _ _).2⟩

theorem camStep_frameFinished (wf : Map.wf CamSt.init s.cams = true) (f : CamFrame) (rest : List CamFrame)
    (counted : (s.cam k).Counted) : ∃ z, CamStep frameParts k z s (s.frameFinished k r f rest) ∧ z.done = rest ∧
      ∀ b ∈ s.branches k, b.u 0xB 1 = 0 → z.counts (b.u 9 1) = if frameStatus r f = 0x1803 then
        ((s.cam k).delivery.get 0 (b.u 9 1), min 0xFFFF ((s.cam k).dropCount.get 0 (b.u 9 1) + 1))
        else ((s.cam k).delivery.get 0 (b.u 9 1) + 1, 0) := by
  have taken := (CamStep.refl (ps := frameParts) (k := k) wf).modCam (CamSt.frameTaken (frameStatus r f) rest)
  have served := CamStep.branchesServed (r := r) (s.branches k) f (ispRun r f) (frameStatus r f) taken
  have stats := served.beside (Only.writeStats k r f (ispRun r f) (frameStatus r f) _)
  obtain ⟨z, governed, done, counts⟩ := camStep_governCam (r := r) stats f (ispRun r f) (frameStatus r f)
  obtain ⟨delivery, dropCount⟩ := counts_frameTaken (frameStatus r f) rest (s.cam k)
  refine ⟨z, ?_, done.trans (done_branchesDone _ _ _), fun b mem sward => ?_⟩
  · unfold State.frameFinished
    dsimp only
    split
    · exact governed.beside (Only.writingRecords _ _ _)
    · exact governed
  · have counted' : ((s.cam k).frameTaken (frameStatus r f) rest).Counted := by
      unfold CamSt.Counted
      rw [delivery, dropCount]
      exact counted
    rw [counts, counts_branchesDone (frameStatus r f) sward (s.branches k) (distinct_branches s k) mem counted', delivery,
      dropCount]

end Sys2Proof.Machine
end

section
/-! PROOF. What each camera command does (14 sections 14.2 to 14.6). -/

namespace Sys2Proof.Machine

set_option Elab.async false

variable {s t u : State} {ps qs : List Part} {k : Nat} {x y : CamSt} {r : Rec}

/-! ### Packets -/

/-- What a line packet does for its camera. -/
def State.lineTaken (dt : Byte) (crcOk overrun : Bool) (codes : List Nat) (k : Nat) (r : Rec) (t : State) : State :=
  match (t.cam k).frame with
  | some f =>
    if (t.cam k).resync || camDt r != dt.toNat then t.modCam k (CamSt.bump 6 1)
    else t.modCam k fun y => { y with frame := some (f.line r crcOk overrun codes) }
  | none => t.modCam k (CamSt.bump 6 1)

theorem exec_csiLinePacket (rx vc : Fin 4) (dt : Byte) (hdr : HeaderEcc) (crcOk overrun : Bool) {codes : List Nat}
    (small : allBelow 16 codes = true) : exec (.csiLinePacket rx vc dt hdr crcOk overrun codes) s =
      done s (s.onPacket rx vc hdr (State.lineTaken dt crcOk overrun codes)) :=
  checked_eq (c := .csiLinePacket rx vc dt hdr crcOk overrun codes) small

theorem lineTaken_kept {f : CamFrame} {dt : Byte} (crcOk overrun : Bool) (codes : List Nat) (frame : (s.cam k).frame = some f)
    (synced : (s.cam k).resync = false) (type : camDt r = dt.toNat) : s.lineTaken dt crcOk overrun codes k r =
      s.modCam k fun y => { y with frame := some (f.line r crcOk overrun codes) } := by
  unfold State.lineTaken
  rw [frame, synced, type]
  simp

theorem lineTaken_discarded {dt : Byte} (crcOk overrun : Bool) (codes : List Nat)
    (why : (s.cam k).frame = none ∨ (s.cam k).resync = true ∨ camDt r ≠ dt.toNat) :
    s.lineTaken dt crcOk overrun codes k r = s.modCam k (CamSt.bump 6 1) := by
  unfold State.lineTaken
  cases frame : (s.cam k).frame with
  | none => rfl
  | some f =>
    rw [frame] at why
    refine if_pos ?_
    rw [Bool.or_eq_true, bne_iff_ne]
    exact why.resolve_left (by simp)

/-- A line within the frame joins it, or leaves a bad line where its CRC fails. -/
theorem line_lines {f : CamFrame} (crcOk : Bool) (codes : List Nat) (room : f.lines.length < camHeight r) :
    ((f.line r crcOk false codes).lines, (f.line r crcOk false codes).bad) = if crcOk
      then (f.lines ++ [some ((linePixels r codes).take (camWidth r))], f.bad) else (f.lines ++ [none], f.bad + 1) := by
  unfold CamFrame.line
  dsimp only
  rw [if_neg (by omega), if_neg (by decide)]
  cases crcOk <;> rfl

/-- What a frame end does for its camera. -/
def State.frameEndTaken (k : Nat) (_ : Rec) (t : State) : State :=
  if (t.cam k).frame.isSome && !(t.cam k).resync then t.endFrame k 0 else t.modCam k (CamSt.bump 6 1)

/-- What a packet that carries no image does for its camera. -/
def State.otherTaken (dt : Byte) (k : Nat) (_ : Rec) (t : State) : State :=
  if (dt = 2 ∨ dt = 3) ∧ !(t.cam k).resync ∧ !t.isFenced (0x13 + k) then t else t.modCam k (CamSt.bump 6 1)

theorem exec_csiFrameEnd (rx vc : Fin 4) (hdr : HeaderEcc) : exec (.csiFrameEnd rx vc hdr) s =
    done s (s.onPacket rx vc hdr State.frameEndTaken) := rfl

theorem exec_csiPacketDiscard (rx vc : Fin 4) (dt : Byte) (hdr : HeaderEcc) : exec (.csiPacketDiscard rx vc dt hdr) s =
    done s (s.onPacket rx vc hdr (State.otherTaken dt)) := rfl

theorem exec_csiFrameStart (rx vc : Fin 4) (hdr : HeaderEcc) (fn : BitVec 16) : exec (.csiFrameStart rx vc hdr fn) s =
    done s (s.onPacket rx vc hdr fun k r t => t.frameStart k r fn) := rfl

/-! ### Accepted starts -/

/-- A start is accepted in FREE mode, and in TRIGGER mode when there is a new pulse. -/
def CamSt.Accepts (r : Rec) (x : CamSt) : Prop := r.u 0x10 1 = 1 → x.pulses ≠ x.pulsesAtFrame

theorem frameStart_accepted (accepts : (s.cam k).Accepts r) (fn : BitVec 16) : s.frameStart k r fn =
    if (s.startNoted k r).isFenced (0x13 + k) then (s.startNoted k r).modCam k CamSt.frameLost
    else (s.startNoted k r).frameOpened k ((s.cam k).newFrame r fn s.now ((s.startNoted k r).cam k).active) := by
  rw [frameStart_eq, if_neg]
  rw [Bool.and_eq_true, beq_iff_eq, beq_iff_eq]
  exact fun h => accepts h.1 h.2

theorem isFenced_startNoted (wf : Map.wf CamSt.init s.cams = true) (sensor : s.sensor k = some r) (b : Nat) :
    (s.startNoted k r).isFenced b = s.isFenced b := by
  obtain ⟨_, step, _⟩ := camStep_startNoted wf sensor
  exact isFenced_of_only step.only (by decide) b

/-- A start whose ISP works opens a frame. -/
theorem camStep_frameStart (wf : Map.wf CamSt.init s.cams = true) (sensor : s.sensor k = some r) (accepts : (s.cam k).Accepts r)
    (works : s.isFenced (0x13 + k) = false) (fn : BitVec 16) :
    ∃ y bundle, CamStep (.cams :: memParts) k y s (s.frameStart k r fn) ∧ y.efn = (s.cam k).nextEfn r ∧ y.lastStart = s.now ∧
      y.pulsesAtFrame = (s.cam k).pulses ∧ y.resync = false ∧ y.frame = some ((s.cam k).newFrame r fn s.now bundle) := by
  obtain ⟨y, step, efn, last, pulses, _⟩ := camStep_startNoted wf sensor
  rw [frameStart_accepted accepts, isFenced_startNoted wf sensor, works]
  exact ⟨_, _, (step.mono (by decide)).frameOpened _, efn, last, pulses, rfl, rfl⟩

/-- A start whose ISP is fenced opens no frame. -/
theorem camStep_frameStart_fenced (wf : Map.wf CamSt.init s.cams = true) (sensor : s.sensor k = some r)
    (accepts : (s.cam k).Accepts r) (fenced : s.isFenced (0x13 + k) = true) (fn : BitVec 16) :
    ∃ y, CamStep (.cams :: memParts) k y s (s.frameStart k r fn) ∧ y.efn = (s.cam k).nextEfn r ∧ y.lastStart = s.now ∧
      y.resync = true ∧ y.frame = none := by
  obtain ⟨y, step, efn, last, _, frame⟩ := camStep_startNoted wf sensor
  rw [frameStart_accepted accepts, isFenced_startNoted wf sensor, fenced]
  exact ⟨_, (step.modCam CamSt.frameLost).mono (by decide), efn, last, rfl, frame⟩

theorem nextEfn_free (free : r.u 0x10 1 ≠ 1) : x.nextEfn r = x.efn + 1 := if_neg (by simpa using free)

theorem nextEfn_trigger (trigger : r.u 0x10 1 = 1) : x.nextEfn r = BitVec.ofNat 32 x.pulses := if_pos (by simpa using trigger)

/-! ### Timing -/

/-- A level reaches CAM_TRIG, and goes out when it changes the pin, once the outputs are up. -/
theorem camStep_trigLevel (h : CamStep [.cams] k y s t) (level : Bool) :
    ∃ z, CamStep [.cams, .out] k z s (t.trigLevel k level) ∧
      z = { y with trigPin := if s.outputsUp then level else y.trigPin } ∧
      (t.trigLevel k level).out = s.out ++ (if s.outputsUp = true ∧ y.trigPin ≠ level then [.trig k level] else []) := by
  have up : t.outputsUp = s.outputsUp := h.only.2 .outputsUp (by decide)
  have out : t.out = s.out := h.only.2 .out (by decide)
  unfold State.trigLevel
  rw [up, h.cam]
  cases s.outputsUp with
  | false => exact ⟨y, h.mono (by decide), rfl, by simpa using out⟩
  | true =>
    by_cases same : y.trigPin = level
    · subst same
      rw [if_neg (by simp)]
      exact ⟨y, h.mono (by decide), rfl, by simpa using out⟩
    · rw [if_pos (by simpa using same)]
      refine ⟨_, ((h.mono (by decide)).modCam fun y => { y with trigPin := level }).beside (Only.emit _ _), rfl, ?_⟩
      rw [if_pos ⟨rfl, same⟩, ← out]
      rfl

/-- A camera whose pulse has risen. -/
def CamSt.pulsed (p period : Nat) (x : CamSt) : CamSt :=
  { x with pulses := x.pulses + 1, trig := true, trigFall := p + x.exposureNow, nextPulse := some (p + period),
           pulseExp := Map.set 0 (x.pulseExp.filter fun e => decide (x.pulses + 1 ≤ e.1 + 8)) (x.pulses + 1) x.exposureNow,
           lossArmed := true, lastStart := if x.lossArmed then x.lastStart else p }

theorem exec_triggerPulse {k : Fin 4} {p : Nat} (live : s.camerasLive = true) (sensor : s.sensor k = some r)
    (trigger : r.u 0x10 1 = 1) (next : (s.cam k).nextPulse = some p) (undecided : (s.cam k).decided = none) :
    exec (.triggerPulse k) s = done s (if s.now < p then s else
      (s.modCam k fun _ => (s.cam k).pulsed p (r.u 0x14 4)).trigLevel k (r.u 0x11 1 == 0)) := by
  change execTriggerPulse k s = _
  unfold execTriggerPulse
  simp only [next, sensor, live, trigger, undecided, Bool.not_true, Bool.false_or, bne_self_eq_false, decide_eq_true_eq]
  unfold CamSt.pulsed
  rw [undecided]

theorem exec_triggerPulse_early {k : Fin 4} {p : Nat} (live : s.camerasLive = true) (sensor : s.sensor k = some r)
    (trigger : r.u 0x10 1 = 1) (next : (s.cam k).nextPulse = some p) (early : s.now < p) :
    exec (.triggerPulse k) s = .next s := by
  change execTriggerPulse k s = _
  unfold execTriggerPulse
  simp only [next, sensor, live, trigger, early, Bool.not_true, Bool.false_or, bne_self_eq_false, decide_true, if_pos]
  rfl

/-- CAM_TRIG follows a level where the outputs are up, and nothing else happens to it. -/
theorem driven_trigLevel {z : CamSt} {level : Bool} (up : (z.trigPin = if s.outputsUp then level else x.trigPin))
    (out : t.out = s.out ++ (if s.outputsUp = true ∧ x.trigPin ≠ level then [.trig k level] else [])) :
    (s.outputsUp = true → z.trigPin = level ∧ t.out = s.out ++ (if x.trigPin = level then [] else [.trig k level])) ∧
      (s.outputsUp = false → z.trigPin = x.trigPin ∧ t.out = s.out) := by
  rw [up, out]
  refine ⟨fun h => ?_, fun h => ?_⟩
  · rw [h]
    by_cases same : x.trigPin = level <;> simp [same]
  · rw [h]
    simp

theorem exec_frameEndTimeout {k : Fin 4} {f : CamFrame} (live : s.camerasLive = true) (sensor : s.sensor k = some r)
    (frame : (s.cam k).frame = some f) : exec (.frameEndTimeout k) s = done s (
      if f.stamp + (if r.u 0x10 1 = 1 then r.u 0x14 4 else r.u 0x28 4) ≤ s.now then s.endFrame k 16 else s) := by
  change execFrameEndTimeout k s = _
  unfold execFrameEndTimeout
  simp only [frame, sensor, live, Bool.true_and, decide_eq_true_eq]

theorem exec_triggerPulseEnd {k : Fin 4} (live : s.camerasLive = true) (sensor : s.sensor k = some r) :
    exec (.triggerPulseEnd k) s = done s (if (s.cam k).trig = true ∧ (s.cam k).trigFall ≤ s.now then
      (s.modCam k fun y => { y with trig := false }).trigLevel k (r.u 0x11 1 != 0) else s) := by
  change execTriggerPulseEnd k s = _
  unfold execTriggerPulseEnd
  simp only [sensor, live, Bool.true_and, Bool.and_eq_true, decide_eq_true_eq, Option.any_some]

/-- A camera whose loss has been posted. -/
def CamSt.lossPosted (x : CamSt) : CamSt := { x with lostPosted := true }

theorem exec_camLost {k : Fin 4} (live : s.camerasLive = true) (sensor : s.sensor k = some r) :
    exec (.camLost k) s = done s (if ((s.cam k).lossArmed = true ∧ (s.cam k).lostPosted = false) ∧
      (s.cam k).lastStart + r.u 0x28 4 ≤ s.now then (s.modCam k CamSt.lossPosted).post 0x0803 k none else s) := by
  change execCamLost k s = _
  unfold execCamLost
  simp only [sensor, live, Bool.true_and, Bool.and_eq_true, decide_eq_true_eq, Bool.not_eq_eq_eq_not, Bool.not_true]
  rfl

/-- The flag of a frame that no frame end closed (14 Table 14.8). -/
theorem flag_closed (f : CamFrame) (r : Rec) (now : Nat) : (f.closed r 16 now).flags.getLsbD 4 = true := by
  unfold CamFrame.closed
  dsimp only
  split <;> simp

end Sys2Proof.Machine

open Sys2Proof Sys2Proof.Machine

/-- Settles O48: a packet acts on the one camera of its channel, and the timing unit's commands follow its instants. -/
theorem cameraCommandsAct : Obligations.CameraCommandsAct := by
  unfold Obligations.CameraCommandsAct
  refine ⟨fun rx vc k s r canonical live one sensor => ?_, fun k s r canonical live sensor => ?_⟩
  · have wf := (canonical_iff.1 canonical).cams
    have dropped (f : Nat → Rec → State → State) : done s (s.onPacket rx vc .uncorrectable f) = .next (s.modCam k (CamSt.bump 6 1)) :=
      congrArg (done s) (onPacket_uncorrectable live one f)
    have packet (f : Nat → Rec → State → State) : done s (s.onPacket rx vc .ok f) = done s (f k r s) :=
      congrArg (done s) (onPacket_one live one sensor f)
    refine ⟨fun fn dt crcOk overrun codes small c mem => ?_, fun fn free works => ?_, fun fn trigger new works => ?_,
      fun fn free fenced => ?_, fun fn trigger old => ?_, fun dt crcOk codes f small frame synced type room => ?_,
      fun dt crcOk overrun codes small why => ?_, fun f frame synced => ?_, fun dt => ?_⟩
    · simp only [List.mem_cons, List.not_mem_nil, or_false] at mem
      rcases mem with rfl | rfl | rfl | rfl
      · exact dropped _
      · exact (exec_csiLinePacket rx vc dt _ crcOk overrun small).trans (dropped _)
      · exact dropped _
      · exact dropped _
    · obtain ⟨y, bundle, step, efn, last, _, synced, frame⟩ :=
        camStep_frameStart (k := k) wf sensor (fun trigger => absurd trigger free) works fn
      rw [exec_csiFrameStart, packet]
      refine goes_done step.only ?_
      rw [step.cam]
      rw [nextEfn_free free] at efn
      exact ⟨efn, last, synced, ⟨_, frame, rfl, rfl, nextEfn_free free, rfl, rfl⟩, step.only⟩
    · obtain ⟨y, bundle, step, efn, last, pulses, synced, frame⟩ := camStep_frameStart (k := k) wf sensor (fun _ => new) works fn
      rw [exec_csiFrameStart, packet]
      refine goes_done step.only ?_
      rw [step.cam]
      rw [nextEfn_trigger trigger] at efn
      exact ⟨efn, pulses, last, synced, ⟨_, frame, rfl, rfl, nextEfn_trigger trigger, if_pos (by simpa using trigger), rfl, rfl⟩,
        step.only⟩
    · obtain ⟨y, step, efn, last, resync, frame⟩ :=
        camStep_frameStart_fenced (k := k) wf sensor (fun trigger => absurd trigger free) fenced fn
      rw [exec_csiFrameStart, packet]
      refine goes_done step.only ?_
      rw [step.cam]
      rw [nextEfn_free free] at efn
      exact ⟨efn, frame, resync, last, step.only⟩
    · rw [exec_csiFrameStart, packet, frameStart_eq, if_pos (by simp [trigger, old])]
      rfl
    · rw [exec_csiLinePacket _ _ _ _ _ _ small, packet, lineTaken_kept crcOk false codes frame synced type]
      have step := (CamStep.refl (ps := [.cams]) (k := k) wf).modCam fun y => { y with frame := some (f.line r crcOk false codes) }
      refine goes_done step.only ⟨step.only, ?_⟩
      rw [step.cam]
      exact congrArg some (line_lines crcOk codes room)
    · rw [exec_csiLinePacket _ _ _ _ _ _ small, packet, lineTaken_discarded crcOk overrun codes why]
      rfl
    · obtain ⟨y, step, none, ended⟩ := camStep_endFrame wf 0 frame sensor
      rw [exec_csiFrameEnd, packet, State.frameEndTaken, if_pos (by rw [frame, synced]; rfl)]
      refine goes_done step.only ?_
      rw [step.cam]
      exact ⟨none, ⟨_, ended, rfl, rfl⟩, step.only⟩
    · rw [exec_csiPacketDiscard, packet]
      simp only [State.otherTaken, Bool.not_eq_eq_eq_not, Bool.not_true]
      split <;> rfl
  · have wf := (canonical_iff.1 canonical).cams
    have self := CamStep.refl (ps := [.cams]) (k := k) wf
    refine ⟨fun f frame => ⟨fun due => ?_, fun early => ?_⟩, fun f rest ended => ⟨fun fenced => ?_, fun isp sward wfd wfc => ?_⟩,
      fun p trigger next => ⟨fun early => ?_, fun due undecided => ?_⟩, fun high due => ?_, fun armed fresh due => ?_,
      fun why => ?_⟩
    · obtain ⟨y, step, none, ended⟩ := camStep_endFrame wf 16 frame sensor
      rw [exec_frameEndTimeout live sensor frame, if_pos due]
      refine goes_done step.only ?_
      rw [step.cam]
      exact ⟨none, ⟨_, ended, rfl, flag_closed f r s.now⟩, step.only⟩
    · rw [exec_frameEndTimeout live sensor frame, if_neg (by omega)]
      rfl
    · rw [exec_frameRecordWrite ended sensor live, if_pos fenced]
      rfl
    · obtain ⟨z, step, left, counts⟩ := camStep_frameFinished (r := r) wf f rest ⟨wfd, wfc⟩
      rw [exec_frameRecordWrite ended sensor live, if_neg (by simp [isp, sward])]
      refine goes_done step.only ?_
      rw [step.cam]
      refine ⟨left, step.only, fun b mem out => ?_⟩
      have both := counts b mem out
      unfold CamSt.counts at both
      dsimp only
      split at both
      case isTrue lost =>
        rw [if_pos lost]
        exact Prod.mk.inj both
      case isFalse sent =>
        rw [if_neg sent]
        exact Prod.mk.inj both
    · exact exec_triggerPulse_early live sensor trigger next early
    · obtain ⟨z, step, pin, out⟩ := camStep_trigLevel
        (self.modCam fun _ => (s.cam k).pulsed p (r.u 0x14 4)) (r.u 0x11 1 == 0)
      rw [exec_triggerPulse live sensor trigger next undecided, if_neg (by omega)]
      refine goes_done step.only ?_
      dsimp only
      rw [step.cam]
      have driven := driven_trigLevel (x := s.cam k) (z := z) (by rw [pin]; rfl) out
      rw [pin] at driven ⊢
      exact ⟨rfl, rfl, rfl, rfl, driven, step.only⟩
    · obtain ⟨z, step, pin, out⟩ := camStep_trigLevel (self.modCam fun y => { y with trig := false }) (r.u 0x11 1 != 0)
      rw [exec_triggerPulseEnd live sensor, if_pos ⟨high, due⟩]
      refine goes_done step.only ?_
      dsimp only
      rw [step.cam]
      have driven := driven_trigLevel (x := s.cam k) (z := z) (by rw [pin]) out
      rw [pin] at driven ⊢
      exact ⟨rfl, rfl, rfl, driven, step.only⟩
    · have step := (self.mono (qs := [.cams, .events, .irq, .out]) (by decide)).modCam CamSt.lossPosted
      have posted := step.beside (Only.quietPost (code := 0x0803) rfl k.val none (s.modCam k CamSt.lossPosted))
      rw [exec_camLost live sensor, if_pos ⟨⟨armed, fresh⟩, due⟩]
      refine goes_done posted.only ?_
      rw [posted.cam]
      exact ⟨rfl, ⟨_, rfl⟩, posted.only⟩
    · rw [exec_camLost live sensor, if_neg]
      · rfl
      · rintro ⟨⟨armed, fresh⟩, due⟩
        rcases why with h | h | h
        · rw [h] at armed
          cases armed
        · rw [h] at fresh
          cases fresh
        · omega

end

section
/-! PROOF. What the Attention Engines' operators leave alone (12 R246 to R260). -/

namespace Sys2Proof.Machine

set_option Elab.async false

variable {s t u : State} {ps qs : List Part} {p q r : Pool} {k : RunCtx} {w : Waybill} {c : CtxInfo}

/-! ### Frames -/

theorem Only.freeWrite (ctx a n : Nat) (s : State) : Only memParts s (s.freeWrite ctx a n) :=
  ((Only.draw s).mono (by decide)).trans (Only.writeMem _ _ _ _ _ _)

theorem Only.freeLines (ctx a n : Nat) (s : State) : Only memParts s (s.freeLines ctx a n) :=
  Only.foldl _ (fun t _ => Only.freeWrite _ _ _ t) _ s

/-- A pool's change beside its registration writes memory only. -/
theorem Only.changePool (ctx : Nat) (p q : Pool) (s : State) : Only memParts (s.setPool q) (s.changePool ctx p q) := by
  unfold State.changePool
  exact Only.thenFoldl (Only.foldl _ (fun t i => (Only.freeWrite _ _ _ t).trans (Only.freeWrite _ _ _ _)) _ _)
    (fun t i => Only.freeLines _ _ _ t) _

theorem Only.setPool (p : Pool) (s : State) : Only [.pools] s (s.setPool p) := Only.ofPools s _

theorem Only.examine (k : RunCtx) (code : Nat) (p : Pool) (parent : Option Nat) (ids : List (BitVec 32)) (l : List Nat) :
    ∀ x : Run × State, Only memParts x.2 (State.examine k code p parent ids l x).2.2.2 := by
  induction l with
  | nil => exact fun x => Only.refl _ x.2
  | cons i l ih =>
    intro x
    have read := Only.runStep k false ({}, x.2) ⟨[p.idReq code i 64], []⟩
    unfold State.examine
    dsimp only
    split
    · exact read
    · exact read.trans (ih _)

theorem Only.lookupFrom (k : RunCtx) (code : Nat) (o : Opnd) (n : Nat) : ∀ (i : Nat) (l : Lookup) (s : State),
    Only memParts s (State.lookupFrom k code o n i l s).2 := by
  induction n with
  | zero => exact fun _ _ s => Only.refl _ s
  | succ n ih =>
    intro i l s
    have seen (ids : List (BitVec 32)) (parent : Option Nat) (ns : List Nat) :=
      (Only.runStep k false (l.run, s) ⟨[o.elemReq 0 i 64], []⟩).trans (Only.examine k code l.pool parent ids ns _)
    unfold State.lookupFrom
    split
    · exact Only.refl _ s
    · dsimp only
      split
      · exact seen _ _ _
      · exact (seen _ _ _).trans (ih _ _ _)

theorem Only.appendTokens (k : RunCtx) (code : Nat) (p : Pool) (blocks : List Nat) (lat ids : Opnd) (start : Nat)
    (l : List Nat) : ∀ x : Run × State, Only memParts x.2 (State.appendTokens k code p blocks lat ids start l x).2 := by
  induction l with
  | nil => exact fun x => Only.refl _ x.2
  | cons i l ih => exact fun x => (Only.runStep k false x _).trans (ih _)

/-! ### The pools of the state -/

theorem ctx_of_only (h : Only ps s t) (n : Nat) (fw : Part.fw ∉ ps := by decide) : t.ctx n = s.ctx n := by
  have same : t.fw = s.fw := h.2 .fw fw
  unfold State.ctx State.ctxs State.recs
  rw [same]

theorem poolOf_of_only (h : Only ps s t) (n : Nat) (fw : Part.fw ∉ ps := by decide) (pools : Part.pools ∉ ps := by decide) :
    t.poolOf n = s.poolOf n := by
  have same : t.pools = s.pools := h.2 .pools pools
  unfold State.poolOf
  rw [same, ctx_of_only h n fw]

/-- The pool of a context that has been replaced. -/
theorem poolOf_setPool {n : Nat} (registered : s.poolOf n = some p) (key : q.key = p.key) : (s.setPool q).poolOf n = some q := by
  have ctx : (s.setPool q).ctx n = s.ctx n := ctx_of_only (Only.setPool q s) n
  unfold State.poolOf at registered ⊢
  rw [ctx]
  cases found : s.ctx n with
  | none => rw [found] at registered; cases registered
  | some i =>
    rw [found] at registered
    replace registered : s.pools.find? (·.key == poolKey i) = some p := registered
    have own : p.key = poolKey i := by simpa using List.find?_some registered
    have keys : ((fun x : Pool => x.key == poolKey i) ∘ fun x : Pool => if x.key = q.key then q else x) = (·.key == poolKey i) := by
      funext x
      dsimp only [Function.comp_apply]
      split
      · next same => rw [same]
      · rfl
    change (s.pools.map fun x => if x.key = q.key then q else x).find? _ = some q
    rw [List.find?_map, keys, registered, Option.map_some, if_pos key.symm]

/-- The pool of a context whose change has been written. -/
theorem poolOf_changePool {n : Nat} (ctx : Nat) (registered : s.poolOf n = some p) (key : q.key = p.key) :
    (s.changePool ctx p q).poolOf n = some q :=
  (poolOf_of_only (Only.changePool ctx p q s) n).trans (poolOf_setPool registered key)

/-! ### What keeps a pool's name and sequences -/

/-- Two pools of one registration whose sequences are the same. -/
def Pool.Alike (p q : Pool) : Prop := q.key = p.key ∧ q.seq = p.seq

theorem Pool.Alike.refl (p : Pool) : p.Alike p := ⟨rfl, rfl⟩

theorem Pool.Alike.trans (h : p.Alike q) (k : q.Alike r) : p.Alike r := ⟨k.1.trans h.1, k.2.trans h.2⟩

theorem Pool.alike_setBlock (p : Pool) (i : Nat) (b : PoolBlock) : p.Alike (p.setBlock i b) := ⟨rfl, rfl⟩

theorem Pool.alike_drops (l : List Nat) : ∀ p : Pool, p.Alike (l.foldl Pool.drop p) := by
  induction l with
  | nil => exact Pool.Alike.refl
  | cons i l ih => exact fun p => (p.alike_setBlock i _).trans (ih _)

theorem Pool.alike_takeBlock {i : Nat} (taken : p.takeBlock = some (i, q)) : p.Alike q := by
  unfold Pool.takeBlock at taken
  dsimp only at taken
  obtain ⟨j, _, made⟩ := Option.map_eq_some_iff.1 taken
  obtain ⟨rfl, rfl⟩ := Prod.mk.inj made
  exact p.alike_setBlock j _

theorem Pool.alike_takeBlocks (n : Nat) : ∀ {p q : Pool} {l : List Nat}, p.takeBlocks n = some (l, q) → p.Alike q := by
  induction n with
  | zero =>
    intro p q l taken
    obtain ⟨_, rfl⟩ := Prod.mk.inj (Option.some.inj taken)
    exact Pool.Alike.refl p
  | succ n ih =>
    intro p q l taken
    simp only [Pool.takeBlocks, Option.bind_eq_bind, Option.bind_eq_some_iff, Option.pure_def, Option.some.injEq] at taken
    obtain ⟨⟨i, p1⟩, first, ⟨rest, p2⟩, others, made⟩ := taken
    obtain ⟨_, rfl⟩ := Prod.mk.inj made
    exact (Pool.alike_takeBlock first).trans (ih others)

theorem insertBlocks_spec (k : RunCtx) (code now start : Nat) (blocks : List Nat) (n : Nat) : ∀ (i : Nat) (p : Pool) (x : Run × State),
    Only memParts x.2 (State.insertBlocks k code now start blocks n i p x).2.2 ∧
      p.Alike (State.insertBlocks k code now start blocks n i p x).1 := by
  induction n with
  | zero => exact fun _ p x => ⟨Only.refl _ x.2, Pool.Alike.refl p⟩
  | succ n ih =>
    intro i p x
    have seen (b : Bool) (parent : Option Nat) (ids : List (BitVec 32)) (l : List Nat) (y : Run × State) :
        Only memParts y.2 (if b then State.examine k code p parent ids l y else (none, 0, y)).2.2.2 := by
      split
      · exact Only.examine _ _ _ _ _ _ y
      · exact Only.refl _ y.2
    have read (i : Nat) := Only.runStep k false x ⟨[p.idReq code (blocks.getD i 0) (start - 64 * i)], []⟩
    have onward (z : Option Nat × Nat × Run × State) (b : PoolBlock) (hz : Only memParts x.2 z.2.2.2) :
        let y := if z.2.2.1.clean && z.1.isNone then
            State.insertBlocks k code now start blocks n (i + 1) (p.setBlock (blocks.getD i 0) b) z.2.2
          else (p, z.2.2)
        Only memParts x.2 y.2.2 ∧ p.Alike y.1 := by
      dsimp only
      split
      · obtain ⟨only, alike⟩ := ih (i + 1) (p.setBlock (blocks.getD i 0) b) z.2.2
        exact ⟨hz.trans only, (p.alike_setBlock _ b).trans alike⟩
      · exact ⟨hz, Pool.Alike.refl p⟩
    unfold State.insertBlocks
    dsimp only
    generalize (if i = 0 then none else some (blocks.getD (i - 1) 0)) = parent
    split
    · exact ⟨Only.refl _ x.2, Pool.Alike.refl p⟩
    · exact onward _ _ ((read i).trans (seen _ _ _ _ _))

/-- A lookup goes on: its pool keeps its name and sequences, and its sequence has grown at its end. -/
structure Lookup.Grown (a b : Lookup) : Prop where
  alike : a.pool.Alike b.pool
  tokens : a.seq.tokens ≤ b.seq.tokens
  blocks : a.seq.blocks <+: b.seq.blocks

theorem grown_lookupFrom (k : RunCtx) (code : Nat) (o : Opnd) (n : Nat) : ∀ (i : Nat) (l : Lookup) (s : State),
    l.Grown (State.lookupFrom k code o n i l s).1 := by
  have same (l : Lookup) (f : Lookup) (pool : f.pool = l.pool) (seq : f.seq = l.seq) : l.Grown f :=
    ⟨pool ▸ Pool.Alike.refl _, seq ▸ Nat.le_refl _, seq ▸ List.prefix_refl _⟩
  induction n with
  | zero => exact fun _ l _ => same l l rfl rfl
  | succ n ih =>
    intro i l s
    unfold State.lookupFrom
    split
    · exact same l l rfl rfl
    · dsimp only
      split
      · exact same l _ rfl rfl
      · next j hit =>
        obtain ⟨alike, tokens, blocks⟩ := ih (i + 64) _ _
        exact ⟨(l.pool.alike_setBlock j _).trans alike, (Nat.le_add_right _ 64).trans tokens,
          (List.prefix_append _ [j]).trans blocks⟩

/-! ### Sequences and blocks -/

theorem Pool.seqOf_setSeq (wf : Map.wf PoolSeq.init p.seq = true) (c n : Nat) (x : PoolSeq) : (p.setSeq c n x).seqOf c n = x :=
  (Map.get_set PoolSeq.init _ _ _ _ wf).trans (if_pos rfl)

/-- The blocks of a pool after those of a list, each named once, have been dropped. -/
theorem Pool.block_drops (l : List Nat) : ∀ {p : Pool}, Map.wf PoolBlock.init p.blk = true → l.Nodup → ∀ i,
    (l.foldl Pool.drop p).block i = if i ∈ l then
      (if (p.block i).tree then { p.block i with refs := (p.block i).refs - 1 } else PoolBlock.init) else p.block i := by
  induction l with
  | nil => exact fun _ _ i => by simp
  | cons j l ih =>
    intro p wf nodup i
    obtain ⟨fresh, nodup⟩ := List.nodup_cons.1 nodup
    have dropped (i : Nat) : (p.drop j).block i = if i = j then
        (if (p.block j).tree then { p.block j with refs := (p.block j).refs - 1 } else PoolBlock.init) else p.block i :=
      Map.get_set PoolBlock.init _ _ _ _ wf
    refine (ih (Map.wf_set _ _ _ _ wf) nodup i).trans ?_
    rw [dropped]
    by_cases here : i = j
    · subst here
      rw [if_neg fresh, if_pos rfl, if_pos List.mem_cons_self]
    · rw [if_neg here]
      simp [here]

end Sys2Proof.Machine
end

section
/-! PROOF. What the Attention Engines' operators do (12 R246 to R260). -/

namespace Sys2Proof.Machine

set_option Elab.async false

variable {s t u : State} {ps qs : List Part} {p q r : Pool} {w : Waybill} {c : CtxInfo} {k n : Nat}

/-! ### The counters that an access leaves alone -/

/-- A write below a key leaves what the key reads, whatever the form of the map. -/
theorem Map.get_set_below {α : Type} [DecidableEq α] (d : α) (m : Map α) {k j : Nat} (v : α) (below : k < j) :
    Map.get d (Map.set d m k v) j = Map.get d m j := by
  have apart : k ≠ j := by omega
  have after : ¬ j < k := by omega
  induction m with
  | nil =>
    unfold Map.set
    split
    · rfl
    · simp [Map.get, apart, after]
  | cons e m ih =>
    obtain ⟨k', v'⟩ := e
    unfold Map.set
    split
    · split
      · rfl
      · simp [Map.get, apart, after]
    · split
      · next same =>
        subst same
        split <;> simp [Map.get, apart, after]
      · simp [Map.get, ih]

/-- The counters from key `n` on read as before. -/
def SameCounts (n : Nat) (s t : State) : Prop := ∀ j, n ≤ j → Map.get 0 t.counters j = Map.get 0 s.counters j

theorem SameCounts.refl (n : Nat) (s : State) : SameCounts n s s := fun _ _ => rfl

theorem SameCounts.trans (h : SameCounts n s t) (g : SameCounts n t u) : SameCounts n s u :=
  fun j from_ => (g j from_).trans (h j from_)

theorem sameCounts_of_only (h : Only ps s t) (counters : Part.counters ∉ ps := by decide) : SameCounts n s t :=
  fun j _ => congrArg (Map.get 0 · j) (h.2 .counters counters)

theorem sameCounts_count {c i m : Nat} (below : c * 32 + i < n) (s : State) : SameCounts n s (s.count c i m) := by
  unfold State.count
  split
  · exact SameCounts.refl n s
  · exact fun j from_ => Map.get_set_below 0 _ _ (by omega)

/-- What an access to a memory may change beside the counters. -/
def uncounted : List Part := [.mem, .free, .records, .events, .irq, .out]

theorem Only.uncounted_memUe (m : Mem) (a : Nat) (s : State) : Only uncounted s (s.memUe m a) := by
  have first : Only uncounted s (if m = .lp then { s with mem := { s.mem with lpUe := add64 s.mem.lpUe 1 } }
      else { s with mem := { s.mem with swUe := add64 s.mem.swUe 1 } }) :=
    Only.ite (fun _ => (Only.ofMem s _).mono (by decide)) fun _ => (Only.ofMem s _).mono (by decide)
  unfold State.memUe
  refine Only.ite (fun _ => ?_) fun _ => ?_
  · exact ((Only.draw s).mono (by decide)).trans ((Only.post _ _ _ _).mono (by decide))
  · exact first.trans (((Only.record _ _ _ _ _).mono (by decide)).trans ((Only.post _ _ _ _).mono (by decide)))

theorem Only.uncounted_cleanRange (m : Mem) (a n : Nat) (s : State) : Only uncounted s (s.cleanRange m a n) :=
  ((Only.setSpace m _ s).mono (by decide)).trans
    (Only.foldl _ (fun t (h : Nat × Nat) => (Only.reMark m h.1 false t).mono (by decide)) _ _)

theorem Only.uncounted_zeroDone (s : State) : Only uncounted s s.zeroDone := by
  unfold State.zeroDone
  exact Only.ite (fun _ => ((Only.ofMem _ _).mono (by decide)).trans ((Only.post _ _ _ _).mono (by decide)))
    fun _ => Only.refl _ _

theorem Only.uncounted_zeroGranule (g : Nat) (s : State) : Only uncounted s (s.zeroGranule g) := by
  have zeroed : Only uncounted s (s.zeroRange .lp (g * granule) granule) :=
    ((Only.setSpace .lp _ s).mono (by decide)).trans (Only.uncounted_cleanRange _ _ _ _)
  exact (zeroed.trans ((Only.ofMem _ _).mono (by decide))).trans (Only.uncounted_zeroDone _)

theorem Only.uncounted_touchSpans (c : CtxInfo) (w : Waybill) (s : State) : Only uncounted s (s.touchSpans c w) :=
  Only.foldl _ (fun t _ => Only.ite (fun _ => Only.foldl _ (fun u g => Only.uncounted_zeroGranule g u) _ t)
    fun _ => Only.refl _ t) _ s

theorem Only.uncounted_touch (m : Mem) (a n : Nat) (s : State) : Only uncounted s (s.touch m a n) := by
  unfold State.touch
  exact Only.ite (fun _ => Only.refl _ s) fun _ => Only.foldl _ (fun t g => Only.uncounted_zeroGranule g t) _ _

section
variable {who : Nat} (below : who * 32 + 22 < n)
include below

theorem sameCounts_memCorr (m : Mem) (a : Nat) (s : State) : SameCounts n s (s.memCorr m (some who) a) := by
  have first : Only [.mem] s (if m = .lp then { s with mem := { s.mem with lpCorr := add64 s.mem.lpCorr 1 } }
      else { s with mem := { s.mem with swCorr := add64 s.mem.swCorr 1 } }) :=
    Only.ite (fun _ => Only.ofMem s _) fun _ => Only.ofMem s _
  unfold State.memCorr
  split
  · exact sameCounts_of_only (Only.ofMem s _)
  · exact (sameCounts_of_only first).trans (sameCounts_count below _)

theorem sameCounts_partialWord (m : Mem) (b : Bool) (a : Nat) (s : State) :
    SameCounts n s (s.partialWord m (some who) b a).2 := by
  unfold State.partialWord
  split
  · dsimp only
    split
    · exact sameCounts_of_only (Only.reMark m a true s)
    · exact SameCounts.refl n s
  · exact (sameCounts_of_only (Only.reMark m a b s)).trans (sameCounts_memCorr below m _ _)
  · exact (sameCounts_of_only (Only.reMark m a true s)).trans (sameCounts_of_only (Only.uncounted_memUe m _ _))
  · exact SameCounts.refl n s

theorem sameCounts_writeMem (m : Mem) (b : Bool) (a : Nat) (bs : List Byte) (s : State) :
    SameCounts n s (s.writeMem m (some who) b a bs).2 := by
  have parts (l : List Nat) : ∀ x : Option Nat × State, SameCounts n x.2 (l.foldl (fun (acc : Option Nat × State) w =>
      (acc.1.or (if (acc.2.partialWord m (some who) b w).1 then some (w * 8) else none),
        (acc.2.partialWord m (some who) b w).2)) x).2 := by
    induction l with
    | nil => exact fun x => SameCounts.refl n x.2
    | cons a l ih => exact fun x => (sameCounts_partialWord below m b a x.2).trans (ih _)
  have cleaned (x : MemSpace) (t : State) : SameCounts n t ((t.setSpace m x).cleanRange m a bs.length) :=
    (sameCounts_of_only (Only.setSpace m x t)).trans (sameCounts_of_only (Only.uncounted_cleanRange m a _ _))
  have whole (x : MemSpace) := ((sameCounts_of_only (Only.uncounted_touch m a bs.length s)).trans
    (parts (partialWords a bs.length) (none, _))).trans (cleaned x _)
  unfold State.writeMem
  dsimp only
  split
  · exact (whole _).trans (sameCounts_of_only (Only.foldl _ (fun t w => Only.reMark m w true t) _ _))
  · exact whole _

theorem sameCounts_setTags (epoch a m : Nat) (s : State) : SameCounts n s (s.setTags (some who) epoch a m) := by
  have tags (l : List Nat) : ∀ t : State,
      SameCounts n t (l.foldl (fun t l => (t.writeMem .tag (some who) false l [BitVec.ofNat 8 epoch]).2) t) := by
    induction l with
    | nil => exact SameCounts.refl n
    | cons a l ih => exact fun t => (sameCounts_writeMem below _ _ _ _ t).trans (ih _)
  unfold State.setTags
  split
  · exact SameCounts.refl n s
  · exact tags _ s

end

/-- A write of a step counts below counter 23 of its context. -/
theorem sameCounts_runWrite {k : RunCtx} (below : k.ctx * 32 + 22 < n) (force : Bool) (p : Run × State) (wr : Wr) :
    SameCounts n p.2 (State.runWrite k force p wr).2 := by
  obtain ⟨x, s⟩ := p
  unfold State.runWrite
  dsimp only
  split
  · exact SameCounts.refl n s
  split
  · exact SameCounts.refl n s
  · exact ((sameCounts_of_only (Only.writeHost _ _ _ s)).trans (sameCounts_of_only (Only.hostReq _ _ _ _ _))).trans
      (sameCounts_count (by omega) _)
  · refine SameCounts.trans ?_ (sameCounts_count (by split <;> omega) _)
    have written := sameCounts_writeMem below wr.mem.mem (x.bad || x.hostBad || force) wr.addr wr.bytes s
    split
    · exact written.trans (sameCounts_setTags below _ _ _ _)
    · exact written

/-! ### Running on a pool -/

section
variable {e op : Nat}

theorem runAe_none (run : Runs e 2 op w c s) (none : (s.touchSpans c w).poolOf w.ctx = none)
    (f : CtxInfo → Waybill → Pool → State → State) : s.runAe e op f = (s.touchSpans c w).complete w 0x4402 0 {} := by
  unfold State.runAe
  rw [runOn_eq run, none]

theorem runAe_eq (run : Runs e 2 op w c s) (pool : (s.touchSpans c w).poolOf w.ctx = some p)
    (f : CtxInfo → Waybill → Pool → State → State) : s.runAe e op f = f c w p (s.touchSpans c w) := by
  unfold State.runAe
  rw [runOn_eq run, pool]

end

theorem goes_complete (status detail : Nat) (f : DoneFlags) (h : Only doneParts s t) :
    Goes (done s (t.complete w status detail f)) fun v => Ends w status detail t v ∧ Only doneParts s v := by
  have whole := h.trans (Only.complete w status detail f t)
  exact goes_done whole ⟨ends_complete _ _ _ _ _, whole⟩

theorem goes_finishAe (steps before : Nat) (x : Run) (h : Only doneParts s t) :
    Goes (done s (t.finishAe c w steps before x)) fun v =>
      Ends w (x.status none).1 (x.status none).2 (t.count c.ctx 14 steps) v ∧ Only doneParts s v :=
  goes_complete _ _ _ (h.trans ((Only.count _ _ _ _).mono (by decide)))

section
variable {e : Fin 19}

/-- A pool that POOL_INIT has left. -/
def Pool.emptied (p : Pool) : Pool := { p with ready := true, blk := [], seq := [] }

theorem exec_poolInit (run : Runs e 2 0x301 w c s) (pool : (s.touchSpans c w).poolOf w.ctx = some p) : ∃ (v : State) (b : Nat),
    exec (.poolInit e) s = done s (v.finishAe c w ((4096 + (s.touchSpans c w).memberCount c * p.seqs * (64 + 4 * p.maxb) +
      64 * p.nBlocks) / 64) b {}) ∧ v.poolOf w.ctx = some p.emptied ∧ Only doneParts s v := by
  have lines (a m a' m' : Nat) : Only memParts (s.touchSpans c w) (((s.touchSpans c w).freeLines c.ctx a m).freeLines c.ctx a' m') :=
    (Only.freeLines _ _ _ _).trans (Only.freeLines _ _ _ _)
  have steps (b n : Nat) : 4096 + b + n = 4096 + n + b := by omega
  rw [steps]
  refine ⟨_, (s.touchSpans c w).counter c.ctx 22, congrArg (done s) (runAe_eq run pool _), ?_, ?_⟩
  · refine (poolOf_of_only (Only.count _ _ _ _) w.ctx).trans ?_
    exact poolOf_setPool ((poolOf_of_only (lines _ _ _ _) _).trans pool) rfl
  · exact (((Only.touchSpans c w s).trans (lines _ _ _ _)).mono (by decide)).trans
      (((Only.setPool _ _).mono (by decide)).trans ((Only.count _ _ _ _).mono (by decide)))

theorem Only.changedPool (ctx : Nat) (p q : Pool) (s : State) : Only doneParts s (s.changePool ctx p q) :=
  ((Only.setPool q s).mono (by decide)).trans ((Only.changePool ctx p q s).mono (by decide))

theorem exec_seqReset (run : Runs e 2 0x302 w c s) (pool : (s.touchSpans c w).poolOf w.ctx = some p) : ∃ b : Nat,
    let blocks := (p.seqOf w.ctx (byteAt w.bytes 52)).blocks
    exec (.seqReset e) s = done s (((s.touchSpans c w).changePool c.ctx p
      ((blocks.foldl Pool.drop p).setSeq w.ctx (byteAt w.bytes 52) PoolSeq.init)).finishAe c w (max 1 blocks.length) b {}) :=
  ⟨_, congrArg (done s) (runAe_eq run pool _)⟩

/-! ### PREFIX_LOOKUP -/

/-- A sequence ends at a whole block of the tree. -/
def Pool.atNode (p : Pool) (q : PoolSeq) : Bool := q.tokens % 64 == 0 && q.blocks.getLast?.all fun i => (p.block i).tree

/-- What a lookup has found, and the state after it. -/
def State.looked (c : CtxInfo) (w : Waybill) (p : Pool) (s : State) : Lookup × State :=
  let q := p.seqOf w.ctx (byteAt w.bytes 52)
  let o := s.operand c w 0
  if p.atNode q then State.lookupFrom (runCtx c w) (4 + s.draw.1) o (o.dim 0 / 64) 0 { pool := p, seq := q } s.draw.2
  else ({ pool := p, seq := q }, s.draw.2)

/-- The pool after a lookup. -/
def Lookup.result (w : Waybill) (l : Lookup) : Pool := l.pool.setSeq w.ctx (byteAt w.bytes 52) l.seq

/-- The state once a lookup's pool and counts have been written. -/
def State.lookedUp (c : CtxInfo) (w : Waybill) (p : Pool) (l : Lookup) (s : State) : State :=
  ((s.changePool c.ctx p (l.result w)).count c.ctx 26 l.matched).count c.ctx 27 (b2n l.missed)

/-- The answer of a lookup has been written. -/
def State.lookupWritten (c : CtxInfo) (w : Waybill) (l : Lookup) (s : State) : Run × State :=
  State.runStep (runCtx c w) false (l.run, s)
    ⟨[], [(s.operand c w 1).rowWrite 0 0 (le 4 l.matched ++ le 4 l.seq.tokens ++ le 8 0)]⟩

theorem exec_prefixLookup (run : Runs e 2 0x303 w c s) (pool : (s.touchSpans c w).poolOf w.ctx = some p) : ∃ b : Nat,
    let l := (s.touchSpans c w).looked c w p
    let y := (l.2.lookedUp c w p l.1).lookupWritten c w l.1
    exec (.prefixLookup e) s = done s (y.2.finishAe c w (max 1 (4 * l.1.examined)) b y.1) := by
  refine ⟨(s.touchSpans c w).counter c.ctx 22, congrArg (done s) ((runAe_eq run pool _).trans ?_)⟩
  unfold State.lookupWritten State.lookedUp State.looked Pool.atNode
  cases last : (p.seqOf w.ctx (byteAt w.bytes 52)).blocks.getLast? with
  | none =>
    simp only [last, Option.all_none]
    rfl
  | some i =>
    simp only [last, Option.all_some]
    rfl

theorem looked_spec (c : CtxInfo) (w : Waybill) (p : Pool) (s : State) : Only memParts s (s.looked c w p).2 ∧
    ({ pool := p, seq := p.seqOf w.ctx (byteAt w.bytes 52) } : Lookup).Grown (s.looked c w p).1 := by
  have drawn : Only memParts s s.draw.2 := (Only.draw s).mono (by decide)
  unfold State.looked
  dsimp only
  split
  · exact ⟨drawn.trans (Only.lookupFrom _ _ _ _ _ _ _), grown_lookupFrom _ _ _ _ _ _ _⟩
  · exact ⟨drawn, ⟨Pool.Alike.refl p, Nat.le_refl _, List.prefix_refl _⟩⟩

theorem looked_open {q : PoolSeq} (seq : p.seqOf w.ctx (byteAt w.bytes 52) = q) (s : State)
    (open_ : q.tokens % 64 ≠ 0 ∨ ∃ i, q.blocks.getLast? = some i ∧ (p.block i).tree = false) :
    s.looked c w p = ({ pool := p, seq := q }, s.draw.2) := by
  have stays : ¬ p.atNode q = true := by
    unfold Pool.atNode
    rw [Bool.and_eq_true, beq_iff_eq]
    rintro ⟨whole, tree⟩
    rcases open_ with part | ⟨i, last, own⟩
    · exact part whole
    · rw [last, Option.all_some, own] at tree
      cases tree
  unfold State.looked
  dsimp only
  rw [seq, if_neg stays]

/-- Writing what is read leaves a canonical map. -/
theorem Map.set_get {α : Type} [DecidableEq α] {d : α} {m : Map α} (wf : Map.wf d m = true) (k : Nat) :
    Map.set d m k (Map.get d m k) = m := by
  induction m with
  | nil => simp [Map.set, Map.get]
  | cons e m ih =>
    obtain ⟨k', v'⟩ := e
    simp only [Map.wf, Bool.and_eq_true, List.all_cons, decide_eq_true_eq] at wf
    obtain ⟨rising, listed, others⟩ := wf
    unfold Map.set Map.get
    by_cases here : k' = k
    · subst here
      simp [listed]
    · by_cases before : k < k'
      · simp [here, before]
      · have rest : Map.wf d m = true := by
          simp only [Map.rising, Bool.and_eq_true] at rising
          simp only [Map.wf, Bool.and_eq_true]
          exact ⟨Map.rising_mono m (Nat.zero_le _) rising.2, by simpa using others⟩
        simp [here, before, ih rest, Ne.symm here]

theorem Pool.setSeq_self (wf : Map.wf PoolSeq.init p.seq = true) (c n : Nat) : p.setSeq c n (p.seqOf c n) = p :=
  congrArg (fun m : Map PoolSeq => { p with seq := m }) (Map.set_get wf _)

/-- A pool that has not changed is not written. -/
theorem changePool_self (ctx : Nat) (p : Pool) (s : State) : s.changePool ctx p p = s.setPool p := by
  unfold State.changePool
  simp

/-! ### KV_APPEND -/

/-- The tokens of an append are in their blocks. -/
def State.appended (c : CtxInfo) (w : Waybill) (p : Pool) (q : PoolSeq) (new : List Nat) (s : State) : Run × State :=
  State.appendTokens (runCtx c w) (4 + s.draw.1) p (q.blocks ++ new) (s.operand c w 0) (s.operand c w 1) q.tokens
    (List.range ((s.operand c w 1).dim 0)) ({}, s.draw.2)

/-- The blocks that an append has filled are in the tree where it asks for that. -/
def State.inserted (c : CtxInfo) (w : Waybill) (p : Pool) (q : PoolSeq) (new : List Nat) (s : State) : Pool × Run × State :=
  if (byteAt w.bytes 53).testBit 0 then
    State.insertBlocks (runCtx c w) (4 + s.draw.1) s.now q.tokens (q.blocks ++ new)
      ((q.tokens + (s.operand c w 1).dim 0) / 64 - q.tokens / 64) (q.tokens / 64) p (s.appended c w p q new)
  else (p, s.appended c w p q new)

theorem inserted_spec (c : CtxInfo) (w : Waybill) (p : Pool) (q : PoolSeq) (new : List Nat) (s : State) :
    Only memParts s (s.inserted c w p q new).2.2 ∧ p.Alike (s.inserted c w p q new).1 := by
  have put : Only memParts s (s.appended c w p q new).2 :=
    ((Only.draw s).mono (by decide)).trans (Only.appendTokens _ _ _ _ _ _ _ _ _)
  unfold State.inserted
  split
  · obtain ⟨only, alike⟩ := insertBlocks_spec (runCtx c w) (4 + s.draw.1) s.now q.tokens (q.blocks ++ new)
      ((q.tokens + (s.operand c w 1).dim 0) / 64 - q.tokens / 64) (q.tokens / 64) p (s.appended c w p q new)
    exact ⟨put.trans only, alike⟩
  · exact ⟨put, Pool.Alike.refl p⟩

/-- A sequence after an append. -/
def PoolSeq.extended (q : PoolSeq) (new : List Nat) (len : Nat) : PoolSeq := { blocks := q.blocks ++ new, tokens := q.tokens + len }

theorem exec_kvAppend (run : Runs e 2 0x304 w c s) (pool : (s.touchSpans c w).poolOf w.ctx = some p) : ∃ n b : Nat,
    let q := p.seqOf w.ctx (byteAt w.bytes 52)
    let len := ((s.touchSpans c w).operand c w 1).dim 0
    exec (.kvAppend e) s = done s (if 64 * p.maxb < q.tokens + len then (s.touchSpans c w).complete w 0x4602 0 {}
      else match p.takeBlocks ((q.tokens + len + 63) / 64 - q.blocks.length) with
      | none => (s.touchSpans c w).complete w 0x4601 0 {}
      | some (new, p1) =>
        let z := (s.touchSpans c w).inserted c w p1 q new
        (z.2.2.changePool c.ctx p (z.1.setSeq w.ctx (byteAt w.bytes 52) (q.extended new len))).finishAe c w n b z.2.1) :=
  ⟨(((s.touchSpans c w).operand c w 1).dim 0 * (p.layers * p.latentBytes + 4) + 63) / 64,
    (s.touchSpans c w).counter c.ctx 22, congrArg (done s) (runAe_eq run pool _)⟩

/-! ### ATTEND -/

theorem exec_attend (run : Runs e 2 0x305 w c s) (pool : (s.touchSpans c w).poolOf w.ctx = some p)
    (enough : ((s.touchSpans c w).attnShape c w).nk ≤ (p.seqOf w.ctx (byteAt w.bytes 52)).tokens) :
    ∃ (v : State) (b : Nat) (x : Run), exec (.attend e) s = done s (v.finishAe c w ((s.touchSpans c w).attnSteps
      ((s.touchSpans c w).attnShape c w) ((s.touchSpans c w).operand c w 2) p.dl) b x) ∧ Only memParts (s.touchSpans c w) v :=
  ⟨_, _, _, congrArg (done s) ((runAe_eq run pool _).trans (if_neg (Nat.not_lt.2 enough))),
    (((Only.draw _).mono (by decide)).trans (Only.runStep _ _ _ _)).trans
      ((Only.runSteps _ _ _ _ _).trans (Only.runSteps _ _ _ _ _))⟩

theorem count_zero (c i : Nat) (s : State) : s.count c i 0 = s := if_pos rfl

/-- A lookup's pool is the one registered once its answer has been written. -/
theorem poolOf_lookupWritten (registered : t.poolOf w.ctx = some p) {l : Lookup} (key : l.pool.key = p.key) :
    ((t.lookedUp c w p l).lookupWritten c w l).2.poolOf w.ctx = some (l.result w) := by
  have counted : Only [.counters] (t.changePool c.ctx p (l.result w)) (t.lookedUp c w p l) :=
    (Only.count _ _ _ _).trans (Only.count _ _ _ _)
  exact (poolOf_of_only (Only.runStep _ _ _ _) _).trans ((poolOf_of_only counted _).trans (poolOf_changePool c.ctx registered key))

theorem Only.lookupWritten (c : CtxInfo) (w : Waybill) (p : Pool) (l : Lookup) (s : State) :
    Only doneParts s ((s.lookedUp c w p l).lookupWritten c w l).2 :=
  ((Only.changedPool c.ctx p (l.result w) s).trans
    (((Only.count _ _ _ _).mono (by decide)).trans ((Only.count _ _ _ _).mono (by decide)))).trans
      ((Only.runStep _ _ _ _).mono (by decide))

/-- The step that writes a lookup's answer counts none of its own counters. -/
theorem sameCounts_lookupWritten (below : c.ctx * 32 + 22 < n) (l : Lookup) (s : State) : SameCounts n s (s.lookupWritten c w l).2 :=
  sameCounts_runWrite (k := runCtx c w) below false (l.run, s)
    ((s.operand c w 1).rowWrite 0 0 (le 4 l.matched ++ le 4 l.seq.tokens ++ le 8 0))

/-- The pool of a lookup that matches nothing is written as it was. -/
theorem lookedUp_open {l : Lookup} (wf : Map.wf PoolSeq.init p.seq = true) (pool : l.pool = p)
    (seq : l.seq = p.seqOf w.ctx (byteAt w.bytes 52)) (matched : l.matched = 0) (missed : l.missed = false) :
    l.result w = p ∧ s.lookedUp c w p l = s.setPool p := by
  have same : l.result w = p := by
    unfold Lookup.result
    rw [pool, seq, Pool.setSeq_self wf]
  refine ⟨same, ?_⟩
  unfold State.lookedUp
  rw [same, matched, missed, count_zero, changePool_self]
  exact count_zero _ _ _

end

section
variable {e : Fin 19} {q : PoolSeq}

theorem goes_poolInit (run : Runs e 2 0x301 w c s) (pool : (s.touchSpans c w).poolOf w.ctx = some p) :
    Goes (exec (.poolInit e) s) fun t => ∃ v : State, Ends w 0 0 (v.count c.ctx 14
      ((4096 + (s.touchSpans c w).memberCount c * p.seqs * (64 + 4 * p.maxb) + 64 * p.nBlocks) / 64)) t ∧
      v.poolOf w.ctx = some p.emptied ∧ Only doneParts s t := by
  obtain ⟨v, b, ran, left, only⟩ := exec_poolInit run pool
  obtain ⟨t, goes, ends, frame⟩ := goes_finishAe _ b {} only
  exact ⟨t, ran.trans goes, v, ends, left, frame⟩

theorem goes_seqReset (run : Runs e 2 0x302 w c s) (pool : (s.touchSpans c w).poolOf w.ctx = some p)
    (blocks : Map.wf PoolBlock.init p.blk = true) (seqs : Map.wf PoolSeq.init p.seq = true)
    (seq : p.seqOf w.ctx (byteAt w.bytes 52) = q) : Goes (exec (.seqReset e) s) fun t => ∃ (v : State) (r : Pool),
      Ends w 0 0 (v.count c.ctx 14 (max 1 q.blocks.length)) t ∧ v.poolOf w.ctx = some r ∧
      r.seqOf w.ctx (byteAt w.bytes 52) = PoolSeq.init ∧ (q.blocks.Nodup → ∀ i, r.block i = if i ∈ q.blocks then
        (if (p.block i).tree then { p.block i with refs := (p.block i).refs - 1 } else PoolBlock.init) else p.block i) ∧
      Only doneParts s t := by
  subst seq
  obtain ⟨b, ran⟩ := exec_seqReset run pool
  have alike := p.alike_drops (p.seqOf w.ctx (byteAt w.bytes 52)).blocks
  obtain ⟨t, goes, ends, frame⟩ := goes_finishAe (w := w) (c := c) _ b {}
    (((Only.touchSpans c w s).mono (by decide)).trans (Only.changedPool c.ctx p _ _))
  exact ⟨t, ran.trans goes, _, _, ends, poolOf_changePool _ pool alike.1,
    Pool.seqOf_setSeq (alike.2 ▸ seqs) _ _ _, fun nodup => Pool.block_drops _ blocks nodup, frame⟩

theorem goes_prefixLookup (run : Runs e 2 0x303 w c s) (pool : (s.touchSpans c w).poolOf w.ctx = some p)
    (seqs : Map.wf PoolSeq.init p.seq = true) (seq : p.seqOf w.ctx (byteAt w.bytes 52) = q) :
    Goes (exec (.prefixLookup e) s) fun t => ∃ (st d k : Nat) (v : State) (r : Pool),
      Ends w st d (v.count c.ctx 14 k) t ∧ 1 ≤ k ∧ v.poolOf w.ctx = some r ∧
      (q.tokens % 64 ≠ 0 ∨ (∃ i, q.blocks.getLast? = some i ∧ (p.block i).tree = false) →
        r.seqOf w.ctx (byteAt w.bytes 52) = q ∧ r.blk = p.blk ∧ k = 1 ∧ v.counter c.ctx 26 = s.counter c.ctx 26 ∧
        v.counter c.ctx 27 = s.counter c.ctx 27) ∧ q.tokens ≤ (r.seqOf w.ctx (byteAt w.bytes 52)).tokens ∧
      q.blocks <+: (r.seqOf w.ctx (byteAt w.bytes 52)).blocks ∧ Only doneParts s t := by
  obtain ⟨b, ran⟩ := exec_prefixLookup run pool
  obtain ⟨only, alike, tokens, blocks⟩ := looked_spec c w p (s.touchSpans c w)
  rw [seq] at tokens blocks
  have whole : Only doneParts s ((s.touchSpans c w).looked c w p).2 := ((Only.touchSpans c w s).trans only).mono (by decide)
  obtain ⟨t, goes, ends, frame⟩ := goes_finishAe (w := w) (c := c) (max 1 (4 * ((s.touchSpans c w).looked c w p).1.examined)) b
    (((((s.touchSpans c w).looked c w p).2.lookedUp c w p ((s.touchSpans c w).looked c w p).1).lookupWritten c w
      ((s.touchSpans c w).looked c w p).1).1) (whole.trans (Only.lookupWritten c w p _ _))
  have result : (((s.touchSpans c w).looked c w p).1.result w).seqOf w.ctx (byteAt w.bytes 52) =
    ((s.touchSpans c w).looked c w p).1.seq := Pool.seqOf_setSeq (alike.2 ▸ seqs) _ _ _
  refine ⟨t, ran.trans goes, _, _, _, _, _, ends, Nat.le_max_left _ _,
    poolOf_lookupWritten ((poolOf_of_only only _).trans pool) alike.1, fun open_ => ?_, result ▸ tokens, result ▸ blocks, frame⟩
  have stays := looked_open (c := c) seq (s.touchSpans c w) open_
  obtain ⟨same, quiet⟩ := lookedUp_open (s := (s.touchSpans c w).draw.2) (c := c) (l := { pool := p, seq := q }) seqs rfl seq.symm
    rfl rfl
  rw [stays, same, quiet]
  have counts (i : Nat) (from_ : 22 < i) : SameCounts (c.ctx * 32 + i) s ((((s.touchSpans c w).draw.2.setPool p).lookupWritten c w
      { pool := p, seq := q }).2) :=
    (((sameCounts_of_only (Only.uncounted_touchSpans c w s)).trans (sameCounts_of_only (Only.draw _))).trans
      (sameCounts_of_only (Only.setPool p _))).trans (sameCounts_lookupWritten (by omega) _ _)
  exact ⟨seq, rfl, rfl, counts 26 (by decide) _ (Nat.le_refl _), counts 27 (by decide) _ (Nat.le_refl _)⟩

theorem goes_kvAppend (run : Runs e 2 0x304 w c s) (pool : (s.touchSpans c w).poolOf w.ctx = some p)
    (seqs : Map.wf PoolSeq.init p.seq = true) (seq : p.seqOf w.ctx (byteAt w.bytes 52) = q) {len : Nat}
    (length : ((s.touchSpans c w).operand c w 1).dim 0 = len) : Goes (exec (.kvAppend e) s) fun t => Only doneParts s t ∧
      (64 * p.maxb < q.tokens + len → Ends w 0x4602 0 (s.touchSpans c w) t) ∧
      (q.tokens + len ≤ 64 * p.maxb → p.takeBlocks ((q.tokens + len + 63) / 64 - q.blocks.length) = none →
        Ends w 0x4601 0 (s.touchSpans c w) t) ∧
      ∀ l p1, q.tokens + len ≤ 64 * p.maxb → p.takeBlocks ((q.tokens + len + 63) / 64 - q.blocks.length) = some (l, p1) →
        ∃ (st d k : Nat) (v : State) (r : Pool), Ends w st d (v.count c.ctx 14 k) t ∧ v.poolOf w.ctx = some r ∧
          r.seqOf w.ctx (byteAt w.bytes 52) = { blocks := q.blocks ++ l, tokens := q.tokens + len } := by
  obtain ⟨n, b, ran⟩ := exec_kvAppend run pool
  dsimp only at ran
  rw [seq, length] at ran
  rw [ran]
  have touched : Only doneParts s (s.touchSpans c w) := (Only.touchSpans c w s).mono (by decide)
  by_cases long : 64 * p.maxb < q.tokens + len
  · rw [if_pos long]
    obtain ⟨t, goes, ends, frame⟩ := goes_complete (w := w) 0x4602 0 {} touched
    exact ⟨t, goes, frame, fun _ => ends, fun fits => by omega, fun _ _ fits => by omega⟩
  rw [if_neg long]
  cases taken : p.takeBlocks ((q.tokens + len + 63) / 64 - q.blocks.length) with
  | none =>
    obtain ⟨t, goes, ends, frame⟩ := goes_complete (w := w) 0x4601 0 {} touched
    exact ⟨t, goes, frame, fun big => absurd big long, fun _ _ => ends, (fun _ _ _ some => nomatch some)⟩
  | some got =>
    obtain ⟨new, p1⟩ := got
    obtain ⟨only, alike⟩ := inserted_spec c w p1 q new (s.touchSpans c w)
    replace alike := (Pool.alike_takeBlocks _ taken).trans alike
    obtain ⟨t, goes, ends, frame⟩ := goes_finishAe (w := w) (c := c) n b ((s.touchSpans c w).inserted c w p1 q new).2.1
      ((touched.trans (only.mono (by decide))).trans (Only.changedPool c.ctx p _ _))
    refine ⟨t, goes, frame, fun big => absurd big long, (fun _ none => nomatch none), fun l p2 _ same => ?_⟩
    obtain ⟨rfl, rfl⟩ := Prod.mk.inj (Option.some.inj same)
    exact ⟨_, _, _, _, _, ends, poolOf_changePool _ ((poolOf_of_only only _).trans pool) alike.1,
      Pool.seqOf_setSeq (alike.2 ▸ seqs) _ _ _⟩

theorem goes_attend (run : Runs e 2 0x305 w c s) (pool : (s.touchSpans c w).poolOf w.ctx = some p)
    (seq : p.seqOf w.ctx (byteAt w.bytes 52) = q) : Goes (exec (.attend e) s) fun t => Only doneParts s t ∧
      (q.tokens < ((s.touchSpans c w).attnShape c w).nk → Ends w 0x4603 0 (s.touchSpans c w) t) ∧
      (((s.touchSpans c w).attnShape c w).nk ≤ q.tokens → ∃ (st d : Nat) (v : State),
        Ends w st d (v.count c.ctx 14 ((s.touchSpans c w).attnSteps ((s.touchSpans c w).attnShape c w)
          ((s.touchSpans c w).operand c w 2) p.dl)) t ∧ v.pools = s.pools ∧ Only memParts s v) := by
  subst seq
  have touched := Only.touchSpans c w s
  by_cases more : (p.seqOf w.ctx (byteAt w.bytes 52)).tokens < ((s.touchSpans c w).attnShape c w).nk
  · have ran : exec (.attend e) s = done s ((s.touchSpans c w).complete w 0x4603 0 {}) :=
      congrArg (done s) ((runAe_eq run pool _).trans (if_pos more))
    obtain ⟨t, goes, ends, frame⟩ := goes_complete (w := w) 0x4603 0 {} (touched.mono (qs := doneParts) (by decide))
    exact ⟨t, ran.trans goes, frame, fun _ => ends, fun enough => by omega⟩
  · obtain ⟨v, b, x, ran, only⟩ := exec_attend run pool (Nat.not_lt.1 more)
    have whole := touched.trans only
    obtain ⟨t, goes, ends, frame⟩ := goes_finishAe (w := w) (c := c) _ b x (whole.mono (qs := doneParts) (by decide))
    exact ⟨t, ran.trans goes, frame, fun big => absurd big more, fun _ => ⟨_, _, v, ends, whole.get .pools, whole⟩⟩

end

end Sys2Proof.Machine

open Sys2Proof Sys2Proof.Machine

/-- Settles O45: each operator by what it leaves of its pool, and the completion that ends it. -/
theorem attentionEnginesRun : Obligations.AttentionEnginesRun := by
  unfold Obligations.AttentionEnginesRun
  intro e s w c
  dsimp only
  have gone {i : Instr} {op : Nat} (f : CtxInfo → Waybill → Pool → State → State) (ran : exec i s = done s (s.runAe e op f))
      (run : Runs e 2 op w c s) (none : (s.touchSpans c w).poolOf w.ctx = none) :
      Goes (exec i s) fun t => Ends w 0x4402 0 (s.touchSpans c w) t ∧ Only doneParts s t := by
    rw [ran, runAe_none run none]
    exact goes_complete _ _ _ ((Only.touchSpans c w s).mono (by decide))
  refine ⟨?_, fun p pool blocks seqs => ⟨fun run => goes_poolInit run pool, fun run => goes_seqReset run pool blocks seqs rfl,
    fun run => goes_prefixLookup run pool seqs rfl, fun run => goes_kvAppend run pool seqs rfl rfl,
    fun run => goes_attend run pool rfl⟩⟩
  simp only [List.forall_mem_cons]
  exact ⟨gone _ rfl, gone _ rfl, gone _ rfl, gone _ rfl, gone _ rfl, nofun⟩

end

section
/-! PROOF. How the Intake Engine's operators find their stream and complete (13 sections 13.1, 13.2). -/

namespace Sys2Proof.Machine

set_option Elab.async false

variable {s t u v : State} {ps qs : List Part} {w : Waybill} {c : CtxInfo} {x y : Stream} {e op i n : Nat}

/-! ### Streams and dictionaries of the state -/

theorem stream_of_only (h : Only ps s t) (c n : Nat) (intake : Part.intake ∉ ps := by decide) : t.stream c n = s.stream c n :=
  congrArg (fun k : IntakeSt => k.streams.get none (c * 16 + n)) (h.2 .intake intake)

theorem dict_of_only (h : Only ps s t) (c n : Nat) (intake : Part.intake ∉ ps := by decide) : t.dict c n = s.dict c n :=
  congrArg (fun k : IntakeSt => k.dicts.get none (c * 4 + n)) (h.2 .intake intake)

theorem streams_of_only (h : Only ps s t) (wf : Map.wf none s.intake.streams = true) (intake : Part.intake ∉ ps := by decide) :
    Map.wf none t.intake.streams = true := by
  have same : t.intake = s.intake := h.2 .intake intake
  exact same ▸ wf

theorem stream_setStream (wf : Map.wf none s.intake.streams = true) (c n : Nat) (x : Option Stream) :
    (s.setStream c n x).stream c n = x := (Map.get_set none _ _ _ _ wf).trans (if_pos rfl)

theorem Only.setDict (c n : Nat) (x : Option Dict) (s : State) : Only [.intake] s (s.setDict c n x) := Only.ofIntake s _

theorem dict_setDict (wf : Map.wf none s.intake.dicts = true) (c n : Nat) (x : Option Dict) : (s.setDict c n x).dict c n = x :=
  (Map.get_set none _ _ _ _ wf).trans (if_pos rfl)

/-! ### Completions -/

theorem ieEnd_zero (c : CtxInfo) (w : Waybill) (status detail : Nat) (s : State) :
    s.ieEnd c w 0 status detail = s.complete w status detail {} :=
  congrArg (fun t : State => t.complete w status detail {}) (count_zero _ _ _)

/-- A state completes a waybill, having changed nothing that an IE operator may not change. -/
def Concludes (w : Waybill) (s t : State) : Prop :=
  ∃ st d v f, t = State.complete w st d f v ∧ Only (.intake :: doneParts) s v

theorem concludes_ieEnd (h : Only (.intake :: doneParts) s t) (c : CtxInfo) (n status detail : Nat) :
    Concludes w s (t.ieEnd c w n status detail) :=
  ⟨_, _, _, _, rfl, h.trans ((Only.count _ _ _ _).mono (by decide))⟩

/-- A run that writes completes with what its writes met, before the operator's own status. -/
theorem ieWrite_eq (c : CtxInfo) (w : Waybill) (outs : List (Opnd × List Byte)) (steps status detail : Nat) (s : State) :
    ∃ st d v f, s.ieWrite c w outs steps status detail = v.complete w st d f ∧ Only memParts s v :=
  ⟨_, _, _, _, rfl, (Only.runSteps _ _ _ _ _).trans ((Only.count _ _ _ _).mono (by decide))⟩

theorem concludes_ieWrite (h : Only (.intake :: doneParts) s t) (c : CtxInfo) (outs : List (Opnd × List Byte))
    (steps status detail : Nat) : Concludes w s (t.ieWrite c w outs steps status detail) := by
  obtain ⟨st, d, v, f, ran, only⟩ := ieWrite_eq c w outs steps status detail t
  exact ⟨st, d, v, f, ran, h.trans (only.mono (by decide))⟩

theorem Concludes.ite {p : Prop} [Decidable p] (h : p → Concludes w s t) (k : ¬ p → Concludes w s u) :
    Concludes w s (if p then t else u) := by
  split
  · exact h ‹_›
  · exact k ‹_›

theorem goes_concludes (h : Concludes w s t) : Goes (done s t) fun v =>
    (∃ st d u, Ends w st d u v) ∧ Only (.intake :: doneParts) s v := by
  obtain ⟨st, d, v, f, rfl, only⟩ := h
  have whole := only.trans ((Only.complete w st d f v).mono (by decide))
  exact goes_done whole ⟨⟨st, d, v, ends_complete _ _ _ _ _⟩, whole⟩

/-- A completion with one status leaves the streams and dictionaries as they were. -/
theorem goes_ieEnd (h : Only (.intake :: doneParts) s t) (c : CtxInfo) (n status detail : Nat) :
    Goes (done s (t.ieEnd c w n status detail)) fun v => (n = 0 → Ends w status detail t v) ∧
      (∃ u, Ends w status detail u v) ∧ Only doneParts t v ∧ Only (.intake :: doneParts) s v := by
  have counted : Only doneParts t (t.count c.ctx 16 n) := (Only.count _ _ _ _).mono (by decide)
  have ended := counted.trans (Only.complete w status detail {} _)
  have whole := h.trans (ended.mono (by decide))
  refine goes_done whole ⟨fun none => ?_, ⟨_, ends_complete _ _ _ _ _⟩, ended, whole⟩
  rw [none, ieEnd_zero]
  exact ends_complete _ _ _ _ _

/-- A completion after writes leaves the streams and dictionaries as they were. -/
theorem goes_ieWrite (h : Only (.intake :: doneParts) s t) (c : CtxInfo) (outs : List (Opnd × List Byte))
    (steps status detail : Nat) : Goes (done s (t.ieWrite c w outs steps status detail)) fun v =>
      (∃ st d u, Ends w st d u v) ∧ Only doneParts t v ∧ Only (.intake :: doneParts) s v := by
  obtain ⟨st, d, v, f, ran, only⟩ := ieWrite_eq c w outs steps status detail t
  have ended := (only.mono (qs := doneParts) (by decide)).trans (Only.complete w st d f v)
  have whole := h.trans (ended.mono (by decide))
  rw [ran]
  exact goes_done whole ⟨⟨st, d, v, ends_complete _ _ _ _ _⟩, ended, whole⟩

/-! ### Running on a stream -/

theorem Only.touchedSpans (c : CtxInfo) (w : Waybill) (s : State) : Only (.intake :: doneParts) s (s.touchSpans c w) :=
  (Only.touchSpans c w s).mono (by decide)

theorem stream_touchSpans (c : CtxInfo) (w : Waybill) (s : State) (k n : Nat) : (s.touchSpans c w).stream k n = s.stream k n :=
  stream_of_only (Only.touchSpans c w s) k n

theorem dict_touchSpans (c : CtxInfo) (w : Waybill) (s : State) (k n : Nat) : (s.touchSpans c w).dict k n = s.dict k n :=
  dict_of_only (Only.touchSpans c w s) k n

theorem runIe_closed (run : Runs e 4 op w c s) (closed : s.stream w.ctx (byteAt w.bytes i) = none)
    (f : CtxInfo → Waybill → Nat → Stream → State → State) : s.runIe e op i f = (s.touchSpans c w).complete w 0x4701 0 {} := by
  unfold State.runIe
  rw [runOn_eq run]
  dsimp only
  rw [stream_touchSpans, closed]
  exact ieEnd_zero _ _ _ _ _

theorem runIe_open (run : Runs e 4 op w c s) (open_ : s.stream w.ctx (byteAt w.bytes i) = some x)
    (f : CtxInfo → Waybill → Nat → Stream → State → State) :
    s.runIe e op i f = f c w (byteAt w.bytes i) x (s.touchSpans c w) := by
  unfold State.runIe
  rw [runOn_eq run]
  dsimp only
  rw [stream_touchSpans, open_]

/-- An operator on a stream completes, with 0x4701 where the stream is not open (13 R262). -/
theorem goes_runIe {j : Instr} {f : CtxInfo → Waybill → Nat → Stream → State → State} (ran : exec j s = done s (s.runIe e op i f))
    (concludes : ∀ c w n x t, Concludes w t (f c w n x t)) (run : Runs e 4 op w c s) : Goes (exec j s) fun t =>
      (∃ st d v, Ends w st d v t) ∧ Only (.intake :: doneParts) s t ∧
        (s.stream w.ctx (byteAt w.bytes i) = none → Ends w 0x4701 0 (s.touchSpans c w) t) := by
  have touched := Only.touchedSpans c w s
  rw [ran]
  cases found : s.stream w.ctx (byteAt w.bytes i) with
  | none =>
    rw [runIe_closed run found]
    have whole := touched.trans ((Only.complete w 0x4701 0 {} _).mono (by decide))
    exact goes_done whole ⟨⟨_, _, _, ends_complete _ _ _ _ _⟩, whole, fun _ => ends_complete _ _ _ _ _⟩
  | some x =>
    rw [runIe_open run found]
    obtain ⟨st, d, v, g, ended, only⟩ := concludes c w (byteAt w.bytes i) x (s.touchSpans c w)
    obtain ⟨t, goes, ends, frame⟩ := goes_concludes (w := w) (s := s) (t := f c w (byteAt w.bytes i) x (s.touchSpans c w))
      ⟨st, d, v, g, ended, touched.trans only⟩
    exact ⟨t, goes, ends, frame, fun none => nomatch none⟩

/-! ### Pictures taken from the store -/

theorem Only.loadPicture (key : Nat) (x : Stream) (p : Picture) (s : State) : Only memParts s (s.loadPicture key x p).2 :=
  Only.readMem _ _ _ _ s

/-- A stream that leaves nothing taken. -/
def Stream.Idle (x : Stream) : Prop := x.taking = none

theorem idle_giveBack (x : Stream) : x.giveBack.Idle := by
  unfold Stream.giveBack Stream.Idle
  split
  · assumption
  · rfl

theorem taking_bump (i n : Nat) (x : Stream) : (x.bump i n).taking = x.taking := Stream.bump_keeps Stream.taking (fun _ _ => rfl) i n x

theorem taking_skip (r : Nat) (x : Stream) : (x.skip r).taking = x.taking := taking_bump 4 1 x

theorem taking_skips (r : Nat) (l : List Picture) : ∀ x : Stream, (l.foldl (fun (z : Stream) _ => z.skip r) x).taking = x.taking := by
  induction l with
  | nil => exact fun _ => rfl
  | cons p l ih => exact fun x => (ih _).trans (taking_skip r x)

theorem taking_spoil (ord : Nat) (x : Stream) : (x.spoil ord).taking = x.taking := by
  unfold Stream.spoil
  dsimp only
  refine (taking_skips 3 _ _).trans ?_
  split
  · exact taking_skip 7 _
  · rfl

theorem replacement_spec (key : Nat) (x : Stream) (h : Shape) (reason dropped : Nat) (s : State) :
    Only memParts s (s.replacement key x h reason dropped).2 ∧
      (s.replacement key x h reason dropped).1.after.taking = x.taking := by
  have filled (z : Stream) (same : z.taking = x.taking) : (z.bump 6 1).taking = x.taking := (taking_bump 6 1 z).trans same
  unfold State.replacement
  dsimp only
  split
  · exact ⟨Only.refl _ s, filled _ (taking_bump 8 1 x)⟩
  · next p _ =>
    have read := Only.loadPicture key x p s
    split
    · next loaded =>
      rw [loaded] at read
      exact ⟨read, (taking_bump 5 1 _).trans (taking_bump 8 1 x)⟩
    · next loaded =>
      rw [loaded] at read
      exact ⟨read, filled _ (taking_bump 8 1 x)⟩

/-- What DECODE delivers leaves nothing taken. -/
theorem decodeOut_spec (key : Nat) (x : Stream) (h : Shape) (s : State) : Only memParts s (s.decodeOut key x h).2 ∧
    ∀ d, (s.decodeOut key x h).1 = some d → d.after.Idle := by
  unfold State.decodeOut
  dsimp only
  split
  · obtain ⟨only, after⟩ := replacement_spec key { x with taking := none } h (x.taking.getD Taking.init).skip
      (x.taking.getD Taking.init).dropped s
    exact ⟨only, fun d some => Option.some.inj some ▸ after⟩
  · split
    · exact ⟨Only.refl _ s, fun d some => nomatch some⟩
    · next p _ =>
      have read := Only.loadPicture key x p s
      split
      · next loaded =>
        rw [loaded] at read
        exact ⟨read, fun d some => Option.some.inj some ▸ taking_bump 8 1 { x with taking := none }⟩
      · next s1 loaded =>
        rw [loaded] at read
        obtain ⟨only, after⟩ := replacement_spec key (({ x with taking := none } : Stream).bump 4 1 |>.spoil p.ordinal) h 7
          (satAdd 0xFFFF (x.taking.getD Taking.init).dropped 1) s1
        exact ⟨read.trans only, fun d some => Option.some.inj some ▸
          after.trans ((taking_spoil _ _).trans (taking_bump 4 1 { x with taking := none }))⟩

/-- A stream that has taken nothing delivers nothing. -/
theorem decodeOut_nothing (nothing : ∀ k, x.taking = some k → k.skip = 0 ∧ k.pic = none) (key : Nat) (h : Shape) (s : State) :
    s.decodeOut key x h = (none, s) := by
  have both : (x.taking.getD Taking.init).skip = 0 ∧ (x.taking.getD Taking.init).pic = none := by
    cases taken : x.taking with
    | none => exact ⟨rfl, rfl⟩
    | some k => exact nothing k taken
  unfold State.decodeOut
  dsimp only
  rw [if_neg (not_not.2 both.1), both.2]

end Sys2Proof.Machine
end

section
/-! PROOF. What each stream operator does (13 sections 13.2 to 13.4), and what their start takes (13 R262, R269). -/

namespace Sys2Proof.Machine

set_option Elab.async false

variable {s t u v : State} {w : Waybill} {c : CtxInfo} {x y : Stream} {n : Nat}

/-! ### Every operator on a stream completes -/

section
variable (c : CtxInfo) (w : Waybill)

theorem Only.setStreamDone (c n : Nat) (x : Option Stream) (s : State) : Only (.intake :: doneParts) s (s.setStream c n x) :=
  (Only.setStream c n x s).mono (by decide)

/-- A completion of an unchanged state, or of one whose stream has changed. -/
theorem concludes_same (n st d : Nat) (t : State) : Concludes w t (t.ieEnd c w n st d) := concludes_ieEnd (Only.refl _ t) _ _ _ _

theorem concludes_put (k : Nat) (y : Option Stream) (n st d : Nat) (t : State) :
    Concludes w t ((t.setStream w.ctx k y).ieEnd c w n st d) := concludes_ieEnd (Only.setStreamDone _ _ _ t) _ _ _ _

theorem concludes_putWrite (k : Nat) (y : Option Stream) (outs : List (Opnd × List Byte)) (n st d : Nat) (t : State) :
    Concludes w t ((t.setStream w.ctx k y).ieWrite c w outs n st d) := concludes_ieWrite (Only.setStreamDone _ _ _ t) _ _ _ _ _

end

theorem Only.clearStats (c n : Nat) (x : Stream) (s : State) : Only [.intake, .mem] s (s.clearStats c n x) :=
  ((Only.setStream c n _ s).mono (by decide)).trans ((Only.ofMem _ _).mono (by decide))

section
variable {e : Fin 19}

theorem goes_streamClose (run : Runs e 4 0x502 w c s) : Goes (exec (.streamClose e) s) fun t =>
    (∃ st d v, Ends w st d v t) ∧ Only (.intake :: doneParts) s t ∧
      (s.stream w.ctx (byteAt w.bytes 16) = none → Ends w 0x4701 0 (s.touchSpans c w) t) :=
  goes_runIe (e := e) (op := 0x502) (i := 16) rfl (fun c w n _ t => concludes_put c w n none 1 0 0 t) run

theorem goes_feed (run : Runs e 4 0x503 w c s) : Goes (exec (.feed e) s) fun t =>
    (∃ st d v, Ends w st d v t) ∧ Only (.intake :: doneParts) s t ∧
      (s.stream w.ctx (byteAt w.bytes 16) = none → Ends w 0x4701 0 (s.touchSpans c w) t) :=
  goes_runIe (e := e) (op := 0x503) (i := 16) rfl (fun c w _ _ t => Concludes.ite (fun _ => concludes_same c w _ _ _ t) fun _ =>
    Concludes.ite (fun _ => concludes_put c w _ _ _ _ _ t) fun _ =>
      Concludes.ite (fun _ => concludes_put c w _ _ _ _ _ t) fun _ => concludes_put c w _ _ _ _ _ t) run

theorem goes_augSet (run : Runs e 4 0x504 w c s) : Goes (exec (.augSet e) s) fun t =>
    (∃ st d v, Ends w st d v t) ∧ Only (.intake :: doneParts) s t ∧
      (s.stream w.ctx (byteAt w.bytes 16) = none → Ends w 0x4701 0 (s.touchSpans c w) t) :=
  goes_runIe (e := e) (op := 0x504) (i := 16) rfl
    (fun c w _ _ t => Concludes.ite (fun _ => concludes_same c w _ _ _ t) fun _ => concludes_put c w _ _ _ _ _ t) run

theorem goes_decode (run : Runs e 4 0x505 w c s) : Goes (exec (.decode e) s) fun t =>
    (∃ st d v, Ends w st d v t) ∧ Only (.intake :: doneParts) s t ∧
      (s.stream w.ctx (byteAt w.bytes 52) = none → Ends w 0x4701 0 (s.touchSpans c w) t) := by
  refine goes_runIe (e := e) (op := 0x505) (i := 52) rfl (fun c w n x t => ?_) run
  dsimp only
  refine Concludes.ite (fun _ => concludes_put c w _ _ _ _ _ t) fun _ => ?_
  have taken (h : Shape) {d : Option Delivery} {t1 : State} (out : t.decodeOut (w.ctx * 16 + n) x h = (d, t1))
      (y : Option Stream) : Only (.intake :: doneParts) t (t1.setStream w.ctx n y) := by
    have only := (decodeOut_spec (w.ctx * 16 + n) x h t).1
    rw [out] at only
    exact (only.mono (by decide)).trans (Only.setStreamDone _ _ _ t1)
  split
  · next out => exact concludes_ieEnd (taken _ out _) _ _ _ _
  · next out =>
    exact Concludes.ite (fun _ => concludes_ieWrite (taken _ out _) _ _ _ _ _) fun _ => concludes_ieWrite (taken _ out _) _ _ _ _ _

theorem goes_tokenise (run : Runs e 4 0x508 w c s) : Goes (exec (.tokenise e) s) fun t =>
    (∃ st d v, Ends w st d v t) ∧ Only (.intake :: doneParts) s t ∧
      (s.stream w.ctx (byteAt w.bytes 52) = none → Ends w 0x4701 0 (s.touchSpans c w) t) := by
  refine goes_runIe (e := e) (op := 0x508) (i := 52) rfl (fun c w n x t => ?_) run
  dsimp only
  refine Concludes.ite (fun _ => concludes_same c w _ _ _ t) fun _ => ?_
  split
  · exact concludes_same c w _ _ _ t
  · refine Concludes.ite (fun _ => concludes_same c w _ _ _ t) fun _ => ?_
    split
    · exact concludes_same c w _ _ _ t
    · exact Concludes.ite (fun _ => Concludes.ite (fun _ => concludes_ieWrite (Only.refl _ t) _ _ _ _ _)
        fun _ => concludes_putWrite c w _ _ _ _ _ _ t) fun _ => concludes_putWrite c w _ _ _ _ _ _ t

theorem goes_packEmit (run : Runs e 4 0x509 w c s) : Goes (exec (.packEmit e) s) fun t =>
    (∃ st d v, Ends w st d v t) ∧ Only (.intake :: doneParts) s t ∧
      (s.stream w.ctx (byteAt w.bytes 52) = none → Ends w 0x4701 0 (s.touchSpans c w) t) :=
  goes_runIe (e := e) (op := 0x509) (i := 52) rfl (fun c w _ _ t => Concludes.ite (fun _ => concludes_same c w _ _ _ t) fun _ =>
    Concludes.ite (fun _ => concludes_same c w _ _ _ t) fun _ => Concludes.ite (fun _ => concludes_same c w _ _ _ t) fun _ =>
      concludes_putWrite c w _ _ _ _ _ _ t) run

theorem goes_streamStats (run : Runs e 4 0x50A w c s) : Goes (exec (.streamStats e) s) fun t =>
    (∃ st d v, Ends w st d v t) ∧ Only (.intake :: doneParts) s t ∧
      (s.stream w.ctx (byteAt w.bytes 52) = none → Ends w 0x4701 0 (s.touchSpans c w) t) :=
  goes_runIe (e := e) (op := 0x50A) (i := 52) rfl (fun _ _ _ _ t => concludes_ieWrite
    (Only.ite (fun _ => (Only.clearStats _ _ _ t).mono (by decide)) fun _ => Only.refl _ t) _ _ _ _ _) run

end

/-! ### One stream through its operators -/

/-- A stream that has been put, once the waybill that put it has completed. -/
theorem goes_putStream (h : Only memParts s t) (wf : Map.wf none s.intake.streams = true) (c : CtxInfo) (k : Nat)
    (y : Option Stream) (steps status detail : Nat) :
    Goes (done s ((t.setStream w.ctx k y).ieEnd c w steps status detail)) fun v =>
      (∃ u, Ends w status detail u v) ∧ v.stream w.ctx k = y := by
  obtain ⟨v, goes, _, ends, only, _⟩ := goes_ieEnd (w := w)
    ((h.mono (by decide)).trans (Only.setStreamDone w.ctx k y t)) c steps status detail
  exact ⟨v, goes, ends, (stream_of_only only _ _).trans (stream_setStream (streams_of_only h wf) _ _ _)⟩

theorem goes_putStreamWrite (h : Only memParts s t) (wf : Map.wf none s.intake.streams = true) (c : CtxInfo) (k : Nat)
    (y : Option Stream) (outs : List (Opnd × List Byte)) (steps status detail : Nat) :
    Goes (done s ((t.setStream w.ctx k y).ieWrite c w outs steps status detail)) fun v => v.stream w.ctx k = y := by
  obtain ⟨v, goes, _, only, _⟩ := goes_ieWrite (w := w)
    ((h.mono (by decide)).trans (Only.setStreamDone w.ctx k y t)) c outs steps status detail
  exact ⟨v, goes, (stream_of_only only _ _).trans (stream_setStream (streams_of_only h wf) _ _ _)⟩

/-- A refusal that changes nothing. -/
theorem goes_refusal (c : CtxInfo) (status detail : Nat) :
    Goes (done s ((s.touchSpans c w).ieEnd c w 0 status detail)) fun v => Ends w status detail (s.touchSpans c w) v := by
  obtain ⟨v, goes, ends, _⟩ := goes_ieEnd (w := w) (Only.touchedSpans c w s) c 0 status detail
  exact ⟨v, goes, ends rfl⟩

/-- A stream that has taken fed bytes, and closed its unit where they were its last. -/
def Stream.fed (data : List Byte) (len now : Nat) (last : Bool) (x : Stream) : Stream :=
  let y := { x.bump 1 len with openUnit := x.openUnit ++ data, rtpStamp := some (x.rtpStamp.getD now) }
  if last then y.closeUnit (y.rtpStamp.getD 0) else y

theorem units_bump (i n : Nat) (x : Stream) : (x.bump i n).units = x.units := Stream.bump_keeps Stream.units (fun _ _ => rfl) i n x

theorem fed_more (data : List Byte) (len now : Nat) :
    ((x.fed data len now false).openUnit, (x.fed data len now false).units) = (x.openUnit ++ data, x.units) :=
  congrArg (Prod.mk _) (units_bump 1 len x)

theorem fed_last (data : List Byte) (len now : Nat) : ((x.fed data len now true).openUnit, (x.fed data len now true).units.map (·.1)) =
    ([], x.units.map (·.1) ++ [x.openUnit ++ data]) := by
  refine congrArg (Prod.mk _) ?_
  unfold Stream.fed Stream.closeUnit
  dsimp only
  rw [if_pos rfl, List.map_append, units_bump]
  rfl

/-- A taking in the order of delivery: the head of the queue, or the record of the pictures skipped. -/
theorem begin_ordered (idle : x.taking = none) (ordered : x.latest = false) : x.begin = { x with
    taking := some { pic := if x.skipReason = 0 then x.pics.head? else none, skip := x.skipReason, dropped := x.dropped }
    pics := if x.skipReason = 0 then x.pics.drop 1 else x.pics, skipReason := 0, dropped := 0 } := by
  have back : x.giveBack = x := by
    unfold Stream.giveBack
    rw [idle]
  have whole : x.latestOnly = x := by
    unfold Stream.latestOnly
    rw [ordered]
    rfl
  unfold Stream.begin
  rw [back, whole]
  simp only [beq_iff_eq]

theorem openLacks_iff : s.openLacks w = true ↔ (s.stream w.ctx (byteAt w.bytes 16)).isSome = true ∨
    16 ≤ s.intake.streams.length ∨ s.sourceFree w.ctx (byteAt w.bytes 17) (byteAt w.bytes 18) = false ∨
      50331648 < (s.intake.streams.map fun p => (p.2.map (·.reserve)).getD 0).sum + s.reserveFor w := by
  unfold State.openLacks
  simp only [Bool.or_eq_true, decide_eq_true_eq, Bool.not_eq_eq_eq_not, Bool.not_true, or_assoc]

theorem ieTake_open (cls : w.wclass = 4) (op : w.opcode = 0x501) (s : State) :
    s.ieTake w = if s.openLacks w then (0x4702, s) else (0, s.openStream w) := by
  unfold State.ieTake
  rw [if_neg (not_not.2 cls), if_pos op]

theorem ieTake_decode (cls : w.wclass = 4) (op : w.opcode = 0x505) (open_ : s.stream w.ctx (byteAt w.bytes 52) = some x) :
    s.ieTake w = (0, s.setStream w.ctx (byteAt w.bytes 52) (some x.begin)) := by
  unfold State.ieTake
  rw [if_neg (not_not.2 cls), if_neg (by rw [op]; decide), if_neg (by rw [op]; decide), if_pos op]
  dsimp only
  rw [open_]

theorem Only.openStream (w : Waybill) (s : State) : Only [.intake, .mem] s (s.openStream w) :=
  ((Only.setStream _ _ _ s).mono (by decide)).trans ((Only.ofMem _ _).mono (by decide))

/-! ### DECODE -/

/-- How a DECODE shapes its picture. -/
def State.decodeShape (c : CtxInfo) (w : Waybill) (x : Stream) (s : State) : Shape :=
  let o := s.operand c w 1
  ⟨(byteAt w.bytes 54).testBit 0, BitVec.ofNat 64 (fieldAt w.bytes 56 8), s.picLayout x (byteAt w.bytes 53), o.dim 0, o.dim 1⟩

section
variable {e : Fin 19} (run : Runs e 4 0x505 w c s) (open_ : s.stream w.ctx (byteAt w.bytes 52) = some x)
include run open_

theorem exec_decode_refused (kind : x.kind = 3 ∨ (x.kind = 2 ∧ byteAt w.bytes 53 = 1)) : exec (.decode e) s = done s
    (((s.touchSpans c w).setStream w.ctx (byteAt w.bytes 52) (some x.giveBack)).ieEnd c w 0 0x4708 0) :=
  congrArg (done s) ((runIe_open run open_ _).trans (if_pos kind))

theorem exec_decode_nothing (kind : ¬ (x.kind = 3 ∨ (x.kind = 2 ∧ byteAt w.bytes 53 = 1)))
    (out : (s.touchSpans c w).decodeOut (w.ctx * 16 + byteAt w.bytes 52) x ((s.touchSpans c w).decodeShape c w x) = (none, v)) :
    exec (.decode e) s = done s ((v.setStream w.ctx (byteAt w.bytes 52) (some x.giveBack)).ieEnd c w 0 0x1702 0) := by
  refine congrArg (done s) ((runIe_open run open_ _).trans ((if_neg kind).trans ?_))
  unfold State.decodeShape at out
  dsimp only at out ⊢
  rw [out]

theorem exec_decode_delivers {d : Delivery} (kind : ¬ (x.kind = 3 ∨ (x.kind = 2 ∧ byteAt w.bytes 53 = 1)))
    (out : (s.touchSpans c w).decodeOut (w.ctx * 16 + byteAt w.bytes 52) x ((s.touchSpans c w).decodeShape c w x) = (some d, v)) :
    (∃ outs, exec (.decode e) s =
      done s ((v.setStream w.ctx (byteAt w.bytes 52) (some x.giveBack)).ieWrite c w outs 0 0x4703 0)) ∨
    ∃ outs st i, exec (.decode e) s =
      done s ((v.setStream w.ctx (byteAt w.bytes 52) (some d.after)).ieWrite c w outs 0 st i) := by
  have ran : exec (.decode e) s = done s _ := congrArg (done s) ((runIe_open run open_ _).trans (if_neg kind))
  unfold State.decodeShape at out
  dsimp only at out ran
  rw [out] at ran
  dsimp only at ran
  split at ran
  · exact .inl ⟨_, ran⟩
  · exact .inr ⟨_, _, _, ran⟩

/-- A DECODE keeps nothing of what it took (13 R271). -/
theorem goes_decode_idle (wf : Map.wf none s.intake.streams = true) : Goes (exec (.decode e) s) fun t =>
    (x.kind = 3 ∨ (x.kind = 2 ∧ byteAt w.bytes 53 = 1) → ∃ v, Ends w 0x4708 0 v t) ∧
    (x.kind < 2 → (∀ k, x.taking = some k → k.skip = 0 ∧ k.pic = none) → ∃ v, Ends w 0x1702 0 v t) ∧
    (t.stream w.ctx (byteAt w.bytes 52)).map (·.taking) = some none := by
  have touched := Only.touchSpans c w s
  have idle {t : State} {y : Stream} (h : t.stream w.ctx (byteAt w.bytes 52) = some y) (no : y.Idle) :
      (t.stream w.ctx (byteAt w.bytes 52)).map (·.taking) = some none := by
    rw [h]
    exact congrArg some no
  by_cases kind : x.kind = 3 ∨ (x.kind = 2 ∧ byteAt w.bytes 53 = 1)
  · rw [exec_decode_refused run open_ kind]
    obtain ⟨t, goes, ends, put⟩ := goes_putStream (w := w) touched wf c (byteAt w.bytes 52) (some x.giveBack) 0 0x4708 0
    exact ⟨t, goes, fun _ => ends, fun video _ => by omega, idle put (idle_giveBack x)⟩
  obtain ⟨only, after⟩ := decodeOut_spec (w.ctx * 16 + byteAt w.bytes 52) x ((s.touchSpans c w).decodeShape c w x) (s.touchSpans c w)
  have nothing := decodeOut_nothing (x := x) (key := w.ctx * 16 + byteAt w.bytes 52) (h := (s.touchSpans c w).decodeShape c w x)
    (s := s.touchSpans c w)
  cases out : (s.touchSpans c w).decodeOut (w.ctx * 16 + byteAt w.bytes 52) x ((s.touchSpans c w).decodeShape c w x) with
  | mk d v =>
  rw [out] at only after nothing
  have whole := touched.trans only
  cases d with
  | none =>
    rw [exec_decode_nothing run open_ kind out]
    obtain ⟨t, goes, ends, put⟩ := goes_putStream (w := w) whole wf c (byteAt w.bytes 52) (some x.giveBack) 0 0x1702 0
    exact ⟨t, goes, fun no => absurd no kind, fun _ _ => ends, idle put (idle_giveBack x)⟩
  | some d =>
    have delivers {p : Prop} (none : ∀ k, x.taking = some k → k.skip = 0 ∧ k.pic = Option.none) : p :=
      nomatch congrArg Prod.fst (nothing none)
    rcases exec_decode_delivers run open_ kind out with ⟨outs, ran⟩ | ⟨outs, st, i, ran⟩
    · obtain ⟨t, goes, put⟩ := goes_putStreamWrite (w := w) whole wf c (byteAt w.bytes 52) (some x.giveBack) outs 0 0x4703 0
      exact ⟨t, ran.trans goes, fun no => absurd no kind, fun _ none => delivers none, idle put (idle_giveBack x)⟩
    · obtain ⟨t, goes, put⟩ := goes_putStreamWrite (w := w) whole wf c (byteAt w.bytes 52) (some d.after) outs 0 st i
      exact ⟨t, ran.trans goes, fun no => absurd no kind, fun _ none => delivers none, idle put (after d rfl)⟩

end

end Sys2Proof.Machine

open Sys2Proof Sys2Proof.Machine

/-- Settles O46: every operator by its completion, and each by what it leaves of its stream. -/
theorem streamOperatorsAct : Obligations.StreamOperatorsAct := by
  unfold Obligations.StreamOperatorsAct
  intro e s w c wf
  dsimp only
  refine ⟨?_, fun cls op => ?_, fun run => ?_, fun x => ⟨fun open_ run => ?_, fun open_ run => ?_, fun open_ run => ?_,
    fun open_ cls op idle ordered => ?_, fun open_ run => goes_decode_idle run open_ wf⟩⟩
  · simp only [List.forall_mem_cons]
    exact ⟨goes_streamClose, goes_feed, goes_augSet, goes_decode, goes_tokenise, goes_packEmit, goes_streamStats, nofun⟩
  · rw [ieTake_open cls op, ← openLacks_iff]
    refine ⟨fun lacks => if_pos lacks, fun has => ?_⟩
    rw [if_neg has]
    exact ⟨rfl, stream_setStream wf _ _ _, rfl, Only.openStream w s⟩
  · have ran : exec (.streamOpen e) s = done s ((s.touchSpans c w).ieEnd c w (if w.intake = 0 then 1 else 0) w.intake 0) :=
      congrArg (done s) (runOn_eq run _)
    rw [ran]
    obtain ⟨t, goes, _, ends, only, _⟩ := goes_ieEnd (w := w) (Only.touchedSpans c w s) c (if w.intake = 0 then 1 else 0) w.intake 0
    have whole := ((Only.touchSpans c w s).mono (qs := doneParts) (by decide)).trans only
    exact ⟨t, goes, ends, whole.get .intake, whole⟩
  · have ran : exec (.streamClose e) s = done s (((s.touchSpans c w).setStream w.ctx (byteAt w.bytes 16) none).ieEnd c w 1 0 0) :=
      congrArg (done s) (runIe_open run open_ _)
    rw [ran]
    exact goes_putStream (Only.touchSpans c w s) wf c _ none 1 0 0
  · have touched := Only.touchSpans c w s
    by_cases kind : x.kind = 0 ∨ x.kind = 2
    · have ran : exec (.feed e) s = done s ((s.touchSpans c w).ieEnd c w 0 0x4708 0) :=
        congrArg (done s) ((runIe_open run open_ _).trans (if_pos kind))
      obtain ⟨t, goes, ends⟩ := goes_refusal (s := s) (w := w) c 0x4708 0
      exact ⟨t, ran.trans goes, fun _ => ends, fun other => by omega⟩
    by_cases full : x.capacity < x.buffered + byteAt w.bytes 17
    · have ran : exec (.feed e) s = done s (((s.touchSpans c w).setStream w.ctx (byteAt w.bytes 16)
          (some (x.bump 15 1))).ieEnd c w 1 0x1703 0) :=
        congrArg (done s) ((runIe_open run open_ _).trans ((if_neg kind).trans (if_pos full)))
      obtain ⟨t, goes, ends, put⟩ := goes_putStream (w := w) touched wf c (byteAt w.bytes 16) (some (x.bump 15 1)) 1 0x1703 0
      exact ⟨t, ran.trans goes, fun no => absurd no kind, fun _ => ⟨fun _ => ⟨ends, put⟩, fun room => by omega, fun room => by omega⟩⟩
    by_cases long : x.unitLimit < x.openUnit.length + byteAt w.bytes 17
    · have ran : exec (.feed e) s = done s (((s.touchSpans c w).setStream w.ctx (byteAt w.bytes 16)
          (some { x with openUnit := [], rtpStamp := none })).ieEnd c w 0 0x4707 0) :=
        congrArg (done s) ((runIe_open run open_ _).trans ((if_neg kind).trans ((if_neg full).trans (if_pos long))))
      obtain ⟨t, goes, ends, put⟩ := goes_putStream (w := w) touched wf c (byteAt w.bytes 16)
        (some { x with openUnit := [], rtpStamp := none }) 0 0x4707 0
      exact ⟨t, ran.trans goes, fun no => absurd no kind, fun _ => ⟨fun big => absurd big full,
        fun _ _ => ⟨ends, congrArg (Option.map (·.openUnit)) put⟩, fun _ short => by omega⟩⟩
    · let fed := x.fed ((w.bytes.drop 20).take (byteAt w.bytes 17)) (byteAt w.bytes 17) (s.touchSpans c w).now
        ((byteAt w.bytes 18).testBit 0)
      have ran : exec (.feed e) s = done s (((s.touchSpans c w).setStream w.ctx (byteAt w.bytes 16) (some fed)).ieEnd c w 1 0 0) :=
        congrArg (done s) ((runIe_open run open_ _).trans ((if_neg kind).trans ((if_neg full).trans (if_neg long))))
      obtain ⟨t, goes, ends, put⟩ := goes_putStream (w := w) touched wf c (byteAt w.bytes 16) (some fed) 1 0 0
      refine ⟨t, ran.trans goes, fun no => absurd no kind, fun _ => ⟨fun big => absurd big full,
        fun _ big => absurd big long, fun _ _ => ⟨ends, fun more => ?_, fun last => ?_⟩⟩⟩
      · rw [put]
        unfold fed
        rw [more]
        exact congrArg some (fed_more _ _ _)
      · rw [put]
        unfold fed
        rw [last]
        exact congrArg some (fed_last _ _ _)
  · have agrees (h : ∀ r ∈ (List.range (byteAt w.bytes 17)).map (fun k => (w.bytes.drop (32 + 8 * k)).take 8),
        (byteAt r 2 == 5) = (x.kind == 3)) : (((List.range (byteAt w.bytes 17)).map fun k => (w.bytes.drop (32 + 8 * k)).take 8).all
          fun r => (byteAt r 2 == 5) == (x.kind == 3)) = true := List.all_eq_true.2 fun r mem => beq_iff_eq.2 (h r mem)
    by_cases ok : (((List.range (byteAt w.bytes 17)).map fun k => (w.bytes.drop (32 + 8 * k)).take 8).all
        fun r => (byteAt r 2 == 5) == (x.kind == 3)) = true
    · let y := { x with recipe := (List.range (byteAt w.bytes 17)).map fun k => (w.bytes.drop (32 + 8 * k)).take 8,
                        seed := BitVec.ofNat 64 (fieldAt w.bytes 24 8) }
      have ran : exec (.augSet e) s = done s (((s.touchSpans c w).setStream w.ctx (byteAt w.bytes 16) (some y)).ieEnd c w 1 0 0) :=
        congrArg (done s) ((runIe_open run open_ _).trans (if_neg (by rw [ok]; decide)))
      obtain ⟨t, goes, ends, put⟩ := goes_putStream (w := w) (Only.touchSpans c w s) wf c (byteAt w.bytes 16) (some y) 1 0 0
      refine ⟨t, ran.trans goes, fun ⟨r, mem, other⟩ => ?_, fun _ => ⟨ends, congrArg (Option.map fun y => (y.recipe, y.seed)) put⟩⟩
      exact absurd (beq_iff_eq.1 (List.all_eq_true.1 ok r mem)) other
    · have ran : exec (.augSet e) s = done s ((s.touchSpans c w).ieEnd c w 0 0x4708 0) :=
        congrArg (done s) ((runIe_open run open_ _).trans (if_pos (by rw [Bool.not_eq_true] at ok; rw [ok]; rfl)))
      obtain ⟨t, goes, ends⟩ := goes_refusal (s := s) (w := w) c 0x4708 0
      exact ⟨t, ran.trans goes, fun _ => ends, fun h => absurd (agrees h) ok⟩
  · rw [ieTake_decode cls op open_, begin_ordered idle ordered]

end

section
/-! PROOF. The picture store's counts of corrected words: only its own accesses change them (13 R268; 08 R163). -/

namespace Sys2Proof.Machine

set_option Elab.async false

variable {s t u : State} {ps : List Part} {w : Waybill} {c : CtxInfo} {m : Mem} {who : Option Nat}

/-- The picture store's counts stand as before. -/
def SameTally (s t : State) : Prop := t.mem.picCorr = s.mem.picCorr

theorem SameTally.refl (s : State) : SameTally s s := rfl

theorem SameTally.trans (h : SameTally s t) (k : SameTally t u) : SameTally s u := Eq.trans k h

theorem sameTally_of_only (h : Only ps s t) (mem : Part.mem ∉ ps := by decide) : SameTally s t :=
  congrArg MemSt.picCorr (h.2 .mem mem)

theorem SameTally.ite {p : Prop} [Decidable p] (h : p → SameTally s t) (k : ¬ p → SameTally s u) :
    SameTally s (if p then t else u) := by
  split
  · exact h ‹_›
  · exact k ‹_›

theorem SameTally.foldl {α : Type} {f : State → α → State} (h : ∀ t a, SameTally t (f t a)) (l : List α) :
    ∀ s, SameTally s (l.foldl f s) := by
  induction l with
  | nil => exact SameTally.refl
  | cons a l ih => exact fun s => (h s a).trans (ih _)

theorem SameTally.foldl_snd {α β : Type} {f : α × State → β → α × State} (h : ∀ x b, SameTally x.2 (f x b).2) (l : List β) :
    ∀ x, SameTally x.2 (l.foldl f x).2 := by
  induction l with
  | nil => exact fun x => SameTally.refl x.2
  | cons b l ih => exact fun x => (h x b).trans (ih _)

/-! ### Words and ranges -/

theorem sameTally_setSpace (m : Mem) (x : MemSpace) (s : State) : SameTally s (s.setSpace m x) := by cases m <;> rfl

theorem sameTally_setMark (m : Mem) (a : Nat) (e : Ecc) (s : State) : SameTally s (s.setMark m a e) := sameTally_setSpace _ _ _

theorem sameTally_reMark (m : Mem) (a : Nat) (b : Bool) (s : State) : SameTally s (s.reMark m a b) := by
  have drawn (t : State) : SameTally t t.draw.2 := rfl
  have word (a v : Nat) (t : State) : SameTally t (t.setWord m a v) := sameTally_setSpace _ _ _
  unfold State.reMark
  refine SameTally.ite (fun _ => sameTally_setMark _ _ _ s) fun _ => SameTally.ite (fun _ => sameTally_setMark _ _ _ s) fun _ => ?_
  refine (drawn s).trans (SameTally.ite (fun _ => sameTally_setMark _ _ _ _) fun _ => ?_)
  exact (sameTally_setMark m a _ _).trans (SameTally.ite (fun _ => (drawn _).trans (word _ _ _)) fun _ => SameTally.refl _)

theorem sameTally_memUe (m : Mem) (a : Nat) (s : State) : SameTally s (s.memUe m a) := by
  have first : SameTally s (if m = .lp then { s with mem := { s.mem with lpUe := add64 s.mem.lpUe 1 } }
      else { s with mem := { s.mem with swUe := add64 s.mem.swUe 1 } }) := SameTally.ite (fun _ => rfl) fun _ => rfl
  unfold State.memUe
  refine SameTally.ite (fun _ => ?_) fun _ => ?_
  · exact (sameTally_of_only (Only.draw s)).trans (sameTally_of_only (Only.post _ _ _ _))
  · exact first.trans ((sameTally_of_only (Only.record _ _ _ _ _)).trans (sameTally_of_only (Only.post _ _ _ _)))

theorem sameTally_memCorr (other : m ≠ .pic) (who : Option Nat) (a : Nat) (s : State) : SameTally s (s.memCorr m who a) := by
  have first : SameTally s (if m = .lp then { s with mem := { s.mem with lpCorr := add64 s.mem.lpCorr 1 } }
      else { s with mem := { s.mem with swCorr := add64 s.mem.swCorr 1 } }) := SameTally.ite (fun _ => rfl) fun _ => rfl
  unfold State.memCorr
  rw [if_neg other]
  cases who with
  | none => exact first
  | some k => exact first.trans (sameTally_of_only (Only.count k 22 1 _))

theorem sameTally_readWord (other : m ≠ .pic) (who : Option Nat) (a : Nat) (s : State) :
    SameTally s (s.readWord m who a).2 := by
  unfold State.readWord
  dsimp only
  split
  · exact SameTally.refl s
  · exact (sameTally_reMark m a false s).trans (sameTally_memCorr other who _ _)
  · exact (sameTally_reMark m a true s).trans (sameTally_memUe m _ _)
  · exact SameTally.refl s

theorem sameTally_readWords (other : m ≠ .pic) (who : Option Nat) (l : List Nat) :
    ∀ s x, SameTally s (State.readWords m who l s x).2 := by
  induction l with
  | nil => exact fun s _ => SameTally.refl s
  | cons a l ih => exact fun s x => (sameTally_readWord other who a s).trans (ih _ _)

theorem sameTally_partialWord (other : m ≠ .pic) (who : Option Nat) (b : Bool) (a : Nat) (s : State) :
    SameTally s (s.partialWord m who b a).2 := by
  unfold State.partialWord
  split
  · exact SameTally.ite (fun _ => sameTally_reMark m a true s) fun _ => SameTally.refl s
  · exact (sameTally_reMark m a b s).trans (sameTally_memCorr other who _ _)
  · exact (sameTally_reMark m a true s).trans (sameTally_memUe m _ _)
  · exact SameTally.refl s

theorem sameTally_cleanRange (m : Mem) (a n : Nat) (s : State) : SameTally s (s.cleanRange m a n) :=
  (sameTally_setSpace m _ s).trans (SameTally.foldl (fun t (h : Nat × Nat) => sameTally_reMark m h.1 false t) _ _)

theorem sameTally_zeroDone (s : State) : SameTally s s.zeroDone := by
  have owed : SameTally s { s with mem := { s.mem with zeroOwed := false } } := rfl
  unfold State.zeroDone
  exact SameTally.ite (fun _ => owed.trans (sameTally_of_only (Only.post _ _ _ _))) fun _ => SameTally.refl s

theorem sameTally_markPending (gs : List Nat) (s : State) : SameTally s (s.markPending gs) := sameTally_zeroDone _

theorem sameTally_zeroGranule (g : Nat) (s : State) : SameTally s (s.zeroGranule g) := by
  have zeroed : SameTally s (s.zeroRange .lp (g * granule) granule) :=
    (sameTally_setSpace .lp _ s).trans (sameTally_cleanRange _ _ _ _)
  exact zeroed.trans (sameTally_zeroDone _)

theorem sameTally_touch (m : Mem) (a n : Nat) (s : State) : SameTally s (s.touch m a n) := by
  unfold State.touch
  exact SameTally.ite (fun _ => SameTally.refl s) fun _ => SameTally.foldl (fun t g => sameTally_zeroGranule g t) _ s

theorem sameTally_writeMem (other : m ≠ .pic) (who : Option Nat) (b : Bool) (a : Nat) (bs : List Byte) (s : State) :
    SameTally s (s.writeMem m who b a bs).2 := by
  have parts := SameTally.foldl_snd (f := fun (acc : Option Nat × State) w =>
      (acc.1.or (if (acc.2.partialWord m who b w).1 then some (w * 8) else none), (acc.2.partialWord m who b w).2))
    (fun x w => sameTally_partialWord other who b w x.2) (partialWords a bs.length) (none, s.touch m a bs.length)
  have whole (x : MemSpace) := ((sameTally_touch m a bs.length s).trans parts).trans
    ((sameTally_setSpace m x _).trans (sameTally_cleanRange m a bs.length _))
  unfold State.writeMem
  exact SameTally.ite (fun _ => (whole _).trans (SameTally.foldl (fun t w => sameTally_reMark m w true t) _ _)) fun _ => whole _

theorem sameTally_setTags (who : Option Nat) (epoch a n : Nat) (s : State) : SameTally s (s.setTags who epoch a n) := by
  unfold State.setTags
  exact SameTally.ite (fun _ => SameTally.refl s) fun _ =>
    SameTally.foldl (fun t _ => sameTally_writeMem (by decide) who false _ _ t) _ s

theorem sameTally_writeDev (who : Option Nat) (a : Nat) (bs : List Byte) (s : State) : SameTally s (s.writeDev who a bs) := by
  unfold State.writeDev
  split
  · exact SameTally.foldl (fun t (p : Nat × List Byte) => SameTally.ite (fun _ => SameTally.refl t) fun _ =>
      sameTally_writeMem (by decide) who false p.1 p.2 t) _ s
  · exact rfl
  · exact SameTally.refl s

/-! ### Runs -/

theorem OpMem.mem_ne_pic (m : OpMem) : m.mem ≠ .pic := by cases m <;> decide

theorem sameTally_checkTags (k : RunCtx) (r : Rd) (p : Run × State) : SameTally p.2 (State.checkTags k r p).2 := by
  unfold State.checkTags
  refine SameTally.foldl_snd (fun x l => ?_) _ p
  have read := sameTally_readWord (m := .tag) (by decide) (some k.ctx) (l / 8) x.2
  dsimp only
  split <;> exact read

theorem sameTally_runRead (k : RunCtx) (p : Run × State) (r : Rd) : SameTally p.2 (State.runRead k p r).2 := by
  obtain ⟨x, s⟩ := p
  by_cases len : r.len = 0
  · rw [runRead_nothing x s (.inl len)]
    exact SameTally.refl s
  rcases r.mem.device_or with mem | mem | mem
  · rw [runRead_nothing x s (.inr mem)]
    exact SameTally.refl s
  · exact sameTally_of_only (runRead_host x s mem).2
  · have touched : SameTally s (r.touched s) := SameTally.foldl (fun t (q : Nat × Nat) => sameTally_touch _ _ _ t) r.runs s
    have read : SameTally s (s.deviceRead k r x).2 := (touched.trans (sameTally_readWords r.mem.mem_ne_pic _ _ _ _)).trans
      (sameTally_of_only (Only.countRead k r _ _))
    rw [runRead_device x s mem len]
    split
    · exact read.trans (sameTally_checkTags k r _)
    · exact read

theorem sameTally_runWrite (k : RunCtx) (force : Bool) (p : Run × State) (wr : Wr) :
    SameTally p.2 (State.runWrite k force p wr).2 := by
  obtain ⟨x, s⟩ := p
  unfold State.runWrite
  dsimp only
  split
  · exact SameTally.refl s
  split
  · exact SameTally.refl s
  · have written (b : Bool) : SameTally s (s.writeHost b wr.addr wr.bytes) := rfl
    exact (written _).trans ((sameTally_of_only (Only.hostReq _ _ _ _ _)).trans (sameTally_of_only (Only.count _ _ _ _)))
  · refine SameTally.trans ?_ (sameTally_of_only (Only.count _ _ _ _))
    have written := sameTally_writeMem wr.mem.mem_ne_pic (some k.ctx) (x.bad || x.hostBad || force) wr.addr wr.bytes s
    exact SameTally.ite (fun _ => written.trans (sameTally_setTags _ _ _ _ _)) fun _ => written

theorem sameTally_runSteps (k : RunCtx) (from_ : Option Nat) (l : List EngStep) : ∀ (n : Nat) (p : Run × State),
    SameTally p.2 (State.runSteps k from_ n l p).2.2 := by
  have one (force : Bool) (p : Run × State) (t : EngStep) : SameTally p.2 (State.runStep k force p t).2 :=
    (SameTally.foldl_snd (sameTally_runRead k) t.reads p).trans (SameTally.foldl_snd (sameTally_runWrite k force) t.writes _)
  induction l with
  | nil => exact fun _ p => SameTally.refl p.2
  | cons t l ih =>
    intro n p
    unfold State.runSteps
    split
    · exact SameTally.refl p.2
    · exact (one _ p t).trans (ih _ _)

/-! ### Completions -/

theorem sameTally_deliver (c q : Nat) (bs : List Byte) (s : State) : SameTally s (s.deliver c q bs) := by
  have record (i : QueueInfo) : SameTally s (s.writeRecord i bs) := by
    have ring (a b d x y : Nat) (g : QueueSt → QueueSt) :=
      ((sameTally_writeDev (some i.ctx) a bs s).trans (sameTally_of_only (Only.count i.ctx 1 1 _))).trans
        ((sameTally_of_only (Only.count b x y _)).trans (sameTally_of_only (Only.modQueue d i.queue g _)))
    unfold State.writeRecord
    exact SameTally.ite (fun _ => (ring _ _ _ _ _ _).trans (sameTally_of_only (Only.signal _ _ _))) fun _ => ring _ _ _ _ _ _
  unfold State.deliver
  split
  · exact SameTally.refl s
  · exact SameTally.ite (fun _ => sameTally_of_only (Only.modQueue _ _ _ s)) fun _ => record _

theorem sameTally_poolFailed (w : Waybill) (status : Nat) (s : State) : SameTally s (s.poolFailed w status) := by
  have removed (f : Pool → Bool) : SameTally s (s.unregister f) :=
    SameTally.trans (t := { s with pools := s.pools.filter fun p => !f p }) rfl
      (SameTally.foldl (fun t (p : Pool) => sameTally_markPending p.granules t) _ _)
  unfold State.poolFailed
  split
  · exact SameTally.refl s
  · exact SameTally.ite (fun _ => (removed _).trans (sameTally_of_only (Only.ofSched _ _))) fun _ => SameTally.refl s

theorem sameTally_finish (w : Waybill) (status detail : Nat) (f : DoneFlags) (b : Bool) (s : State) :
    SameTally s (s.finish w status detail f b) :=
  (sameTally_poolFailed w status s).trans ((sameTally_of_only (Only.setOutcomes w _ _)).trans
    ((sameTally_of_only (Only.ofSched _ _)).trans ((sameTally_of_only (Only.countDone _ _ _ _ _ _)).trans
      (sameTally_deliver _ _ _ _))))

theorem sameTally_settle (n : Nat) : ∀ s : State, SameTally s (s.settle n) := by
  induction n with
  | zero => exact SameTally.refl
  | succ n ih =>
    intro s
    unfold State.settle
    split
    · exact SameTally.refl s
    · exact SameTally.ite (fun _ => (sameTally_finish _ _ _ _ _ s).trans (ih _)) fun _ =>
        SameTally.ite (fun _ => (sameTally_finish _ _ _ _ _ s).trans (ih _)) fun _ =>
          (sameTally_of_only (Only.ofSched s _)).trans (ih _)

theorem sameTally_ieWrite (c : CtxInfo) (w : Waybill) (outs : List (Opnd × List Byte)) (steps status detail : Nat) (s : State) :
    SameTally s (s.ieWrite c w outs steps status detail) :=
  ((sameTally_runSteps _ _ _ _ _).trans (sameTally_of_only (Only.count _ _ _ _))).trans
    ((sameTally_finish w _ _ _ _ _).trans (sameTally_settle _ _))

end Sys2Proof.Machine
end

section
/-! PROOF. Decoded pictures and what comes of a unit (13 R267 to R269, R277). -/

namespace Sys2Proof.Machine

set_option Elab.async false

variable {s t u : State} {x y : Stream} {k : Nat}

/-! ### Bit upsets of the frame stores -/

theorem Only.upset (key : Nat) (a : StoreUpset) (s : State) : Only [.mem] s (s.upset key a) := by
  unfold State.upset
  dsimp only
  split
  · exact Only.setMark _ _ _ s
  · exact Only.setMark _ _ _ s
  · exact Only.refl _ s
  · exact Only.refl _ s

theorem Only.upsets (key : Nat) (l : List StoreUpset) (s : State) : Only [.mem] s (l.foldl (fun t a => t.upset key a) s) :=
  Only.foldl _ (fun t a => Only.upset key a t) l s

theorem upset_spec (key : Nat) (a : StoreUpset) (s : State) :
    let w := key * (storeSpan / 8) + a.word % (storeSpan / 8)
    (s.mem.pic.marks.get Ecc.clean w = .clean →
      (s.upset key a).mem.pic.marks.get Ecc.clean w = (if a.double then .ue else .corr)) ∧
    (s.mem.pic.marks.get Ecc.clean w = .corr → (s.upset key a).mem.pic.marks.get Ecc.clean w = .ue) ∧
    (s.upset key a).mem.pic.cells = s.mem.pic.cells := by
  have marked (w : Nat) (e : Ecc) (bad : e ≠ .clean) : (s.setMark .pic w e).mem.pic.marks.get Ecc.clean w = e :=
    Map.get_set_self _ _ _ _ bad
  dsimp only
  refine ⟨fun clean => ?_, fun corr => ?_, ?_⟩
  · unfold State.upset
    simp only [clean]
    exact marked _ _ (by split <;> decide)
  · unfold State.upset
    simp only [corr]
    exact marked _ _ (by decide)
  · unfold State.upset
    dsimp only
    split <;> rfl

/-! ### The decoder's references -/

/-- What a decoder keeps of a stream while it reads references: the units, their history and the ordinals. -/
def Stream.core (x : Stream) : List (List Byte × Nat × Bool) × List (List Byte) × Nat := (x.units, x.history, x.ordinal)

theorem core_bump (i n : Nat) (x : Stream) : (x.bump i n).core = x.core := Stream.bump_keeps Stream.core (fun _ _ => rfl) i n x

theorem core_skips (r : Nat) (l : List Picture) : ∀ x : Stream, (l.foldl (fun (z : Stream) _ => z.skip r) x).core = x.core := by
  induction l with
  | nil => exact fun _ => rfl
  | cons p l ih => exact fun x => (ih _).trans (core_bump 4 1 x)

theorem refPics_skips (r : Nat) (l : List Picture) :
    ∀ x : Stream, (l.foldl (fun (z : Stream) _ => z.skip r) x).refPics = x.refPics := by
  induction l with
  | nil => exact fun _ => rfl
  | cons p l ih => exact fun x => (ih _).trans (Stream.bump_keeps Stream.refPics (fun _ _ => rfl) 4 1 x)

/-- A picture that has turned corrupt is no reference any more, and the stream's units stay. -/
theorem spoil_spec (ord : Nat) (x : Stream) : (x.spoil ord).core = x.core ∧ (x.spoil ord).refPics ⊆ x.refPics := by
  unfold Stream.spoil
  dsimp only
  rw [core_skips, refPics_skips]
  split
  · refine ⟨core_bump 4 1 _, ?_⟩
    rw [show ∀ y : Stream, (y.skip 7).refPics = y.refPics from Stream.bump_keeps Stream.refPics (fun _ _ => rfl) 4 1]
    exact List.filter_subset_self _
  · exact ⟨rfl, List.filter_subset_self _⟩

theorem readRefs_spec (key : Nat) (l : List Nat) : ∀ p : Stream × State,
    Only memParts p.2 (State.readRefs key l p).2.2 ∧ (State.readRefs key l p).2.1.core = p.1.core := by
  induction l with
  | nil => exact fun p => ⟨Only.refl _ p.2, rfl⟩
  | cons b l ih =>
    rintro ⟨x, s⟩
    unfold State.readRefs
    split
    · exact ih (x, s)
    · next p _ =>
      have read := Only.loadPicture key x p s
      obtain ⟨only, core⟩ := ih (if (s.loadPicture key x p).1.isSome then x else x.spoil p.ordinal, (s.loadPicture key x p).2)
      refine ⟨read.trans only, core.trans ?_⟩
      dsimp only
      split
      · rfl
      · exact (spoil_spec p.ordinal x).1

/-- A reference that is not held leaves the references incomplete. -/
theorem readRefs_missing (key : Nat) (l : List Nat) : ∀ p : Stream × State,
    (∃ b ∈ l, ∀ q ∈ p.1.refPics, q.ordinal + b ≠ p.1.ordinal + 1) → (State.readRefs key l p).1 = false := by
  induction l with
  | nil => exact fun _ ⟨_, mem, _⟩ => absurd mem List.not_mem_nil
  | cons a l ih =>
    rintro ⟨x, s⟩ ⟨b, mem, lacks⟩
    unfold State.readRefs
    split
    · rfl
    · next p found =>
      rcases List.mem_cons.1 mem with rfl | mem
      · have held := List.find?_some found
        exact absurd (by simpa using held) (lacks p (List.mem_of_find?_eq_some found))
      · have rest := ih (if (s.loadPicture key x p).1.isSome then x else x.spoil p.ordinal, (s.loadPicture key x p).2) ⟨b, mem, ?_⟩
        · exact (congrArg (· && (s.loadPicture key x p).1.isSome) rest).trans (Bool.false_and _)
        · dsimp only
          split
          · exact lacks
          · obtain ⟨core, fewer⟩ := spoil_spec p.ordinal x
            have ordinal : (x.spoil p.ordinal).ordinal = x.ordinal := congrArg (·.2.2) core
            rw [ordinal]
            exact fun q held => lacks q (fewer held)

/-- A picture with a reference lacking is corrupt. -/
theorem verdict_lacking (x : Stream) (incomplete : Bool) (c : CodedPicture) : x.verdict incomplete false c ≠ 0 := by
  unfold Stream.verdict
  simp only [Bool.false_eq_true, if_false]
  repeat' split
  all_goals decide

/-! ### One unit -/

/-- A stream whose oldest unit the decoder has taken. -/
def Stream.unitTaken (u : List Byte × Nat × Bool) (rest : List (List Byte × Nat × Bool)) (c : CodedPicture) (x : Stream) : Stream :=
  { x.bump 2 (b2n u.2.2) with
    units := rest, history := x.history ++ [u.1], refPics := if c.refresh then [] else x.refPics }

/-- A stream whose decoder has found a picture. -/
def Stream.judged (r : Nat) (x : Stream) : Stream := { x with ordinal := x.ordinal + 1, broken := r != 0 }

/-- The picture that a unit makes. -/
def decodedPicture (c : CodedPicture) (ordinal stamp : Nat) : Picture :=
  { Picture.init with width := (codedSize c).1, height := (codedSize c).2, ordinal := ordinal, stamp := stamp, refresh := c.refresh }

/-- A good picture is held in a frame store, joins the delivery queue, and stays as a reference where it is one. -/
def Stream.keeps (c : CodedPicture) (q : Picture) (x : Stream) : Stream :=
  let y := (x.bump 3 1).offer q
  if c.isRef then { y with refPics := (q :: y.refPics).take y.refs } else y

theorem decodeUnit_eq (key : Nat) (u : List Byte × Nat × Bool) (rest : List (List Byte × Nat × Bool)) (x : Stream) (s : State) :
    s.decodeUnit key u rest x =
      let c := Config.decodePicture x.codec (x.history ++ [u.1])
      let z := State.readRefs key c.uses (x.unitTaken u rest c, s)
      let r := z.2.1.verdict u.2.2 z.1 c
      let y := z.2.1.judged r
      if r ≠ 0 then z.2.2.setStream (key / 16) (key % 16) (some (y.skip r))
      else
        let q := z.2.2.storePicture key y (decodedPicture c y.ordinal u.2.1) (croppedPlanes c)
        q.2.setStream (key / 16) (key % 16) (some (y.keeps c q.1)) := rfl

theorem pics_offer (p : Picture) (x : Stream) :
    (x.offer p).pics = (if x.outQ ≤ x.pics.length then x.pics.drop 1 else x.pics) ++ [p] := by
  unfold Stream.offer
  split <;> rfl

theorem core_offer (p : Picture) (x : Stream) : (x.offer p).core = x.core ∧ (x.offer p).broken = x.broken := by
  unfold Stream.offer
  split
  · exact ⟨core_bump 7 _ x, Stream.bump_keeps Stream.broken (fun _ _ => rfl) 7 _ x⟩
  · exact ⟨rfl, rfl⟩

theorem keeps_spec (c : CodedPicture) (q : Picture) (x : Stream) : (x.keeps c q).core = x.core ∧ (x.keeps c q).broken = x.broken ∧
    (x.keeps c q).pics = (if x.outQ ≤ x.pics.length then x.pics.drop 1 else x.pics) ++ [q] := by
  have both := core_offer q (x.bump 3 1)
  have pics := pics_offer q (x.bump 3 1)
  rw [core_bump, Stream.bump_keeps Stream.broken fun _ _ => rfl] at both
  rw [Stream.bump_keeps Stream.pics fun _ _ => rfl, Stream.bump_keeps Stream.outQ fun _ _ => rfl] at pics
  unfold Stream.keeps
  dsimp only
  split
  · exact ⟨both.1, both.2, pics⟩
  · exact ⟨both.1, both.2, pics⟩

/-- The verdict on a unit asks nothing of what the taking of the unit changes. -/
theorem verdict_unitTaken (u : List Byte × Nat × Bool) (rest : List (List Byte × Nat × Bool)) (c : CodedPicture) (x : Stream)
    (incomplete refs : Bool) : (x.unitTaken u rest c).verdict incomplete refs c = x.verdict incomplete refs c :=
  Stream.bump_keeps (fun y : Stream => y.verdict incomplete refs c) (fun _ _ => rfl) 2 _ x

theorem core_unitTaken (u : List Byte × Nat × Bool) (rest : List (List Byte × Nat × Bool)) (c : CodedPicture) (x : Stream) :
    (x.unitTaken u rest c).core = (rest, x.history ++ [u.1], x.ordinal) :=
  congrArg (fun n : Nat => (rest, x.history ++ [u.1], n)) (Stream.bump_keeps Stream.ordinal (fun _ _ => rfl) 2 _ x)

theorem queue_unitTaken (u : List Byte × Nat × Bool) (rest : List (List Byte × Nat × Bool)) (c : CodedPicture) (x : Stream) :
    (x.unitTaken u rest c).pics = x.pics ∧ (x.unitTaken u rest c).outQ = x.outQ :=
  ⟨Stream.bump_keeps Stream.pics (fun _ _ => rfl) 2 _ x, Stream.bump_keeps Stream.outQ (fun _ _ => rfl) 2 _ x⟩

/-- A corrupt picture is skipped with its reason. -/
theorem skip_spec (r : Nat) (x : Stream) : (x.skip r).core = x.core ∧ (x.skip r).broken = x.broken ∧ (x.skip r).pics = x.pics ∧
    (x.skip r).skipReason = r :=
  ⟨core_bump 4 1 x, Stream.bump_keeps Stream.broken (fun _ _ => rfl) 4 1 x, Stream.bump_keeps Stream.pics (fun _ _ => rfl) 4 1 x, rfl⟩

theorem setStream_key (k j : Nat) (small : j < 16) (y : Option Stream) (s : State) :
    s.setStream ((k * 16 + j) / 16) ((k * 16 + j) % 16) y = s.setStream k j y := by
  have high : (k * 16 + j) / 16 = k := by omega
  have low : (k * 16 + j) % 16 = j := by omega
  rw [high, low]

/-- What becomes of a unit that the decoder takes: it is consumed, and its picture is delivered or skipped. -/
def Stream.UnitDone (x : Stream) (unit : List Byte × Nat × Bool) (rest : List (List Byte × Nat × Bool)) (y : Stream) : Prop :=
  let c := Config.decodePicture x.codec (x.history ++ [unit.1])
  let r := x.verdict unit.2.2 true c
  y.core = (rest, x.history ++ [unit.1], x.ordinal + 1) ∧
  (c.uses = [] → r ≠ 0 → y.pics = x.pics ∧ y.broken = true ∧ y.skipReason = r) ∧
  (c.uses = [] → r = 0 → y.broken = false ∧ ∃ p : Picture,
    y.pics = (if x.outQ ≤ x.pics.length then x.pics.drop 1 else x.pics) ++ [p] ∧
    (p.width, p.height) = codedSize c ∧ p.ordinal = x.ordinal + 1 ∧ p.stamp = unit.2.1) ∧
  ((∃ b ∈ c.uses, c.refresh = true ∨ ∀ p ∈ x.refPics, p.ordinal + b ≠ x.ordinal + 1) → y.broken = true ∧ y.skipReason ≠ 0)

theorem decodeUnit_spec (k j : Nat) (small : j < 16) (unit : List Byte × Nat × Bool) (rest : List (List Byte × Nat × Bool))
    (x : Stream) (s : State) : ∃ (t : State) (y : Stream), s.decodeUnit (k * 16 + j) unit rest x = t.setStream k j (some y) ∧
      Only memParts s t ∧ x.UnitDone unit rest y := by
  have form := decodeUnit_eq (k * 16 + j) unit rest x s
  unfold Stream.UnitDone
  dsimp only at form ⊢
  generalize Config.decodePicture x.codec (x.history ++ [unit.1]) = c at form ⊢
  obtain ⟨only, core⟩ := readRefs_spec (k * 16 + j) c.uses (x.unitTaken unit rest c, s)
  have lacks := readRefs_missing (k * 16 + j) c.uses (x.unitTaken unit rest c, s)
  have whole (none : c.uses = []) : State.readRefs (k * 16 + j) c.uses (x.unitTaken unit rest c, s) =
      (true, x.unitTaken unit rest c, s) := by rw [none]; rfl
  obtain ⟨⟨refs, x2, s1⟩, read⟩ : ∃ z, State.readRefs (k * 16 + j) c.uses (x.unitTaken unit rest c, s) = z := ⟨_, rfl⟩
  rw [read] at form only core lacks whole
  dsimp only at form only core lacks
  rw [core_unitTaken] at core
  have corrupt (missing : ∃ b ∈ c.uses, c.refresh = true ∨ ∀ p ∈ x.refPics, p.ordinal + b ≠ x.ordinal + 1) :
      x2.verdict unit.2.2 refs c ≠ 0 := by
    obtain ⟨b, mem, why⟩ := missing
    rw [lacks ⟨b, mem, fun q held => ?_⟩]
    · exact verdict_lacking x2 _ c
    · rw [show (x.unitTaken unit rest c).ordinal = x.ordinal from congrArg (·.2.2) (core_unitTaken unit rest c x)]
      have held : q ∈ if c.refresh then [] else x.refPics := held
      rcases why with refresh | apart
      · rw [if_pos refresh] at held
        exact absurd held List.not_mem_nil
      · split at held
        · exact absurd held List.not_mem_nil
        · exact apart q held
  have same (none : c.uses = []) : x2.verdict unit.2.2 refs c = x.verdict unit.2.2 true c ∧ x2.pics = x.pics ∧ x2.outQ = x.outQ := by
    obtain ⟨rfl, taken⟩ := Prod.mk.inj (whole none)
    obtain ⟨rfl, _⟩ := Prod.mk.inj taken
    exact ⟨verdict_unitTaken _ _ _ _ _ _, queue_unitTaken _ _ _ _⟩
  have judged (r : Nat) : (x2.judged r).core = (rest, x.history ++ [unit.1], x.ordinal + 1) :=
    congrArg (fun z : List (List Byte × Nat × Bool) × List (List Byte) × Nat => (z.1, z.2.1, z.2.2 + 1)) core
  by_cases bad : x2.verdict unit.2.2 refs c ≠ 0
  · rw [if_pos bad, setStream_key k j small] at form
    obtain ⟨core', broken, pics, reason⟩ := skip_spec (x2.verdict unit.2.2 refs c) (x2.judged (x2.verdict unit.2.2 refs c))
    have broken : ((x2.judged (x2.verdict unit.2.2 refs c)).skip (x2.verdict unit.2.2 refs c)).broken = true :=
      broken.trans (bne_iff_ne.2 bad)
    refine ⟨s1, _, form, only, core'.trans (judged _), fun none _ => ?_, fun none good => ?_, fun _ => ⟨broken, reason ▸ bad⟩⟩
    · obtain ⟨verdict, queue, _⟩ := same none
      exact ⟨pics.trans queue, broken, reason.trans verdict⟩
    · exact absurd ((same none).1.trans good) bad
  · have good := not_not.1 bad
    rw [if_neg bad, setStream_key k j small] at form
    refine ⟨_, _, form, only.trans (Only.storePicture _ _ _ _ _), ?_⟩
    let y := x2.judged (x2.verdict unit.2.2 refs c)
    let q := (s1.storePicture (k * 16 + j) y (decodedPicture c y.ordinal unit.2.1) (croppedPlanes c)).1
    obtain ⟨core', broken, pics⟩ := keeps_spec c q y
    refine ⟨core'.trans (judged _), fun none worse => absurd ((same none).1.symm.trans good) worse, fun none _ => ⟨?_, ?_⟩,
      fun missing => absurd good (corrupt missing)⟩
    · exact broken.trans (congrArg (· != 0) good)
    · obtain ⟨_, queue, places⟩ := same none
      refine ⟨q, pics.trans ?_, rfl, congrArg (·.2.2) (judged 0), rfl⟩
      unfold y Stream.judged
      dsimp only
      rw [queue, places]

/-! ### PICTURE_DECODED -/

section
variable {ctx : Fin 256} {n : Fin 16} (open_ : s.stream ctx n = some x) (ups : List StoreUpset)
include open_

theorem exec_pictureDecoded_idle (idle : x.units = [] ∨ 2 ≤ x.kind ∨ s.stationFenced 18 = true ∨ s.active = false) :
    exec (.pictureDecoded ctx n ups) s = .next (ups.foldl (fun (t : State) a => t.upset (ctx * 16 + n) a) s) := by
  have ran : exec (.pictureDecoded ctx n ups) s = done s (ups.foldl (fun (t : State) a => t.upset (ctx * 16 + n) a) s) := by
    change execPictureDecoded ctx n ups s = _
    unfold execPictureDecoded
    rw [open_]
    dsimp only
    cases units : x.units with
    | nil => rfl
    | cons u rest =>
      dsimp only
      rw [if_pos (by simpa [units] using idle)]
  rw [ran, done_eq (Only.upsets _ ups s).1]

theorem exec_pictureDecoded {unit : List Byte × Nat × Bool} {rest : List (List Byte × Nat × Bool)}
    (units : x.units = unit :: rest) (video : x.kind < 2) (works : s.stationFenced 18 = false) (active : s.active = true) :
    exec (.pictureDecoded ctx n ups) s = done s
      ((ups.foldl (fun (t : State) a => t.upset (ctx * 16 + n) a) s).decodeUnit (ctx * 16 + n) unit rest x) := by
  change execPictureDecoded ctx n ups s = _
  unfold execPictureDecoded
  rw [open_]
  dsimp only
  rw [units]
  dsimp only
  rw [if_neg (by simp [works, active, video])]

/-- The background decoder consumes the oldest unit of a stream. -/
theorem goes_pictureDecoded (wf : Map.wf none s.intake.streams = true) {unit : List Byte × Nat × Bool}
    {rest : List (List Byte × Nat × Bool)} (units : x.units = unit :: rest) (video : x.kind < 2)
    (works : s.stationFenced 18 = false) (active : s.active = true) : Goes (exec (.pictureDecoded ctx n ups) s) fun t =>
      ∃ y : Stream, t.stream ctx n = some y ∧ Only (.intake :: memParts) s t ∧ x.UnitDone unit rest y := by
  obtain ⟨t, y, form, only, spec⟩ := decodeUnit_spec ctx n n.isLt unit rest x
    (ups.foldl (fun (t : State) a => t.upset (ctx * 16 + n) a) s)
  have stored : Only memParts s t := ((Only.upsets _ ups s).mono (by decide)).trans only
  have whole : Only (.intake :: memParts) s (t.setStream ctx n (some y)) :=
    (stored.mono (by decide)).trans ((Only.setStream _ _ _ _).mono (by decide))
  rw [exec_pictureDecoded open_ ups units video works active, form]
  exact goes_done whole ⟨y, stream_setStream (streams_of_only stored wf) _ _ _, whole, spec⟩

end

end Sys2Proof.Machine
end

section
/-! PROOF. Dictionaries, tokens, packed rows and stream counters (13 sections 13.5 to 13.7). -/

namespace Sys2Proof.Machine

set_option Elab.async false

variable {s t u : State} {w : Waybill} {c : CtxInfo} {x : Stream} {e : Fin 19}

/-! ### Dictionaries -/

/-- Strings that are all different hold no duplicate. -/
theorem firstDuplicate_none {l : List (List Byte × Nat)} (distinct : (l.map (·.1)).Nodup) : firstDuplicate l = none := by
  refine List.find?_eq_none.2 fun i mem => ?_
  have hi : i < l.length := List.mem_range.1 mem
  rw [Bool.not_eq_true, List.any_eq_false]
  intro p held same
  obtain ⟨j, hj, rfl⟩ := List.mem_take_iff_getElem.1 held
  have before : j < i := (lt_min_iff.1 hj).1
  rw [beq_iff_eq, List.getD_eq_getElem _ _ hi] at same
  have equal : (l.map (·.1))[j]'(by simp; omega) = (l.map (·.1))[i]'(by simpa using hi) := by simpa using same
  exact absurd ((List.Nodup.getElem_inj_iff distinct).1 equal) (by omega)

theorem ieTake_dict (cls : w.wclass = 4) (op : w.opcode = 0x506) (fresh : s.dict w.ctx (byteAt w.bytes 16) = none) :
    s.ieTake w = if 4 ≤ s.intake.dicts.length then (0x4702, s)
      else (1, s.setDict w.ctx (byteAt w.bytes 16) (some Dict.init)) := by
  unfold State.ieTake
  rw [if_neg (not_not.2 cls), if_neg (by rw [op]; decide), if_pos op]
  dsimp only
  rw [fresh]
  rfl

theorem dicts_of_only {ps : List Part} (h : Only ps s t) (wf : Map.wf none s.intake.dicts = true)
    (intake : Part.intake ∉ ps := by decide) : Map.wf none t.intake.dicts = true := by
  have same : t.intake = s.intake := h.2 .intake intake
  exact same ▸ wf

/-- A completion that changes no stream and no dictionary. -/
theorem goes_ieEnd_same (c : CtxInfo) (steps status detail : Nat) :
    Goes (done s ((s.touchSpans c w).ieEnd c w steps status detail)) fun v => (steps = 0 → Ends w status detail (s.touchSpans c w) v) ∧
      (∃ u, Ends w status detail u v) ∧ v.intake = s.intake ∧ Only (.intake :: doneParts) s v := by
  obtain ⟨v, goes, refused, ends, only, whole⟩ := goes_ieEnd (w := w) (Only.touchedSpans c w s) c steps status detail
  have still := ((Only.touchSpans c w s).mono (qs := doneParts) (by decide)).trans only
  exact ⟨v, goes, refused, ends, still.get .intake, whole⟩

/-- A dictionary that has been put, once the waybill that put it has completed. -/
theorem goes_putDict (wf : Map.wf none s.intake.dicts = true) (c : CtxInfo) (n : Nat) (d : Option Dict) (steps status detail : Nat) :
    Goes (done s (((s.touchSpans c w).setDict w.ctx n d).ieEnd c w steps status detail)) fun v =>
      (∃ u, Ends w status detail u v) ∧ v.dict w.ctx n = d ∧ Only (.intake :: doneParts) s v := by
  obtain ⟨v, goes, _, ends, only, whole⟩ := goes_ieEnd (w := w)
    ((Only.touchedSpans c w s).trans ((Only.setDict w.ctx n d _).mono (by decide))) c steps status detail
  refine ⟨v, goes, ends, (dict_of_only only _ _).trans (dict_setDict ?_ _ _ _), whole⟩
  exact dicts_of_only (Only.touchSpans c w s) wf

/-- The dictionary that a DICT_LOAD adds its records to. -/
def State.loadedDict (w : Waybill) (s : State) : Dict :=
  if (byteAt w.bytes 18).testBit 0 then Dict.init else (s.dict w.ctx (byteAt w.bytes 16)).getD Dict.init

/-- The entries of a dictionary with a DICT_LOAD's records after them. -/
def Dict.withRecords (w : Waybill) (d : Dict) : List (List Byte × Nat) := d.entries ++ (dictRecords w (byteAt w.bytes 17) 20).1

/-- More entries or bytes than a dictionary holds (13 R273). -/
def TooLong (l : List (List Byte × Nat)) : Prop := 262144 < l.length ∨ 2097152 < (l.map fun p => p.1.length).sum

section
variable (run : Runs e 4 0x506 w c s)
include run

theorem exec_dictLoad_noRoom (none : w.intake = 0x4702) :
    exec (.dictLoad e) s = done s ((s.touchSpans c w).ieEnd c w 0 0x4702 0) :=
  congrArg (done s) ((runOn_eq run _).trans (if_pos none))

theorem exec_dictLoad_sealed (room : w.intake ≠ 0x4702) (isSealed : (s.loadedDict w).isSealed = true) :
    exec (.dictLoad e) s = done s ((s.touchSpans c w).ieEnd c w 0 0x4704 0) := by
  refine congrArg (done s) ((runOn_eq run _).trans ((if_neg room).trans ?_))
  rw [dict_touchSpans]
  exact if_pos isSealed

theorem exec_dictLoad_long (room : w.intake ≠ 0x4702) (isOpen : ¬ (s.loadedDict w).isSealed = true)
    (long : TooLong ((s.loadedDict w).withRecords w)) : exec (.dictLoad e) s = done s
      ((if w.intake = 1 then (s.touchSpans c w).setDict w.ctx (byteAt w.bytes 16) none else s.touchSpans c w).ieEnd c w 0 0x4706 0) := by
  refine congrArg (done s) ((runOn_eq run _).trans ((if_neg room).trans ?_))
  rw [dict_touchSpans]
  exact (if_neg isOpen).trans (if_pos long)

theorem exec_dictLoad_fits (room : w.intake ≠ 0x4702) (isOpen : ¬ (s.loadedDict w).isSealed = true)
    (short : ¬ TooLong ((s.loadedDict w).withRecords w)) : exec (.dictLoad e) s = done s
      (((s.touchSpans c w).setDict w.ctx (byteAt w.bytes 16)
        (some { s.loadedDict w with entries := (s.loadedDict w).withRecords w })).ieEnd c w 1 0 0) := by
  refine congrArg (done s) ((runOn_eq run _).trans ((if_neg room).trans ?_))
  rw [dict_touchSpans]
  exact (if_neg isOpen).trans (if_neg short)

/-- DICT_LOAD takes all of its records or none (13 R273). -/
theorem goes_dictLoad (wf : Map.wf none s.intake.dicts = true) : Goes (exec (.dictLoad e) s) fun t =>
    Only (.intake :: doneParts) s t ∧
    (w.intake = 0x4702 → Ends w 0x4702 0 (s.touchSpans c w) t ∧ t.intake = s.intake) ∧
    (w.intake ≠ 0x4702 →
      ((s.loadedDict w).isSealed = true → Ends w 0x4704 0 (s.touchSpans c w) t ∧ t.intake = s.intake) ∧
      (¬ (s.loadedDict w).isSealed = true → TooLong ((s.loadedDict w).withRecords w) → (∃ v, Ends w 0x4706 0 v t) ∧
        t.dict w.ctx (byteAt w.bytes 16) = if w.intake = 1 then none else s.dict w.ctx (byteAt w.bytes 16)) ∧
      (¬ (s.loadedDict w).isSealed = true → ¬ TooLong ((s.loadedDict w).withRecords w) → (∃ v, Ends w 0 0 v t) ∧
        t.dict w.ctx (byteAt w.bytes 16) = some { s.loadedDict w with entries := (s.loadedDict w).withRecords w })) := by
  by_cases none : w.intake = 0x4702
  · obtain ⟨t, goes, refused, _, same, whole⟩ := goes_ieEnd_same (s := s) (w := w) c 0 0x4702 0
    exact ⟨t, (exec_dictLoad_noRoom run none).trans goes, whole, fun _ => ⟨refused rfl, same⟩, fun room => absurd none room⟩
  by_cases isSealed : (s.loadedDict w).isSealed = true
  · obtain ⟨t, goes, refused, _, same, whole⟩ := goes_ieEnd_same (s := s) (w := w) c 0 0x4704 0
    exact ⟨t, (exec_dictLoad_sealed run none isSealed).trans goes, whole, fun no => absurd no none,
      fun _ => ⟨fun _ => ⟨refused rfl, same⟩, fun open_ => absurd isSealed open_, fun open_ => absurd isSealed open_⟩⟩
  by_cases long : TooLong ((s.loadedDict w).withRecords w)
  · have ran := exec_dictLoad_long run none isSealed long
    by_cases made : w.intake = 1
    · rw [if_pos made] at ran ⊢
      obtain ⟨t, goes, ends, put, whole⟩ := goes_putDict (w := w) wf c (byteAt w.bytes 16) Option.none 0 0x4706 0
      exact ⟨t, ran.trans goes, whole, fun no => absurd no none,
        fun _ => ⟨fun no => absurd no isSealed, fun _ _ => ⟨ends, put⟩, fun _ short => absurd long short⟩⟩
    · rw [if_neg made] at ran ⊢
      obtain ⟨t, goes, _, ends, same, whole⟩ := goes_ieEnd_same (s := s) (w := w) c 0 0x4706 0
      exact ⟨t, ran.trans goes, whole, fun no => absurd no none, fun _ => ⟨fun no => absurd no isSealed,
        fun _ _ => ⟨ends, congrArg (fun k : IntakeSt => k.dicts.get Option.none (w.ctx * 4 + byteAt w.bytes 16)) same⟩,
        fun _ short => absurd long short⟩⟩
  · obtain ⟨t, goes, ends, put, whole⟩ := goes_putDict (w := w) wf c (byteAt w.bytes 16)
      (some { s.loadedDict w with entries := (s.loadedDict w).withRecords w }) 1 0 0
    exact ⟨t, (exec_dictLoad_fits run none isSealed long).trans goes, whole, fun no => absurd no none,
      fun _ => ⟨fun no => absurd no isSealed, fun _ big => absurd big long, fun _ _ => ⟨ends, put⟩⟩⟩

end

/-- A dictionary with the IDs that its seal fixes (13 R274). -/
def Dict.withSeal (w : Waybill) (d : Dict) : Dict :=
  { d with isSealed := true, byteBase := fieldAt w.bytes 20 3, padId := fieldAt w.bytes 24 3 }

section
variable (run : Runs e 4 0x507 w c s)
include run

theorem exec_dictSeal : exec (.dictSeal e) s = done s (match s.dict w.ctx (byteAt w.bytes 16) with
    | none => (s.touchSpans c w).ieEnd c w 0 0x4704 0
    | some d => if d.isSealed then (s.touchSpans c w).ieEnd c w 0 0x4704 0 else match firstDuplicate d.entries with
      | some i => (s.touchSpans c w).ieEnd c w (max 1 ((d.entries.length + 63) / 64)) 0x4705 i
      | none => ((s.touchSpans c w).setDict w.ctx (byteAt w.bytes 16) (some (d.withSeal w))).ieEnd c w
          (max 1 ((d.entries.length + 63) / 64)) 0 0) := by
  refine congrArg (done s) ((runOn_eq run _).trans ?_)
  dsimp only
  rw [dict_touchSpans]
  rfl

theorem goes_dictSeal (wf : Map.wf none s.intake.dicts = true) : Goes (exec (.dictSeal e) s) fun t =>
    Only (.intake :: doneParts) s t ∧ (s.dict w.ctx (byteAt w.bytes 16) = none → Ends w 0x4704 0 (s.touchSpans c w) t) ∧
    ∀ d, s.dict w.ctx (byteAt w.bytes 16) = some d →
      (d.isSealed = true → Ends w 0x4704 0 (s.touchSpans c w) t) ∧
      (∀ i, d.isSealed = false → firstDuplicate d.entries = some i → (∃ v, Ends w 0x4705 i v t) ∧ t.intake = s.intake) ∧
      (d.isSealed = false → (d.entries.map (·.1)).Nodup → (∃ v, Ends w 0 0 v t) ∧
        t.dict w.ctx (byteAt w.bytes 16) = some (d.withSeal w)) := by
  rw [exec_dictSeal run]
  cases found : s.dict w.ctx (byteAt w.bytes 16) with
  | none =>
    obtain ⟨t, goes, refused, _, _, whole⟩ := goes_ieEnd_same (s := s) (w := w) c 0 0x4704 0
    exact ⟨t, goes, whole, fun _ => refused rfl, fun _ some => nomatch some⟩
  | some d =>
    dsimp only
    cases isSealed : d.isSealed with
    | true =>
      obtain ⟨t, goes, refused, _, _, whole⟩ := goes_ieEnd_same (s := s) (w := w) c 0 0x4704 0
      refine ⟨t, goes, whole, nofun, fun d' same => ?_⟩
      obtain rfl := Option.some.inj same
      rw [isSealed]
      exact ⟨fun _ => refused rfl, nofun, nofun⟩
    | false =>
      rw [if_neg (by decide)]
      cases twice : firstDuplicate d.entries with
      | some i =>
        obtain ⟨t, goes, _, ends, same, whole⟩ := goes_ieEnd_same (s := s) (w := w) c (max 1 ((d.entries.length + 63) / 64)) 0x4705 i
        refine ⟨t, goes, whole, nofun, fun d' same' => ?_⟩
        obtain rfl := Option.some.inj same'
        rw [isSealed]
        refine ⟨nofun, fun j _ first => ?_, fun _ distinct => ?_⟩
        · rw [twice] at first
          obtain rfl := Option.some.inj first
          exact ⟨ends, same⟩
        · rw [firstDuplicate_none distinct] at twice
          cases twice
      | none =>
        obtain ⟨t, goes, ends, put, whole⟩ := goes_putDict (w := w) wf c (byteAt w.bytes 16) (some (d.withSeal w))
          (max 1 ((d.entries.length + 63) / 64)) 0 0
        refine ⟨t, goes, whole, nofun, fun d' same' => ?_⟩
        obtain rfl := Option.some.inj same'
        rw [isSealed, twice]
        exact ⟨nofun, nofun, fun _ _ => ⟨ends, put⟩⟩

end

end Sys2Proof.Machine
end

section
/-! PROOF. Tokens, packed rows and stream counters (13 sections 13.6 to 13.8). -/

namespace Sys2Proof.Machine

set_option Elab.async false

variable {s t u : State} {w : Waybill} {c : CtxInfo} {x : Stream} {e : Fin 19}

theorem Goes.imp {o : Host.Outcome State Fault Refusal} {p q : State → Prop} (h : Goes o p) (k : ∀ t, p t → q t) : Goes o q := by
  obtain ⟨t, goes, held⟩ := h
  exact ⟨t, goes, k t held⟩

theorem units_countTokens (made fallback masked cut : Nat) (x : Stream) :
    (x.countTokens made fallback masked cut).units = x.units :=
  (units_bump 12 _ _).trans ((units_bump 11 _ _).trans ((units_bump 10 _ _).trans (units_bump 9 _ x)))

/-! ### TOKENISE -/

section
variable (run : Runs e 4 0x508 w c s) (open_ : s.stream w.ctx (byteAt w.bytes 52) = some x)
include run open_

theorem exec_tokenise_refused (kind : x.kind ≠ 3) :
    exec (.tokenise e) s = done s ((s.touchSpans c w).ieEnd c w 0 0x4708 0) :=
  congrArg (done s) ((runIe_open run open_ _).trans (if_pos kind))

section
variable {d : Dict} (kind : x.kind = 3) (dict : s.dict w.ctx (byteAt w.bytes 53) = some d) (isSealed : d.isSealed = true)
  (plain : (byteAt w.bytes 54).testBit 1 = false)
include kind dict isSealed plain

theorem exec_tokenise_empty (units : x.units = []) :
    exec (.tokenise e) s = done s ((s.touchSpans c w).ieEnd c w 0 0x1702 0) := by
  have ran : exec (.tokenise e) s = done s _ := congrArg (done s) ((runIe_open run open_ _).trans (if_neg (not_not.2 kind)))
  simp only [dict_touchSpans, dict, Option.filter_some, isSealed, if_true, plain, Bool.false_and, Bool.false_eq_true, if_false,
    units] at ran
  exact ran

theorem exec_tokenise_unit {unit : List Byte × Nat × Bool} {rest : List (List Byte × Nat × Bool)} (units : x.units = unit :: rest) :
    ∃ made fallback masked cut outs st, exec (.tokenise e) s = done s (((s.touchSpans c w).setStream w.ctx (byteAt w.bytes 52)
      (some (({ x with units := rest } : Stream).countTokens made fallback masked cut))).ieWrite c w outs 0 st 0) := by
  have ran : exec (.tokenise e) s = done s _ := congrArg (done s) ((runIe_open run open_ _).trans (if_neg (not_not.2 kind)))
  simp only [dict_touchSpans, dict, Option.filter_some, isSealed, if_true, plain, Bool.false_and, Bool.false_eq_true, if_false,
    units] at ran
  exact ⟨_, _, _, _, _, _, ran⟩

end

end

/-! ### PACK_EMIT -/

section
variable (run : Runs e 4 0x509 w c s) (open_ : s.stream w.ctx (byteAt w.bytes 52) = some x)
include run open_

theorem exec_packEmit_refused (kind : x.kind ≠ 3) :
    exec (.packEmit e) s = done s ((s.touchSpans c w).ieEnd c w 0 0x4708 0) :=
  congrArg (done s) ((runIe_open run open_ _).trans (if_pos kind))

theorem exec_packEmit_empty (kind : x.kind = 3) (empty : x.row = []) :
    exec (.packEmit e) s = done s ((s.touchSpans c w).ieEnd c w 0 0x1702 0) :=
  congrArg (done s) ((runIe_open run open_ _).trans ((if_neg (not_not.2 kind)).trans (if_pos (by rw [empty]; rfl))))

theorem exec_packEmit_row (kind : x.kind = 3) (row : x.row ≠ [])
    (ids : ((s.touchSpans c w).operand c w 1).dim 0 = x.rowLen) (segs : ((s.touchSpans c w).operand c w 2).dim 0 = x.rowLen) :
    ∃ outs, exec (.packEmit e) s = done s (((s.touchSpans c w).setStream w.ctx (byteAt w.bytes 52)
      (some { x.bump 13 1 with row := [], segs := 0 })).ieWrite c w outs 0 0 0) :=
  ⟨_, congrArg (done s) ((runIe_open run open_ _).trans ((if_neg (not_not.2 kind)).trans ((if_neg (by simpa using row)).trans
    (if_neg (by rw [ids, segs]; simp)))))⟩

end

/-! ### STREAM_STATS -/

theorem sameTally_touchSpans (c : CtxInfo) (w : Waybill) (s : State) : SameTally s (s.touchSpans c w) :=
  SameTally.foldl (fun t _ => SameTally.ite (fun _ => SameTally.foldl (fun u g => sameTally_zeroGranule g u) _ t)
    fun _ => SameTally.refl t) _ s

/-- A stream whose counters have been read, and cleared where that is asked. -/
def State.statsTaken (w : Waybill) (x : Stream) (s : State) : State :=
  if (byteAt w.bytes 53).testBit 0 then s.clearStats w.ctx (byteAt w.bytes 52) x else s

section
variable (run : Runs e 4 0x50A w c s) (open_ : s.stream w.ctx (byteAt w.bytes 52) = some x)
include run open_

theorem exec_streamStats : ∃ outs, exec (.streamStats e) s =
    done s (((s.touchSpans c w).statsTaken w x).ieWrite c w outs 2 0 0) :=
  ⟨_, congrArg (done s) (runIe_open run open_ _)⟩

theorem goes_streamStats_clear (wf : Map.wf none s.intake.streams = true) : Goes (exec (.streamStats e) s) fun t =>
    (∃ st d v, Ends w st d v t) ∧
    t.stream w.ctx (byteAt w.bytes 52) = some (if (byteAt w.bytes 53).testBit 0 then { x with counters := [] } else x) ∧
    (Map.wf 0 s.mem.picCorr = true → (byteAt w.bytes 53).testBit 0 = true →
      t.mem.picCorr.get 0 (w.ctx * 16 + byteAt w.bytes 52) = 0) := by
  obtain ⟨outs, ran⟩ := exec_streamStats run open_
  have touched := Only.touchSpans c w s
  have taken : Only (.intake :: doneParts) s ((s.touchSpans c w).statsTaken w x) :=
    (touched.mono (by decide)).trans (Only.ite (fun _ => (Only.clearStats _ _ _ _).mono (by decide)) fun _ => Only.refl _ _)
  have tally := sameTally_ieWrite c w outs 2 0 0 ((s.touchSpans c w).statsTaken w x)
  have stored : ((s.touchSpans c w).statsTaken w x).stream w.ctx (byteAt w.bytes 52) =
      some (if (byteAt w.bytes 53).testBit 0 then { x with counters := [] } else x) := by
    unfold State.statsTaken
    split
    · exact stream_setStream (streams_of_only touched wf) _ _ _
    · exact (stream_touchSpans c w s _ _).trans open_
  rw [ran]
  obtain ⟨st, d, v, f, ended, only⟩ := ieWrite_eq c w outs 2 0 0 ((s.touchSpans c w).statsTaken w x)
  have completed := (only.mono (qs := doneParts) (by decide)).trans (Only.complete w st d f v)
  rw [ended] at tally ⊢
  refine goes_done (taken.trans (completed.mono (by decide))) ⟨⟨st, d, v, ends_complete _ _ _ _ _⟩,
    (stream_of_only completed _ _).trans stored, fun wfp clear => ?_⟩
  have counts : Map.wf 0 (s.touchSpans c w).mem.picCorr = true := (sameTally_touchSpans c w s) ▸ wfp
  refine (congrArg (fun m : Map Nat => m.get 0 (w.ctx * 16 + byteAt w.bytes 52)) tally).trans ?_
  unfold State.statsTaken
  rw [if_pos clear]
  exact (Map.get_set 0 _ _ _ _ counts).trans (if_pos rfl)

end

end Sys2Proof.Machine

open Sys2Proof Sys2Proof.Machine

/-- Settles O47: a unit by `decodeUnit_spec`, an upset by `upset_spec`, and each text operator by what it leaves of its
dictionary or stream. -/
theorem textOperatorsAct : Obligations.TextOperatorsAct := by
  unfold Obligations.TextOperatorsAct
  refine ⟨fun k j ups s x wf open_ => ⟨exec_pictureDecoded_idle open_ ups, fun unit rest units video works active => ?_⟩,
    upset_spec, fun e s w c wf wfd => ?_⟩
  · refine (goes_pictureDecoded open_ ups wf units video works active).imp fun t ⟨y, stored, only, core, corrupt, good, lacks⟩ => ?_
    exact ⟨y, stored, congrArg (·.1) core, congrArg (·.2.1) core, congrArg (·.2.2) core, only, corrupt, good, lacks⟩
  dsimp only
  refine ⟨ieTake_dict, fun run => ?_, fun run => goes_dictSeal run wfd, fun x open_ => ⟨fun run => ?_, fun run => ?_,
    fun run => goes_streamStats_clear run open_ wf⟩⟩
  · refine (goes_dictLoad run wfd).imp fun t ⟨only, noRoom, loads⟩ => ⟨only, noRoom, fun d all hd hall room => ?_⟩
    obtain rfl : d = s.loadedDict w := hd
    obtain rfl : all = (s.loadedDict w).withRecords w := hall
    obtain ⟨isSealed, long, fits⟩ := loads room
    refine ⟨isSealed, fun open_ big => long (by rw [open_]; decide) big, fun open_ short bytes => fits (by rw [open_]; decide) ?_⟩
    rintro (big | big)
    · omega
    · omega
  · by_cases kind : x.kind = 3
    · have refused (no : x.kind ≠ 3) : False := no kind
      cases dict : (s.dict w.ctx (byteAt w.bytes 53)) with
      | none =>
        obtain ⟨t, goes, _⟩ := goes_tokenise run
        exact ⟨t, goes, fun no => (refused no).elim, fun _ _ none => nomatch none⟩
      | some d =>
        by_cases usable : d.isSealed = true ∧ (byteAt w.bytes 54).testBit 1 = false
        · obtain ⟨isSealed, plain⟩ := usable
          cases units : x.units with
          | nil =>
            rw [exec_tokenise_empty run open_ kind dict isSealed plain units]
            refine (goes_refusal (s := s) (w := w) c 0x1702 0).imp fun t ends => ⟨fun no => (refused no).elim, fun d' _ _ _ _ => ?_⟩
            exact ⟨fun _ => ends, fun _ _ cons => nomatch cons⟩
          | cons unit rest =>
            obtain ⟨made, fallback, masked, cut, outs, st, ran⟩ := exec_tokenise_unit run open_ kind dict isSealed plain units
            rw [ran]
            refine (goes_putStreamWrite (w := w) (Only.touchSpans c w s) wf c (byteAt w.bytes 52) _ outs 0 st 0).imp fun t put =>
              ⟨fun no => (refused no).elim, fun d' _ _ _ _ => ⟨nofun, fun unit' rest' cons => ?_⟩⟩
            obtain ⟨rfl, rfl⟩ := List.cons.inj cons
            rw [put]
            exact congrArg some (units_countTokens _ _ _ _ _)
        · obtain ⟨t, goes, _⟩ := goes_tokenise run
          refine ⟨t, goes, fun no => (refused no).elim, fun d' _ same isSealed plain => ?_⟩
          obtain rfl := Option.some.inj same
          exact absurd ⟨isSealed, plain⟩ usable
    · rw [exec_tokenise_refused run open_ kind]
      exact (goes_refusal (s := s) (w := w) c 0x4708 0).imp fun t ends => ⟨fun _ => ends, fun _ text => absurd text kind⟩
  · by_cases kind : x.kind = 3
    · by_cases empty : x.row = []
      · rw [exec_packEmit_empty run open_ kind empty]
        exact (goes_refusal (s := s) (w := w) c 0x1702 0).imp fun t ends =>
          ⟨fun no => absurd kind no, fun _ _ => ends, fun _ row => absurd empty row⟩
      · by_cases sizes : ((s.touchSpans c w).operand c w 1).dim 0 = x.rowLen ∧ ((s.touchSpans c w).operand c w 2).dim 0 = x.rowLen
        · obtain ⟨outs, ran⟩ := exec_packEmit_row run open_ kind empty sizes.1 sizes.2
          rw [ran]
          refine (goes_putStreamWrite (w := w) (Only.touchSpans c w s) wf c (byteAt w.bytes 52) _ outs 0 0 0).imp fun t put =>
            ⟨fun no => absurd kind no, fun _ none => absurd none empty, fun _ _ _ _ => ?_⟩
          rw [put]
          rfl
        · obtain ⟨t, goes, _⟩ := goes_packEmit run
          exact ⟨t, goes, fun no => absurd kind no, fun _ none => absurd none empty,
            fun _ _ ids segs => absurd ⟨ids, segs⟩ sizes⟩
    · rw [exec_packEmit_refused run open_ kind]
      exact (goes_refusal (s := s) (w := w) c 0x4708 0).imp fun t ends =>
        ⟨fun _ => ends, fun text => absurd text kind, fun text => absurd text kind⟩

end
